-- ==== Sys2Proof/Word.lean ====
section
/-! DEFINITION. The word types of the fabric: what the manual treats as bits. -/

namespace Sys2Proof

/-- One 64-bit register word (R454). -/
abbrev Word := BitVec 64
/-- One byte. -/
abbrev Byte := BitVec 8
/-- One 64-byte beat, the payload of a flit (R82): byte k is bits [8k+7:8k]. -/
abbrev Line := BitVec 512
/-- A 48-bit byte address (R24). -/
abbrev Addr := BitVec 48
/-- The 192-bit transaction header (R87). -/
abbrev HdrBits := BitVec 192
/-- A headgate number, 0..159 (R14). -/
abbrev Hg := Fin 160
/-- A router index 10y + x (R10). -/
abbrev Rt := Fin 100
/-- A router port number (Table 1-1). -/
abbrev Port := Fin 8
/-- A home slice, 16 being the spare (R22). -/
abbrev Sl := Fin 17
/-- A Reservoir bank (R280). -/
abbrev Bank := Fin 32
/-- A mailbox (R365). -/
abbrev Mbx := Fin 32
/-- An agent power domain (R348). -/
abbrev Dom := Fin 32
/-- A context of a headgate (R29). -/
abbrev Ctx := BitVec 6
/-- A transaction tag (R47). -/
abbrev Tag := BitVec 8
/-- A packet or channel sequence number (R90). -/
abbrev Seq := BitVec 16

end Sys2Proof
end

