-- ==== Sys2Proof/Syntax.lean ====
section
/-! DEFINITION. The commands of the block: one constructor for each row of spec/opcode_table.json, with the operands the
rule of the row needs. The table gives the rows no bits. -/

namespace Sys2Proof

/-- A request as presented on REQ (Table 2-1). -/
structure Req where
  op : BitVec 8
  ctx : Ctx
  addr : Addr
  bytes : BitVec 9
  aop : BitVec 4
  secret : Bool
  deriving DecidableEq, Repr

/-- One WDATA beat (Table 2-1) or one TWDATA beat (Table 2-2). -/
structure Beat where
  data : Line
  be : BitVec 64
  poison : Bool
  deriving DecidableEq, Repr

/-- One data beat without enables: RSP, MSGIN, TRSP (Tables 2-1 and 2-2). -/
structure DBeat where
  data : Line
  poison : Bool
  deriving DecidableEq, Repr

/-- What one read of an SRAM word under the inner code finds (R25): nothing, a corrected bit, or an uncorrectable word,
which for a flit lies in the payload (or a data word) or in the control word (or a header copy), or in both header copies. -/
inductive MemErr where
  | ok
  | corrected
  | uncorrData (beat : Nat)
  | uncorrHdr
  | uncorrBothHdr
  deriving DecidableEq, Repr

/-- A WDATA beat with its WDATA_LAST (Table 2-1). -/
structure WdataBeat where
  beat : Beat
  last : Bool
  deriving DecidableEq, Repr

/-- A response of a headgate, by its place among the transactions, with what the read of its packet in the response pool finds
(R190). -/
structure RspPick where
  place : Nat
  err : MemErr
  deriving DecidableEq, Repr

/-- A source whose held packet is due, with what the read of the packet finds (R174, R190). -/
structure HeldRead where
  src : Hg
  err : MemErr
  deriving DecidableEq, Repr

/-- The receiving end of a link direction: a router input, or a headgate's end of its primary (0) or secondary (1) link. -/
inductive Rcv where
  | router (i : Rt) (p : Port)
  | headgate (n : Hg) (l : Fin 2)
  deriving DecidableEq, Repr

/-- The manager of a lock: of a lock-capable headgate (R159) or of a Reservoir bank (R290). -/
inductive LockAt where
  | headgate (n : Hg)
  | bank (b : Bank)
  deriving DecidableEq, Repr

/-- Who writes a register (Table 0-3): the Rider (and the TAP, acting as the Rider, R449), or a client, named by its source
headgate and context, with a WR or a WRP. -/
inductive Writer where
  | rider
  | client (n : Hg) (c : Ctx) (posted : Bool)
  deriving DecidableEq, Repr

/-- Why a home slice stops (R272). -/
inductive SliceFail where
  | selfCheck
  | dirLimit
  | watchdog
  deriving DecidableEq, Repr

/-- The cause of a cold reset (Table 17-1). -/
inductive ColdCause where
  | pin
  | supplyReset
  | rootLockFall
  | testEntry
  deriving DecidableEq, Repr

/-- The result of the self-test of one store (Table 17-3). -/
inductive TestFail where
  | headgateStore (n : Hg)
  | routerBuffers (i : Rt)
  | directory (s : Sl)
  | traceBank (b : Fin 8)
  | reservoirBank (b : Bank)
  | riderSram
  deriving DecidableEq, Repr

/-- One operation of the TAP's RIDER_DBG instruction (R449). -/
inductive DbgOp where
  | halt
  | stepCore
  | resume
  | readSram (a : Nat)
  | writeSram (a : Nat) (w : Word)
  | readReg (r : BitVec 8)
  | writeReg (r : BitVec 8) (w : Word)
  deriving DecidableEq, Repr

/-- The commands: one constructor for each row of spec/opcode_table.json, in the table's order. -/
inductive Instr where
  -- Headgate Agent Interface
  | reqTransfer (n : Hg) (r : Req)
  | wdataBeat (n : Hg) (b : WdataBeat)
  | wdataAbort (n : Hg)
  | acceptance (n : Hg)
  | weirRefill (n : Hg)
  | partInjection (n : Hg) (k : Nat) (err : MemErr)
  | fenceComplete (n : Hg) (c : Ctx)
  | rspTransfer (n : Hg) (k : RspPick)
  | msginTransfer (n : Hg)
  | treqPresent (n : Hg)
  | twdataTransfer (n : Hg)
  | trspReceived (n : Hg) (id : BitVec 9) (outcome : BitVec 4) (beats : List DBeat)
  | snpTransfer (n : Hg)
  | snprspItem (n : Hg) (op : BitVec 8) (txn : BitVec 16) (toReq : Bool) (state : BitVec 2) (data : Line) (last : Bool)
  | cack (n : Hg) (c : Ctx) (tag : Tag)
  | agentPortLiveFall (n : Hg)
  | agentPortLiveRise (n : Hg)
  | siphonAbsorb (n : Hg) (k : Nat)
  | pwrAckRise (n : Hg)
  | pwrAckTimeout (d : Dom)
  | aclkEnChange (n : Hg) (level : Bool)
  | wakeLimitExpiry (n : Hg)
  -- Routers and links
  | flitArrival (r : Rcv) (damage : BitVec 576) (err : MemErr)
  | outputArbitration (i : Rt) (o : Port)
  | creditReturn (r : Rcv) (damage : BitVec 6)
  | heartbeatTimer (r : Rcv)
  | heartbeatReceived (r : Rcv) (damage : BitVec 576)
  | linkSilenceTimeout (r : Rcv)
  | linkPortLiveFall (r : Rcv)
  -- Exactly-once delivery
  | packetReceived (n : Hg) (err : MemErr)
  | heldPacketCommit (n : Hg) (src : HeldRead)
  | ecmtDelayTimeout (n src : Hg)
  | ecmtReceived (n : Hg)
  | enakReceived (n : Hg)
  | credReceived (n : Hg)
  | credDelayTimeout (t src : Hg)
  | credKeepaliveTimeout (t src : Hg)
  | commitTimeout (n d : Hg)
  | replayPass (n d : Hg)
  | replayPacketInjection (n d : Hg) (err : MemErr)
  | epochAdvance (n : Hg)
  | epochDrainComplete (n : Hg)
  | replayCmdGo (n : Hg) (dest : BitVec 8) (all : Bool)
  -- Paceline
  | turnPulseIssue (sec : BitVec 48) (ns : BitVec 32)
  | timeValidChange (valid : Bool) (sec : BitVec 48) (ns : BitVec 32)
  | turnPulseArrival (badParity : BitVec 160)
  | turnMissTimeout (n : Hg)
  | entryFire (n : Hg) (e : Fin 256)
  | wheelEnd (n : Hg)
  | gdataArrival (n : Hg)
  | channelCommitReceived (n : Hg)
  -- Home slices
  | homeRequestGrant (s : Sl)
  | directoryLookupDone (s : Sl) (slot : Fin 256) (err : MemErr)
  | homeStepReserved (s : Sl) (slot : Fin 256)
  | snoopReplyReceived (s : Sl)
  | cackAtHome (s : Sl)
  | holdTimeExpiry (s : Sl) (slot : Fin 256)
  | memoryAccessDone (s : Sl)
  | homeTimeout (s : Sl) (slot : Fin 256)
  | hsSweepGo (s : Sl) (agent : BitVec 4)
  | sweepSetVisit (s : Sl)
  | sliceFailure (s : Sl) (why : SliceFail)
  | sliceWatchdogExpiry (s : Sl)
  | handoverRecord
  | censusWalkSet (readable : Bool)
  -- Reservoir and locks
  | reservoirChunkSend (p : Fin 8) (k : Nat)
  | bankArbitration (b : Bank)
  | bankBeatPerform (b : Bank) (err : MemErr)
  | bankScrub (b : Bank) (err : MemErr)
  | lockLimitTimeout (at_ : LockAt)
  -- Faults and isolation
  | targetTimeout (n : Hg) (id : Option (BitVec 9))
  | leveeTgtSet (n : Hg)
  | siphonAnswer (n : Hg)
  | isoInitSet (n : Hg)
  | remoteLeveeSet (n d : Hg)
  | pairResetGo (n : Hg) (peer : BitVec 8)
  | pairResetHold (n : Hg) (peer : BitVec 8) (hold : Bool)
  | attachUseWrite (n : Hg) (use : Bool)
  | portEnWrite (r : Rcv) (enable : Bool)
  | portClear (r : Rcv)
  | alarmCollectionWindowEnd
  | riderAlarmHandling
  | riderCommandResume
  | riderWatchdogExpiry
  | lockstepMismatch
  | riderSramUncorrectable
  | riderRestart
  | haltedMailboxAnswer
  | watchdogKick
  -- Clocks, supply and resets
  | rootLockRise
  | supplyWarnRise
  | supplyWarnFall
  | holdRelease
  | storeScrubWord (n : Hg) (reseq : Bool) (err : MemErr)
  | coldReset (cause : ColdCause)
  | warmReset
  | resetRelease (lcFuse : BitVec 2) (revoked : BitVec 4) (minSvn : BitVec 16)
  | selfTestDone (fails : List TestFail)
  | meshBringupDone
  | routerReset (i : Rt)
  | routerResetDone
  | headgateLogicReset (n : Hg)
  | headgateLogicResetDone
  | lcProgDone
  -- Registers
  | fcsAccess
  | registerWrite (who : Writer) (off : BitVec 24) (data : Word) (be : BitVec 8)
  | timeSecRead
  | dirEntryRead (s : Sl)
  | snapshot
  | mergeClear (hg : Option Hg)
  -- Probes and alarms
  | traceCapture (b : Fin 8)
  | traceRecordDrain
  | traceBeat
  | alarmRingEntry (station : Fin 280)
  | alarmCopy
  | alarmStationPass (n : Hg)
  | alarmRecordReturn (station : Fin 280)
  | alarmAckToken (station : Fin 280)
  | incidentClose
  -- Mailboxes
  | mbPush (m : Mbx)
  | mbPop (m : Mbx)
  | mbAck (m : Mbx) (overrun rider : Bool)
  | mbIeWr (m : Mbx) (ie : BitVec 4)
  | commandStart (m : Mbx)
  -- Rider commands
  | queryState (m : Mbx)
  | paramSet
  | channelOpen
  | channelClose
  | pacelineSet
  | allotSet
  | weirSet
  | decodeSet
  | regionSet
  | routeDetour
  | routeRestore
  | routerSet
  | attachMove
  | domainSleep
  | domainWake
  | domainSet
  | leveeSet
  | leveeClear
  | probeArm
  | probeDisarm
  | alarmAck
  | logRead (m : Mbx)
  | holdSet
  | mailboxBind
  | imageLoad
  | lifecycleSeal
  | lifecycleRetire
  -- Test access port
  | tapIdcode
  | tapStatus
  | tapRegacc (dr : BitVec 96)
  | tapRiderDbg (op : DbgOp)
  | tapTestEntry
  | tapWarm
  | tapBypass (code : BitVec 8) (tdi : Bool)
  -- Added rows
  | headgateSelfCheck (n : Hg) (table : BitVec 8)
  | pwrAckFall (n : Hg)
  | traceWeirRefill
  deriving DecidableEq, Repr

end Sys2Proof
end

