-- ==== Sys2Proof/Decode.lean ====
section
/-! DEFINITION. Decoding by the opcode table. The table gives its rows no bits: no word spells a command. -/

namespace Sys2Proof

/-- The command that a word of `nbits` bits spells. Every row of the opcode table has an empty field list, so that no word
spells one: a command reaches the block with its operands, as an event at its pins or inside it. -/
def decodeTableWord (_nbits _w : Nat) : Option Instr := none

end Sys2Proof
end

