-- ==== Sys2Proof/Config.lean ====
section
/-! DEFINITION. The free values: what the manual leaves open. Each is an opaque constant without a body, so that nothing
can be proved of its value and a claim holds whatever it is. `State.freeCtr` counts the draws. -/

namespace Sys2Proof

/-- Data of a byte lane the manual does not fix: a read response's lanes outside the request's range (R53). Log entry 10. -/
opaque Config.laneData : Nat → Line
/-- The set of waypoint entries, as HG_WAYPT values, that the firmware picks among equally good ones (R323). Log entry 11. -/
opaque Config.waypointPick : Nat → List Word
/-- The relay layout the firmware picks (R216, R222): an index into the relays that fit. Log entry 11. -/
opaque Config.relayPick : Nat → Nat
/-- The decode, protection, allotment and further register writes a signed image carries (R441): pairs of an FCS offset
and a value, for each image digest. Log entry 12. -/
opaque Config.imageWrites : BitVec 256 → List (Nat × Word)
/-- The four Narxia public keys of the Rider ROM (R377): the x and y coordinates. Log entry 13. -/
opaque Config.romKeyX : Nat → Nat
opaque Config.romKeyY : Nat → Nat
/-- The incident argument bits, words of the Rider's private SRAM and core registers (R362, R449) at reset. Log entry 14. -/
opaque Config.riderCoreReg : Nat → Word
/-- What an SRAM word with an uncorrectable error reads as (R130, R189, R190, R288). Log entry 15. -/
opaque Config.badData : Nat → Line
/-- The block of a store in which an uncorrectable word lies (type 0x4B): the manual does not say which block a packet takes.
Log entry 15. -/
opaque Config.storeBlock : Nat → Nat
/-- Which of the free TREQ_IDs a presented request takes (R30, R64): an index into them. Log entry 16. -/
opaque Config.idPick : Nat → Nat
/-- The data of a line whose DRAM controller answered with no data beat, where the manual gives none. Log entry 10. -/
opaque Config.missingData : Nat → Line
/-- Phases of the sluices: the sync delay of 2 or 3 receiving cycles (R339) of a draw. Log entry 4. -/
opaque Config.syncDelay : Nat → Nat

end Sys2Proof
end

