-- ==== Sys2Proof/Machine/Bits.lean ====
section
/-! DEFINITION. Bit fields: NAME[hi:lo] read and written in a word, saturating counters, and single bits. -/

namespace Sys2Proof.Machine

/-- The field of `len` bits from bit `lo` of `w`. -/
def field {n : Nat} (w : BitVec n) (lo len : Nat) : Nat :=
  (w.toNat >>> lo) % 2 ^ len

/-- `w` with the field of `len` bits from bit `lo` set to `v` modulo 2^len. -/
def setField {n : Nat} (w : BitVec n) (lo len v : Nat) : BitVec n :=
  BitVec.ofNat n (w.toNat - (((w.toNat >>> lo) % 2 ^ len) <<< lo) + ((v % 2 ^ len) <<< lo))

/-- Bit `i` of `w`. -/
def bit {n : Nat} (w : BitVec n) (i : Nat) : Bool := w.getLsbD i

/-- A Bool as a bit. -/
def b2n (b : Bool) : Nat := if b then 1 else 0

/-- `w` with bit `i` set to `b`. -/
def setBit {n : Nat} (w : BitVec n) (i : Nat) (b : Bool) : BitVec n := setField w i 1 (b2n b)

/-- `x` as a two's-complement number of `len` bits. -/
def signed (len x : Nat) : Int :=
  if x < 2 ^ (len - 1) then (x : Int) else (x : Int) - (2 ^ len : Nat)

/-- A number in two's complement of `len` bits. -/
def unsignedOf (len : Nat) (x : Int) : Nat := (x % (2 ^ len : Nat)).toNat

/-- A counter of `len` bits raised by `k` and saturating (R131, R162). -/
def satAdd (len old k : Nat) : Nat := min (old + k) (2 ^ len - 1)

/-- Value clipped to `lo..hi`, as the register tables clip ("values below act as"). -/
def clip (lo hi v : Nat) : Nat := max lo (min hi v)

/-- The numbers of the set bits of `w` among the first `n`, ascending. -/
def bitsOf {m : Nat} (w : BitVec m) (n : Nat) : List Nat := (List.range n).filter (fun i => w.getLsbD i)

/-- Byte `k` of a beat (R82). -/
def byteOf (l : Line) (k : Nat) : Byte := l.extractLsb' (8 * k) 8

/-- A beat from the bytes `f 0 .. f 63`. -/
def lineOf (f : Nat → Byte) : Line :=
  BitVec.ofNat 512 ((List.range 64).foldr (fun k acc => acc * 256 + (f k).toNat) 0)

/-- `new` in the enabled lanes, `old` elsewhere. -/
def mergeLine (old new : Line) (be : BitVec 64) : Line :=
  lineOf (fun k => if be.getLsbD k then byteOf new k else byteOf old k)

/-- Word `k` of a beat, little-endian. -/
def wordOf (l : Line) (k : Nat) : Word := l.extractLsb' (64 * k) 64

/-- A beat with word `k` replaced. -/
def setWord (l : Line) (k : Nat) (w : Word) : Line :=
  BitVec.ofNat 512 (l.toNat - (wordOf l k).toNat * 2 ^ (64 * k) + w.toNat * 2 ^ (64 * k))

/-- The enables of lanes `lo .. hi`. -/
def laneMask (lo hi : Nat) : BitVec 64 := BitVec.ofNat 64 ((2 ^ (hi + 1 - lo) - 1) * 2 ^ lo)

end Sys2Proof.Machine
end

