-- ==== Sys2Proof/Machine/Regs.lean ====
section
/-! DEFINITION. The registers of the fabric control space: the map of R452, every register of Tables 18-1 to 18-15 with the
masks of its access codes (R7) and its reset value (R459), and the FCS offset of each by the manual's name. -/

namespace Sys2Proof.Machine

/-- The blocks of Table 18-1. -/
inductive Blk where
  | global | clock | mailbox | probe | slice | reservoir | router | headgate | none | riderPrivate
  deriving DecidableEq, Repr

/-- One register, or one row of equal registers: its name, the offset of the first in the form of its block's register
list, the stride and count, the bits of each access code, and the reset value; `per` numbers
the registers whose reset value differs by instance (`regReset`). Bits in no mask are RO. `trig` are the
triggers of R479 and the other RDR bits that store nothing. -/
structure RegSpec where
  name : String
  off : Nat
  stride : Nat
  cnt : Nat
  rw : Nat
  rwl : Nat
  rdr : Nat
  w1c : Nat
  wo : Nat
  trig : Nat
  reset : Nat
  per : Nat
  deriving DecidableEq, Repr

/-- The block, instance and local offset of an FCS offset (R452). -/
def fcsLocate (off : Nat) : Blk × Nat × Nat :=
  if off ≥ 0x800000 then (.riderPrivate, 0, off)
  else if off < 0x010000 then (.global, 0, off)
  else if off < 0x020000 then (.clock, 0, off)
  else if off < 0x040000 then (.mailbox, (off - 0x020000) / 0x1000, off % 0x1000)
  else if off < 0x080000 then (.probe, 0, off)
  else if off < 0x0C4000 then (.slice, (off - 0x080000) / 0x4000, off % 0x4000)
  else if off < 0x0D0000 then (.none, 0, off)
  else if off < 0x0E0000 then (.reservoir, 0, off - 0x0D0000)
  else if off < 0x100000 then (.none, 0, off)
  else if off < 0x164000 then (.router, (off - 0x100000) / 0x1000, off % 0x1000)
  else if off < 0x200000 then (.none, 0, off)
  else if off < 0x480000 then (.headgate, (off - 0x200000) / 0x4000, off % 0x4000)
  else (.none, 0, off)

/-- The registers of the global block. -/
def regs_global0 : List RegSpec := [
  ⟨"GL_IDENT", 0x0, 0x8, 1, 0x0, 0x0, 0x0, 0x0, 0x0, 0x0, 0x10102103, 0⟩,
  ⟨"GL_LIFECYCLE", 0x8, 0x8, 1, 0x0, 0x0, 0x0, 0x0, 0x0, 0x0, 0x0, 0⟩,
  ⟨"GL_BOOT", 0x10, 0x8, 1, 0x0, 0x0, 0x0, 0x0, 0x0, 0x0, 0x0, 0⟩,
  ⟨"GL_UNIT_RESET", 0x18, 0x8, 1, 0x0, 0x0, 0x1FF, 0x0, 0x0, 0x200, 0x0, 0⟩,
  ⟨"GL_IRQ_STATUS", 0x20, 0x8, 1, 0x0, 0x0, 0x0, 0x0, 0x0, 0x0, 0x0, 0⟩,
  ⟨"GL_FCS_PORT", 0x28, 0x8, 1, 0x0, 0x0, 0x0, 0x10000000000, 0x0, 0x0, 0x0, 0⟩,
  ⟨"GL_FCS_REFUSE", 0x30, 0x8, 1, 0x0, 0x0, 0x0, 0x0, 0x0, 0x0, 0x0, 0⟩,
  ⟨"GL_RIDER_STATUS", 0x100, 0x8, 1, 0x0, 0x0, 0x0, 0x0, 0x0, 0x0, 0x0, 0⟩,
  ⟨"GL_RIDER_WDOG", 0x108, 0x8, 1, 0x0, 0x0, 0xFFFF, 0x0, 0x0, 0x10000, 0x3E8, 0⟩,
  ⟨"GL_RIDER_RESTARTS", 0x110, 0x8, 1, 0x0, 0x0, 0x0, 0x0, 0x0, 0x0, 0x0, 0⟩,
  ⟨"GL_FW_KEYS", 0x118, 0x8, 1, 0x0, 0x0, 0x0, 0x0, 0x0, 0x0, 0x0, 0⟩]

/-- The registers of the global block. -/
def regs_global : List RegSpec := regs_global0

/-- The registers of the clock block. -/
def regs_clock0 : List RegSpec := [
  ⟨"CK_STATUS", 0x10000, 0x8, 1, 0x0, 0x0, 0x0, 0x0, 0x0, 0x0, 0x0, 0⟩,
  ⟨"CK_SUPPLY_EVT", 0x10008, 0x8, 1, 0x0, 0x0, 0x0, 0x7, 0x0, 0x0, 0x0, 0⟩,
  ⟨"CK_HOLD_CFG", 0x10010, 0x8, 1, 0x0, 0x0, 0x3FF, 0x0, 0x0, 0x0, 0x40, 0⟩,
  ⟨"CK_HOLD_CNT", 0x10018, 0x8, 1, 0x0, 0x0, 0x0, 0x0, 0x0, 0x0, 0x0, 0⟩,
  ⟨"CK_MERGE", 0x10020, 0x8, 1, 0x0, 0x0, 0x0, 0x0, 0x80000000, 0x0, 0x0, 0⟩,
  ⟨"CK_WAKE_PEND", 0x10028, 0x8, 1, 0x0, 0x0, 0x0, 0x0, 0x0, 0x0, 0x0, 0⟩,
  ⟨"CK_DOM", 0x10100, 0x8, 32, 0x0, 0x0, 0xFFFFF01, 0x0, 0x0, 0x0, 0x1906400, 0⟩,
  ⟨"CK_TURN_CFG", 0x10800, 0x8, 1, 0x0, 0x0, 0x7FFFF, 0x0, 0x0, 0x0, 0x23280, 0⟩,
  ⟨"CK_TURN_STATUS", 0x10808, 0x8, 1, 0x0, 0x0, 0x0, 0x0, 0x0, 0x0, 0x0, 0⟩,
  ⟨"CK_TURN_SKIP", 0x10810, 0x8, 1, 0x0, 0x0, 0x0, 0x0, 0x0, 0x0, 0x0, 0⟩,
  ⟨"CK_TURN_LATE", 0x10818, 0x8, 1, 0x0, 0x0, 0x0, 0x0, 0x0, 0x0, 0x0, 0⟩,
  ⟨"CK_TIME_SEC", 0x10820, 0x8, 1, 0x0, 0x0, 0x0, 0x0, 0x0, 0x0, 0x0, 0⟩,
  ⟨"CK_TIME_NS", 0x10828, 0x8, 1, 0x0, 0x0, 0x0, 0x0, 0x0, 0x0, 0x0, 0⟩,
  ⟨"CK_HG_DOM", 0x11000, 0x8, 160, 0x0, 0x0, 0x3F, 0x0, 0x0, 0x0, 0x0, 0⟩]

/-- The registers of the clock block. -/
def regs_clock : List RegSpec := regs_clock0

/-- The registers of the mailbox block. -/
def regs_mailbox0 : List RegSpec := [
  ⟨"MB_CMD", 0x0, 0x8, 8, 0xFFFFFFFFFFFFFFFF, 0x0, 0x0, 0x0, 0x0, 0x0, 0x0, 0⟩,
  ⟨"MB_RSP", 0x40, 0x8, 8, 0x0, 0x0, 0x0, 0x0, 0x0, 0x0, 0x0, 0⟩,
  ⟨"MB_DOORBELL", 0x80, 0x8, 1, 0x0, 0x0, 0x0, 0x0, 0x30F0F, 0x0, 0x0, 0⟩,
  ⟨"MB_STATUS", 0x88, 0x8, 1, 0x0, 0x0, 0x0, 0x0, 0x0, 0x0, 0x0, 0⟩,
  ⟨"MB_BIND", 0x90, 0x8, 1, 0x0, 0x0, 0x3FFFF, 0x0, 0x0, 0x0, 0x0, 8⟩,
  ⟨"MB_CUR", 0x98, 0x8, 1, 0x0, 0x0, 0x0, 0x0, 0x0, 0x0, 0x0, 0⟩,
  ⟨"MB_OVERRUN", 0xA0, 0x8, 1, 0x0, 0x0, 0x0, 0x0, 0x0, 0x0, 0x0, 0⟩]

/-- The registers of the mailbox block. -/
def regs_mailbox : List RegSpec := regs_mailbox0

/-- The registers of the probe block. -/
def regs_probe0 : List RegSpec := [
  ⟨"PR_CTL", 0x40000, 0x8, 1, 0x7FFFE, 0x0, 0x0, 0x0, 0x1, 0x0, 0x7080, 0⟩,
  ⟨"PR_STATUS", 0x40008, 0x8, 1, 0x0, 0x0, 0x0, 0x0, 0x0, 0x0, 0x0, 0⟩,
  ⟨"PR_TIME", 0x40010, 0x8, 1, 0x0, 0x0, 0x0, 0x0, 0x0, 0x0, 0x0, 0⟩,
  ⟨"PR_TRACE_WEIR", 0x40018, 0x8, 1, 0x0, 0x0, 0x1FFF, 0x0, 0x0, 0x0, 0x1008, 0⟩,
  ⟨"PR_ALARM_STATUS", 0x40020, 0x8, 1, 0x0, 0x0, 0x0, 0x0, 0x0, 0x0, 0x0, 0⟩,
  ⟨"PR_ALARM_RX", 0x40028, 0x8, 1, 0x0, 0x0, 0x0, 0x0, 0x0, 0x0, 0x0, 0⟩,
  ⟨"PR_TRACE_OUT", 0x40030, 0x8, 1, 0x0, 0x0, 0x0, 0x0, 0x0, 0x0, 0x0, 0⟩,
  ⟨"PR_SECRET_MAP", 0x40040, 0x8, 3, 0x0, 0x0, 0xFFFFFFFFFFFFFFFF, 0x0, 0x0, 0x0, 0x0, 0⟩,
  ⟨"PR_PRB_CTL", 0x41000, 0x40, 32, 0x0, 0x0, 0x8000000007FFFFFF, 0x0, 0x0, 0x0, 0x0, 0⟩,
  ⟨"PR_PRB_STAT", 0x41008, 0x40, 32, 0x0, 0x0, 0x0, 0x0, 0x0, 0x0, 0x102000000, 0⟩,
  ⟨"PR_PRB_HITS", 0x41010, 0x40, 32, 0x0, 0x0, 0x0, 0x0, 0x0, 0x0, 0x0, 0⟩,
  ⟨"PR_PRB_DROP", 0x41018, 0x40, 32, 0x0, 0x0, 0x0, 0x0, 0x0, 0x0, 0x0, 0⟩,
  ⟨"PR_CAM_MATCH", 0x42000, 0x10, 128, 0x0, 0x0, 0xFFFFFFFFFFFFFFFF, 0x0, 0x0, 0x0, 0x0, 0⟩,
  ⟨"PR_CAM_MASK", 0x42008, 0x10, 128, 0x0, 0x0, 0xFFFFFFFFFFFFFFFF, 0x0, 0x0, 0x0, 0x0, 0⟩,
  ⟨"PR_BANK", 0x42800, 0x8, 8, 0x0, 0x0, 0x0, 0x30, 0x0, 0x0, 0x0, 0⟩,
  ⟨"PR_RTO_CFG", 0x44000, 0x20, 800, 0xFF, 0x0, 0x0, 0x0, 0x0, 0x0, 0x1, 0⟩,
  ⟨"PR_RTO_FLITS", 0x44008, 0x20, 800, 0x0, 0x0, 0x0, 0x0, 0x0, 0x0, 0x0, 0⟩,
  ⟨"PR_RTO_EVENT", 0x44010, 0x20, 800, 0x0, 0x0, 0x0, 0x0, 0x0, 0x0, 0x0, 0⟩,
  ⟨"PR_HGO_CFG", 0x4C000, 0x20, 160, 0xFF, 0x0, 0x0, 0x0, 0x0, 0x0, 0x1, 0⟩,
  ⟨"PR_HGO_INJ", 0x4C008, 0x20, 160, 0x0, 0x0, 0x0, 0x0, 0x0, 0x0, 0x0, 0⟩,
  ⟨"PR_HGO_EJ", 0x4C010, 0x20, 160, 0x0, 0x0, 0x0, 0x0, 0x0, 0x0, 0x0, 0⟩,
  ⟨"PR_HGO_EVENT", 0x4C018, 0x20, 160, 0x0, 0x0, 0x0, 0x0, 0x0, 0x0, 0x0, 0⟩]

/-- The registers of the probe block. -/
def regs_probe : List RegSpec := regs_probe0

/-- The registers of the slice block. -/
def regs_slice0 : List RegSpec := [
  ⟨"HS_ID", 0x0, 0x8, 1, 0x0, 0x0, 0x0, 0x0, 0x0, 0x0, 0x0, 2⟩,
  ⟨"HS_CFG", 0x8, 0x8, 1, 0x0, 0x0, 0x3F, 0x0, 0x0, 0x0, 0x0, 3⟩,
  ⟨"HS_STATUS", 0x10, 0x8, 1, 0x0, 0x0, 0x0, 0x38, 0x0, 0x0, 0x0, 0⟩,
  ⟨"HS_TMO_CFG", 0x18, 0x8, 1, 0x0, 0x0, 0xFFF, 0x0, 0x0, 0x0, 0x1F4, 0⟩,
  ⟨"HS_DEAD_MASK", 0x20, 0x8, 1, 0x0, 0x0, 0xFFFF, 0x0, 0x0, 0x0, 0x0, 0⟩,
  ⟨"HS_SWEEP", 0x28, 0x8, 1, 0x0, 0x0, 0xF, 0x0, 0x0, 0x10, 0x0, 0⟩,
  ⟨"HS_CENSUS_CFG", 0x30, 0x8, 1, 0x0, 0x0, 0xFF, 0x0, 0x0, 0x0, 0x8, 0⟩,
  ⟨"HS_CENSUS", 0x38, 0x8, 1, 0x0, 0x0, 0x0, 0x0, 0x0, 0x0, 0x0, 0⟩,
  ⟨"HS_TRACK", 0x40, 0x8, 1, 0x0, 0x0, 0x0, 0x0, 0x0, 0x0, 0x0, 0⟩,
  ⟨"HS_UNBUILT", 0x100, 0x8, 32, 0x0, 0x0, 0x0, 0x0, 0x0, 0x0, 0x0, 0⟩,
  ⟨"HS_DIR_SEL", 0x200, 0x8, 1, 0xFFFF, 0x0, 0x0, 0x0, 0x0, 0x0, 0x0, 0⟩,
  ⟨"HS_DIR_ENTRY", 0x208, 0x8, 1, 0x0, 0x0, 0x0, 0x0, 0x0, 0x0, 0x0, 0⟩,
  ⟨"HS_DIR_EVICT", 0x300, 0x8, 1, 0x0, 0x0, 0x0, 0x0, 0x0, 0x0, 0x0, 0⟩,
  ⟨"HS_BINV", 0x308, 0x8, 1, 0x0, 0x0, 0x0, 0x0, 0x0, 0x0, 0x0, 0⟩,
  ⟨"HS_PIN_WAIT", 0x310, 0x8, 1, 0x0, 0x0, 0x0, 0x0, 0x0, 0x0, 0x0, 0⟩,
  ⟨"HS_TMO_CNT", 0x318, 0x8, 1, 0x0, 0x0, 0x0, 0x0, 0x0, 0x0, 0x0, 0⟩,
  ⟨"HS_POISON", 0x320, 0x8, 1, 0x0, 0x0, 0x0, 0x0, 0x0, 0x0, 0x0, 0⟩,
  ⟨"HS_DIR_CORR", 0x328, 0x8, 1, 0x0, 0x0, 0x0, 0x0, 0x0, 0x0, 0x0, 0⟩,
  ⟨"HS_DIR_UNCORR", 0x330, 0x8, 1, 0x0, 0x0, 0x0, 0x0, 0x0, 0x0, 0x0, 0⟩,
  ⟨"HS_ATOM", 0x338, 0x8, 1, 0x0, 0x0, 0x0, 0x0, 0x0, 0x0, 0x0, 0⟩,
  ⟨"HS_CENSUS_SNP", 0x340, 0x8, 1, 0x0, 0x0, 0x0, 0x0, 0x0, 0x0, 0x0, 0⟩,
  ⟨"HS_STALE_RPL", 0x348, 0x8, 1, 0x0, 0x0, 0x0, 0x0, 0x0, 0x0, 0x0, 0⟩,
  ⟨"HS_COH_CFG", 0x400, 0x8, 1, 0x0, 0x0, 0xFF, 0x0, 0x0, 0x0, 0x30, 0⟩,
  ⟨"HS_COH_STALE", 0x408, 0x8, 1, 0x0, 0x0, 0x0, 0x0, 0x0, 0x0, 0x0, 0⟩]

/-- The registers of the slice block, continued. -/
def regs_slice1 : List RegSpec := [
  ⟨"HS_COH_UPG_FAIL", 0x410, 0x8, 1, 0x0, 0x0, 0x0, 0x0, 0x0, 0x0, 0x0, 0⟩,
  ⟨"HS_COH_BCAST", 0x418, 0x8, 1, 0x0, 0x0, 0x0, 0x0, 0x0, 0x0, 0x0, 0⟩,
  ⟨"HS_COH_PROTO", 0x420, 0x8, 1, 0x0, 0x0, 0x0, 0x0, 0x0, 0x0, 0x0, 0⟩,
  ⟨"HS_COH_HOLD_WAIT", 0x428, 0x8, 1, 0x0, 0x0, 0x0, 0x0, 0x0, 0x0, 0x0, 0⟩]

/-- The registers of the slice block. -/
def regs_slice : List RegSpec := regs_slice0 ++ regs_slice1

/-- The registers of the reservoir block. -/
def regs_reservoir0 : List RegSpec := [
  ⟨"RV_CFG", 0x0, 0x8, 1, 0x0, 0x0, 0x7F, 0x0, 0x0, 0x0, 0x10, 0⟩,
  ⟨"RV_LOCK_CFG", 0x8, 0x8, 1, 0x0, 0x0, 0xFFFF, 0x0, 0x0, 0x0, 0xC80, 0⟩,
  ⟨"RV_SCRUB_CFG", 0x10, 0x8, 1, 0x0, 0x0, 0x1FFFF, 0x0, 0x0, 0x0, 0x11000, 0⟩,
  ⟨"RV_STATUS", 0x18, 0x8, 1, 0x0, 0x0, 0x0, 0xF, 0x0, 0x0, 0x0, 0⟩,
  ⟨"RV_BANK_PARK", 0x100, 0x8, 32, 0x0, 0x0, 0xF, 0x0, 0x0, 0x0, 0x8, 4⟩,
  ⟨"RV_ARB_STATE", 0x400, 0x8, 32, 0x0, 0x0, 0x0, 0x0, 0x0, 0x0, 0x0, 0⟩,
  ⟨"RV_LOCK", 0x600, 0x8, 32, 0x0, 0x0, 0x0, 0x0, 0x0, 0x0, 0x0, 0⟩,
  ⟨"RV_LOCK_GRANT", 0x800, 0x8, 1, 0x0, 0x0, 0x0, 0x0, 0x0, 0x0, 0x0, 0⟩,
  ⟨"RV_LOCK_REVOKE", 0x808, 0x8, 1, 0x0, 0x0, 0x0, 0x0, 0x0, 0x0, 0x0, 0⟩,
  ⟨"RV_LOCK_LOST", 0x810, 0x8, 1, 0x0, 0x0, 0x0, 0x0, 0x0, 0x0, 0x0, 0⟩,
  ⟨"RV_LOCK_WAIT", 0x818, 0x8, 1, 0x0, 0x0, 0x0, 0x0, 0x0, 0x0, 0x0, 0⟩,
  ⟨"RV_ATOM", 0x820, 0x8, 1, 0x0, 0x0, 0x0, 0x0, 0x0, 0x0, 0x0, 0⟩,
  ⟨"RV_SRAM_CORR", 0x828, 0x8, 1, 0x0, 0x0, 0x0, 0x0, 0x0, 0x0, 0x0, 0⟩,
  ⟨"RV_SRAM_UNCORR", 0x830, 0x8, 1, 0x0, 0x0, 0x0, 0x0, 0x0, 0x0, 0x0, 0⟩,
  ⟨"RV_RMW", 0x838, 0x8, 1, 0x0, 0x0, 0x0, 0x0, 0x0, 0x0, 0x0, 0⟩,
  ⟨"RV_SCRUB_PASS", 0x840, 0x8, 1, 0x0, 0x0, 0x0, 0x0, 0x0, 0x0, 0x0, 0⟩]

/-- The registers of the reservoir block. -/
def regs_reservoir : List RegSpec := regs_reservoir0

/-- The registers of the router block. -/
def regs_router0 : List RegSpec := [
  ⟨"RT_ID", 0x0, 0x8, 1, 0x0, 0x0, 0x0, 0x0, 0x0, 0x0, 0x0, 1⟩,
  ⟨"RT_CTRL", 0x8, 0x8, 1, 0xFF, 0x0, 0x0, 0x0, 0xFF00, 0x0, 0x0, 0⟩,
  ⟨"RT_ARB_CFG", 0x10, 0x8, 1, 0x7F, 0x0, 0x0, 0x0, 0x0, 0x0, 0x10, 0⟩,
  ⟨"RT_LINK_CFG", 0x18, 0x8, 1, 0x3FFFFFFF, 0x0, 0x0, 0x0, 0x0, 0x0, 0x29100400, 0⟩,
  ⟨"RT_PORT_STATUS", 0x20, 0x8, 1, 0x0, 0x0, 0x0, 0x0, 0x0, 0x0, 0x0, 0⟩,
  ⟨"RT_FAULT", 0x28, 0x8, 1, 0x0, 0x0, 0x0, 0x7FFF, 0x0, 0x0, 0x0, 0⟩,
  ⟨"RT_HOP_ERR", 0x100, 0x8, 8, 0x0, 0x0, 0x0, 0x0, 0x0, 0x0, 0x0, 0⟩,
  ⟨"RT_HDR_DROP", 0x140, 0x8, 1, 0x0, 0x0, 0x0, 0x0, 0x0, 0x0, 0x0, 0⟩,
  ⟨"RT_PURGE", 0x148, 0x8, 1, 0x0, 0x0, 0x0, 0x0, 0x0, 0x0, 0x0, 0⟩,
  ⟨"RT_GUA_COLL", 0x150, 0x8, 1, 0x0, 0x0, 0x0, 0x0, 0x0, 0x0, 0x0, 0⟩,
  ⟨"RT_TRUNC", 0x158, 0x8, 1, 0x0, 0x0, 0x0, 0x0, 0x0, 0x0, 0x0, 0⟩,
  ⟨"RT_WITHDRAW", 0x160, 0x8, 1, 0x0, 0x0, 0x0, 0x0, 0x0, 0x0, 0x0, 0⟩,
  ⟨"RT_MAP_MISM", 0x168, 0x8, 1, 0x0, 0x0, 0x0, 0x0, 0x0, 0x0, 0x0, 0⟩,
  ⟨"RT_SRAM_CORR", 0x170, 0x8, 1, 0x0, 0x0, 0x0, 0x0, 0x0, 0x0, 0x0, 0⟩,
  ⟨"RT_LOCAL_MAP", 0x200, 0x8, 1, 0xFFFFFFFF, 0x0, 0x0, 0x0, 0x0, 0x0, 0xFFFFFFFF, 0⟩,
  ⟨"RT_NBR_MAP", 0x208, 0x8, 4, 0xFFFFFFFF, 0x0, 0x0, 0x0, 0x0, 0x0, 0xFFFFFFFF, 0⟩,
  ⟨"RT_ARB_STATE", 0x300, 0x8, 8, 0x0, 0x0, 0x0, 0x0, 0x0, 0x0, 0x0, 0⟩]

/-- The registers of the router block. -/
def regs_router : List RegSpec := regs_router0

/-- The registers of the headgate block. -/
def regs_headgate0 : List RegSpec := [
  ⟨"HG_ID", 0x0, 0x8, 1, 0x0, 0x0, 0x0, 0x0, 0x0, 0x0, 0x0, 5⟩,
  ⟨"HG_CFG", 0x8, 0x8, 1, 0x0, 0x80000073, 0x0, 0x0, 0x0, 0x0, 0x20, 6⟩,
  ⟨"HG_EPOCH", 0x10, 0x8, 1, 0x0, 0x0, 0x0, 0x0, 0x0, 0x10, 0x40, 0⟩,
  ⟨"HG_RSP_POOL", 0x18, 0x8, 1, 0x0, 0x0, 0x3FF, 0x0, 0x0, 0x0, 0x40100, 0⟩,
  ⟨"HG_STATUS", 0x20, 0x8, 1, 0x0, 0x0, 0x0, 0x7, 0x0, 0x0, 0x0, 0⟩,
  ⟨"HG_LOCK", 0x28, 0x8, 1, 0x0, 0x0, 0x0, 0x0, 0x0, 0x0, 0x0, 0⟩,
  ⟨"HG_ADMIT", 0x30, 0x8, 1, 0x0, 0x0, 0x1, 0x0, 0x0, 0x0, 0x0, 0⟩,
  ⟨"HG_COH_UNMATCHED", 0x38, 0x8, 1, 0x0, 0x0, 0x0, 0x0, 0x0, 0x0, 0x0, 0⟩,
  ⟨"HG_EPOCH_CNT", 0x40, 0x8, 16, 0x0, 0x0, 0x0, 0x0, 0x0, 0x0, 0x0, 0⟩,
  ⟨"HG_HAI_ABORT", 0x100, 0x8, 1, 0x0, 0x0, 0x0, 0x0, 0x0, 0x0, 0x0, 0⟩,
  ⟨"HG_HAI_DISCARD", 0x108, 0x8, 1, 0x0, 0x0, 0x0, 0x0, 0x0, 0x0, 0x0, 0⟩,
  ⟨"HG_POST_REFUSE", 0x110, 0x8, 1, 0x0, 0x0, 0x0, 0x0, 0x0, 0x0, 0x0, 0⟩,
  ⟨"HG_SOURCE_RESET", 0x118, 0x8, 1, 0x0, 0x0, 0x0, 0x0, 0x0, 0x0, 0x0, 0⟩,
  ⟨"HG_DECODE_FAULT", 0x120, 0x8, 1, 0x0, 0x0, 0x0, 0x0, 0x0, 0x0, 0x0, 0⟩,
  ⟨"HG_CHK_OPEN", 0x128, 0x8, 1, 0x0, 0x0, 0x0, 0x0, 0x0, 0x0, 0x0, 0⟩,
  ⟨"HG_E2E_CFG", 0x130, 0x8, 1, 0x0, 0x0, 0x7FFFFFFFF, 0x0, 0x0, 0x0, 0x388101900, 0⟩,
  ⟨"HG_REPLAY_CMD", 0x138, 0x8, 1, 0x0, 0x0, 0x1FF, 0x0, 0x0, 0x200, 0x0, 0⟩,
  ⟨"HG_REPLAY_STATUS", 0x140, 0x8, 1, 0x0, 0x0, 0x0, 0x0, 0x0, 0x0, 0x400, 0⟩,
  ⟨"HG_PAIR_SEL", 0x148, 0x8, 1, 0xFF, 0x0, 0x0, 0x0, 0x0, 0x0, 0x0, 0⟩,
  ⟨"HG_PAIR_TX", 0x150, 0x8, 1, 0x0, 0x0, 0x0, 0x0, 0x0, 0x0, 0x0, 0⟩,
  ⟨"HG_PAIR_RX", 0x158, 0x8, 1, 0x0, 0x0, 0x0, 0x0, 0x0, 0x0, 0xFFFF0000, 0⟩,
  ⟨"HG_E2E_STATUS", 0x160, 0x8, 1, 0x0, 0x0, 0x0, 0xFF, 0x0, 0x0, 0x0, 0⟩,
  ⟨"HG_ECRC_FAIL", 0x168, 0x8, 1, 0x0, 0x0, 0x0, 0x0, 0x0, 0x0, 0x0, 0⟩,
  ⟨"HG_DUP_DROP", 0x170, 0x8, 1, 0x0, 0x0, 0x0, 0x0, 0x0, 0x0, 0x0, 0⟩]

/-- The registers of the headgate block, continued. -/
def regs_headgate1 : List RegSpec := [
  ⟨"HG_RESEQ_DROP", 0x178, 0x8, 1, 0x0, 0x0, 0x0, 0x0, 0x0, 0x0, 0x0, 0⟩,
  ⟨"HG_SEQ_FAULT", 0x180, 0x8, 1, 0x0, 0x0, 0x0, 0x0, 0x0, 0x0, 0x0, 0⟩,
  ⟨"HG_REPLAY_PKTS", 0x188, 0x8, 1, 0x0, 0x0, 0x0, 0x0, 0x0, 0x0, 0x0, 0⟩,
  ⟨"HG_ENAK_TX", 0x190, 0x8, 1, 0x0, 0x0, 0x0, 0x0, 0x0, 0x0, 0x0, 0⟩,
  ⟨"HG_ENAK_RX", 0x198, 0x8, 1, 0x0, 0x0, 0x0, 0x0, 0x0, 0x0, 0x0, 0⟩,
  ⟨"HG_CMT_TIMEOUT", 0x1A0, 0x8, 1, 0x0, 0x0, 0x0, 0x0, 0x0, 0x0, 0x0, 0⟩,
  ⟨"HG_CMT_INVALID", 0x1A8, 0x8, 1, 0x0, 0x0, 0x0, 0x0, 0x0, 0x0, 0x0, 0⟩,
  ⟨"HG_STORE_CORR", 0x1B0, 0x8, 1, 0x0, 0x0, 0x0, 0x0, 0x0, 0x0, 0x0, 0⟩,
  ⟨"HG_STORE_UNCORR", 0x1B8, 0x8, 1, 0x0, 0x0, 0x0, 0x0, 0x0, 0x0, 0x0, 0⟩,
  ⟨"HG_WEIR", 0x200, 0x8, 64, 0x0, 0x0, 0xFFFFF, 0x0, 0x0, 0x0, 0xFFFFFF00, 0⟩,
  ⟨"HG_ALLOT", 0x400, 0x8, 160, 0x0, 0x0, 0x10000003FF, 0x0, 0x0, 0x0, 0x0, 0⟩,
  ⟨"HG_GRANT", 0x900, 0x8, 160, 0x0, 0x0, 0x3FF, 0x0, 0x0, 0x0, 0x0, 0⟩,
  ⟨"HG_PL_CH_SEL", 0xE00, 0x8, 1, 0x7F, 0x0, 0x0, 0x0, 0x0, 0x0, 0x0, 0⟩,
  ⟨"HG_PL_CH_STAT", 0xE08, 0x8, 1, 0x0, 0x0, 0x0, 0x0, 0x0, 0x0, 0x0, 0⟩,
  ⟨"HG_PL_STATUS", 0xE10, 0x8, 1, 0x0, 0x0, 0x0, 0x1F, 0x0, 0x0, 0x0, 0⟩,
  ⟨"HG_PL_TURN", 0xE18, 0x8, 1, 0x0, 0x0, 0x0, 0x0, 0x0, 0x0, 0x0, 0⟩,
  ⟨"HG_PL_COLL", 0xE20, 0x8, 1, 0x0, 0x0, 0x0, 0x0, 0x0, 0x0, 0x0, 0⟩,
  ⟨"HG_PL_EMPTY", 0xE28, 0x8, 1, 0x0, 0x0, 0x0, 0x0, 0x0, 0x0, 0x0, 0⟩,
  ⟨"HG_PL_STAGE", 0xE30, 0x8, 1, 0x0, 0x0, 0x3FF, 0x0, 0x0, 0x0, 0x0, 0⟩,
  ⟨"HG_ILV_MAP", 0xE80, 0x8, 2, 0x0, 0x0, 0xFFFFFFFFFFFFFFFF, 0x0, 0x0, 0x0, 0x0, 7⟩,
  ⟨"HG_DOM_CLOSE", 0xEA0, 0x8, 1, 0x0, 0x0, 0xFFFFFFFF, 0x0, 0x0, 0x0, 0x0, 0⟩,
  ⟨"HG_DOM_STATUS", 0xEA8, 0x8, 1, 0x0, 0x0, 0x0, 0x0, 0x0, 0x0, 0x2, 0⟩,
  ⟨"HG_SLUICE", 0xEB0, 0x8, 1, 0x0, 0x0, 0x0, 0x0, 0x80000000, 0x0, 0x0, 0⟩,
  ⟨"HG_DOM_OFF_CNT", 0xEB8, 0x8, 1, 0x0, 0x0, 0x0, 0x0, 0x0, 0x0, 0x0, 0⟩]

/-- The registers of the headgate block, continued. -/
def regs_headgate2 : List RegSpec := [
  ⟨"HG_DOM_OFF_POST", 0xEC0, 0x8, 1, 0x0, 0x0, 0x0, 0x0, 0x0, 0x0, 0x0, 0⟩,
  ⟨"HG_CLOSED_CNT", 0xEC8, 0x8, 1, 0x0, 0x0, 0x0, 0x0, 0x0, 0x0, 0x0, 0⟩,
  ⟨"HG_DEC_SLOT_w0", 0x1000, 0x10, 160, 0x0, 0x0, 0xC000FFFFFFFFFFC0, 0x0, 0x0, 0x0, 0x0, 0⟩,
  ⟨"HG_DEC_SLOT_w1", 0x1008, 0x10, 160, 0x0, 0x0, 0xFFFFFFFFFFC0, 0x0, 0x0, 0x0, 0x0, 0⟩,
  ⟨"HG_ATTACH_k", 0x1A00, 0x8, 160, 0x0, 0x0, 0x80000000000003FF, 0x0, 0x0, 0x0, 0x0, 0⟩,
  ⟨"HG_LINK_CFG", 0x1F00, 0x8, 1, 0x0, 0x0, 0x3FFFFFFF, 0x0, 0x0, 0x0, 0x29100400, 0⟩,
  ⟨"HG_ATTACH", 0x1F08, 0x8, 1, 0x0, 0x0, 0x303, 0x40, 0xC00, 0x0, 0x2, 0⟩,
  ⟨"HG_LEVEE", 0x1F10, 0x8, 1, 0x0, 0x0, 0x7, 0x0, 0x0, 0x0, 0x0, 0⟩,
  ⟨"HG_TGT_TMO", 0x1F18, 0x8, 1, 0x0, 0x0, 0xFFF, 0x1000, 0x0, 0x0, 0x1F4, 0⟩,
  ⟨"HG_DEAD_DEST", 0x1F20, 0x8, 3, 0x0, 0x0, 0xFFFFFFFFFFFFFFFF, 0x0, 0x0, 0x0, 0x0, 0⟩,
  ⟨"HG_PAIR_RESET", 0x1F38, 0x8, 1, 0x0, 0x0, 0x4FF, 0x0, 0x0, 0x100, 0x0, 0⟩,
  ⟨"HG_WPT_HIT", 0x1F40, 0x8, 1, 0x0, 0x0, 0x0, 0x10, 0x0, 0x0, 0x0, 0⟩,
  ⟨"HG_SIPHON_TD", 0x1F48, 0x8, 1, 0x0, 0x0, 0x0, 0x0, 0x0, 0x0, 0x0, 0⟩,
  ⟨"HG_SIPHON_POST", 0x1F50, 0x8, 1, 0x0, 0x0, 0x0, 0x0, 0x0, 0x0, 0x0, 0⟩,
  ⟨"HG_LEVEE_LATE", 0x1F58, 0x8, 1, 0x0, 0x0, 0x0, 0x0, 0x0, 0x0, 0x0, 0⟩,
  ⟨"HG_TGT_TMO_CNT", 0x1F60, 0x8, 1, 0x0, 0x0, 0x0, 0x0, 0x0, 0x0, 0x0, 0⟩,
  ⟨"HG_FAILOVER_CNT", 0x1F68, 0x8, 1, 0x0, 0x0, 0x0, 0x0, 0x0, 0x0, 0x0, 0⟩,
  ⟨"HG_TRSP_BADOUT", 0x1F70, 0x8, 1, 0x0, 0x0, 0x0, 0x0, 0x0, 0x0, 0x0, 0⟩,
  ⟨"HG_WRP_CUT", 0x1F78, 0x8, 1, 0x0, 0x0, 0x0, 0x0, 0x0, 0x0, 0x0, 0⟩,
  ⟨"HG_WAYPT", 0x1F80, 0x8, 16, 0x0, 0x0, 0x8000000000FFFFFF, 0x0, 0x0, 0x0, 0x0, 0⟩,
  ⟨"HG_PROT_BASE", 0x2000, 0x8, 1, 0x0, 0xFFFFFFFFFFC0, 0x0, 0x0, 0x0, 0x0, 0x0, 0⟩,
  ⟨"HG_PROT_SIZE", 0x2008, 0x8, 1, 0x0, 0xFFFFFFFFFFC0, 0x0, 0x0, 0x0, 0x0, 0x0, 0⟩,
  ⟨"HG_PROT_CTRL", 0x2010, 0x8, 1, 0x0, 0x3, 0x0, 0x0, 0x0, 0x0, 0x0, 0⟩,
  ⟨"HG_PROT_DRAIN", 0x2018, 0x8, 1, 0x0, 0x0, 0x0, 0x0, 0x0, 0x0, 0x0, 0⟩]

/-- The registers of the headgate block, continued. -/
def regs_headgate3 : List RegSpec := [
  ⟨"HG_PROT_DENY", 0x2020, 0x8, 1, 0x0, 0x0, 0x0, 0x0, 0x0, 0x0, 0x0, 0⟩,
  ⟨"HG_PROT_PREFUSE", 0x2028, 0x8, 1, 0x0, 0x0, 0x0, 0x0, 0x0, 0x0, 0x0, 0⟩,
  ⟨"HG_PROT_LAST", 0x2030, 0x8, 1, 0x0, 0x0, 0x0, 0x0, 0x0, 0x0, 0x0, 0⟩,
  ⟨"HG_PROT_RIGHTS", 0x2100, 0x8, 64, 0x0, 0x1F, 0x0, 0x0, 0x0, 0x0, 0x0, 0⟩,
  ⟨"HG_PROT_GROUP", 0x2400, 0x8, 160, 0x0, 0x3F, 0x0, 0x0, 0x0, 0x0, 0x0, 0⟩,
  ⟨"HG_PL_ENTRY", 0x3000, 0x8, 256, 0x0, 0x0, 0x81FFFFFFFFFFFFFF, 0x0, 0x0, 0x0, 0x0, 0⟩,
  ⟨"HG_PL_SET", 0x3800, 0x8, 128, 0x0, 0x0, 0xFFFFFFFFFFFFFFFF, 0x0, 0x0, 0x0, 0xFFFFFFFFFFFFFFFF, 0⟩,
  ⟨"HG_PL_CHAN", 0x3C00, 0x8, 128, 0x0, 0x0, 0x800000FFFFFFFFFF, 0x0, 0x0, 0x0, 0x1200000, 0⟩]

/-- The registers of the headgate block. -/
def regs_headgate : List RegSpec := regs_headgate0 ++ regs_headgate1 ++ regs_headgate2 ++ regs_headgate3

/-- The register list of a block. -/
def Blk.regs : Blk → List RegSpec
  | .global => regs_global | .clock => regs_clock | .mailbox => regs_mailbox | .probe => regs_probe
  | .slice => regs_slice | .reservoir => regs_reservoir | .router => regs_router | .headgate => regs_headgate
  | .none => [] | .riderPrivate => []

/-- Row `r` holds the register at local offset `lo`. -/
def RegSpec.holds (r : RegSpec) (lo : Nat) : Bool :=
  decide (r.off ≤ lo) && decide ((lo - r.off) % r.stride = 0) && decide ((lo - r.off) / r.stride < r.cnt)

/-- The register at FCS offset `off`, with its block instance and its index in its row (R453: none where the lists name none). -/
def regAt (off : Nat) : Option (RegSpec × Nat × Nat) :=
  let (b, inst, lo) := fcsLocate off
  match b.regs.find? (fun r => r.holds lo) with
  | some r => some (r, inst, (lo - r.off) / r.stride)
  | none => none

/-- The fixed build of a headgate: the primary attachment's router index (R16). -/
def primaryRouter (n : Nat) : Nat := if n < 100 then n else n - 80

/-- The node value of router index `i` (R11): y in [7:4], x in [3:0]. -/
def nodeOf (i : Nat) : Nat := (i / 10) * 16 + i % 10

/-- The headgates that present no HAI: home slices, Reservoir ports and the Rider (R27). -/
def hasHai (n : Nat) : Bool := !(decide (100 ≤ n) && decide (n ≤ 124)) && decide (n ≠ 151)

/-- The caching variant stands at 40..55 (R28). -/
def isCaching (n : Nat) : Bool := decide (40 ≤ n) && decide (n ≤ 55)

/-- The value a register takes at reset (R459, the Reset columns), for the instances whose value differs included. The
fuse fields read zero until step 1 of Table 17-2 samples the fuses (log entry 3). -/
def regReset (off : Nat) : Word :=
  match regAt off with
  | none => 0
  | some (r, inst, i) =>
    BitVec.ofNat 64 (
      match r.per with
      | 1 => nodeOf inst + inst * 256
      | 2 => inst + (100 + inst) * 256
      | 3 => if inst < 16 then 1 else 0
      | 4 => i % 8 + 8
      | 5 => inst + nodeOf (primaryRouter inst) * 256
      | 6 => r.reset + 4 * b2n (isCaching inst) + 8 * b2n (hasHai inst)
      | 7 => if i = 0 then 0x6B6A696867666564 else 0x737271706F6E6D6C
      | 8 => if inst < 2 then 149 + inst + 0x2C000 else 0
      | _ => r.reset)

/-- Block bases of the instances (R10, R15, R22, R365). -/
def hgBase (n : Nat) : Nat := 0x200000 + n * 0x4000
def rtBase (i : Nat) : Nat := 0x100000 + i * 0x1000
def hsBase (s : Nat) : Nat := 0x080000 + s * 0x4000
def mbBase (m : Nat) : Nat := 0x020000 + m * 0x1000

namespace Reg

def GL_IDENT : Nat := 0x0
def GL_LIFECYCLE : Nat := 0x8
def GL_BOOT : Nat := 0x10
def GL_UNIT_RESET : Nat := 0x18
def GL_IRQ_STATUS : Nat := 0x20
def GL_FCS_PORT : Nat := 0x28
def GL_FCS_REFUSE : Nat := 0x30
def GL_RIDER_STATUS : Nat := 0x100
def GL_RIDER_WDOG : Nat := 0x108
def GL_RIDER_RESTARTS : Nat := 0x110
def GL_FW_KEYS : Nat := 0x118
def CK_STATUS : Nat := 0x10000
def CK_SUPPLY_EVT : Nat := 0x10008
def CK_HOLD_CFG : Nat := 0x10010
def CK_HOLD_CNT : Nat := 0x10018
def CK_MERGE : Nat := 0x10020
def CK_WAKE_PEND : Nat := 0x10028
def CK_DOM (k : Nat) : Nat := 0x10100 + 8 * k
def CK_TURN_CFG : Nat := 0x10800
def CK_TURN_STATUS : Nat := 0x10808
def CK_TURN_SKIP : Nat := 0x10810
def CK_TURN_LATE : Nat := 0x10818
def CK_TIME_SEC : Nat := 0x10820
def CK_TIME_NS : Nat := 0x10828
def CK_HG_DOM (k : Nat) : Nat := 0x11000 + 8 * k
def MB_CMD (m k : Nat) : Nat := mbBase m + 0x0 + 8 * k
def MB_RSP (m k : Nat) : Nat := mbBase m + 0x40 + 8 * k
def MB_DOORBELL (m : Nat) : Nat := mbBase m + 0x80
def MB_STATUS (m : Nat) : Nat := mbBase m + 0x88
def MB_BIND (m : Nat) : Nat := mbBase m + 0x90
def MB_CUR (m : Nat) : Nat := mbBase m + 0x98
def MB_OVERRUN (m : Nat) : Nat := mbBase m + 0xA0
def PR_CTL : Nat := 0x40000
def PR_STATUS : Nat := 0x40008
def PR_TIME : Nat := 0x40010
def PR_TRACE_WEIR : Nat := 0x40018
def PR_ALARM_STATUS : Nat := 0x40020
def PR_ALARM_RX : Nat := 0x40028
def PR_TRACE_OUT : Nat := 0x40030
def PR_SECRET_MAP (k : Nat) : Nat := 0x40040 + 8 * k
def PR_PRB_CTL (k : Nat) : Nat := 0x41000 + 0x40 * k
def PR_PRB_STAT (k : Nat) : Nat := 0x41008 + 0x40 * k
def PR_PRB_HITS (k : Nat) : Nat := 0x41010 + 0x40 * k
def PR_PRB_DROP (k : Nat) : Nat := 0x41018 + 0x40 * k
def PR_CAM_MATCH (k : Nat) : Nat := 0x42000 + 16 * k
def PR_CAM_MASK (k : Nat) : Nat := 0x42008 + 16 * k
def PR_BANK (k : Nat) : Nat := 0x42800 + 8 * k
def PR_RTO_CFG (k : Nat) : Nat := 0x44000 + 0x20 * k
def PR_RTO_FLITS (k : Nat) : Nat := 0x44008 + 0x20 * k
def PR_RTO_EVENT (k : Nat) : Nat := 0x44010 + 0x20 * k
def PR_HGO_CFG (k : Nat) : Nat := 0x4C000 + 0x20 * k
def PR_HGO_INJ (k : Nat) : Nat := 0x4C008 + 0x20 * k
def PR_HGO_EJ (k : Nat) : Nat := 0x4C010 + 0x20 * k
def PR_HGO_EVENT (k : Nat) : Nat := 0x4C018 + 0x20 * k
def HS_ID (s : Nat) : Nat := hsBase s + 0x0
def HS_CFG (s : Nat) : Nat := hsBase s + 0x8
def HS_STATUS (s : Nat) : Nat := hsBase s + 0x10
def HS_TMO_CFG (s : Nat) : Nat := hsBase s + 0x18
def HS_DEAD_MASK (s : Nat) : Nat := hsBase s + 0x20
def HS_SWEEP (s : Nat) : Nat := hsBase s + 0x28
def HS_CENSUS_CFG (s : Nat) : Nat := hsBase s + 0x30
def HS_CENSUS (s : Nat) : Nat := hsBase s + 0x38
def HS_TRACK (s : Nat) : Nat := hsBase s + 0x40
def HS_UNBUILT (s k : Nat) : Nat := hsBase s + 0x100 + 8 * k
def HS_DIR_SEL (s : Nat) : Nat := hsBase s + 0x200
def HS_DIR_ENTRY (s : Nat) : Nat := hsBase s + 0x208
def HS_DIR_EVICT (s : Nat) : Nat := hsBase s + 0x300
def HS_BINV (s : Nat) : Nat := hsBase s + 0x308
def HS_PIN_WAIT (s : Nat) : Nat := hsBase s + 0x310
def HS_TMO_CNT (s : Nat) : Nat := hsBase s + 0x318
def HS_POISON (s : Nat) : Nat := hsBase s + 0x320
def HS_DIR_CORR (s : Nat) : Nat := hsBase s + 0x328
def HS_DIR_UNCORR (s : Nat) : Nat := hsBase s + 0x330
def HS_ATOM (s : Nat) : Nat := hsBase s + 0x338
def HS_CENSUS_SNP (s : Nat) : Nat := hsBase s + 0x340
def HS_STALE_RPL (s : Nat) : Nat := hsBase s + 0x348
def HS_COH_CFG (s : Nat) : Nat := hsBase s + 0x400
def HS_COH_STALE (s : Nat) : Nat := hsBase s + 0x408
def HS_COH_UPG_FAIL (s : Nat) : Nat := hsBase s + 0x410
def HS_COH_BCAST (s : Nat) : Nat := hsBase s + 0x418
def HS_COH_PROTO (s : Nat) : Nat := hsBase s + 0x420
def HS_COH_HOLD_WAIT (s : Nat) : Nat := hsBase s + 0x428
def RV_CFG : Nat := 0xD0000
def RV_LOCK_CFG : Nat := 0xD0008
def RV_SCRUB_CFG : Nat := 0xD0010
def RV_STATUS : Nat := 0xD0018
def RV_BANK_PARK (k : Nat) : Nat := 0xD0100 + 8 * k
def RV_ARB_STATE (k : Nat) : Nat := 0xD0400 + 8 * k
def RV_LOCK (k : Nat) : Nat := 0xD0600 + 8 * k
def RV_LOCK_GRANT : Nat := 0xD0800
def RV_LOCK_REVOKE : Nat := 0xD0808
def RV_LOCK_LOST : Nat := 0xD0810
def RV_LOCK_WAIT : Nat := 0xD0818
def RV_ATOM : Nat := 0xD0820
def RV_SRAM_CORR : Nat := 0xD0828
def RV_SRAM_UNCORR : Nat := 0xD0830
def RV_RMW : Nat := 0xD0838
def RV_SCRUB_PASS : Nat := 0xD0840
def RT_ID (i : Nat) : Nat := rtBase i + 0x0
def RT_CTRL (i : Nat) : Nat := rtBase i + 0x8
def RT_ARB_CFG (i : Nat) : Nat := rtBase i + 0x10
def RT_LINK_CFG (i : Nat) : Nat := rtBase i + 0x18
def RT_PORT_STATUS (i : Nat) : Nat := rtBase i + 0x20
def RT_FAULT (i : Nat) : Nat := rtBase i + 0x28
def RT_HOP_ERR (i k : Nat) : Nat := rtBase i + 0x100 + 8 * k
def RT_HDR_DROP (i : Nat) : Nat := rtBase i + 0x140
def RT_PURGE (i : Nat) : Nat := rtBase i + 0x148
def RT_GUA_COLL (i : Nat) : Nat := rtBase i + 0x150
def RT_TRUNC (i : Nat) : Nat := rtBase i + 0x158
def RT_WITHDRAW (i : Nat) : Nat := rtBase i + 0x160
def RT_MAP_MISM (i : Nat) : Nat := rtBase i + 0x168
def RT_SRAM_CORR (i : Nat) : Nat := rtBase i + 0x170
def RT_LOCAL_MAP (i : Nat) : Nat := rtBase i + 0x200
def RT_NBR_MAP (i k : Nat) : Nat := rtBase i + 0x208 + 8 * k
def RT_ARB_STATE (i k : Nat) : Nat := rtBase i + 0x300 + 8 * k
def HG_ID (n : Nat) : Nat := hgBase n + 0x0
def HG_CFG (n : Nat) : Nat := hgBase n + 0x8
def HG_EPOCH (n : Nat) : Nat := hgBase n + 0x10
def HG_RSP_POOL (n : Nat) : Nat := hgBase n + 0x18
def HG_STATUS (n : Nat) : Nat := hgBase n + 0x20
def HG_LOCK (n : Nat) : Nat := hgBase n + 0x28
def HG_ADMIT (n : Nat) : Nat := hgBase n + 0x30
def HG_COH_UNMATCHED (n : Nat) : Nat := hgBase n + 0x38
def HG_EPOCH_CNT (n k : Nat) : Nat := hgBase n + 0x40 + 8 * k
def HG_HAI_ABORT (n : Nat) : Nat := hgBase n + 0x100
def HG_HAI_DISCARD (n : Nat) : Nat := hgBase n + 0x108
def HG_POST_REFUSE (n : Nat) : Nat := hgBase n + 0x110
def HG_SOURCE_RESET (n : Nat) : Nat := hgBase n + 0x118
def HG_DECODE_FAULT (n : Nat) : Nat := hgBase n + 0x120
def HG_CHK_OPEN (n : Nat) : Nat := hgBase n + 0x128
def HG_E2E_CFG (n : Nat) : Nat := hgBase n + 0x130
def HG_REPLAY_CMD (n : Nat) : Nat := hgBase n + 0x138
def HG_REPLAY_STATUS (n : Nat) : Nat := hgBase n + 0x140
def HG_PAIR_SEL (n : Nat) : Nat := hgBase n + 0x148
def HG_PAIR_TX (n : Nat) : Nat := hgBase n + 0x150
def HG_PAIR_RX (n : Nat) : Nat := hgBase n + 0x158
def HG_E2E_STATUS (n : Nat) : Nat := hgBase n + 0x160
def HG_ECRC_FAIL (n : Nat) : Nat := hgBase n + 0x168
def HG_DUP_DROP (n : Nat) : Nat := hgBase n + 0x170
def HG_RESEQ_DROP (n : Nat) : Nat := hgBase n + 0x178
def HG_SEQ_FAULT (n : Nat) : Nat := hgBase n + 0x180
def HG_REPLAY_PKTS (n : Nat) : Nat := hgBase n + 0x188
def HG_ENAK_TX (n : Nat) : Nat := hgBase n + 0x190
def HG_ENAK_RX (n : Nat) : Nat := hgBase n + 0x198
def HG_CMT_TIMEOUT (n : Nat) : Nat := hgBase n + 0x1A0
def HG_CMT_INVALID (n : Nat) : Nat := hgBase n + 0x1A8
def HG_STORE_CORR (n : Nat) : Nat := hgBase n + 0x1B0
def HG_STORE_UNCORR (n : Nat) : Nat := hgBase n + 0x1B8
def HG_WEIR (n k : Nat) : Nat := hgBase n + 0x200 + 8 * k
def HG_ALLOT (n k : Nat) : Nat := hgBase n + 0x400 + 8 * k
def HG_GRANT (n k : Nat) : Nat := hgBase n + 0x900 + 8 * k
def HG_PL_CH_SEL (n : Nat) : Nat := hgBase n + 0xE00
def HG_PL_CH_STAT (n : Nat) : Nat := hgBase n + 0xE08
def HG_PL_STATUS (n : Nat) : Nat := hgBase n + 0xE10
def HG_PL_TURN (n : Nat) : Nat := hgBase n + 0xE18
def HG_PL_COLL (n : Nat) : Nat := hgBase n + 0xE20
def HG_PL_EMPTY (n : Nat) : Nat := hgBase n + 0xE28
def HG_PL_STAGE (n : Nat) : Nat := hgBase n + 0xE30
def HG_ILV_MAP (n k : Nat) : Nat := hgBase n + 0xE80 + 8 * k
def HG_DOM_CLOSE (n : Nat) : Nat := hgBase n + 0xEA0
def HG_DOM_STATUS (n : Nat) : Nat := hgBase n + 0xEA8
def HG_SLUICE (n : Nat) : Nat := hgBase n + 0xEB0
def HG_DOM_OFF_CNT (n : Nat) : Nat := hgBase n + 0xEB8
def HG_DOM_OFF_POST (n : Nat) : Nat := hgBase n + 0xEC0
def HG_CLOSED_CNT (n : Nat) : Nat := hgBase n + 0xEC8
def HG_DEC_SLOT_w0 (n k : Nat) : Nat := hgBase n + 0x1000 + 16 * k
def HG_DEC_SLOT_w1 (n k : Nat) : Nat := hgBase n + 0x1008 + 16 * k
def HG_ATTACH_k (n k : Nat) : Nat := hgBase n + 0x1A00 + 8 * k
def HG_LINK_CFG (n : Nat) : Nat := hgBase n + 0x1F00
def HG_ATTACH (n : Nat) : Nat := hgBase n + 0x1F08
def HG_LEVEE (n : Nat) : Nat := hgBase n + 0x1F10
def HG_TGT_TMO (n : Nat) : Nat := hgBase n + 0x1F18
def HG_DEAD_DEST (n k : Nat) : Nat := hgBase n + 0x1F20 + 8 * k
def HG_PAIR_RESET (n : Nat) : Nat := hgBase n + 0x1F38
def HG_WPT_HIT (n : Nat) : Nat := hgBase n + 0x1F40
def HG_SIPHON_TD (n : Nat) : Nat := hgBase n + 0x1F48
def HG_SIPHON_POST (n : Nat) : Nat := hgBase n + 0x1F50
def HG_LEVEE_LATE (n : Nat) : Nat := hgBase n + 0x1F58
def HG_TGT_TMO_CNT (n : Nat) : Nat := hgBase n + 0x1F60
def HG_FAILOVER_CNT (n : Nat) : Nat := hgBase n + 0x1F68
def HG_TRSP_BADOUT (n : Nat) : Nat := hgBase n + 0x1F70
def HG_WRP_CUT (n : Nat) : Nat := hgBase n + 0x1F78
def HG_WAYPT (n k : Nat) : Nat := hgBase n + 0x1F80 + 8 * k
def HG_PROT_BASE (n : Nat) : Nat := hgBase n + 0x2000
def HG_PROT_SIZE (n : Nat) : Nat := hgBase n + 0x2008
def HG_PROT_CTRL (n : Nat) : Nat := hgBase n + 0x2010
def HG_PROT_DRAIN (n : Nat) : Nat := hgBase n + 0x2018
def HG_PROT_DENY (n : Nat) : Nat := hgBase n + 0x2020
def HG_PROT_PREFUSE (n : Nat) : Nat := hgBase n + 0x2028
def HG_PROT_LAST (n : Nat) : Nat := hgBase n + 0x2030
def HG_PROT_RIGHTS (n k : Nat) : Nat := hgBase n + 0x2100 + 8 * k
def HG_PROT_GROUP (n k : Nat) : Nat := hgBase n + 0x2400 + 8 * k
def HG_PL_ENTRY (n k : Nat) : Nat := hgBase n + 0x3000 + 8 * k
def HG_PL_SET (n k : Nat) : Nat := hgBase n + 0x3800 + 8 * k
def HG_PL_CHAN (n k : Nat) : Nat := hgBase n + 0x3C00 + 8 * k

end Reg

end Sys2Proof.Machine
end

