-- ==== Sys2Proof/Machine/State.lean ====
section
/-! DEFINITION. The state of the fabric as plain data: every register of the fabric control space in one sparse file, and
the stores, queues, counters, modes and pins that stand behind them. -/

namespace Sys2Proof.Machine

/-- No event of this block stops the machine with a fault: every rule of the manual gives its event an effect. -/
inductive Fault where
  deriving DecidableEq, Repr

/-- Why a command has no meaning. -/
inductive Refusal where
  /-- Raised by an arm of `exec` for a command not modelled yet. Safe. -/
  | notModelled (mnemonic : String)
  /-- Raised by a channel command at a headgate that presents no HAI (R27): the channel does not exist. Safe. -/
  | noHai
  /-- Raised by a snoop channel command at a headgate whose HAI is not the caching variant (R28). Safe. -/
  | notCaching
  deriving DecidableEq, Repr

/-! ### Packets and flits -/

/-- The transaction header by fields (Table 3-3). -/
structure Header where
  op : BitVec 8
  src : BitVec 8
  dst : BitVec 8
  dnode : BitVec 8
  wnode : BitVec 8
  wpv : BitVec 1
  epoch : BitVec 4
  seq : BitVec 16
  outcome : BitVec 4
  attr : BitVec 8
  ctx : BitVec 6
  tag : BitVec 8
  bytes : BitVec 9
  aop : BitVec 4
  done : BitVec 10
  state : BitVec 2
  xinfo : BitVec 32
  addr : BitVec 48
  deriving DecidableEq, Repr

/-- A packet as held in a store: header, head extension (payload bits [511:192], R83) and data beats with poison. -/
structure Pkt where
  hdr : Header
  ext : BitVec 320
  data : List DBeat
  deriving DecidableEq, Repr

/-- A flit on a link: control word and payload (R82). -/
structure Flit where
  fcw : BitVec 64
  payload : Line
  deriving DecidableEq, Repr

/-- A whole packet at the receive side of a headgate, before the checks of R100: its flits, head first, the VC it came on, and whether
its head was admitted (R173). -/
structure RawPkt where
  flits : List Flit
  vc : Nat
  stored : Bool
  deriving DecidableEq, Repr

/-! ### Headgate, initiator side -/

/-- Where decode sends a part (R136). -/
inductive Target where
  | hg (t : Nat)
  | none
  | overlap (a b : Nat)
  deriving DecidableEq, Repr

/-- A part of a request (R136): its target, first byte and length minus one, and the outcome given in the source headgate at
decode where the part never enters the mesh (R137, R145, R469). -/
structure Part where
  target : Target
  lo : Addr
  bytes : BitVec 9
  loc : Option (BitVec 4)
  deriving DecidableEq, Repr

/-- What steps 1 to 3 of R132 found for a request transferred on REQ; `held` names the closed domains it waits for. -/
inductive Verdict where
  | ok
  | malformed
  | closed
  | held (ds : List Nat)
  deriving DecidableEq, Repr

/-- A request transferred on REQ and not yet answered by ACC (R44): the beats taken, the beats its opcode brings, and whether its
last beat has been transferred (R41). -/
structure PendReq where
  req : Req
  beats : List Beat
  need : Nat
  whole : Bool
  verdict : Verdict
  parts : List Part
  absorb : Bool
  deriving DecidableEq, Repr

/-- The last ACC signalled (Table 2-1). -/
structure AccOut where
  ctx : Ctx
  tag : Tag
  closed : Bool
  deriving DecidableEq, Repr

/-- The state of one part of an accepted transaction at its source: where it went, the blocks reserved for its response,
and what came back, with the source, sequence number and arrival number of the response. -/
structure PartSt where
  target : Nat
  lo : Addr
  bytes : BitVec 9
  blocks : Nat
  outcome : Option (BitVec 4)
  done : Nat
  state : BitVec 2
  data : List DBeat
  from_ : Nat
  seq : Seq
  arrival : Nat
  deriving DecidableEq, Repr

/-- A transaction accepted and not ended (R48). `sent` counts the RSP beats transferred. -/
structure Txn where
  id : Nat
  req : Req
  tag : Tag
  born : BitVec 4
  posted : Bool
  parts : List PartSt
  sent : Nat
  absorb : Bool
  deriving DecidableEq, Repr

/-- The lock state of a context at its source (Table 2-10). -/
inductive SrcLock where
  | free
  | waiting
  | held
  deriving DecidableEq, Repr

/-- A context: tag count (R47), lock state with its target and the transaction of the RDLK sent there (R58), and whether it waits for
pre-reset outcomes (R76). -/
structure CtxSt where
  tag : Tag
  lock : SrcLock
  lockTgt : Nat
  lockAddr : Addr
  lockTxn : Nat
  reopening : Bool
  deriving DecidableEq, Repr

/-- The kinds of packets a replay store holds. -/
inductive PktKind where
  | req
  | rsp
  | snp
  | gua
  deriving DecidableEq, Repr

/-- A packet in the replay store (R170): whether it still waits for its first injection, the epoch it was born under, the
stamps of its unresolved injections, the transaction it belongs to, and for a guaranteed packet its pending mask, its due
mask, the headgate that owns each bit, and the pulse of its last injection (R213, R214). `ahead` marks the UNLK of R161, which no earlier FENCE stops;
`lost` a packet both of whose header copies are uncorrectable (R189). -/
structure StPkt where
  pkt : Pkt
  kind : PktKind
  dst : Nat
  waiting : Bool
  born : BitVec 4
  stamps : List (BitVec 4)
  txn : Nat
  ahead : Bool
  owners : List Nat
  pend : BitVec 16
  due : BitVec 16
  lastTurn : Nat
  accAt : Nat
  lost : Bool
  deriving DecidableEq, Repr

/-- The sending state toward one destination (Table 6-9, R182, R183). `cursor` is the next SEQ of the active pass. -/
structure PairTx where
  next : Seq
  oldest : Seq
  pass : Bool
  cursor : Seq
  passDue : Bool
  pending : Bool
  stalls : Nat
  stalled : Bool
  timerAt : Nat
  deriving DecidableEq, Repr

/-- The receiving state from one source (Table 6-10, R176, R179, R147). -/
structure PairRx where
  next : Seq
  cseqSent : Seq
  held : List Pkt
  since : Nat
  firstAt : Option Nat
  ecmtAt : Option Nat
  enakAt : Option Nat
  freed : Nat
  freedAt : Option Nat
  credAt : Option Nat
  credRepeat : Bool
  deriving DecidableEq, Repr

/-! ### Headgate, target side -/

/-- The phase of a request-store entry (R153, R155): waiting to be presented, presented and awaiting its beats or its TRSP,
released to MSGIN, taken by a home or a Reservoir port, and answered but waiting for replay-store room for the answer. -/
inductive Phase where
  | waiting
  | presented
  | message
  | inside
  | answer
  deriving DecidableEq, Repr

/-- A chunk of a request at a Reservoir port (R283): its range, its place in the order in which accesses reached the bank's
lock manager, whether the manager held it, presented it and it was sent, the beats granted and performed, and its result. -/
structure Chunk where
  lo : Addr
  bytes : BitVec 9
  reach : Option Nat
  held : Bool
  passed : Bool
  sent : Bool
  beats : Nat
  granted : Nat
  data : List DBeat
  performed : Nat
  outcome : Option (BitVec 4)
  done : Nat
  deriving DecidableEq, Repr

/-- A request-store entry: the packet, the range allowed by the protection slot (R302), whether part of it was denied,
whether a rule write marked it (R312), and its progress. `chunks` are the bank chunks of a Reservoir port, cut when
the port first takes the request. -/
structure Entry where
  id : Nat
  pkt : Pkt
  lo : Addr
  bytes : BitVec 9
  partDenied : Bool
  checked : Bool
  marked : Bool
  phase : Phase
  treqId : Option Nat
  beatsLeft : Nat
  arrivedAt : Nat
  presentedAt : Option Nat
  broken : Bool
  chunks : List Chunk
  outcome : BitVec 4
  doneBytes : Nat
  rdata : List DBeat
  noWrite : Bool
  deriving DecidableEq, Repr

/-- A lock manager (R159): owner, BROKEN and the cycle its timer expires in (none when stopped). -/
structure LockMgr where
  owner : Option (Nat × Ctx)
  broken : Bool
  timer : Option Nat
  deriving DecidableEq, Repr

/-- A packet waiting on MSGIN, with the beats already transferred (R56); a MSG names its entry, a guaranteed packet its
channel record. -/
structure MsgIn where
  src : BitVec 8
  tag : BitVec 12
  bytes : BitVec 9
  gua : Bool
  data : List DBeat
  sent : Nat
  entry : Option Nat
  chanRec : Nat
  deriving DecidableEq, Repr

/-- A snoop waiting for, or under, presentation (R68, R70). -/
structure SnoopSt where
  pkt : Pkt
  arrival : Nat
  presented : Bool
  deriving DecidableEq, Repr

/-- One end of a link (R126, R127): the heartbeat counts, the time of the last correct heartbeat, the error window, whether
the first heartbeat after enabling is still due, and the credits of the sending side. -/
structure LinkEnd where
  hbSent : BitVec 16
  hbSeen : BitVec 16
  hbFirst : Bool
  hbAt : Nat
  winErrs : Nat
  winStart : Nat
  credits : List Nat
  deriving DecidableEq, Repr

/-- The dynamic state of a channel record of a headgate (Table 7-10, R204, R209): `held` are the packets held ahead, and
`relay` those held for relay, each with the cycle it came in, `peer` the channel's source. -/
structure ChanSt where
  demoted : Bool
  seq : Seq
  late : Nat
  drop : Nat
  held : List Pkt
  buffered : Nat
  relay : List (Nat × Pkt)
  commitTurn : Bool
  peer : Nat
  ecmtAt : Option Nat
  enakAt : Option Nat
  deriving DecidableEq, Repr

/-- What the REQ, WDATA, TREQ and further output channels of an HAI last carried, as the agent saw it. -/
inductive HaiOut where
  | none
  | rsp (c : Ctx) (tag : Tag) (outcome : BitVec 4) (done : Nat) (state : BitVec 2) (data : DBeat) (last : Bool)
  | msgin (src : BitVec 8) (tag : BitVec 12) (bytes : BitVec 9) (gua : Bool) (data : DBeat) (last : Bool)
  | treq (op : BitVec 8) (id : BitVec 9) (src : BitVec 8) (c : Ctx) (addr : Addr) (bytes : BitVec 9) (aop : BitVec 4)
      (secret locked : Bool)
  | twdata (b : Beat) (last : Bool)
  | snp (op : BitVec 8) (line : BitVec 42) (txn : BitVec 16) (req : BitVec 8)
  deriving DecidableEq, Repr

/-- Everything of a headgate that is not in its register block. `pulseAt` is the cycle of the last pulse, `wheelAt` that in which
the wheel counter last started; `dead` is the cycle in which the dead cycle after an aborting beat ends (R74); `rxDrop` are the packets
arriving whose heads found no room (R173); `missed` are the firings of turns without a wheel whose packets are late (R199): at a relay
entry or not, channel, and cycle. -/
structure Headgate where
  reqs : List PendReq
  acc : Option AccOut
  dead : Option Nat
  out : HaiOut
  ctxs : Tab CtxSt
  txns : List Txn
  cackWait : List (Ctx × Tag × Nat × Addr)
  taken : Tab Nat
  nextId : Nat
  arrivals : Nat
  store : List StPkt
  tx : Tab PairTx
  rx : Tab PairRx
  poolUsed : Nat
  cmtIn : List Pkt
  gdataIn : List Pkt
  homeIn : List Pkt
  overAllot : List Pkt
  rxAsm : Tab (List Flit)
  rxDrop : List Nat
  rxPkts : List RawPkt
  entries : List Entry
  nextEntry : Nat
  leveeBelow : Nat
  lock : LockMgr
  staleIds : List Nat
  twdata : List (Nat × List Beat)
  msgin : List MsgIn
  snoops : List SnoopSt
  links : Tab LinkEnd
  portLive : Bool
  liveCycled : Nat
  liveFellAt : Option Nat
  pwrReq : Bool
  pwrAck : Bool
  wake : Bool
  aclkEn : Bool
  aclkDivInUse : Nat
  wakeHeld : Option Nat
  hold : Bool
  scrubReplay : Option Nat
  scrubReseq : Option Nat
  chans : Tab ChanSt
  pulseAt : Option Nat
  turn : Nat
  wheelAt : Option Nat
  wheelOff : Bool
  missed : List (Bool × Nat × Nat)
  fired : List Nat
  injBusyUntil : Nat
  injEntry : Nat
  passTurn : Bool
  deriving DecidableEq, Repr

/-! ### Routers -/

/-- The arbiter of R118. -/
structure Arb where
  age : List Nat
  wait : List Nat
  ratchet : List Nat
  park : Nat
  parkV : Bool
  hold : Option Nat
  holdVc : Nat
  holdFlits : Nat
  gcount : Nat
  deriving DecidableEq, Repr

/-- A flit in a router's input buffer (R103): the outputs it still has to be copied to with the mask of each, its channel on
the output, whether its head failed a check on arrival (R118), and whether it is a truncation tail (R129). -/
structure BufFlit where
  flit : Flit
  copies : List (Nat × BitVec 16)
  vcOut : Nat
  bad : Bool
  trunc : Bool
  deriving DecidableEq, Repr

/-- How the rest of a packet is treated whose head was discarded: it is purged and counted (R124), or discarded (R21). -/
inductive Purge where
  | no
  | count
  | quiet
  deriving DecidableEq, Repr

/-- The packet open in one virtual channel of a router input (R86): its outputs, its channel on them, the outputs its head has
left on, and whether it is being purged. -/
structure OpenPkt where
  outs : List (Nat × BitVec 16)
  vcOut : Nat
  sent : List Nat
  purge : Purge
  deriving DecidableEq, Repr

/-- Everything of a router that is not in its register block, by input and channel: the buffers, the packets open on
arrival, the round-robin positions of each input (R115), the two arbiters of each output, the links, the heartbeats due, and
the guaranteed packets (input, output) already counted as waiting behind a collision (R122). -/
structure Router where
  bufs : Tab (List BufFlit)
  arrival : Tab OpenPkt
  rrData : Tab Nat
  rrHead : Tab Nat
  arbs : Tab Arb
  gua : Tab Arb
  links : Tab LinkEnd
  hbDue : Tab Bool
  collided : List (Nat × Nat)
  deriving DecidableEq, Repr

/-! ### Home slices -/

/-- A directory entry (Table 9-1), by fields; BUSY is read from the slots. -/
structure DirEntry where
  valid : Bool
  tag : BitVec 14
  st : BitVec 2
  ovf : Bool
  ptrs : List (BitVec 4)
  lru : BitVec 5
  deriving DecidableEq, Repr

/-- What a home records for a line (Table 8-2). -/
inductive DirWrite where
  | di
  | dm (o : BitVec 4)
  | df (h : BitVec 4) (sharers : List (BitVec 4)) (ovf : Bool)
  | ds (sharers : List (BitVec 4)) (ovf : Bool)
  deriving DecidableEq, Repr

/-- One step of a home flow. A transaction is a list of these, run in order; some wait. `round` snoops every cache of a mask
(`owner`: the one named cache held the line in M), `fwd` forwards, `census` asks for states, `resv` reserves the CACK's
block, `cack` awaits it with what was granted. -/
inductive HAct where
  | flow
  | alloc
  | round (op : BitVec 8) (mask : BitVec 16) (owner : Bool)
  | fwd (op : BitVec 8) (agent : BitVec 4) (owner : Bool)
  | census (mask : BitVec 16)
  | censusAlloc
  | censusRec
  | wrSnp
  | wrPoison
  | rdMem
  | wrReq
  | wrAtom
  | waitMem
  | record (w : DirWrite)
  | resv
  | reply (op : BitVec 8) (outcome : BitVec 4) (state : BitVec 2)
  | cack (grant : Bool)
  | nextLine
  | evictDone
  deriving DecidableEq, Repr

/-- What a transaction slot serves: a request in an entry of the slice headgate's request store, one handed over to the spare
(R275), whose entry the failed slice's headgate still holds where one is named (R158), an eviction for another slot (R260), a line of the census walk (R276), or a line the sweep poisons (R270). -/
inductive SlotKind where
  | request (entry : Nat)
  | taken (entry : Option Nat)
  | eviction (way forSlot : Nat)
  | walk
  | sweep
  deriving DecidableEq, Repr

/-- What a slot waits for. -/
inductive HWait where
  | lookup
  | line
  | reserved
  | evict
  | blocks
  | hold
  | replies
  | memory
  | cack
  deriving DecidableEq, Repr

/-- A transaction slot of a home slice (R257) with its ledger record (R273). `no` is its number in grant order (R261); `line` is
A'[34:6] of the line it holds, `last` that of a plain access's last line; `lo`, `bytes` and `denied` are the range protection allows
(R302); `gave` says that a round of the flow has completed. -/
structure Slot where
  gen : BitVec 8
  no : Nat
  kind : SlotKind
  pkt : Pkt
  lo : Addr
  bytes : BitVec 9
  denied : Bool
  line : Nat
  last : Nat
  wait : HWait
  todo : List HAct
  awaited : BitVec 16
  census : List (BitVec 4 × BitVec 2)
  snpData : Option DBeat
  memData : DBeat
  rdata : List DBeat
  done : Nat
  gave : Bool
  ownerDead : Bool
  poisoned : Bool
  memOut : Bool
  fresh : Bool
  timer : Option Nat
  blocks : Nat
  cackIn : Bool
  freed : Bool
  deriving DecidableEq, Repr

/-- What waits in a line's queue (R239): a request-store entry, a slot that needs its next line, a line of the walk with the holders its
old entry records. -/
inductive LineWait where
  | entry (id : Nat)
  | slot (k : Nat)
  | walk (mask : BitVec 16)
  deriving DecidableEq, Repr

/-- A hand-over record (R274, R275): CACKWAIT, with whether it granted F or M; MEMDONE, with M; another request; or END. `entry` is the
request's entry at the failed slice's headgate, where it is not freed. -/
inductive Handover where
  | cackWait (pkt : Pkt) (line : Nat) (grant : Bool)
  | memDone (entry : Option Nat) (pkt : Pkt) (lo : Addr) (bytes : BitVec 9) (denied : Bool) (line : Nat) (old : DBeat)
  | work (entry : Option Nat) (pkt : Pkt) (lo : Addr) (bytes : BitVec 9) (denied : Bool)
  | finish
  deriving DecidableEq, Repr

/-- Everything of a home slice that is not in its register block. `gens` counts the uses of each slot, `grants` the slots taken; `walk`
are the lines of the census walk that ask at arbiter input 0, and `walkLast` says that it granted one last (R276); `holds` are the hold
times (line, grantee, end); `sweepPend` the busy lines the sweep visits again. -/
structure Slice where
  dir : Tab DirEntry
  slots : Tab Slot
  gens : Tab (BitVec 8)
  grants : Nat
  arb : Arb
  lineQueue : List (Nat × LineWait)
  walk : List (Nat × BitVec 16)
  walkLast : Bool
  resq : List Nat
  holds : List (Nat × BitVec 4 × Nat)
  sweepSet : Nat
  sweeping : Option (BitVec 4)
  sweepPend : List Nat
  uncorrAt : List Nat
  handover : List Handover
  lastGrant : Nat
  failedAt : Option Nat
  deriving DecidableEq, Repr

/-! ### Reservoir -/

/-- A beat in a bank's input queue (R284): the port, entry and chunk it belongs to, its beat O[23:6], and what it does. -/
structure BankBeat where
  port : Nat
  entry : Nat
  chunk : Nat
  op : BitVec 8
  line : Nat
  beat : Beat
  aop : BitVec 4
  lane : Nat
  size : Nat
  chunkBeats : Nat
  deriving DecidableEq, Repr

/-- A bank: its input queues, oldest beat first, arbiter, the granted beats not yet performed, the cycles of its own work,
its scrub position and its lock manager. -/
structure BankSt where
  queue : List BankBeat
  arb : Arb
  granted : List BankBeat
  busy : Nat
  scrubPos : Nat
  lock : LockMgr
  deriving DecidableEq, Repr

/-- The Reservoir: its bytes by offset O, the poisoned beats O[23:6], ascending, the banks, and the number of accesses that
have reached a lock manager. -/
structure Reservoir where
  mem : List Host.Cell
  poison : List Nat
  banks : Tab BankSt
  reached : Nat
  deriving DecidableEq, Repr

/-! ### Clock block, supply and boundary signals -/

/-- A control sluice's round trip (R343): the cycle it ends in, and the pending pulse. -/
structure CtlSluice where
  until_ : Nat
  pending : Bool
  deriving DecidableEq, Repr

/-- A triple of the time input (R463). -/
structure TimeTriple where
  sec : BitVec 48
  ns : BitVec 32
  valid : Bool
  deriving DecidableEq, Repr

/-- The turn generator, the time input, the supply inputs and the boundary signals. `ownAt` is the cycle in which the generator's own
copy of the time read `ownSec`, `ownNs`; `pendingK` a K still in force, with the second a change of it was written in (R194). -/
structure Boundary where
  time : TimeTriple
  everValid : Bool
  ownSec : BitVec 48
  ownNs : BitVec 32
  ownAt : Nat
  lastTurn : Option (Nat × Nat)
  lastPulseAt : Option Nat
  turnOut : Option Nat
  pendingK : Option (Nat × Nat)
  rootLock : Bool
  supplyWarn : Bool
  warnLowAt : Option Nat
  releaseLen : Nat
  cmdHold : Bool
  supplyHold : Bool
  inColdReset : Bool
  inWarmReset : Bool
  domAck : Tab Nat
  probeSluice : Tab CtlSluice
  lcProgReq : Bool
  lcProgVal : BitVec 2
  unitBusy : Option (Bool × Nat × Nat)
  testFails : List TestFail
  deriving DecidableEq, Repr

/-! ### Probes and the alarm chain -/

/-- A head flit, or a later flit, observed at a probe point (R417). -/
structure Obs where
  atHg : Bool
  where_ : Nat
  port : Nat
  flit : Flit
  time : Nat
  turn : Nat
  wcyc : Nat
  deriving DecidableEq, Repr

/-- A trace record: the probe and its blocks (R420, R421). -/
structure TraceRec where
  probe : Nat
  blocks : List Line
  deriving DecidableEq, Repr

/-- The probe block beside its registers: live counters, observations by bank, the records in the
probes' buffers in the order of their heads, the global weir, the output, and the probes whose trigger has been sent. -/
structure Probes where
  live : Tab (BitVec 48)
  obs : Tab (List Obs)
  bufs : List TraceRec
  globalLevel : Int
  rr : Nat
  out : List (Nat × BitVec 128 × Bool)
  lastOut : Option (Nat × BitVec 128 × Bool)
  trigDone : List Nat
  failedBanks : List Nat
  deriving DecidableEq, Repr

/-- An alarm record (Table 16-6). -/
structure AlarmRec where
  typ : BitVec 8
  source : BitVec 8
  summary : Bool
  copied : Bool
  recirc : Bool
  count : BitVec 32
  time : BitVec 48
  detail : Word
  deriving DecidableEq, Repr

/-- Where the last record of a coalescing state stands (R427): none sent, waiting in the station, on the ring, returned. -/
inductive RecPlace where
  | none
  | waiting
  | ring
  | returned
  deriving DecidableEq, Repr

/-- A coalescing state of a source (R427), for one type and, for type 0x45, one requester. -/
structure Coalesce where
  station : Nat
  typ : BitVec 8
  source : BitVec 8
  requester : Nat
  count : Nat
  detail : Word
  time : Nat
  place : RecPlace
  recId : Nat
  deriving DecidableEq, Repr

/-- A record waiting in its station or on the ring, with its originating station, a number that identifies it, and whether the
requester it names has read it (R429). -/
structure RingRec where
  alarm : AlarmRec
  station : Nat
  id : Nat
  passed : Bool
  deriving DecidableEq, Repr

/-- An acknowledgement token on the ring (R430): a source and type, or all, and the stations it has reached. -/
structure Token where
  typ : BitVec 8
  source : BitVec 8
  all : Bool
  seen : List Nat
  deriving DecidableEq, Repr

/-- The alarm chain: coalescing states, records waiting in stations, the ring, and tokens on it. -/
structure Alarms where
  states : List Coalesce
  waiting : List RingRec
  ring : List RingRec
  tokens : List Token
  nextId : Nat
  deriving DecidableEq, Repr

/-! ### The Rider and its mailboxes -/

/-- What a step of the Rider waits for (R375). -/
inductive Cond where
  /-- The epoch drain of the headgates is complete; without `gua`, but for the packets of channels that are not whole (R221). -/
  | drained (ns : List Nat) (gua : Bool)
  /-- The next stamp of the headgate counts nothing, so that it can be advanced (R152). -/
  | canAdvance (n : Nat)
  /-- HG_GRANT_s.IN_USE at `t` is at most `k`. -/
  | inUseAtMost (t src k : Nat)
  /-- HG_PROT_DRAIN is zero. -/
  | protZero (t : Nat)
  /-- HG_LEVEE.DRAINING is clear. -/
  | siphoned (n : Nat)
  /-- HG_DOM_STATUS.IDLE is set at every headgate of the domain. -/
  | idle (d : Nat)
  /-- Every PWR_ACK of the domain is high. -/
  | acked (d : Nat)
  /-- Every HAI of the domain is live with ACLK running, or the cycle of WAKE_LIMIT has come. -/
  | awake (d t : Nat)
  /-- No slice sweeps. -/
  | swept
  /-- Nothing from `n` to `d` is uncommitted. -/
  | committed (n d : Nat)
  /-- A turn pulse was issued after cycle `t`, or no turns are issued. -/
  | pulseAfter (t : Nat)
  /-- A turn of a later second than `sec` was issued. -/
  | secondAfter (sec : Nat)
  /-- No unit reset runs. -/
  | unitIdle
  /-- LC_PROG_REQ is low. -/
  | fuseDone
  /-- Nothing accepted is left anywhere. -/
  | allDone
  /-- The cycle has come. -/
  | until_ (t : Nat)
  deriving DecidableEq, Repr

/-- A part of a command or recovery whose steps are worked out from the state when it is reached. -/
inductive Plan where
  /-- Waypoint and attachment entries of every affected source are written (R319, R324), with a replay notice or not, and drained;
  `step` ends a numbered step between the writes and the drain. -/
  | routes (notice step : Bool)
  /-- The attachment of headgate `h` is written into every map, with notices, and drained (R321); `step` ends a numbered step between
  the writes and the drain. -/
  | attach (h : Nat) (step : Bool)
  /-- Headgates whose attachment in use is on the element move to their other link (R324 step 2). -/
  | moveOff (key : Nat)
  /-- Headgates moved off the element return to their other link (R324 step 6). -/
  | moveBack (key : Nat)
  /-- Entries of channels whose trees cross an avoided element are cleared (R221 step 1). -/
  | cutChans
  /-- The channels at headgate `h` are placed again. -/
  | placeAt (h : Nat)
  /-- Channels whose entries are cut or missing are placed again (R221); those with an endpoint on `key`, where it is given, are cleared
  until that endpoint has moved. -/
  | placeCut (key : Option Nat)
  /-- Channels laid around an element, or unreachable, are placed again (R324 step 6). -/
  | placeBack
  /-- The records, sets and staging of a channel as placed are written (R219, Table 15-6). -/
  | restored (c : Nat)
  /-- A channel only partly opened is cleared (R393). -/
  | closeUp (c : Nat)
  /-- The trial of a link has ended (R325 step 4): `a` and `b` are what RT_HOP_ERR counted at both ends before it. -/
  | linkTried (key a b : Nat)
  /-- Steps 1 to 4 of R325 for a link. -/
  | tryLink (key : Nat)
  /-- Caches a failed slice still awaits are declared dead and leveed (R274 step 1). -/
  | sliceQuiet (k : Nat)
  /-- The pairs toward the spare (R274 step 2). -/
  | sparePairs (k : Nat)
  /-- Headgates of a domain whose wait ended without PORT_LIVE are leveed (R354). -/
  | notLive (d : Nat)
  deriving DecidableEq, Repr

/-- One step of a Rider command or recovery. A command is a list of these, run in order. -/
inductive RAct where
  /-- A register write in the bits of a mask, over the register ring. -/
  | wr (off : Nat) (v m : Word)
  /-- A numbered step of the command is complete. -/
  | stepDone
  | wait (c : Cond)
  /-- A time in FCLK cycles passes. -/
  | delay (n : Nat)
  /-- The next turn pulse is awaited. -/
  | nextTurn
  | expand (p : Plan)
  /-- DEMOTED of a channel at its source (R218). -/
  | demote (n c : Nat) (v : Bool)
  /-- The staged packets of a channel are discarded; with `tell` their number stands in result word 1 (R394). -/
  | discard (n c : Nat) (tell : Bool)
  /-- Bits set in result word `k`. -/
  | result (k : Nat) (v : Word)
  /-- Result word `k` is what a register reads. -/
  | resultReg (k off : Nat)
  /-- The completion code, where it is not DONE. -/
  | code (v : Nat)
  /-- A Rider event is logged. -/
  | event (code arg : Nat)
  /-- An acknowledgement token is sent (R430). -/
  | ack (typ src : BitVec 8) (all : Bool)
  /-- The domain enters a state (R350, R354). -/
  | domState (d st : Nat)
  /-- PWR_REQ rises at every HAI of the domain, and the timer starts (R350). -/
  | quiesce (d : Nat)
  /-- WAKE rises at every HAI of the domain; the wait for them follows. -/
  | wakeDom (d : Nat)
  /-- The commanded hold (R411). -/
  | hold (b : Bool)
  /-- The fuse write is requested (R444). -/
  | lcProg (v : BitVec 2)
  /-- The Reservoir and every replay store are zeroed (R414). -/
  | zeroStores
  /-- The one path of R414 is opened for a headgate. -/
  | openPath (n : Nat)
  /-- The image is copied from the Reservoir (R378). -/
  | copyImage (off len : Nat)
  /-- The checks of Table 14-12. -/
  | checkImage (allow : Bool)
  /-- The Rider restarts into the checked image. -/
  | restart
  /-- The waypoint chooser (Table 15-4). -/
  | chooser (b : Bool)
  /-- The link cap (R395). -/
  | setCap (c : Nat)
  /-- An element is recorded as out of service, or no longer. -/
  | outOf (key : Nat) (b : Bool)
  /-- An element is avoided while the derailleur works on it. -/
  | inHand (key : Nat) (b : Bool)
  /-- A failed router leaves the record of faults. -/
  | healed (i : Nat)
  /-- A headgate was moved off a port, or returned. -/
  | movedOff (h key : Nat) (b : Bool)
  /-- A link's trial starts (R325 step 3). -/
  | trial (key : Nat)
  /-- A trial failed: the link stays out of service (R325). -/
  | trialFailed (key : Nat)
  /-- A headgate's alarm the Rider raises (R354). -/
  | raise (n : Nat) (typ : BitVec 8) (detail : Nat)
  /-- A channel leaves the Rider's record. -/
  | forget (c : Nat)
  /-- An output is marked suspect (R217; each event is kept, log entry 78). -/
  | suspect (out : Nat)
  /-- The sweep of R270 starts in every slice. -/
  | sweep (agent : BitVec 4)
  /-- The spare is prepared, and the hand-over of slice `k` begun and ended (R274). -/
  | prepareSpare (k : Nat)
  | handOver (k : Nat)
  | endRecord
  /-- What a disarmed trace probe still holds is given up (R409). -/
  | disarm (p : Nat)
  /-- The grant of source `n` at target `t` is left to be lowered to `v` (R396). -/
  | owe (n t v : Nat)
  /-- The command has set LOCK of the slot itself (R308). -/
  | ownLock
  deriving DecidableEq, Repr

/-- A program of the Rider in progress: the steps left, the numbered steps completed, the results, the completion code, whether it
stands at a step boundary, whether a run of it before a restart of the Rider had begun its steps (R384), and whether a step of its own
has set LOCK of a protection slot (R308). -/
structure Prog where
  acts : List RAct
  step : Nat
  results : List Word
  compl : BitVec 8
  atStep : Bool
  ran : Bool
  ownLock : Bool
  deriving DecidableEq, Repr

/-- A command running for a mailbox (R371). -/
structure Running where
  words : List Word
  planned : Bool
  rerun : Bool
  prog : Prog
  deriving DecidableEq, Repr

/-- A mailbox beside MB_BIND and MB_OVERRUN (Table 14-2). -/
structure Mailbox where
  cmd : List Word
  queue : List (List Word)
  rsp : List (List Word)
  cur : Option Running
  overrun : Bool
  riderEvt : Bool
  ie : BitVec 4
  deriving DecidableEq, Repr

/-- One entry of the Rider's own timetable (R217): headgate, entry number and value, and the headgates of its set. -/
structure PlEntry where
  hg : Nat
  e : Nat
  v : Word
  dests : List Nat
  deriving DecidableEq, Repr

/-- An open channel in the Rider's records (R215, R391, R393): as opened, and as placed. `sets` are the multicast sets taken
(headgate, index, bytes), `relays` the relays with the destinations each carries. -/
structure Chan where
  chan : Nat
  src : Nat
  flits : Nat
  modulus : Nat
  phase : Nat
  phaseAny : Bool
  deadline : Nat
  earliest : Nat
  dests : List Nat
  stage : Nat
  dbuf : Nat
  entries : List PlEntry
  sets : List (Nat × Nat × List Nat)
  relays : List (Nat × List Nat)
  unreachable : Bool
  cut : BitVec 16
  deriving DecidableEq, Repr

/-- An incident-log record (Table 16-8), words 1 to 7. -/
structure LogRec where
  lseq : BitVec 32
  incident : BitVec 16
  pinned : Bool
  riderEvt : Bool
  time : BitVec 48
  w3 : Word
  w4 : Word
  w5 : Word
  overwritten : BitVec 32
  traceLost : BitVec 32
  coalesced : BitVec 32
  deriving DecidableEq, Repr

/-- What a recovery repairs (R318): a failed slice, a failed router, a faulty mesh link by its router port, an attachment link of a
headgate, a headgate cut off or failed (with the alarm's type), targets that stopped, a pair without a route, a collision at an
output (with the alarm's type and source), and routes or channels that a restarted Rider finds not as they should stand (R333). A domain
that the hardware wakes (R352) is no fault, but the Rider goes on with it in the same way. -/
inductive RecKind where
  | slice (k : Nat)
  | router (i : Nat)
  | link (i p : Nat)
  | attach (h l : Nat)
  | headgate (h : Nat) (typ : BitVec 8)
  | target (ns : List Nat) (typ src : BitVec 8)
  | pair (n d : Nat)
  | collision (out : Nat) (typ src : BitVec 8)
  | view
  | wake (d : Nat)
  deriving DecidableEq, Repr

/-- A recovery the Rider runs (Table 12-2). -/
structure Recovery where
  kind : RecKind
  prog : Prog
  deriving DecidableEq, Repr

/-- The Ditch Rider: its alarm FIFO, log, records and private memory. -/
structure Rider where
  fifo : List AlarmRec
  awaiting : List (BitVec 8 × BitVec 8)
  pinned : Tab LogRec
  circle : List LogRec
  lseq : Nat
  incident : Nat
  incidentOpen : Bool
  incRecords : Nat
  overwritten : Nat
  traceLostBase : Nat
  coalesced : Nat
  lastRecordAt : Nat
  window : Option Nat
  linkAlarms : List AlarmRec
  faulty : List Nat
  failed : List Nat
  outOfService : List Nat
  active : Option Nat
  served : Nat
  recoveries : List Recovery
  chans : List Chan
  cap : Nat
  shortestFirst : Bool
  stallsIgnored : Nat
  suspect : List Nat
  inHand : List Nat
  movedOff : List (Nat × Nat)
  trials : List (Nat × Nat × Nat)
  owed : List (Nat × Nat × Nat)
  disturbed : Bool
  unsigned : Bool
  restartsAt : List Nat
  restarting : Bool
  debugHalt : Bool
  wdogAt : Nat
  sram : Tab Word
  coreRegs : Tab Word
  image : List Byte
  loadArea : List Byte
  loadPending : Bool
  release : BitVec 16
  svn : BitVec 16
  openPath : Option Nat
  deriving DecidableEq, Repr

/-- The test access port (R448): the instruction in force, the data register as last captured, lowest bit first, the REGACC result
waiting for the next capture, and test mode. -/
structure Tap where
  ir : BitVec 8
  dr : List Bool
  regacc : BitVec 96
  testMode : Bool
  deriving DecidableEq, Repr

/-- The fabric: FCLK cycles since cold reset, the register file, every part, the links between them, the guaranteed
packets (channel, SEQ) sent late, the draws of free values, and the queue of commands that wait. -/
structure State where
  fclk : Nat
  regs : List (Nat × Word)
  hg : Tab Headgate
  rt : Tab Router
  hs : Tab Slice
  rv : Reservoir
  wires : Tab (List Flit)
  credits : Tab (List (BitVec 4))
  bd : Boundary
  pr : Probes
  al : Alarms
  rd : Rider
  mb : Tab Mailbox
  tap : Tap
  fcsRead : Option (BitVec 24 × Word)
  lateGua : List (Nat × Nat)
  freeCtr : Nat
  pending : List Instr
  deriving DecidableEq, Repr

/-! ### Reset values -/

def Header.zero : Header :=
  { op := 0, src := 0, dst := 0, dnode := 0, wnode := 0, wpv := 0, epoch := 0, seq := 0, outcome := 0, attr := 0, ctx := 0,
    tag := 0, bytes := 0, aop := 0, done := 0, state := 0, xinfo := 0, addr := 0 }

def Pkt.zero : Pkt := { hdr := Header.zero, ext := 0, data := [] }

def CtxSt.reset : CtxSt := { tag := 0, lock := .free, lockTgt := 0, lockAddr := 0, lockTxn := 0, reopening := false }

def PairTx.reset : PairTx :=
  { next := 0, oldest := 0, pass := false, cursor := 0, passDue := false, pending := false, stalls := 0, stalled := false,
    timerAt := 0 }

def PairRx.reset : PairRx :=
  { next := 0, cseqSent := 0xFFFF, held := [], since := 0, firstAt := none, ecmtAt := none, enakAt := none, freed := 0,
    freedAt := none, credAt := none, credRepeat := false }

def LockMgr.reset : LockMgr := { owner := none, broken := false, timer := none }

/-- Credits are set to the buffer depths of Table 1-5 when a link is enabled or cleared (R105). -/
def fullCredits : List Nat := [4, 4, 4, 4, 4, 4, 4, 4, 2]

def LinkEnd.reset : LinkEnd :=
  { hbSent := 0, hbSeen := 0, hbFirst := true, hbAt := 0, winErrs := 0, winStart := 0, credits := fullCredits }

def ChanSt.reset : ChanSt :=
  { demoted := false, seq := 0, late := 0, drop := 0, held := [], buffered := 0, relay := [], commitTurn := false, peer := 0,
    ecmtAt := none, enakAt := none }

def Headgate.reset : Headgate :=
  { reqs := [], acc := none, dead := none, out := .none, ctxs := [], txns := [], cackWait := [], taken := [], nextId := 0, arrivals := 0, store := [],
    tx := [], rx := [], poolUsed := 0, cmtIn := [], gdataIn := [], homeIn := [], overAllot := [], rxAsm := [], rxDrop := [], rxPkts := [],
    entries := [], nextEntry := 0, leveeBelow := 0, lock := LockMgr.reset, staleIds := [], twdata := [], msgin := [], snoops := [], links := [],
    portLive := false, liveCycled := 0, liveFellAt := none, pwrReq := false, pwrAck := false, wake := false,
    aclkEn := false, aclkDivInUse := 2, wakeHeld := none, hold := false, scrubReplay := none, scrubReseq := none,
    chans := [], pulseAt := none, turn := 0, wheelAt := none, wheelOff := false, missed := [], fired := [], injBusyUntil := 0, injEntry := 0,
    passTurn := false }

def Arb.reset : Arb :=
  { age := List.replicate 8 0, wait := List.replicate 8 0, ratchet := List.replicate 8 0, park := 0, parkV := false,
    hold := none, holdVc := 0, holdFlits := 0, gcount := 0 }

def Router.reset : Router :=
  { bufs := [], arrival := [], rrData := [], rrHead := [], arbs := [], gua := [], links := [], hbDue := [], collided := [] }

def DirEntry.empty : DirEntry :=
  { valid := false, tag := 0, st := 0, ovf := false, ptrs := [], lru := 0 }

def DBeat.zero : DBeat := { data := 0, poison := false }

def Slice.reset : Slice :=
  { dir := [], slots := [], gens := [], grants := 0, arb := Arb.reset, lineQueue := [], walk := [], walkLast := false, resq := [], holds := [], sweepSet := 0,
    sweeping := none, sweepPend := [], uncorrAt := [], handover := [], lastGrant := 0, failedAt := none }

def BankSt.reset : BankSt :=
  { queue := [], arb := Arb.reset, granted := [], busy := 0, scrubPos := 0, lock := LockMgr.reset }

def Reservoir.reset : Reservoir := { mem := [], poison := [], banks := [], reached := 0 }

def CtlSluice.reset : CtlSluice := { until_ := 0, pending := false }

def Boundary.reset : Boundary :=
  { time := { sec := 0, ns := 0, valid := false }, everValid := false, ownSec := 0, ownNs := 0, ownAt := 0, lastTurn := none,
    lastPulseAt := none, turnOut := none, pendingK := none, rootLock := false, supplyWarn := false, warnLowAt := none,
    releaseLen := 102400, cmdHold := false, supplyHold := false, inColdReset := true, inWarmReset := false, domAck := [],
    probeSluice := [], lcProgReq := false, lcProgVal := 0, unitBusy := none,
    testFails := [] }

def Probes.reset : Probes :=
  { live := [], obs := [], bufs := [], globalLevel := 64, rr := 31, out := [], lastOut := none, trigDone := [],
    failedBanks := [] }

def Alarms.reset : Alarms := { states := [], waiting := [], ring := [], tokens := [], nextId := 0 }

def Mailbox.reset : Mailbox :=
  { cmd := List.replicate 8 0, queue := [], rsp := [], cur := none, overrun := false, riderEvt := false, ie := 0 }

def Rider.reset : Rider :=
  { fifo := [], awaiting := [], pinned := [], circle := [], lseq := 0, incident := 0, incidentOpen := false,
    incRecords := 0, overwritten := 0, traceLostBase := 0, coalesced := 0, lastRecordAt := 0, window := none,
    linkAlarms := [], faulty := [], failed := [], outOfService := [], active := none, served := 31, recoveries := [],
    chans := [], cap := 75, shortestFirst := false, stallsIgnored := 0, suspect := [], inHand := [], movedOff := [], trials := [], owed := [],
    disturbed := false, unsigned := false, restartsAt := [],
    restarting := false, debugHalt := false, wdogAt := 0, sram := [],
    coreRegs := [], image := [], loadArea := [], loadPending := false, release := 0, svn := 0,
    openPath := none }

/-- A program before its first step. -/
def Prog.start (acts : List RAct) : Prog :=
  { acts := acts, step := 0, results := List.replicate 7 0, compl := 0, atStep := false, ran := false, ownLock := false }

def Tap.reset : Tap := { ir := 0x01, dr := [], regacc := 0, testMode := false }

/-- The fabric under cold reset (R435, R459): every register at its Reset column, every store zero, nothing on a link, the
dividers stopped, every PORT_LIVE low. Nothing of the start-up of R439 has run. -/
def State.reset : State :=
  { fclk := 0, regs := [], hg := [], rt := [], hs := [], rv := Reservoir.reset, wires := [], credits := [],
    bd := Boundary.reset, pr := Probes.reset, al := Alarms.reset, rd := Rider.reset, mb := [], tap := Tap.reset,
    fcsRead := none, lateGua := [], freeCtr := 0, pending := [] }

end Sys2Proof.Machine
end

