-- ==== Sys2Proof/Machine/Ops.lean ====
section
/-! DEFINITION. The named operations over State: registers, parts, alarms, counting probes, observations, free values, the
geometry of the mesh, and the links. -/

namespace Sys2Proof.Machine

/-- A state after which nothing else can happen in the step: every event of the fabric answers a next state. -/
abbrev Out := Host.Outcome State Fault Refusal

/-! ### Parts -/

/-- Headgate `n`. -/
def State.hgAt (s : State) (n : Nat) : Headgate := Tab.get s.hg Headgate.reset n
/-- Headgate `n` replaced. -/
def State.setHg (s : State) (n : Nat) (h : Headgate) : State := { s with hg := Tab.set s.hg n h }
/-- Headgate `n` changed by `f`. -/
def State.updHg (s : State) (n : Nat) (f : Headgate → Headgate) : State := s.setHg n (f (s.hgAt n))
/-- Router `i`. -/
def State.rtAt (s : State) (i : Nat) : Router := Tab.get s.rt Router.reset i
def State.setRt (s : State) (i : Nat) (r : Router) : State := { s with rt := Tab.set s.rt i r }
def State.updRt (s : State) (i : Nat) (f : Router → Router) : State := s.setRt i (f (s.rtAt i))
/-- Home slice `k`. -/
def State.hsAt (s : State) (k : Nat) : Slice := Tab.get s.hs Slice.reset k
def State.setHs (s : State) (k : Nat) (x : Slice) : State := { s with hs := Tab.set s.hs k x }
def State.updHs (s : State) (k : Nat) (f : Slice → Slice) : State := s.setHs k (f (s.hsAt k))
/-- Mailbox `m`. -/
def State.mbAt (s : State) (m : Nat) : Mailbox := Tab.get s.mb Mailbox.reset m
def State.setMb (s : State) (m : Nat) (x : Mailbox) : State := { s with mb := Tab.set s.mb m x }
def State.updMb (s : State) (m : Nat) (f : Mailbox → Mailbox) : State := s.setMb m (f (s.mbAt m))
/-- Bank `b` of the Reservoir. -/
def State.bankAt (s : State) (b : Nat) : BankSt := Tab.get s.rv.banks BankSt.reset b
def State.setBank (s : State) (b : Nat) (x : BankSt) : State := { s with rv := { s.rv with banks := Tab.set s.rv.banks b x } }

/-- The other parts of the state replaced. -/
def State.setWires (s : State) (x : Tab (List Flit)) : State := { s with wires := x }
def State.setCredits (s : State) (x : Tab (List (BitVec 4))) : State := { s with credits := x }
def State.setBd (s : State) (x : Boundary) : State := { s with bd := x }
def State.setPr (s : State) (x : Probes) : State := { s with pr := x }
def State.setAl (s : State) (x : Alarms) : State := { s with al := x }
def State.setRd (s : State) (x : Rider) : State := { s with rd := x }
def State.setRv (s : State) (x : Reservoir) : State := { s with rv := x }
def State.setTap (s : State) (x : Tap) : State := { s with tap := x }
def State.setFcsRead (s : State) (x : Option (BitVec 24 × Word)) : State := { s with fcsRead := x }
def State.setLateGua (s : State) (x : List (Nat × Nat)) : State := { s with lateGua := x }
def State.setFreeCtr (s : State) (x : Nat) : State := { s with freeCtr := x }

/-! ### Registers -/

/-- The register at `off` as held. -/
def State.reg (s : State) (off : Nat) : Word := Tab.get s.regs (regReset off) off
/-- The register at `off` holding `v`; the file keeps its canonical form. -/
def State.setReg (s : State) (off : Nat) (v : Word) : State := { s with regs := Tab.put regReset s.regs off v }
/-- The field of `len` bits from bit `lo` of the register at `off`. -/
def State.getF (s : State) (off lo len : Nat) : Nat := field (s.reg off) lo len
/-- That field set. -/
def State.setF (s : State) (off lo len v : Nat) : State := s.setReg off (setField (s.reg off) lo len v)
/-- Bit `i` of the register at `off`. -/
def State.getB (s : State) (off i : Nat) : Bool := bit (s.reg off) i
def State.setB (s : State) (off i : Nat) (b : Bool) : State := s.setReg off (setBit (s.reg off) i b)
/-- A 32-bit saturating counter raised by `k` (R131, R162). -/
def State.bump (s : State) (off k : Nat) : State := s.setReg off (BitVec.ofNat 64 (satAdd 32 (s.reg off).toNat k))

/-- The next draw of a free value. -/
def State.draw (s : State) : Nat × State := (s.freeCtr, { s with freeCtr := s.freeCtr + 1 })

/-- A beat whose lanes outside `be` the manual leaves open: they are free (log entry 10). -/
def freeLanes (s : State) (l : Line) (be : BitVec 64) : Line × State :=
  let (d, s) := s.draw
  (mergeLine (Config.laneData d) l be, s)

/-- Time moved on to the cycle in which a timed event falls due; never back. -/
def State.advanceTo (s : State) (t : Nat) : State := { s with fclk := max s.fclk t }

/-! ### Alarms (R427) -/

/-- The station numbers of R426, in the order routers, headgates, slices, Reservoir, clock block, Rider. -/
def stRouter (i : Nat) : Nat := i
def stHg (n : Nat) : Nat := 100 + n
def stSlice (k : Nat) : Nat := 260 + k
def stReservoir : Nat := 277
def stClock : Nat := 278

/-- A fresh record (Table 16-6). -/
def mkAlarm (typ src : BitVec 8) (summary : Bool) (count : Nat) (time : Nat) (detail : Word) : AlarmRec :=
  { typ := typ, source := src, summary := summary, copied := false, recirc := false, count := BitVec.ofNat 32 count,
    time := BitVec.ofNat 48 time, detail := detail }

/-- Whether `c` is the state of a source for a type, and of a requester for type 0x45. -/
def Coalesce.isFor (c : Coalesce) (station : Nat) (typ src : BitVec 8) (req : Nat) : Bool :=
  decide (c.station = station) && decide (c.typ = typ) && decide (c.source = src) && decide (c.requester = req)

/-- One alarm event (R427): IDLE queues a full record; REPORTED counts, in the waiting record while that still waits. -/
def alarmEvent (a : Alarms) (now station : Nat) (typ src : BitVec 8) (detail : Word) : Alarms :=
  let req := if typ = 0x45 then field detail 0 8 else 0
  match a.states.find? (fun c => c.isFor station typ src req) with
  | none =>
    { a with
      states := a.states ++ [{ station := station, typ := typ, source := src, requester := req, count := 0,
                               detail := detail, time := now, place := .waiting, recId := a.nextId }],
      waiting := a.waiting ++ [{ alarm := mkAlarm typ src false 1 now detail, station := station, id := a.nextId, passed := false }],
      nextId := a.nextId + 1 }
  | some c =>
    let others := a.states.filter (fun d => !d.isFor station typ src req)
    if c.place = .waiting && (a.waiting.any (fun r => decide (r.id = c.recId) && decide (r.alarm.count ≠ 0xFFFFFFFF))) then
      { a with waiting := a.waiting.map (fun r =>
          if r.id = c.recId then { r with alarm := { r.alarm with count := r.alarm.count + 1 } } else r) }
    else if c.count = 0xFFFFFFFF then
      { a with
        states := others ++ [{ c with count := 1, detail := detail, time := now, place := .waiting, recId := a.nextId }],
        waiting := a.waiting ++ [{ alarm := mkAlarm typ src true c.count c.time c.detail, station := station, id := a.nextId, passed := false }],
        nextId := a.nextId + 1 }
    else { a with states := others ++ [{ c with count := c.count + 1, detail := detail, time := now }] }

/-- An alarm raised at a station, with SOURCE and DETAIL of Table 16-7. -/
def State.alarm (s : State) (station : Nat) (typ : BitVec 8) (src : Nat) (detail : Nat) : State :=
  { s with al := alarmEvent s.al s.fclk station typ (BitVec.ofNat 8 src) (BitVec.ofNat 64 detail) }

/-- An alarm of headgate `n`. -/
def State.hgAlarm (s : State) (n : Nat) (typ : BitVec 8) (detail : Nat) : State := s.alarm (stHg n) typ n detail

/-! ### Counting probes and observations (R415, R417) -/

/-- A live 48-bit counter raised, wrapping. -/
def State.count (s : State) (key k : Nat) : State :=
  { s with pr := { s.pr with live := Tab.set s.pr.live key (Tab.get s.pr.live 0 key + BitVec.ofNat 48 k) } }

/-- Keys of the live counters: two for each router output, three for each headgate. -/
def ckFlits (i o : Nat) : Nat := 2 * (8 * i + o)
def ckEvent (i o : Nat) : Nat := 2 * (8 * i + o) + 1
def ckInj (n : Nat) : Nat := 2000 + 3 * n
def ckEj (n : Nat) : Nat := 2001 + 3 * n
def ckHgEvent (n : Nat) : Nat := 2002 + 3 * n

/-- Event `evt` of Table 16-2 at headgate `n`, `k` times, where it is the selected one. -/
def State.hgEvent (s : State) (n evt k : Nat) : State :=
  if s.getF (Reg.PR_HGO_CFG n) 0 4 = evt then s.count (ckHgEvent n) k else s

/-- Event `evt` of Table 16-1 at an output, where it is the selected one. -/
def State.rtEvent (s : State) (i o evt k : Nat) : State :=
  if s.getF (Reg.PR_RTO_CFG (8 * i + o)) 0 4 = evt then s.count (ckEvent i o) k else s

/-- Whether trace probe `p` is armed at the point. -/
def probeAt (s : State) (p : Nat) (atHg : Bool) (wher port : Nat) : Bool :=
  let c := s.reg (Reg.PR_PRB_CTL p)
  bit c 63 && decide (bit c 8 = atHg) && decide (field c 0 8 = wher) && decide (field c 9 3 = port)

/-- The wheel cycle as HG_PL_TURN.WCYC would read, and the turn number (R200): both are counted from the last pulse, which
every headgate received in the same cycle. -/
def State.wheel (s : State) : Nat × Nat :=
  match s.bd.lastTurn, s.bd.lastPulseAt with
  | some (_, j), some t => (j, min (s.fclk - t) 9215)
  | _, _ => (0, 0)

/-- The payload blocks a record block announces (Table 16-4). -/
def TraceRec.blocksDue (r : TraceRec) : Nat := match r.blocks with | b :: _ => field b 21 4 | [] => 0

/-- A record still takes flits of the point: it is not whole, and its record block names the point (R421). -/
def TraceRec.follows (r : TraceRec) (atHg : Bool) (wher port : Nat) : Bool :=
  decide (r.blocks.length ≤ r.blocksDue) &&
    (match r.blocks with
     | b :: _ => decide (bit b 168 = atHg) && decide (field b 160 8 = wher) && decide (field b 169 3 = port)
     | [] => false)

/-- A flit crosses a point: a copy goes to each bank with a probe armed there, or with a record that still takes flits of it
(R417). -/
def State.observe (s : State) (atHg : Bool) (wher port : Nat) (f : Flit) : State :=
  let banks := (List.range 8).filter (fun b =>
    (List.range 4).any (fun k => probeAt s (4 * b + k) atHg wher port) ||
    s.pr.bufs.any (fun r => decide (r.probe / 4 = b) && r.follows atHg wher port))
  let (j, w) := s.wheel
  let o : Obs := { atHg := atHg, where_ := wher, port := port, flit := f, time := s.fclk, turn := j, wcyc := w }
  { s with pr := { s.pr with obs := banks.foldl (fun t b => Tab.set t b (Tab.get t [] b ++ [o])) s.pr.obs } }

/-- One idle FCLK cycle; under cold reset the dividers stand (DESIGN CHOICE, log entry 1). -/
def idle (s : State) : State := if s.bd.inColdReset then s else { s with fclk := s.fclk + 1 }

/-! ### Geometry (R10 to R18) -/

/-- Router index of a node value, where the node is valid (R11). -/
def nodeIdx (v : Nat) : Option Nat :=
  if v % 16 ≤ 9 ∧ v / 16 ≤ 9 then some (10 * (v / 16) + v % 16) else none

/-- The router and local port of attachment `l` of headgate `n`: primary (R16) or secondary (R17). -/
def attachOf (n l : Nat) : Nat × Nat :=
  let x := n % 10
  let r := primaryRouter n
  if l = 0 then (r, if n < 100 then 0 else 1)
  else if n < 100 then (if x ≤ 8 then (r + 1, 2) else (r - 1, 3))
  else if x = 0 then (r + 10, 2)
  else if x = 9 then (r + 10, 3)
  else (r - 1, 3)

/-- The headgate and link on local port `p` of router `i` (Tables 1-2 and 1-3). -/
def hgOnPort (i p : Nat) : Option (Nat × Nat) :=
  let x := i % 10
  let y := i / 10
  match p with
  | 0 => some (i, 0)
  | 1 => if 2 ≤ y ∧ y ≤ 7 then some (i + 80, 0) else none
  | 2 => if 1 ≤ x then some (i - 1, 1) else if 3 ≤ y ∧ y ≤ 8 then some (i + 70, 1) else none
  | 3 =>
    if x = 8 then some (i + 1, 1)
    else if x = 9 then (if 3 ≤ y ∧ y ≤ 8 then some (i + 70, 1) else none)
    else if 2 ≤ y ∧ y ≤ 7 then some (i + 81, 1) else none
  | _ => none

/-- The router on mesh port `p` of router `i` (Table 1-1). -/
def neighbour (i p : Nat) : Option Nat :=
  match p with
  | 4 => if 0 < i % 10 then some (i - 1) else none
  | 5 => if 10 ≤ i then some (i - 10) else none
  | 6 => if i % 10 < 9 then some (i + 1) else none
  | 7 => if i < 90 then some (i + 10) else none
  | _ => none

/-- The far port of a mesh link: West and East, South and North face each other. -/
def farPort (p : Nat) : Nat := match p with
  | 4 => 6 | 5 => 7 | 6 => 4 | 7 => 5 | _ => p

/-- An end of a link: a port of a router, or a link of a headgate. -/
inductive LEnd where
  | rt (i p : Nat)
  | hg (n l : Nat)
  deriving DecidableEq, Repr

def rcvEnd : Rcv → LEnd
  | .router i p => .rt i p
  | .headgate n l => .hg n l

/-- The other end, where one is connected (R13). -/
def LEnd.far : LEnd → Option LEnd
  | .hg n l => let (i, p) := attachOf n l; some (.rt i p)
  | .rt i p =>
    if p < 4 then (hgOnPort i p).map (fun x => .hg x.1 x.2)
    else (neighbour i p).map (fun j => .rt j (farPort p))

/-- The key of an end in `wires` (flits towards it), `credits` (credits towards it). -/
def LEnd.key : LEnd → Nat
  | .rt i p => 8 * i + p
  | .hg n l => 1000 + 2 * n + l

/-- The link state held at an end. -/
def State.link (s : State) : LEnd → LinkEnd
  | .rt i p => Tab.get (s.rtAt i).links LinkEnd.reset p
  | .hg n l => Tab.get (s.hgAt n).links LinkEnd.reset l

def State.setLink (s : State) (e : LEnd) (k : LinkEnd) : State :=
  match e with
  | .rt i p => s.updRt i (fun r => { r with links := Tab.set r.links p k })
  | .hg n l => s.updHg n (fun h => { h with links := Tab.set h.links l k })

/-- The end is enabled: PORT_EN, PRI_EN or SEC_EN. -/
def State.enabled (s : State) : LEnd → Bool
  | .rt i p => s.getB (Reg.RT_CTRL i) p
  | .hg n l => s.getB (Reg.HG_ATTACH n) (8 + l)

/-- The end has declared its link faulty. -/
def State.faulty (s : State) : LEnd → Bool
  | .rt i p => s.getB (Reg.RT_PORT_STATUS i) (8 + p)
  | .hg n l => s.getB (Reg.HG_ATTACH n) (2 + l)

/-- PORT_LIVE as received from the far side. -/
def State.live (s : State) : LEnd → Bool
  | .rt i p => s.getB (Reg.RT_PORT_STATUS i) p
  | .hg n l => s.getB (Reg.HG_ATTACH n) (4 + l)

/-- SILENCE, HB_INTERVAL, HCRC_LIMIT and HCRC_WIN_LOG that apply at an end (Table 4-8, R315). -/
def State.linkCfg (s : State) : LEnd → Word
  | .rt i _ => s.reg (Reg.RT_LINK_CFG i)
  | .hg n _ => s.reg (Reg.HG_LINK_CFG n)

/-- Flits on the wire towards an end, oldest first. -/
def State.wire (s : State) (e : LEnd) : List Flit := Tab.get s.wires [] e.key
def State.setWire (s : State) (e : LEnd) (fs : List Flit) : State := { s with wires := Tab.set s.wires e.key fs }
def State.pushWire (s : State) (e : LEnd) (fs : List Flit) : State := s.setWire e (s.wire e ++ fs)

/-- A credit for channel `v` on the wire towards an end, with its odd parity: {CRV, CRVC} and CRP as presented, bit 5 CRV,
bits 4 to 1 CRVC, bit 0 CRP (Table 4-1). The wire keeps the channel; parity is formed at arrival. -/
def State.pushCredit (s : State) (e : LEnd) (v : Nat) : State :=
  { s with credits := Tab.set s.credits e.key (Tab.get s.credits [] e.key ++ [BitVec.ofNat 4 v]) }

/-- Element `k` of a list replaced. -/
def setNth {α : Type} : List α → Nat → α → List α
  | [], _, _ => []
  | _ :: xs, 0, a => a :: xs
  | x :: xs, k + 1, a => x :: setNth xs k a

/-- Element `k` of a list removed. -/
def dropNth {α : Type} : List α → Nat → List α
  | [], _ => []
  | _ :: xs, 0 => xs
  | x :: xs, k + 1 => x :: dropNth xs k

/-- The sum of `f` over a list. -/
def sumBy {α : Type} (f : α → Nat) (l : List α) : Nat := l.foldr (fun x a => f x + a) 0

/-- `f` applied for each number below `n`, in ascending order. -/
def forRange (n : Nat) (f : Nat → State → State) (s : State) : State := (List.range n).foldl (fun t k => f k t) s

/-- `f` applied for each element in order. -/
def forEach {α : Type} (l : List α) (f : α → State → State) (s : State) : State := l.foldl (fun t x => f x t) s

end Sys2Proof.Machine
end

