-- ==== Sys2Proof/Machine/Arbiter.lean ====
section
/-! DEFINITION. The arbiter of R118, used at router outputs, home-slice inputs and Reservoir banks. -/

namespace Sys2Proof.Machine

/-- N of R118, 4 to 64. -/
def nthOf (v : Nat) : Nat := clip 4 64 v

/-- A counter of a list by input. -/
def cell (l : List Nat) (i : Nat) : Nat := (l[i]?).getD 0

/-- The askers wait one more cycle. -/
def Arb.waitMore (a : Arb) (askers : List Nat) : Arb :=
  { a with wait := askers.foldl (fun w i => setNth w i (min (cell w i + 1) 4095)) a.wait }

/-- The losers of an arbitration age. -/
def Arb.ageMore (a : Arb) (askers : List Nat) : Arb :=
  { a with age := askers.foldl (fun w i => setNth w i (min (cell w i + 1) 7)) a.age }

/-- The element of a list with the largest key, the later of equals. -/
def argMax (key : Nat → Nat) : List Nat → Option Nat
  | [] => none
  | x :: xs => some (xs.foldl (fun b i => if key b ≤ key i then i else b) x)

/-- The choice among askers at an output that is not held: the winner, whether it was an arbitration rather than a
freewheel, and the arbiter with ages, waits and GCOUNT counted. -/
def Arb.pick (a : Arb) (n : Nat) (askers : List Nat) : Option (Nat × Bool × Arb) :=
  if a.parkV ∧ askers = [a.park] then
    some (a.park, false, { a with age := setNth a.age a.park 0, wait := setNth a.wait a.park 0 })
  else
    let g := a.gcount + 1
    let full := decide (n ≤ g)
    match argMax (fun i => if full then 8 * cell a.wait i + i else 8 * cell a.age i + i) askers with
    | none => none
    | some w =>
      let losers := askers.filter (fun i => decide (i ≠ w))
      let b := (({ a with gcount := if full then 0 else g } : Arb).ageMore losers).waitMore losers
      some (w, true, { b with age := setNth b.age w 0, wait := setNth b.wait w 0 })

/-- The winner's flit is sent: it parks, and a head of several flits takes the hold on its channel. -/
def Arb.sent (a : Arb) (w vc flits : Nat) : Arb :=
  let a := { a with park := w, parkV := true }
  if 1 < flits then { a with hold := some w, holdVc := vc, holdFlits := flits, ratchet := setNth a.ratchet w 1 } else a

/-- The hold of `h` ends: the ratchet is zero and the output parks on it. -/
def Arb.endHold (a : Arb) (h : Nat) : Arb :=
  { a with ratchet := setNth a.ratchet h 0, hold := none, holdVc := 0, holdFlits := 0, park := h, parkV := true }

/-- The holder sends its next flit; the hold ends at FLITS of its head, and at a tail that comes earlier (R129). -/
def Arb.advance (a : Arb) (h : Nat) (last : Bool) : Arb :=
  let r := cell a.ratchet h + 1
  let a := { a with ratchet := setNth a.ratchet h r }
  if r = a.holdFlits ∨ last then a.endHold h else a

/-- The hold dropped without parking, as at a port that becomes a sink (R128). -/
def Arb.drop (a : Arb) : Arb :=
  { a with ratchet := List.replicate 8 0, hold := none, holdVc := 0, holdFlits := 0 }

end Sys2Proof.Machine
end

