-- ==== Sys2Proof/Machine/Packets.lean ====
section
/-! DEFINITION. Flits, packets and encodings (chapter 3): the flit control word, the transaction header, the extension, the
hop code and the end-to-end code, and the flits of a packet. -/

namespace Sys2Proof.Machine

/-! ### Opcodes (Tables 2-5 and 3-4) -/

def opRD : BitVec 8 := 0x01
def opWR : BitVec 8 := 0x02
def opWRP : BitVec 8 := 0x03
def opATOM : BitVec 8 := 0x04
def opMSG : BitVec 8 := 0x05
def opRDLK : BitVec 8 := 0x06
def opWRUL : BitVec 8 := 0x07
def opUNLK : BitVec 8 := 0x08
def opFENCE : BitVec 8 := 0x09
def opRDS : BitVec 8 := 0x10
def opRDO : BitVec 8 := 0x11
def opUPG : BitVec 8 := 0x12
def opWBM : BitVec 8 := 0x13
def opEVC : BitVec 8 := 0x14
def opRDIO : BitVec 8 := 0x15
def opWRIO : BitVec 8 := 0x16
def opFWDS : BitVec 8 := 0x20
def opFWDO : BitVec 8 := 0x21
def opINV : BitVec 8 := 0x22
def opBINV : BitVec 8 := 0x23
def opCENSUS : BitVec 8 := 0x24
def opDATA : BitVec 8 := 0x30
def opCMP : BitVec 8 := 0x31
def opDATAF : BitVec 8 := 0x32
def opDATAM : BitVec 8 := 0x33
def opSNPACK : BitVec 8 := 0x34
def opSNPDATA : BitVec 8 := 0x35
def opCENSUSR : BitVec 8 := 0x36
def opCACK : BitVec 8 := 0x37
def opECMT : BitVec 8 := 0x40
def opENAK : BitVec 8 := 0x41
def opCRED : BitVec 8 := 0x42
def opGDATA : BitVec 8 := 0x50

/-- Outcome codes (Table 2-6). -/
def ocOK : BitVec 4 := 0
def ocLockBroken : BitVec 4 := 1
def ocDenied : BitVec 4 := 2
def ocDecode : BitVec 4 := 3
def ocDead : BitVec 4 := 4
def ocDomOff : BitVec 4 := 5
def ocPoisoned : BitVec 4 := 6
def ocLockLost : BitVec 4 := 7
def ocLockRefused : BitVec 4 := 8
def ocAgentError : BitVec 4 := 9

/-- The virtual network of an opcode: 0 REQ, 1 RSP, 2 SNP, 3 CMT, 4 GUA (Table 1-5); none where Table 3-4 lacks the opcode. -/
def vnOf (op : BitVec 8) : Option Nat :=
  let c := op.toNat
  if (1 ≤ c ∧ c ≤ 8) ∨ (0x10 ≤ c ∧ c ≤ 0x16) then some 0
  else if 0x30 ≤ c ∧ c ≤ 0x37 then some 1
  else if 0x20 ≤ c ∧ c ≤ 0x24 then some 2
  else if 0x40 ≤ c ∧ c ≤ 0x42 then some 3
  else if c = 0x50 then some 4
  else none

/-- The range beats of R39. -/
def rangeBeats (addr : Addr) (bytes : BitVec 9) : Nat := (addr.toNat % 64 + bytes.toNat) / 64 + 1

/-- The data beats of a message or guaranteed packet (Table 2-5). -/
def msgBeats (bytes : BitVec 9) : Nat := bytes.toNat / 64 + 1

/-- Whether a response of this outcome carries data flits (R89, R53). -/
def carriesData (oc : BitVec 4) : Bool :=
  decide (oc = ocOK) || decide (oc = ocLockBroken) || decide (oc = ocDenied) || decide (oc = ocPoisoned)

/-- The data flits Table 3-4 gives for OP, BYTES, ADDR and OUTCOME. A DATA answers RD or RDLK with the range beats of the
request, and ATOM, RDIO, RDS or a forwarded line with one: the range of each of those lies in one line (R39), so that the
range beats are one for them too. -/
def dataFlits (op : BitVec 8) (addr : Addr) (bytes : BitVec 9) (oc : BitVec 4) : Nat :=
  if op = opWR ∨ op = opWRP ∨ op = opWRUL then rangeBeats addr bytes
  else if op = opATOM ∨ op = opWBM ∨ op = opWRIO ∨ op = opSNPDATA then 1
  else if op = opMSG ∨ op = opGDATA then msgBeats bytes
  else if op = opDATA then (if carriesData oc then rangeBeats addr bytes else 0)
  else if op = opDATAF ∨ op = opDATAM then (if carriesData oc then 1 else 0)
  else 0

/-- The data beats a response to `op` carries when it carries data (Table 2-5). -/
def rspBeats (op : BitVec 8) (addr : Addr) (bytes : BitVec 9) : Nat :=
  if op = opRD ∨ op = opRDLK then rangeBeats addr bytes
  else if op = opATOM ∨ op = opRDS ∨ op = opRDO ∨ op = opRDIO then 1
  else 0

/-- ATTR from its bits (Table 3-5). -/
def mkAttr (posted locked secret replay : Bool) (ord : Nat) (split lastp : Bool) : BitVec 8 :=
  BitVec.ofNat 8 (128 * b2n posted + 64 * b2n locked + 32 * b2n secret + 16 * b2n replay + 4 * (ord % 4) + 2 * b2n split +
    b2n lastp)

/-! ### Header (Table 3-3) -/

/-- The 192 bits of a header, field by field from the top. -/
def Header.encode (h : Header) : HdrBits :=
  h.op ++ (h.src ++ (h.dst ++ (h.dnode ++ (h.wnode ++ (h.wpv ++ (h.epoch ++ (h.seq ++ (h.outcome ++ (h.attr ++ (h.ctx ++
    (h.tag ++ (h.bytes ++ (h.aop ++ (h.done ++ (h.state ++ (h.xinfo ++ h.addr))))))))))))))))

/-- The fields of the 192 bits H (Table 3-3). -/
def Header.decode (w : HdrBits) : Header :=
  { op := w.extractLsb' 184 8, src := w.extractLsb' 176 8, dst := w.extractLsb' 168 8, dnode := w.extractLsb' 160 8,
    wnode := w.extractLsb' 152 8, wpv := w.extractLsb' 151 1, epoch := w.extractLsb' 147 4, seq := w.extractLsb' 131 16,
    outcome := w.extractLsb' 127 4, attr := w.extractLsb' 119 8, ctx := w.extractLsb' 113 6, tag := w.extractLsb' 105 8,
    bytes := w.extractLsb' 96 9, aop := w.extractLsb' 92 4, done := w.extractLsb' 82 10, state := w.extractLsb' 80 2,
    xinfo := w.extractLsb' 48 32, addr := w.extractLsb' 0 48 }

/-- Attribute bits of a header (Table 3-5). -/
def Header.posted (h : Header) : Bool := bit h.attr 7
def Header.locked (h : Header) : Bool := bit h.attr 6
def Header.secret (h : Header) : Bool := bit h.attr 5
def Header.replay (h : Header) : Bool := bit h.attr 4
def Header.ord (h : Header) : Nat := field h.attr 2 2
def Header.split (h : Header) : Bool := bit h.attr 1
def Header.lastp (h : Header) : Bool := bit h.attr 0

/-- XINFO fields (Table 3-6). -/
def Header.txn (h : Header) : Nat := field h.xinfo 16 16
def Header.rqhg (h : Header) : Nat := field h.xinfo 8 8
def Header.chcmt (h : Header) : Bool := bit h.xinfo 15
def Header.cchan (h : Header) : Nat := field h.xinfo 0 12
def Header.gchan (h : Header) : Nat := field h.xinfo 20 12

/-! ### Integrity codes -/

/-- One bit into the hop CRC-8 of R98. -/
def crc8Bit (c : Nat) (b : Nat) : Nat :=
  let t := (c * 2) % 256
  if (c / 128 + b) % 2 = 1 then t ^^^ 0x2F else t

/-- The CRC-8 of the low `k` bits of `v`, most significant first, from `c`. -/
def crc8Go (v : Nat) : Nat → Nat → Nat
  | 0, c => c
  | k + 1, c => crc8Go v k (crc8Bit c ((v >>> k) % 2))

/-- HCRC of a flit: over flit bits [575:8] (R98). -/
def hcrc (fcw : BitVec 64) (payload : Line) : Nat :=
  crc8Go payload.toNat 512 (crc8Go (fcw.toNat >>> 8) 56 0xFF)

/-- One bit into the reflected CRC-32C of R99. -/
def crc32Bit (c : Nat) (b : Nat) : Nat :=
  if (c + b) % 2 = 1 then (c / 2) ^^^ 0x82F63B78 else c / 2

/-- The low `k` bits of `v`, least significant first. Bytes 0 upward, each least significant bit first, are the bits of the
payload from bit 0 up. -/
def crc32Go : Nat → Nat → Nat → Nat
  | 0, _, c => c
  | k + 1, v, c => crc32Go k (v / 2) (crc32Bit c (v % 2))

/-- CRC-32C of R99 over the payloads of a packet's flits in order. -/
def crc32c (ps : List Line) : Nat :=
  (ps.foldl (fun c p => crc32Go 512 p.toNat c) 0xFFFFFFFF) ^^^ 0xFFFFFFFF

/-! ### Flit control word (Tables 3-1 and 3-2) -/

def Flit.kind (f : Flit) : Nat := field f.fcw 62 2
def Flit.vc (f : Flit) : Nat := field f.fcw 58 4
def Flit.laport (f : Flit) : Nat := field f.fcw 55 3
def Flit.flits (f : Flit) : Nat := field f.fcw 51 4
def Flit.fidx (f : Flit) : Nat := field f.fcw 54 4
def Flit.poison (f : Flit) : Bool := bit f.fcw 53
def Flit.pktpois (f : Flit) : Bool := bit f.fcw 52
def Flit.mc (f : Flit) : Bool := bit f.fcw 50
def Flit.mcmask (f : Flit) : BitVec 16 := f.fcw.extractLsb' 24 16
def Flit.ecrc (f : Flit) : Nat := field f.fcw 8 32
def Flit.hcrcField (f : Flit) : Nat := field f.fcw 0 8
/-- A head is KIND 1 or 3. -/
def Flit.isHead (f : Flit) : Bool := decide (f.kind = 1 ∨ f.kind = 3)
/-- A tail or head-tail ends its packet. -/
def Flit.isLast (f : Flit) : Bool := decide (f.kind = 2 ∨ f.kind = 3)
/-- The header of a head flit (R83). -/
def Flit.hdr (f : Flit) : Header := Header.decode (f.payload.extractLsb' 0 192)
/-- The extension of a head flit (R83). -/
def Flit.ext (f : Flit) : BitVec 320 := f.payload.extractLsb' 192 320
/-- The flit with its HCRC computed anew. -/
def Flit.stamp (f : Flit) : Flit :=
  let w := setField f.fcw 0 8 0
  { f with fcw := setField w 0 8 (hcrc w f.payload) }
/-- The HCRC matches (R98). -/
def Flit.hopOk (f : Flit) : Bool := decide (f.hcrcField = hcrc f.fcw f.payload)
/-- The flit with VC, LAPORT and MCMASK rewritten, as a sender writes them (R109, R96). -/
def Flit.rewrite (f : Flit) (vc laport : Nat) (mask : BitVec 16) : Flit :=
  let w := setField f.fcw 58 4 vc
  let w := if f.isHead then setField w 55 3 laport else w
  { f with fcw := if f.kind = 1 ∧ f.mc then setField w 24 16 mask.toNat else w }
/-- The flit as 576 bits (R82), and back. -/
def Flit.toBits (f : Flit) : BitVec 576 := f.fcw ++ f.payload
def Flit.ofBits (w : BitVec 576) : Flit := { fcw := w.extractLsb' 512 64, payload := w.extractLsb' 0 512 }

/-- The FCW of a head (KIND 1) or head-tail (KIND 3). -/
def fcwHead (vc laport flits : Nat) (mc : Bool) (mask : BitVec 16) (ecrc : Nat) : BitVec 64 :=
  BitVec.ofNat 64 ((if flits = 1 then 3 else 1) * 2 ^ 62 + vc % 16 * 2 ^ 58 + laport % 8 * 2 ^ 55 + flits % 16 * 2 ^ 51 +
    b2n mc * 2 ^ 50 + (if flits = 1 then ecrc % 2 ^ 32 * 2 ^ 8 else if mc then mask.toNat * 2 ^ 24 else 0))

/-- The FCW of a data flit: body (KIND 0) or tail (KIND 2). -/
def fcwData (vc fidx : Nat) (poison last pktpois : Bool) (ecrc : Nat) : BitVec 64 :=
  BitVec.ofNat 64 ((if last then 2 else 0) * 2 ^ 62 + vc % 16 * 2 ^ 58 + fidx % 16 * 2 ^ 54 + b2n poison * 2 ^ 53 +
    (if last then b2n pktpois * 2 ^ 52 + ecrc % 2 ^ 32 * 2 ^ 8 else 0))

/-- The head payload of a packet (R83). -/
def Pkt.headPayload (p : Pkt) : Line := p.ext ++ p.hdr.encode

/-- The flits of a packet in their order, as the source injects them on channel `vc` (R84, R99, R186). -/
def Pkt.flits (p : Pkt) (vc laport : Nat) (mc : Bool) (mask : BitVec 16) : List Flit :=
  let ecrc := crc32c (p.headPayload :: p.data.map (·.data))
  let n := p.data.length
  let head : Flit := { fcw := fcwHead vc laport (n + 1) mc mask ecrc, payload := p.headPayload }
  let pois := p.data.any (·.poison)
  let rest : List Flit := (List.zip (List.range n) p.data).map (fun x =>
    { fcw := fcwData vc (x.1 + 1) x.2.poison (decide (x.1 + 1 = n)) pois ecrc, payload := x.2.data })
  (head :: rest).map Flit.stamp

/-- The blocks a packet takes in a store: one for each flit (R133). -/
def Pkt.blocks (p : Pkt) : Nat := p.data.length + 1

/-- A heartbeat (R85). -/
def heartbeatFlit (node port count : Nat) : Flit :=
  Flit.stamp { fcw := BitVec.ofNat 64 (3 * 2 ^ 62 + 15 * 2 ^ 58),
               payload := BitVec.ofNat 512 (1 + node * 2 ^ 4 + port * 2 ^ 12 + count % 65536 * 2 ^ 16) }

/-- A link control flit (R85). -/
def Flit.isControl (f : Flit) : Bool := decide (f.vc = 15)

/-- A truncation tail on channel `vc` (R129). -/
def truncTail (vc : Nat) : Flit := Flit.stamp { fcw := fcwData vc 0 false true false 0, payload := 0 }

/-! ### Extension (R93, R95) -/

/-- The enables inside the range of beat `k` of a request. -/
def beatRange (addr : Addr) (bytes : BitVec 9) (k : Nat) : BitVec 64 :=
  let a := addr.toNat % 64
  let e := a + bytes.toNat
  let lo := if k = 0 then a else 0
  let hi := if e / 64 = k then e % 64 else 63
  laneMask lo hi

/-- The numbers of the write beats whose enables are not all set inside the range. -/
def partialBeats (addr : Addr) (bytes : BitVec 9) (bs : List Beat) : List Nat :=
  (List.range bs.length).filter (fun k =>
    match bs[k]? with
    | some b => decide (b.be ≠ beatRange addr bytes k)
    | none => false)

/-- The extension of WR, WRP and WRUL: PARTIAL and the explicit masks in order (R93). -/
def writeExt (addr : Addr) (bytes : BitVec 9) (bs : List Beat) : BitVec 320 :=
  let ks := partialBeats addr bytes bs
  let masks := ks.map (fun k => match bs[k]? with | some b => b.be.toNat | none => 0)
  BitVec.ofNat 320 (sumBy (fun k => 2 ^ k) ks +
    sumBy (fun x => x.2 * 2 ^ (8 + 64 * x.1)) (List.zip (List.range 4) masks))

/-- The enables of beat `k` as the target presents them (R93). -/
def extEnables (ext : BitVec 320) (addr : Addr) (bytes : BitVec 9) (k : Nat) : BitVec 64 :=
  if bit ext k then
    let j := ((List.range k).filter (fun i => bit ext i)).length
    ext.extractLsb' (8 + 64 * j) 64
  else beatRange addr bytes k

/-- Entry `i` of the multicast list: headgate in the low byte, node in the high byte (R95). -/
def mcEntry (ext : BitVec 320) (i : Nat) : Nat × Nat := (field ext (16 * i) 8, field ext (16 * i + 8) 8)

/-! ### What the receiver checks -/

/-- A head fails R11, R14, R89 or R102: an invalid node, headgate, opcode or order, or leg B without a waypoint. A multicast
head is checked by its selected list entries (R95, R97). MC without GDATA and destination 255, destination 255 without MC, and WPV of
a guaranteed packet are header faults (DESIGN CHOICE, log entry 70). -/
def headFault (f : Flit) : Bool :=
  let h := f.hdr
  let hgBad (v : Nat) : Bool := decide (160 ≤ v)
  (vnOf h.op).isNone || hgBad h.src.toNat || decide (h.ord = 3) || ((decide (h.op = opFWDS) || decide (h.op = opFWDO)) && hgBad h.rqhg) ||
  (if f.mc then
    decide (h.op ≠ opGDATA) || decide (h.dst ≠ 255) ||
    (List.range 16).any (fun i => bit f.mcmask i && ((nodeIdx (mcEntry f.ext i).2).isNone || hgBad (mcEntry f.ext i).1))
   else
    hgBad h.dst.toNat || (nodeIdx h.dnode.toNat).isNone ||
    (decide (h.wpv = 1) && (nodeIdx h.wnode.toNat).isNone)) ||
  (decide (h.op = opGDATA) && decide (h.wpv = 1)) ||
  (decide (f.vc < 8) && decide (f.vc % 2 = 1) && decide (h.wpv = 0))

/-- The checks of R100 on a whole packet: end-to-end code, flit count, FIDX order and virtual network. -/
def pktOk (fs : List Flit) (vc : Nat) : Bool :=
  match fs with
  | [] => false
  | f :: rest =>
    let h := f.hdr
    let last := (rest.getLast?).getD f
    decide (last.ecrc = crc32c (fs.map (·.payload))) &&
    decide (f.flits = fs.length) &&
    decide (f.flits = 1 + dataFlits h.op h.addr h.bytes h.outcome) &&
    (List.zip (List.range rest.length) rest).all (fun x => decide (x.2.fidx = x.1 + 1)) &&
    decide (vnOf h.op = some (vc / 2))

/-- R175: PKTPOIS of the tail is the OR of the POISON bits. -/
def poisOk (fs : List Flit) : Bool :=
  match fs with
  | [] => true
  | [_] => true
  | _ :: rest =>
    match rest.getLast? with
    | some t => t.pktpois == rest.any (·.poison)
    | none => true

/-- The packet a list of flits carries. -/
def pktOf (fs : List Flit) : Pkt :=
  match fs with
  | [] => Pkt.zero
  | f :: rest => { hdr := f.hdr, ext := f.ext, data := rest.map (fun d => { data := d.payload, poison := d.poison }) }

end Sys2Proof.Machine
end

