-- ==== Sys2Proof/Machine/Operands.lean ====
section
/-! DEFINITION. The operands of a request: the form rules of R38 and R39, decode into parts (R136), the packets of a part
(R94, R139), the response space it needs (R146), and the arithmetic of the atomics (R265). -/

namespace Sys2Proof.Machine

/-- An opcode of Table 2-5 that the HAI of headgate `n` may present (R38). -/
def opOnReq (n : Nat) (op : BitVec 8) : Bool :=
  let c := op.toNat
  (decide (1 ≤ c) && decide (c ≤ 9)) || decide (c = 0x15) || decide (c = 0x16) || decide (c = 0x50) ||
  (isCaching n && decide (0x10 ≤ c) && decide (c ≤ 0x14))

/-- Posted requests: WRP and GDATA receive their OK at ACC (R48). -/
def isPosted (op : BitVec 8) : Bool := decide (op = opWRP) || decide (op = opGDATA)

/-- Coherent and IO-coherent opcodes, 0x10 to 0x16. -/
def isCoherent (op : BitVec 8) : Bool := decide (0x10 ≤ op.toNat) && decide (op.toNat ≤ 0x16)

/-- Requests that use an address (R136). -/
def usesAddr (op : BitVec 8) : Bool := !(decide (op = opMSG) || decide (op = opFENCE) || decide (op = opGDATA))

/-- The opcodes that address one line with BYTES 63 (R39). -/
def isLineOp (op : BitVec 8) : Bool := isCoherent op

/-- The opcodes decode never splits (R138). -/
def unsplit (op : BitVec 8) : Bool :=
  decide (op = opRDLK) || decide (op = opWRUL) || decide (op = opUNLK) || decide (op = opATOM) || isCoherent op

/-- Beats a request brings on WDATA (Table 2-5). -/
def reqBeats (r : Req) : Nat :=
  if r.op = opWR ∨ r.op = opWRP ∨ r.op = opWRUL then rangeBeats r.addr r.bytes
  else if r.op = opATOM ∨ r.op = opWBM ∨ r.op = opWRIO then 1
  else if r.op = opMSG ∨ r.op = opGDATA then msgBeats r.bytes
  else 0

/-- Replay-store blocks a request may need, for `parts` parts (R133): one for each flit, with one more for a write that R94
may split. -/
def reqBlocks (r : Req) (parts : Nat) : Nat :=
  if r.op = opGDATA ∨ r.op = opFENCE then 0
  else parts + reqBeats r + (if (r.op = opWR ∨ r.op = opWRP ∨ r.op = opWRUL) ∧ 4 < reqBeats r then 1 else 0)

/-- The request as the headgate takes it: the fields an opcode does not use are ignored (R36), a MSG and a GDATA keep only
their destination or channel (R29, R55, R57), an UNLK has BYTES 0 (R160), and REQ_AOP belongs to ATOM only. -/
def normReq (r : Req) : Req :=
  { r with
    addr := if r.op = opMSG then BitVec.ofNat 48 (r.addr.toNat % 256)
            else if r.op = opGDATA then BitVec.ofNat 48 (r.addr.toNat % 4096)
            else if r.op = opFENCE then 0 else r.addr
    bytes := if r.op = opUNLK ∨ r.op = opFENCE then 0 else r.bytes
    aop := if r.op = opATOM then r.aop else 0 }

/-- The address rules of R39 and R264. -/
def rangeOk (r : Req) : Bool :=
  !usesAddr r.op ||
  (decide (r.addr.toNat % 512 + r.bytes.toNat ≤ 511) &&
   (!isLineOp r.op || (decide (r.bytes = 63) && decide (r.addr.toNat % 64 = 0))) &&
   (!decide (r.op = opATOM) ||
     ((decide (r.bytes = 7) && decide (r.addr.toNat % 8 = 0)) ||
      (decide (r.bytes = 15) && decide (r.addr.toNat % 16 = 0) && decide (r.aop = 2))) && decide (r.aop.toNat ≤ 9)))

/-- The lanes an ATOM's beat enables (R39, R46): the operand, and for CAS the compare value from lane 16. -/
def atomLanes (r : Req) : BitVec 64 :=
  let m := laneMask 0 r.bytes.toNat
  if r.aop = 2 then m ||| laneMask 16 (16 + r.bytes.toNat) else m

/-- The enable rules of R39 on the beats taken: nothing outside the range; for ATOM exactly the operand lanes. -/
def enablesOk (r : Req) (bs : List Beat) : Bool :=
  if r.op = opATOM then bs.all (fun b => decide (b.be = atomLanes r))
  else if r.op = opMSG ∨ r.op = opGDATA then true
  else (List.zip (List.range bs.length) bs).all (fun x => decide (x.2.be &&& ~~~(beatRange r.addr r.bytes x.1) = 0))

/-! ### Decode (R134 to R138) -/

/-- A decode slot: number, base, size and interleave flag. -/
structure DecSlot where
  slot : Nat
  base : Nat
  size : Nat
  ilv : Bool
  deriving DecidableEq, Repr

/-- Slot `t` of headgate `n` where it decodes. The reset value of a slot is zero. -/
def decSlot (s : State) (n t : Nat) : Option DecSlot :=
  let w0 := Tab.get s.regs 0 (Reg.HG_DEC_SLOT_w0 n t)
  if bit w0 63 then
    some { slot := t, base := field w0 6 42 * 64, size := field (Tab.get s.regs 0 (Reg.HG_DEC_SLOT_w1 n t)) 6 42 * 64,
           ilv := bit w0 62 }
  else none

/-- The valid slots, ascending. -/
def decSlots (s : State) (n : Nat) : List DecSlot := (List.range 160).filterMap (decSlot s n)

/-- A slot matches a byte address (R134). -/
def DecSlot.hits (d : DecSlot) (a : Nat) : Bool := decide (d.base ≤ a) && decide (a < d.base + d.size)

/-- The slice of a line (R253). -/
def sliceOf (a' : Nat) : Nat :=
  ((a' / 2 ^ 6) % 16) ^^^ ((a' / 2 ^ 10) % 16) ^^^ ((a' / 2 ^ 14) % 16) ^^^ ((a' / 2 ^ 18) % 16)

/-- Byte `k` of HG_ILV_MAP: the headgate that serves slice `k` (R254). -/
def ilvTarget (s : State) (n k : Nat) : Nat := field (s.reg (Reg.HG_ILV_MAP n (k / 8))) (8 * (k % 8)) 8

/-- The target of a block (R136), with whether it was an interleave hit. -/
def blockTarget (s : State) (n : Nat) (slots : List DecSlot) (a : Nat) : Target × Bool :=
  match slots.filter (fun d => d.hits a) with
  | [] => (.none, false)
  | d :: rest =>
    if d.ilv ∧ rest.all (fun e => e.ilv && decide (e.base = d.base) && decide (e.size = d.size)) then
      (.hg (ilvTarget s n (sliceOf (a - d.base))), true)
    else
      match rest with
      | [] => (.hg d.slot, false)
      | e :: _ => (.overlap d.slot e.slot, false)

/-- Two blocks have the same result. -/
def sameTarget : Target → Target → Bool
  | .hg a, .hg b => decide (a = b)
  | .none, .none => true
  | .overlap _ _, .overlap _ _ => true
  | _, _ => false

/-- A block appended to the parts so far, the last part being at the end (R136). -/
def addBlock (ps : List Part) (t : Target) (lo hi : Nat) : List Part :=
  match ps.getLast? with
  | some p =>
    if sameTarget p.target t then ps.dropLast ++ [{ p with bytes := BitVec.ofNat 9 (hi - p.lo.toNat) }]
    else ps ++ [{ target := t, lo := BitVec.ofNat 48 lo, bytes := BitVec.ofNat 9 (hi - lo), loc := Option.none }]
  | none => [{ target := t, lo := BitVec.ofNat 48 lo, bytes := BitVec.ofNat 9 (hi - lo), loc := Option.none }]

/-- decode(req) of R136, with whether every hit was on the interleave group or nothing. A MSG has its destination as the
single part (R55); a destination that names no headgate has no map entry and decodes to none (R14). -/
def decodeReq (s : State) (n : Nat) (r : Req) : List Part × Bool :=
  if r.op = opFENCE ∨ r.op = opGDATA then ([], true)
  else if r.op = opMSG then
    let d := r.addr.toNat % 256
    ([{ target := if d < 160 then .hg d else .none, lo := r.addr, bytes := r.bytes, loc := Option.none }], true)
  else
    let slots := decSlots s n
    let a := r.addr.toNat
    let first := a / 64
    let last := (a + r.bytes.toNat) / 64
    (List.range (last + 1 - first)).foldl (fun acc k =>
      let b := first + k
      let (t, g) := blockTarget s n slots (64 * b)
      let isHg := match t with | .hg _ => true | _ => false
      (addBlock acc.1 t (max a (64 * b)) (min (a + r.bytes.toNat) (64 * b + 63)), acc.2 && (g || !isHg)))
      ([], true)

/-- The part holds a headgate as its target. -/
def Part.hg? (p : Part) : Option Nat := match p.target with | .hg t => some t | _ => none

/-- A request is malformed by form, by the split rule or by its target (R40, R138, R226). -/
def malformed (n : Nat) (r : Req) (parts : List Part) (allIlv : Bool) : Bool :=
  !opOnReq n r.op || !rangeOk r || (unsplit r.op && decide (1 < parts.length)) || (isCoherent r.op && !allIlv)

/-! ### Packets of a part (R93, R94, R139) -/

/-- The beats of a request that fall in the range from `lo` with `bytes`, counting from the request's first beat. -/
def partBeats (r : Req) (bs : List Beat) (lo : Addr) (bytes : BitVec 9) : List Beat :=
  if r.op = opWR ∨ r.op = opWRP ∨ r.op = opWRUL then
    let skip := lo.toNat / 64 - r.addr.toNat / 64
    (bs.drop skip).take (rangeBeats lo bytes)
  else bs

/-- The packets of a part: two, split at the 256-byte-aligned address, where more than four beats are not wholly enabled
inside the range (R94); else one. -/
def partRanges (r : Req) (bs : List Beat) (lo : Addr) (bytes : BitVec 9) : List (Addr × BitVec 9) :=
  let ks := partialBeats lo bytes (partBeats r bs lo bytes)
  if (r.op = opWR ∨ r.op = opWRP ∨ r.op = opWRUL) ∧ 4 < ks.length then
    let a := lo.toNat
    let m := a / 256 * 256 + 256
    [(lo, BitVec.ofNat 9 (m - 1 - a)), (BitVec.ofNat 48 m, BitVec.ofNat 9 (a + bytes.toNat - m))]
  else [(lo, bytes)]

/-- Response blocks of a non-posted part: one for each flit of the response with full data (R146). -/
def rspBlocks (op : BitVec 8) (addr : Addr) (bytes : BitVec 9) : Nat :=
  if isPosted op then 0 else 1 + rspBeats op addr bytes

/-- The cost of an accepted request in weir blocks (R150). -/
def weirCost (r : Req) : Nat :=
  if r.op = opGDATA then 0
  else if r.op = opMSG then 1 + msgBeats r.bytes
  else if r.op = opWR ∨ r.op = opWRP ∨ r.op = opWRUL ∨ r.op = opATOM ∨ r.op = opWBM ∨ r.op = opWRIO then
    1 + rangeBeats r.addr r.bytes
  else 1

/-! ### Atomics (Table 9-3, R265) -/

/-- The value written, or none where a CAS compare fails; `size` in bytes. -/
def atomResult (aop : BitVec 4) (size m d c : Nat) : Option Nat :=
  let w := 8 * size
  let lt (a b : Nat) : Bool := decide (signed w a < signed w b)
  match aop.toNat with
  | 0 => some ((m + d) % 2 ^ w)
  | 1 => some d
  | 2 => if m = c then some d else none
  | 3 => some (if lt d m then d else m)
  | 4 => some (if lt m d then d else m)
  | 5 => some (min m d)
  | 6 => some (max m d)
  | 7 => some (m &&& d)
  | 8 => some (m ||| d)
  | 9 => some (m ^^^ d)
  | _ => none

/-- The operand of size `size` at byte lane `lane` of a beat. -/
def laneVal (l : Line) (lane size : Nat) : Nat := field l (8 * lane) (8 * size)

/-- A line with `size` bytes at `lane` replaced. -/
def setLanes (l : Line) (lane size v : Nat) : Line := setField l (8 * lane) (8 * size) v

/-- An atomic on the line `old` at byte `lane`, with the request beat: the new line (none: nothing written) and the beat
returned, M in lanes 0 to size - 1 (R46). -/
def atomLine (aop : BitVec 4) (size lane : Nat) (old : Line) (beat : Line) : Option Line × Line :=
  let m := laneVal old lane size
  ((atomResult aop size m (laneVal beat 0 size) (laneVal beat 16 size)).map (fun v => setLanes old lane size v),
   BitVec.ofNat 512 m)

end Sys2Proof.Machine
end

