-- ==== Sys2Proof/Machine/Inject.lean ====
section
/-! DEFINITION. The source side of a packet: the replay store, epoch counts, credits and response space, the route of an
injection (R101, R109, R322), first injections and replays, and control packets. -/

namespace Sys2Proof.Machine

/-! ### The replay store (R133, R170, R171) -/

/-- A stored packet that waits for its first injection. -/
def mkStored (p : Pkt) (kind : PktKind) (dst : Nat) (born : BitVec 4) (txn : Nat) : StPkt :=
  { pkt := p, kind := kind, dst := dst, waiting := true, born := born, stamps := [], txn := txn, ahead := false, owners := [], pend := 0,
    due := 0, lastTurn := 0, accAt := 0, lost := false }

/-- Blocks held by packets of one kind. -/
def kindBlocks (h : Headgate) (k : PktKind) : Nat :=
  sumBy (fun p => if p.kind = k then p.pkt.blocks else 0) h.store

/-- Blocks of requests transferred on REQ and not yet accepted: they are already written (R43). -/
def writeBlocks (h : Headgate) : Nat :=
  sumBy (fun q => match q.verdict with
    | .ok | .held _ => reqBlocks q.req (q.parts.filter (fun p => p.loc.isNone)).length
    | _ => 0) h.reqs

/-- Occupied blocks of the replay store. -/
def usedBlocks (h : Headgate) : Nat := sumBy (fun p => p.pkt.blocks) h.store

/-- Free blocks of the replay store: HG_REPLAY_STATUS.FREE. -/
def freeBlocks (h : Headgate) : Nat := 1024 - usedBlocks h - writeBlocks h

/-- Blocks kept for the agent's snoop channel: four for each snoop presented and not yet answered whole, and one for each CACK
awaited (R69, R171). -/
def snpKept (h : Headgate) : Nat := 4 * (h.snoops.filter (·.presented)).length + h.cackWait.length

/-- Free blocks of the replay store that are kept for nothing. -/
def openBlocks (h : Headgate) : Nat := freeBlocks h - snpKept h

/-- Blocks requests may occupy: 896 less the staging of open channels (R171, R205, R480). -/
def reqLimit (s : State) (n : Nat) : Nat := 896 - min 896 (s.getF (Reg.HG_PL_STAGE n) 0 10)

/-- Packets to `d` injected and not yet committed end to end. -/
def uncommitted (h : Headgate) (d : Nat) : List StPkt :=
  h.store.filter (fun p => decide (p.dst = d) && !p.waiting && decide (p.kind ≠ .gua))

/-- Sending and receiving state of a pair. -/
def Headgate.txAt (h : Headgate) (d : Nat) : PairTx := Tab.get h.tx PairTx.reset d
def Headgate.setTx (h : Headgate) (d : Nat) (x : PairTx) : Headgate := { h with tx := Tab.set h.tx d x }
def Headgate.rxAt (h : Headgate) (d : Nat) : PairRx := Tab.get h.rx PairRx.reset d
def Headgate.setRx (h : Headgate) (d : Nat) (x : PairRx) : Headgate := { h with rx := Tab.set h.rx d x }
/-- A context of a headgate. -/
def Headgate.ctxAt (h : Headgate) (c : Ctx) : CtxSt := Tab.get h.ctxs CtxSt.reset c.toNat
def Headgate.setCtx (h : Headgate) (c : Ctx) (x : CtxSt) : Headgate := { h with ctxs := Tab.set h.ctxs c.toNat x }

/-! ### Epochs (R151, R152) -/

/-- The current stamp. -/
def curEpoch (s : State) (n : Nat) : BitVec 4 := BitVec.ofNat 4 (s.getF (Reg.HG_EPOCH n) 0 4)

/-- The transactions accepted under stamp `e` with a packet unresolved, the other packets written under it, and the
unresolved injections stamped with it. -/
def epochCount (h : Headgate) (e : BitVec 4) : Nat :=
  let reqs := h.store.filter (fun p => decide (p.kind = .req) && decide (p.born = e))
  (reqs.map (·.txn)).eraseDups.length +
  (h.store.filter (fun p => decide (p.kind ≠ .req) && decide (p.kind ≠ .gua) && decide (p.born = e))).length +
  sumBy (fun p => (p.stamps.filter (fun x => decide (x = e))).length) h.store

/-- Every count other than that of CUR is zero. -/
def drained (s : State) (n : Nat) : Bool :=
  (List.range 16).all (fun e => decide (BitVec.ofNat 4 e = curEpoch s n) || decide (epochCount (s.hgAt n) (BitVec.ofNat 4 e) = 0))

/-- A write of 1 to HG_EPOCH.ADV (R152). -/
def advanceEpoch (s : State) (n : Nat) : State :=
  let nxt := curEpoch s n + 1
  if epochCount (s.hgAt n) nxt = 0 then
    (s.setF (Reg.HG_EPOCH n) 0 4 nxt.toNat).setB (Reg.HG_EPOCH n) 5 false
  else s.setB (Reg.HG_EPOCH n) 5 true

/-! ### Credits and response space (R143 to R148) -/

/-- The pair from `n` to `t` is enabled. -/
def pairEnabled (s : State) (n t : Nat) : Bool := s.getB (Reg.HG_ALLOT n t) 36

/-- Credits held: ALLOT less the credits taken and not returned. -/
def creditOf (s : State) (n t : Nat) : Nat := s.getF (Reg.HG_ALLOT n t) 0 10 - Tab.get (s.hgAt n).taken 0 t

/-- HG_RSP_POOL.SIZE, 16 to 448 (Table 5-5). -/
def poolSize (s : State) (n : Nat) : Nat := clip 16 448 (s.getF (Reg.HG_RSP_POOL n) 0 10)

/-- HG_RSP_POOL.FREE. -/
def poolFree (s : State) (n : Nat) : Nat := poolSize s n - (s.hgAt n).poolUsed

/-! ### Route (R101, R109, R322) -/

/-- The attachment-map entry of `k` at `n` may be used (R469). -/
def attachValid (s : State) (n k : Nat) : Bool := decide (k < 160) && s.getB (Reg.HG_ATTACH_k n k) 63
def attachNode (s : State) (n k : Nat) : Nat := s.getF (Reg.HG_ATTACH_k n k) 0 8
def attachPort (s : State) (n k : Nat) : Nat := s.getF (Reg.HG_ATTACH_k n k) 8 2

/-- HG_ATTACH.USE: the link injected on. -/
def linkInUse (s : State) (n : Nat) : Nat := s.getF (Reg.HG_ATTACH n) 0 1

/-- The link in use can carry an injection. -/
def linkUp (s : State) (n : Nat) : Bool :=
  let e := LEnd.hg n (linkInUse s n)
  s.enabled e && !s.faulty e && s.live e

/-- Waypoint entry `w` of `n` covers a node (Table 12-11). -/
def waypointHits (s : State) (n node w : Nat) : Bool :=
  let e := s.reg (Reg.HG_WAYPT n w)
  let x := node % 16
  let y := node / 16
  bit e 63 && decide (field e 0 4 ≤ x) && decide (x ≤ field e 4 4) && decide (field e 8 4 ≤ y) && decide (y ≤ field e 12 4)

/-- The waypoint of an injection to `node`, and HG_WPT_HIT after the match (R322). -/
def waypointMatch (s : State) (n node : Nat) : Option Nat × State :=
  match (List.range 16).filter (waypointHits s n node) with
  | [] => (none, s)
  | [w] => (some (s.getF (Reg.HG_WAYPT n w) 16 8), s)
  | w :: _ :: _ => (some (s.getF (Reg.HG_WAYPT n w) 16 8),
      (s.setF (Reg.HG_WPT_HIT n) 0 4 w).setB (Reg.HG_WPT_HIT n) 4 true)

/-- The XY step from router `i` towards node `t`: East, West, North, South, or none at `t` (R109). -/
def xyStep (i t : Nat) : Option Nat :=
  let x := i % 10
  let y := i / 10
  if x < t % 16 then some 6
  else if t % 16 < x then some 4
  else if y < t / 16 then some 7
  else if t / 16 < y then some 5
  else none

/-- LAPORT of an injected head (R109): n is the attachment router, the leg is A, the local port comes from the attachment
map. -/
def injectLaport (s : State) (n : Nat) (h : Header) : Nat :=
  let r := (attachOf n (linkInUse s n)).1
  let t := if h.wpv = 1 ∧ nodeOf r ≠ h.wnode.toNat then h.wnode.toNat else h.dnode.toNat
  match xyStep r t with
  | some p => p
  | none => attachPort s n h.dst.toNat

/-! ### Injection -/

/-- Flits leave on the link in use: they stand on the wire, are counted as INJ and observed (R113, R415, R417). Guaranteed
flits go ahead of best-effort flits (R115). -/
def launch (s : State) (n : Nat) (fs : List Flit) (gua : Bool) : State :=
  let l := linkInUse s n
  let (i, p) := attachOf n l
  let e := LEnd.rt i p
  let w := s.wire e
  let w' := if gua then w.filter (fun f => decide (f.vc = 8)) ++ fs ++ w.filter (fun f => decide (f.vc ≠ 8)) else w ++ fs
  let s := (s.setWire e w').count (ckInj n) fs.length
  fs.foldl (fun t f => t.observe true n 0 f) s

/-- A unicast packet with its route, stamp and REPLAY as R101 writes them, and the flits that leave. -/
def routePkt (s : State) (n : Nat) (p : Pkt) (replay : Bool) : Pkt × State :=
  let dn := attachNode s n p.hdr.dst.toNat
  let (w, s) := if p.hdr.op = opGDATA then (none, s) else waypointMatch s n dn
  ({ p with hdr := { p.hdr with
      dnode := BitVec.ofNat 8 dn
      wnode := BitVec.ofNat 8 (w.getD 0)
      wpv := if w.isSome then 1 else 0
      epoch := curEpoch s n
      attr := setBit p.hdr.attr 4 replay } }, s)

/-- The leg A channel of a packet's virtual network (R102). -/
def legA (op : BitVec 8) : Nat := 2 * (vnOf op).getD 0

/-- A routed unicast packet put on the wire. -/
def launchPkt (s : State) (n : Nat) (p : Pkt) : State :=
  launch s n (p.flits (legA p.hdr.op) (injectLaport s n p.hdr) false 0) (p.hdr.op = opGDATA)

/-- A packet of the CMT network, sent at once and held nowhere (R178); lost where no link or map entry can carry it. -/
def sendCmt (s : State) (n dst : Nat) (op : BitVec 8) (xinfo : Nat) : State :=
  if attachValid s n dst ∧ linkUp s n then
    let h : Header := { Header.zero with op := op, src := BitVec.ofNat 8 n, dst := BitVec.ofNat 8 dst,
                                         xinfo := BitVec.ofNat 32 xinfo }
    let (p, s) := routePkt s n { hdr := h, ext := 0, data := [] } false
    launchPkt s n p
  else s

/-- A FENCE of the same context accepted before the packet's transaction still stands (R51). -/
def behindFence (h : Headgate) (p : StPkt) : Bool :=
  !p.ahead && decide (p.kind = .req) &&
  h.txns.any (fun t => decide (t.req.op = opFENCE) && decide (t.req.ctx = p.pkt.hdr.ctx) && decide (t.id < p.txn))

/-- A pass to some destination is active. -/
def anyPass (h : Headgate) : Bool := h.tx.any (fun x => x.2.pass)

/-- HG_PAIR_RESET.HOLD stands with that PEER (R331). -/
def pairHeld (s : State) (n d : Nat) : Bool :=
  s.getB (Reg.HG_PAIR_RESET n) 10 && decide (s.getF (Reg.HG_PAIR_RESET n) 0 8 = d)

/-- The waiting packet at place `k` of the store meets every condition of its first injection but the turn of R184. -/
def injectable (s : State) (n k : Nat) : Bool :=
  let h := s.hgAt n
  match h.store[k]? with
  | none => false
  | some p =>
    let before := h.store.take k
    p.waiting && decide (p.kind ≠ .gua) && attachValid s n p.dst && linkUp s n && !(h.txAt p.dst).pass && !pairHeld s n p.dst &&
    (if p.kind = .req then
      !before.any (fun q => q.waiting && decide (q.kind = .req) && decide (q.dst = p.dst) && !behindFence h q) &&
      !behindFence h p && decide (0 < creditOf s n p.dst) &&
      decide (rspBlocks p.pkt.hdr.op p.pkt.hdr.addr p.pkt.hdr.bytes ≤ poolFree s n)
    else
      !before.any (fun q => q.waiting && (decide (q.kind = .rsp) || decide (q.kind = .snp)) && decide (q.dst = p.dst)))

/-- Some packet of `n` could be injected for the first time. -/
def anyInjectable (s : State) (n : Nat) : Bool := (List.range (s.hgAt n).store.length).any (injectable s n)

/-- PART_INJECTION is open to place `k`: while a pass is active the two alternate (R184). -/
def injectNow (s : State) (n k : Nat) : Bool :=
  injectable s n k && !(anyPass (s.hgAt n) && (s.hgAt n).passTurn)

/-- An uncorrectable word was found in the replay store (0) or the resequencing buffer (1): counted, and reported where it
is a data word (R189, R190). -/
def storeUncorr (s : State) (n which : Nat) (alarmed : Bool) : State :=
  let s := (s.bump (Reg.HG_STORE_UNCORR n) 1).setB (Reg.HG_E2E_STATUS n) 5 true
  if alarmed then
    let (d, s) := s.draw
    s.hgAlarm n 0x4B (which + 2 * (Config.storeBlock d % 1024))
  else s

/-- Beat `k` marked poisoned, with data as read. -/
def spoilBeat (data : List DBeat) (k : Nat) (l : Line) : List DBeat :=
  match data[k]? with
  | some _ => setNth data k { data := l, poison := true }
  | none => data

/-- The packet at place `k` as read from the replay store (R189): a corrected word is counted, a bad data word goes out
poisoned, one bad header copy is replaced by the other, and a packet with both lost is never sent again. -/
def readStored (s : State) (n k : Nat) (err : MemErr) : State :=
  match (s.hgAt n).store[k]? with
  | none => s
  | some p =>
    match err with
    | .ok => s
    | .corrected => s.bump (Reg.HG_STORE_CORR n) 1
    | .uncorrHdr => storeUncorr s n 0 false
    | .uncorrData b =>
      if b < p.pkt.data.length then
        let (d, s) := s.draw
        let p' := { p with pkt := { p.pkt with data := spoilBeat p.pkt.data b (Config.badData d) } }
        let s := s.updHg n (fun h => { h with store := setNth h.store k p' })
        storeUncorr s n 0 true
      else storeUncorr s n 0 false
    | .uncorrBothHdr =>
      let s := s.updHg n (fun h => { h with store := setNth h.store k { p with lost := true } })
      storeUncorr s n 0 false

/-- The part at `lo` of the transaction `id` holds `b` blocks of the response pool (R97). -/
def markBlocks (ts : List Txn) (id : Nat) (lo : Addr) (b : Nat) : List Txn :=
  ts.map (fun (t : Txn) => if t.id = id then
    { t with parts := t.parts.map (fun (x : PartSt) => if x.lo = lo then { x with blocks := b } else x) } else t)

/-- The first injection of the packet at place `k` (R101, R144, R166). A packet with no readable header takes its sequence
number and is not sent (R189). -/
def injectFirst (s : State) (n k : Nat) : State :=
  match (s.hgAt n).store[k]? with
  | none => s
  | some p =>
    let h := s.hgAt n
    let x := h.txAt p.dst
    let fresh := (uncommitted h p.dst).isEmpty
    let (q, s) := routePkt s n { p.pkt with hdr := { p.pkt.hdr with seq := x.next } } false
    let h := s.hgAt n
    let p' := { p with pkt := q, waiting := false, stamps := p.stamps ++ [q.hdr.epoch] }
    let h := { h with
      store := setNth h.store k p'
      passTurn := true
      taken := if p.kind = PktKind.req then Tab.set h.taken p.dst (Tab.get h.taken 0 p.dst + 1) else h.taken
      poolUsed := if p.kind = PktKind.req then h.poolUsed + rspBlocks q.hdr.op q.hdr.addr q.hdr.bytes else h.poolUsed
      txns := if p.kind = PktKind.req then markBlocks h.txns p.txn q.hdr.addr (rspBlocks q.hdr.op q.hdr.addr q.hdr.bytes) else h.txns }
    let h := h.setTx p.dst { x with next := x.next + 1, timerAt := if fresh then s.fclk else x.timerAt }
    let s := s.setHg n h
    if p.lost then s else launchPkt s n q

/-- Packet at place `k` injected again in a pass (R101, R184, R185): the header's SEQ, data and poison stay. -/
def injectAgain (s : State) (n k : Nat) : State :=
  match (s.hgAt n).store[k]? with
  | none => s
  | some p =>
    let (q, s) := routePkt s n p.pkt true
    let p' := { p with pkt := q, stamps := p.stamps ++ [q.hdr.epoch] }
    let s := s.updHg n (fun h => { h with store := setNth h.store k p' })
    let s := ((s.bump (Reg.HG_REPLAY_PKTS n) 1).hgEvent n 3 1)
    launchPkt s n q

/-- A packet appended to the replay store. -/
def storePkt (s : State) (n : Nat) (p : StPkt) : State := s.updHg n (fun h => { h with store := h.store ++ [p] })

/-- The remote levee of `d` stands at `n` (R328). -/
def deadDest (s : State) (n d : Nat) : Bool := decide (d < 192) && s.getB (Reg.HG_DEAD_DEST n (d / 64)) (d % 64)

/-- A response, snoop or CACK written into the replay store of `n`; behind a remote levee it is discarded at once (R328). -/
def storeReply (s : State) (n : Nat) (kind : PktKind) (p : Pkt) : State :=
  if deadDest s n p.hdr.dst.toNat then s
  else storePkt s n (mkStored p kind p.hdr.dst.toNat (curEpoch s n) 0)

/-- A pass to `d` is due (R181); several triggers merge (R183). -/
def triggerPass (s : State) (n d : Nat) : State :=
  s.updHg n (fun h => let x := h.txAt d; h.setTx d { x with passDue := true })

/-- A pass to every destination with uncommitted packets is due. -/
def triggerAll (s : State) (n : Nat) : State :=
  forRange 160 (fun d t => if (uncommitted (t.hgAt n) d).isEmpty then t else triggerPass t n d) s

end Sys2Proof.Machine
end

