-- ==== Sys2Proof/Machine/Target.lean ====
section
/-! DEFINITION. The target side of a headgate: the request store, the protection check (chapter 11), the lock manager of
Table 5-1, responses, the freeing of entries and credit return (R153 to R161, R299 to R312, R326, R353). -/

namespace Sys2Proof.Machine

/-- The header's source and context: the master of R159. -/
def Entry.src (e : Entry) : Nat := e.pkt.hdr.src.toNat
def Entry.master (e : Entry) : Nat × Ctx := (e.pkt.hdr.src.toNat, e.pkt.hdr.ctx)
def Entry.op (e : Entry) : BitVec 8 := e.pkt.hdr.op

/-- A home slice, a Reservoir port, the FCS port (R22). -/
def isHome (t : Nat) : Bool := decide (100 ≤ t) && decide (t ≤ 116)
def isPort (t : Nat) : Bool := decide (117 ≤ t) && decide (t ≤ 124)

/-- Request-store entries of a target (R142). -/
def storeSize (s : State) (t : Nat) : Nat := if s.getB (Reg.HG_CFG t) 0 then 512 else 128

/-- The bank of an address at a Reservoir port (R280). -/
def bankOf (a : Nat) : Nat := (a / 256) % 32

/-! ### Lock managers (Table 5-1, R291, R292) -/

def State.lockMgr (s : State) : LockAt → LockMgr
  | .headgate n => (s.hgAt n).lock
  | .bank b => (s.bankAt b).lock


/-- The lock limit in FCLK cycles (R293, Table 10-3). -/
def lockLimit (s : State) : Nat := max 160 (s.getF Reg.RV_LOCK_CFG 0 16)

/-- What a lock manager does with an access when it is to be presented. -/
inductive Judge where
  | present
  | hold
  | lost
  deriving DecidableEq, Repr

/-- The judgement of an access of master `m` by a manager (Table 5-1, R291, R292). `before` are the accesses queued or held at the
manager that go before it, as (master, is an RDLK); `elsewhere` says that `m` owns or waits at another manager, `wasHeld` that the
manager has held the access: LOCK_LOST is judged when it is presented (R291). -/
def judge (l : LockMgr) (m : Nat × Ctx) (op : BitVec 8) (locked : Bool) (before : List ((Nat × Ctx) × Bool))
    (elsewhere wasHeld : Bool) : Judge :=
  let ownRdlk := before.any (fun b => b.2 && decide (b.1 = m))
  let otherRdlk := before.any (fun b => b.2 && decide (b.1 ≠ m))
  match l.owner with
  | some o =>
    if o = m then .present
    else if op = opRDLK then .hold
    else if locked && !ownRdlk && !elsewhere && !wasHeld then .lost
    else .hold
  | none =>
    if op = opRDLK then (if before.isEmpty then .present else .hold)
    else if ownRdlk then .hold
    else if locked && !elsewhere && !(wasHeld && otherRdlk) then .lost
    else if otherRdlk then .hold
    else .present

/-- The lock granted to `m`, to be revoked in cycle `until_` where its timer runs; the owner's RDLK takes BROKEN with it (Table 5-1,
R293). -/
def LockMgr.grant (m : Nat × Ctx) (until_ : Option Nat) : LockMgr := { owner := some m, broken := false, timer := until_ }

/-- The lock released; `brk` sets BROKEN. -/
def LockMgr.release (l : LockMgr) (brk : Bool) : LockMgr := { owner := none, broken := l.broken || brk, timer := none }

/-! ### Freeing entries and credits (R147, R158) -/

/-- A CRED with the running total toward `src` (R147). -/
def sendCred (s : State) (t src : Nat) : State :=
  let s := sendCmt s t src opCRED (s.getF (Reg.HG_GRANT t src) 20 16 * 2 ^ 16)
  s.updHg t (fun h =>
    let x := h.rxAt src
    h.setRx src { x with freed := 0, freedAt := none, credAt := some s.fclk, credRepeat := false })

/-- An entry of `src` is counted free: IN_USE falls, CTOTAL rises modulo 65536, and the eighth free sends a CRED. -/
def countFree (s : State) (t src : Nat) : State :=
  let g := Reg.HG_GRANT t src
  let s := (s.setF g 10 10 (s.getF g 10 10 - 1)).setF g 20 16 (s.getF g 20 16 + 1)
  let s := s.updHg t (fun h =>
    let x := h.rxAt src
    h.setRx src { x with freed := x.freed + 1, freedAt := some (x.freedAt.getD s.fclk) })
  if 8 ≤ ((s.hgAt t).rxAt src).freed then sendCred s t src else s

/-- Entry `id` of `t`. -/
def entryAt (h : Headgate) (id : Nat) : Option Entry := h.entries.find? (fun e => decide (e.id = id))

/-- Entry `id` changed by `f`. -/
def Headgate.updEntry (h : Headgate) (id : Nat) (f : Entry → Entry) : Headgate :=
  { h with entries := h.entries.map (fun e => if e.id = id then f e else e) }

/-- Entry `id` removed and counted free (R158). -/
def freeEntry (s : State) (t id : Nat) : State :=
  match entryAt (s.hgAt t) id with
  | none => s
  | some e => countFree (s.updHg t (fun h => { h with entries := h.entries.filter (fun x => decide (x.id ≠ id)) })) t e.src

/-! ### Responses (R88, R156) -/

/-- The opcode of a response to `op` (Table 3-4): DATA where the request returns data, else CMP. A coherent request that is
not performed gets a CMP (R249). -/
def rspOp (op : BitVec 8) (oc : BitVec 4) : BitVec 8 :=
  if op = opRD ∨ op = opRDLK ∨ op = opATOM then opDATA
  else if op = opRDIO ∧ (oc = ocOK ∨ oc = ocPoisoned) then opDATA
  else opCMP

/-- The response packet to a request packet (R88, R92): CTX, TAG, ADDR, BYTES and SECRET are copied. -/
def mkRsp (t : Nat) (q : Header) (op : BitVec 8) (oc : BitVec 4) (done : Nat) (state : BitVec 2) (data : List DBeat) : Pkt :=
  { hdr := { Header.zero with
      op := op, src := BitVec.ofNat 8 t, dst := q.src, outcome := oc,
      attr := mkAttr false false q.secret false 2 false false
      ctx := q.ctx, tag := q.tag, bytes := q.bytes, done := BitVec.ofNat 10 done, state := state, addr := q.addr }
    ext := 0, data := data }

/-- The data flits a response carries: none unless its outcome carries data, else exactly the count of Table 3-4. -/
def rspData (op : BitVec 8) (q : Header) (oc : BitVec 4) (data : List DBeat) : List DBeat :=
  let n := dataFlits op q.addr q.bytes oc
  data.take n ++ List.replicate (n - data.length) DBeat.zero

/-- Entry `id` answered: the response is written and the entry freed, or the answer waits for room (R156, R158). A WRP has
no response. -/
def answer (s : State) (t id : Nat) (oc : BitVec 4) (done : Nat) (data : List DBeat) : State :=
  match entryAt (s.hgAt t) id with
  | none => s
  | some e =>
    if e.op = opWRP then freeEntry s t id
    else
      let op := rspOp e.op oc
      let p := mkRsp t e.pkt.hdr op oc done 0 (rspData op e.pkt.hdr oc data)
      if p.blocks ≤ openBlocks (s.hgAt t) then freeEntry (storeReply s t .rsp p) t id
      else s.updHg t (fun h => h.updEntry id (fun e =>
        { e with phase := .answer, outcome := oc, doneBytes := done, rdata := data }))

/-- The answers that waited for replay-store room, tried again in entry order. -/
def flushAnswers (s : State) (t : Nat) : State :=
  ((s.hgAt t).entries.filter (fun e => decide (e.phase = .answer))).foldl
    (fun s e => answer s t e.id e.outcome e.doneBytes e.rdata) s

/-! ### Messages (R56, R155) -/

/-- Some earlier request of the entry's source and context still waits to be presented on TREQ. -/
def blockedByCtx (h : Headgate) (e : Entry) : Bool :=
  h.entries.any (fun x => decide (x.id < e.id) && decide (x.master = e.master) && decide (x.phase = .waiting))

/-- An earlier MSG of the entry's source and context waits on MSGIN with no beat transferred (R49, R56). -/
def behindMsg (h : Headgate) (e : Entry) : Bool :=
  h.entries.any (fun x => decide (x.id < e.id) && decide (x.master = e.master) && decide (x.phase = .message) &&
    h.msgin.any (fun m => decide (m.entry = some x.id) && decide (m.sent = 0)))

/-- A MSG free to go is released to MSGIN. -/
def releaseMsg (h : Headgate) (id : Nat) : Headgate :=
  match entryAt h id with
  | none => h
  | some e =>
    if e.op = opMSG ∧ e.phase = .waiting ∧ !blockedByCtx h e then
      { (h.updEntry id (fun e => { e with phase := .message })) with
        msgin := h.msgin ++ [{ src := e.pkt.hdr.src, tag := e.pkt.hdr.ctx.setWidth 12, bytes := e.pkt.hdr.bytes, gua := false,
                               data := e.pkt.data, sent := 0, entry := some id, chanRec := 0 }] }
    else h

/-- Every MSG whose wait has ended goes to MSGIN, in arrival order; at a headgate with an HAI only (R27). -/
def releaseMsgs (s : State) (t : Nat) : State :=
  if hasHai t ∧ !s.getB (Reg.HG_LEVEE t) 0 then
    s.updHg t (fun h => h.entries.foldl (fun h e => releaseMsg h e.id) h)
  else s

/-! ### The protection check (R299 to R306) -/

/-- Rights bits an opcode needs (Table 11-1): READ 1, WRITE 2, ATOMIC 4, LOCKSEQ 8, MSG 16. -/
def rightsNeeded (op : BitVec 8) : Nat :=
  match op.toNat with
  | 0x01 => 1 | 0x10 => 1 | 0x15 => 1 | 0x14 => 1
  | 0x02 => 2 | 0x03 => 2
  | 0x11 => 3
  | 0x12 => 2 | 0x13 => 2 | 0x16 => 2
  | 0x04 => 4
  | 0x06 => 9
  | 0x07 => 10
  | 0x08 => 8
  | 0x05 => 16
  | _ => 0

/-- The rights the group of source `src` holds at `t` (R297). -/
def rightsOf (s : State) (t src : Nat) : Nat :=
  s.getF (Reg.HG_PROT_RIGHTS t (s.getF (Reg.HG_PROT_GROUP t src) 0 6)) 0 5

/-- The protection window of `t`: first byte and the byte after the last. -/
def protWindow (s : State) (t : Nat) : Nat × Nat :=
  let b := s.getF (Reg.HG_PROT_BASE t) 6 42 * 64
  (b, b + s.getF (Reg.HG_PROT_SIZE t) 6 42 * 64)

/-- The bytes of a request the slot allows (R302, R303): the first byte and the number, none where it is refused whole. An
UNLK has no length and is judged by its address. -/
def allowedRange (s : State) (t : Nat) (h : Header) : Option (Nat × Nat) :=
  let need := rightsNeeded h.op
  if rightsOf s t h.src.toNat &&& need ≠ need then none
  else if h.op = opMSG then some (h.addr.toNat, h.bytes.toNat + 1)
  else
    let (b, e) := protWindow s t
    let a := h.addr.toNat
    let z := if h.op = opUNLK then a + 1 else a + h.bytes.toNat + 1
    if h.op = opRD ∨ h.op = opWR ∨ h.op = opWRP then
      let lo := max a b
      let hi := min z e
      if lo < hi then some (lo, hi - lo) else none
    else if b ≤ a ∧ z ≤ e then some (a, z - a) else none

/-- HG_PROT_DENY and HG_PROT_LAST after a part denied in whole or in part (R305). -/
def noteDenied (s : State) (t : Nat) (h : Header) (partly : Bool) : State :=
  let s := s.bump (Reg.HG_PROT_DENY t) 1
  let s := s.setReg (Reg.HG_PROT_LAST t) (BitVec.ofNat 64 (h.src.toNat + h.ctx.toNat * 2 ^ 8 + h.op.toNat * 2 ^ 14 +
    b2n partly * 2 ^ 22 + b2n (h.op = opWRP) * 2 ^ 23))
  if h.op = opWRP then
    (s.bump (Reg.HG_PROT_PREFUSE t) 1).hgAlarm t 0x45 (h.src.toNat + h.ctx.toNat * 2 ^ 8 + b2n partly * 2 ^ 14)
  else s

/-- The manager that judges an access at `t`: the headgate's own, or the bank a master owns or waits at, else the bank
addressed (R291). Here only ownership is looked up. -/
def ownsLock (s : State) (t : Nat) (m : Nat × Ctx) : Bool :=
  if isPort t then (List.range 32).any (fun b => decide ((s.bankAt b).lock.owner = some m))
  else decide ((s.hgAt t).lock.owner = some m)

/-! ### Taking an entry (R153, R301) -/

/-- A fresh entry. -/
def mkEntry (id : Nat) (p : Pkt) (now : Nat) (checked : Bool) : Entry :=
  { id := id, pkt := p, lo := p.hdr.addr, bytes := p.hdr.bytes, partDenied := false, checked := checked, marked := false,
    phase := .waiting, treqId := none, beatsLeft := 0, arrivedAt := now, presentedAt := none, broken := false, chunks := [],
    outcome := 0, doneBytes := 0, rdata := [], noWrite := false }

/-- The shell of a domain that is OFF answers (R353). -/
def shellAnswer (s : State) (t id : Nat) (h : Header) : State :=
  if h.op = opWRP then
    let d := s.getF (Reg.CK_HG_DOM t) 0 5
    let s := (s.bump (Reg.HG_DOM_OFF_POST t) 1).hgAlarm t 0x50 (h.src.toNat + h.ctx.toNat * 2 ^ 8 + d * 2 ^ 14)
    freeEntry s t id
  else answer (s.bump (Reg.HG_DOM_OFF_CNT t) 1) t id ocDomOff 0 []

/-- A lock revoked by its timer is counted and flagged (R293). -/
def countRevoke (s : State) : State := (s.bump Reg.RV_LOCK_REVOKE 1).setB Reg.RV_STATUS 2 true

/-- The master a lock alarm names. -/
def LockMgr.who (l : LockMgr) : Nat := match l.owner with | some (src, c) => src + c.toNat * 2 ^ 8 | none => 0

/-- The lock of headgate `n` revoked: BROKEN set, counted and reported. -/
def revokeHg (s : State) (n : Nat) : State :=
  let l := (s.hgAt n).lock
  if l.owner.isNone then s
  else (countRevoke (s.updHg n (fun h => { h with lock := l.release true }))).hgAlarm n 0x52 l.who

/-- The lock of bank `b` revoked. -/
def revokeBank (s : State) (b : Nat) : State :=
  let k := s.bankAt b
  if k.lock.owner.isNone then s
  else (countRevoke (s.setBank b { k with lock := k.lock.release true })).alarm stReservoir 0xC1 b k.lock.who

/-- The timer has reached its expiry cycle: the lock is revoked before anything else reaches the manager (R293). -/
def LockMgr.due (l : LockMgr) (now : Nat) : Bool := match l.timer with | some t => decide (t ≤ now) | none => false
def dueHg (s : State) (n : Nat) : State := if (s.hgAt n).lock.due s.fclk then revokeHg s n else s
def dueBank (b : Nat) (s : State) : State := if (s.bankAt b).lock.due s.fclk then revokeBank s b else s

/-- What follows a passed check: the answers of R27 and R59 that need no agent, or the entry waits. The lock limit timer
stops when an owner's WRUL or UNLK reaches the manager of a lock-capable headgate (R293). -/
def admitEntry (s : State) (t id : Nat) (h : Header) : State :=
  let cap := s.getB (Reg.HG_CFG t) 1
  let s := dueHg s t
  if h.op = opMSG ∧ (isHome t ∨ isPort t) then answer s t id ocAgentError 0 []
  else if h.op = opRDLK ∧ !cap then answer s t id ocLockRefused 0 []
  else if h.locked ∧ h.op ≠ opMSG ∧ !cap then answer s t id ocLockLost 0 []
  else if isCoherent h.op ∧ !isHome t ∧ (!hasHai t ∨ h.op.toNat < 0x15) then answer s t id ocAgentError 0 []
  else if (h.op = opWRUL ∨ h.op = opUNLK) ∧ !isPort t ∧ (s.hgAt t).lock.owner = some (h.src.toNat, h.ctx) then
    s.updHg t (fun x => { x with lock := { x.lock with timer := none } })
  else s

/-- The steps of R301 for the entry just taken: siphon, shell, protection check, and what follows. -/
def checkEntry (s : State) (t id : Nat) (h : Header) : State :=
  if s.getB (Reg.HG_LEVEE t) 0 then s
  else if s.getB (Reg.HG_DOM_STATUS t) 2 then shellAnswer s t id h
  else
    let s := s.updHg t (fun x => x.updEntry id (fun e => { e with checked := true }))
    let owner := ownsLock s t (h.src.toNat, h.ctx)
    match allowedRange s t h with
    | some (lo, len) =>
      if len = h.bytes.toNat + 1 ∨ h.op = opUNLK then admitEntry s t id h
      else
        let s := noteDenied s t h true
        let s := s.updHg t (fun x => x.updEntry id (fun e =>
          { e with lo := BitVec.ofNat 48 lo, bytes := BitVec.ofNat 9 (len - 1), partDenied := true }))
        admitEntry s t id h
    | none =>
      if h.op = opUNLK ∧ owner then admitEntry s t id h
      else
        let s := noteDenied s t h false
        if h.op = opWRUL ∧ owner then
          let s := s.updHg t (fun x => x.updEntry id (fun e => { e with noWrite := true }))
          admitEntry s t id h
        else if h.op = opWRP then freeEntry s t id
        else answer s t id ocDenied 0 []

/-- A released request takes an entry of its source's allotment (R153). -/
def takeEntry (s : State) (t : Nat) (p : Pkt) : State :=
  let g := Reg.HG_GRANT t p.hdr.src.toNat
  let id := (s.hgAt t).nextEntry
  let s := s.setF g 10 10 (s.getF g 10 10 + 1)
  let s := s.updHg t (fun h => { h with entries := h.entries ++ [mkEntry id p s.fclk false], nextEntry := id + 1 })
  releaseMsgs (checkEntry s t id p.hdr) t

/-- Every granted entry of the source is in use (R154). -/
def allotFull (s : State) (t src : Nat) : Bool :=
  let g := Reg.HG_GRANT t src
  decide (s.getF g 0 10 ≤ s.getF g 10 10)

/-- A request packet released by the resequencing buffer: it takes an entry, or is held with every later one (R154). -/
def releaseReq (s : State) (t : Nat) (p : Pkt) : State :=
  if (s.hgAt t).overAllot.isEmpty ∧ !allotFull s t p.hdr.src.toNat then takeEntry s t p
  else if (s.hgAt t).overAllot.isEmpty then
    let s := s.updHg t (fun h => { h with overAllot := [p] })
    (s.setB (Reg.HG_STATUS t) 0 true).hgAlarm t 0x46 p.hdr.src.toNat
  else s.updHg t (fun h => { h with overAllot := h.overAllot ++ [p] })

/-- Held requests that now find an entry take it, in order. -/
def retryOver (fuel : Nat) (s : State) (t : Nat) : State :=
  match fuel with
  | 0 => s
  | k + 1 =>
    match (s.hgAt t).overAllot with
    | [] => s
    | p :: rest =>
      if allotFull s t p.hdr.src.toNat then s
      else retryOver k (takeEntry (s.updHg t (fun h => { h with overAllot := rest })) t p) t

/-- What follows every change at the target side: waiting answers, held requests and messages move on. -/
def settleTarget (s : State) (t : Nat) : State :=
  let s := flushAnswers s t
  releaseMsgs (retryOver (s.hgAt t).overAllot.length s t) t

/-! ### Presentation (R155, R160) -/

/-- The RDLKs queued at the manager of headgate `t` before entry `e` (R292). An earlier access that is not held is presented first
(R155), and one behind its own context has not reached the manager. -/
def queuedBefore (h : Headgate) (e : Entry) : List ((Nat × Ctx) × Bool) :=
  (h.entries.filter (fun x => decide (x.id < e.id) && decide (x.phase = .waiting) && decide (x.op = opRDLK) && !blockedByCtx h x)).map
    (fun x => (x.master, true))

/-- The judgement of an entry at a headgate with an HAI: its lock manager's where it is lock-capable. -/
def judgeEntry (s : State) (t : Nat) (e : Entry) : Judge :=
  if s.getB (Reg.HG_CFG t) 1 then
    judge (s.hgAt t).lock e.master e.op e.pkt.hdr.locked (queuedBefore (s.hgAt t) e) false false
  else .present

/-- TREQ_IDs neither in use nor still presented from before a levee (R64). -/
def freeIds (s : State) (t : Nat) : List Nat :=
  let h := s.hgAt t
  (List.range (storeSize s t)).filter (fun i => !h.entries.any (fun e => decide (e.treqId = some i)) && !h.staleIds.contains i)

/-- The oldest entry R155 lets present; it waits behind the messages of its context too (R49). -/
def nextEntry? (s : State) (t : Nat) : Option (Entry × Judge) :=
  let h := s.hgAt t
  (h.entries.filterMap (fun e =>
    if e.phase = .waiting ∧ e.op ≠ opMSG ∧ !blockedByCtx h e ∧ !behindMsg h e then
      match judgeEntry s t e with
      | .hold => none
      | j => some (e, j)
    else none)).head?

/-- The write beats of an entry as TWDATA carries them: those of the allowed range, with the enables of R93. -/
def entryBeats (e : Entry) : List Beat :=
  let h := e.pkt.hdr
  let all : List Beat := (List.zip (List.range e.pkt.data.length) e.pkt.data).map (fun x =>
    { data := x.2.data, poison := x.2.poison,
      be := if h.op = opATOM then
              (if h.aop = 2 then laneMask 0 h.bytes.toNat ||| laneMask 16 (16 + h.bytes.toNat) else laneMask 0 h.bytes.toNat)
            else extEnables e.pkt.ext h.addr h.bytes x.1 })
  if h.op = opWR ∨ h.op = opWRP then
    (all.drop (e.lo.toNat / 64 - h.addr.toNat / 64)).take (rangeBeats e.lo e.bytes)
  else all

/-- The full beats of a read denied in part (R304): lanes outside the allowed bytes are zero. -/
def maskRead (e : Entry) (data : List DBeat) : List DBeat :=
  let h := e.pkt.hdr
  let skip := e.lo.toNat / 64 - h.addr.toNat / 64
  let lo := e.lo.toNat
  let hi := lo + e.bytes.toNat
  let cut (k : Nat) (b : DBeat) : DBeat :=
    let base := (h.addr.toNat / 64 + k) * 64
    { b with data := lineOf (fun j => if lo ≤ base + j ∧ base + j ≤ hi then byteOf b.data j else 0) }
  (List.range (rangeBeats h.addr h.bytes)).map (fun k =>
    if k < skip then DBeat.zero
    else match data[k - skip]? with
      | some b => cut k b
      | none => DBeat.zero)

end Sys2Proof.Machine
end

