-- ==== Sys2Proof/Machine/Delivery.lean ====
section
/-! DEFINITION. Exactly-once delivery (chapter 6): the checks and classification of an arriving packet, commits, ECMT, ENAK
and CRED, commit timers and replay passes. -/

namespace Sys2Proof.Machine

/-! ### Responses reach their transaction (R88, R140) -/

/-- The outcome a response is delivered with: PKTPOIS makes it POISONED unless it is refused (R92, R186, R304). -/
def deliveredOutcome (oc : BitVec 4) (data : List DBeat) : BitVec 4 :=
  if (oc = ocOK ∨ oc = ocLockBroken) ∧ data.any (·.poison) then ocPoisoned else oc

/-- The part of a transaction that a response answers: the first without an outcome whose address is the response's. -/
def PartSt.answers (p : PartSt) (addr : Addr) : Bool := p.outcome.isNone && decide (p.lo = addr)

/-- The first element that satisfies `q` changed by `f`. -/
def updFirst {α : Type} (q : α → Bool) (f : α → α) : List α → List α
  | [] => []
  | x :: xs => if q x then f x :: xs else x :: updFirst q f xs

/-- A response bound to its part by context, tag and address (R50, R88). A response that no part awaits is dropped. -/
def deliverRsp (s : State) (n : Nat) (p : Pkt) : State :=
  s.updHg n (fun h =>
    let hd := p.hdr
    let part (a : Nat) (x : PartSt) : PartSt :=
      { x with outcome := some (deliveredOutcome hd.outcome p.data), done := hd.done.toNat,
               data := p.data, state := hd.state, from_ := hd.src.toNat, seq := hd.seq, arrival := a }
    let hit (t : Txn) : Bool := decide (t.req.ctx = hd.ctx) && decide (t.tag = hd.tag) && t.parts.any (·.answers hd.addr)
    { h with
      arrivals := h.arrivals + 1
      txns := updFirst hit (fun t =>
        { t with parts := updFirst (·.answers hd.addr) (fun x =>
            let x := part h.arrivals x
            if t.req.op = opRDIO then { x with state := 0 } else x) t.parts }) h.txns })

/-! ### Snoops (R68, R250) -/

/-- The reply a headgate sends for a snoop its agent cannot answer: SNPACK, or CENSUSR with state I (R250). Its SNPACK carries
TARGET_DEAD, which tells it from the agent's own (DESIGN CHOICE, log entry 68), and SECRET 0 (DESIGN CHOICE, log entry 62). -/
def deadReply (n : Nat) (q : Header) : Pkt :=
  { hdr := { Header.zero with
      op := if q.op = opCENSUS then opCENSUSR else opSNPACK
      outcome := if q.op = opCENSUS then ocOK else ocDead
      src := BitVec.ofNat 8 n, dst := q.src, attr := mkAttr false false false false 2 false false
      ctx := q.ctx, tag := q.tag, addr := q.addr, bytes := q.bytes, xinfo := BitVec.ofNat 32 (q.txn * 2 ^ 16) }
    ext := 0, data := [] }

/-- The agent of `n` answers no snoop: PORT_LIVE is low, the shell answers (R353), the levee stands (R327), or PWR_ACK has
been given (R350). -/
def snoopsDead (s : State) (n : Nat) : Bool :=
  !(s.hgAt n).portLive || s.getB (Reg.HG_DOM_STATUS n) 2 || s.getB (Reg.HG_LEVEE n) 0 || s.getB (Reg.HG_DOM_STATUS n) 4

/-- A snoop answered by the headgate where the replay store has room, or kept for later (R69, R171, R250). -/
def answerSnoop (n : Nat) (q : SnoopSt) (s : State) : State :=
  if openBlocks (s.hgAt n) = 0 then s.updHg n (fun h => { h with snoops := h.snoops ++ [{ q with presented := false }] })
  else storeReply s n .rsp (deadReply n q.pkt.hdr)

/-- The headgate answers every snoop its agent was to answer, in order of arrival (R250). -/
def answerSnoops (s : State) (n : Nat) : State :=
  forEach (s.hgAt n).snoops (answerSnoop n) (s.updHg n (fun h => { h with snoops := [] }))

/-- A committed snoop: answered by the headgate, or it waits for SNP. -/
def takeSnoop (s : State) (n : Nat) (p : Pkt) : State :=
  let q : SnoopSt := { pkt := p, arrival := (s.hgAt n).arrivals, presented := false }
  let s := s.updHg n (fun h => { h with arrivals := h.arrivals + 1 })
  if snoopsDead s n then answerSnoop n q s else s.updHg n (fun h => { h with snoops := h.snoops ++ [q] })

/-- A committed packet goes to its consumer (R174). -/
def release (s : State) (n : Nat) (p : Pkt) : State :=
  match vnOf p.hdr.op with
  | some 0 => releaseReq s n p
  | some 1 => if isHome n then s.updHg n (fun h => { h with homeIn := h.homeIn ++ [p] }) else deliverRsp s n p
  | some 2 => takeSnoop s n p
  | _ => s

/-! ### Commits (R164, R174, R176) -/

def ecmtCount (s : State) (n : Nat) : Nat := max 1 (s.getF (Reg.HG_E2E_CFG n) 16 5)
def ecmtDelay (s : State) (n : Nat) : Nat := max 8 (s.getF (Reg.HG_E2E_CFG n) 21 8)

/-- An ECMT with CSEQ = NEXT - 1 toward `src` (R176). -/
def sendEcmt (s : State) (n src : Nat) : State :=
  let c := ((s.hgAt n).rxAt src).next - 1
  let s := sendCmt s n src opECMT (c.toNat * 2 ^ 16)
  s.updHg n (fun h =>
    h.setRx src { h.rxAt src with cseqSent := c, since := 0, firstAt := none, ecmtAt := some s.fclk })

/-- NEXT advances past the packet in order, of which no copy stays held; the commit counts toward the next ECMT (R164, R176). -/
def countCommit (s : State) (n src : Nat) : State :=
  s.updHg n (fun h =>
    let x := h.rxAt src
    h.setRx src { x with next := x.next + 1, held := x.held.filter (fun q => decide (q.hdr.seq ≠ x.next)), since := x.since + 1
                         firstAt := some (x.firstAt.getD s.fclk) })

/-- ECMT_COUNT commits since the last ECMT bring one (R176). -/
def ecmtIfDue (s : State) (n src : Nat) : State :=
  if ecmtCount s n ≤ ((s.hgAt n).rxAt src).since then sendEcmt s n src else s

/-- The packet in order is committed and released to its consumer (R164, R174). -/
def commitPkt (s : State) (n src : Nat) (p : Pkt) : State :=
  ecmtIfDue (release ((countCommit s n src).hgEvent n 6 1) n p) n src

/-- A packet whose header copies are both lost is discarded after commit: nothing is released (R190). -/
def commitLost (s : State) (n src : Nat) : State := ecmtIfDue ((countCommit s n src).hgEvent n 6 1) n src

/-- The packet as read from the resequencing buffer (R190): none where both header copies are lost. -/
def readReseq (s : State) (n : Nat) (p : Pkt) (err : MemErr) : Option Pkt × State :=
  match err with
  | .ok => (some p, s)
  | .corrected => (some p, s.bump (Reg.HG_STORE_CORR n) 1)
  | .uncorrHdr => (some p, storeUncorr s n 1 false)
  | .uncorrData b =>
    if b < p.data.length then
      let (d, s) := s.draw
      (some { p with data := spoilBeat p.data b (Config.badData d) }, storeUncorr s n 1 true)
    else (some p, storeUncorr s n 1 false)
  | .uncorrBothHdr =>
    let s := (storeUncorr s n 1 false).setB (Reg.HG_E2E_STATUS n) 6 true
    (none, s.hgAlarm n 0x4C (p.hdr.src.toNat + p.hdr.seq.toNat * 2 ^ 8))

/-- The packet in order is read from the resequencing buffer and committed (R174, R190). -/
def commitRead (s : State) (n src : Nat) (p : Pkt) (err : MemErr) : State :=
  match readReseq s n p err with
  | (some q, s) => commitPkt s n src q
  | (none, s) => commitLost s n src

/-! ### The resequencing buffer (R172, R173, R208, R480) -/

/-- A channel record of a headgate by fields (Table 7-9). -/
def chanRec (s : State) (n i : Nat) : Word := s.reg (Reg.HG_PL_CHAN n i)
def recValid (w : Word) : Bool := bit w 63
def recChan (w : Word) : Nat := field w 0 12
def recSrc (w : Word) : Bool := bit w 12
def recDst (w : Word) : Bool := bit w 13
def recRelay (w : Word) : Bool := bit w 14
def recFlits (w : Word) : Nat := field w 15 4
def recStage (w : Word) : Nat := clip 1 8 (field w 19 4)
def recDbuf (w : Word) : Nat := clip 1 8 (field w 23 4)
def recFset (w : Word) : Nat := field w 27 6
def recRset (w : Word) : Nat := field w 33 6
def recRelayed (w : Word) : Bool := bit w 39

/-- The records in use, ascending. The registers listed are those of `regs` that hold VALID. -/
def chanRecs (s : State) (n : Nat) : List (Nat × Word) :=
  (List.range 128).filterMap (fun i =>
    let w := Tab.get s.regs 0 (Reg.HG_PL_CHAN n i)
    if recValid w then some (i, w) else none)

/-- Blocks a record's buffers need. -/
def recBlocks (w : Word) : Nat := recDbuf w * recFlits w * (b2n (recDst w) + b2n (recRelay w))

/-- The records that hold a buffer, with the blocks taken: in ascending record order, each whole or not at all (R480). -/
def dbufPlan (s : State) (n : Nat) : List Nat × Nat :=
  (chanRecs s n).foldl (fun acc r =>
    let b := recBlocks r.2
    if b = 0 then acc
    else if acc.2 + b + 36 ≤ 512 - poolSize s n then (acc.1 ++ [r.1], acc.2 + b)
    else acc) ([], 0)

/-- Blocks an arriving packet takes of the shared ones: the FLITS of its head, where it came on a REQ or SNP channel and its head was
admitted (R172, R173). -/
def arrivingBlocks (fs : List Flit) (vc : Nat) (stored : Bool) : Nat :=
  match fs with
  | f :: _ => if stored ∧ (vc < 2 ∨ vc = 4 ∨ vc = 5) then f.flits else 0
  | [] => 0

/-- Shared blocks in use by requests and snoops: arriving, held ahead, held for an entry, or waiting for SNP. -/
def sharedUsed (h : Headgate) : Nat :=
  sumBy (fun x => arrivingBlocks x.2 (x.1 % 16) (!h.rxDrop.contains x.1)) h.rxAsm +
  sumBy (fun r => arrivingBlocks r.flits r.vc r.stored) h.rxPkts +
  sumBy (fun x => sumBy (fun p => if vnOf p.hdr.op = some 1 then 0 else p.blocks) x.2.held) h.rx +
  sumBy Pkt.blocks h.overAllot + (h.snoops.filter (fun q => !q.presented)).length

/-- Free shared blocks (R173). -/
def sharedFree (s : State) (n : Nat) : Nat := 512 - poolSize s n - (dbufPlan s n).2 - sharedUsed (s.hgAt n)

/-! ### Classification (Table 6-2) -/

/-- A duplicate is discarded, and provokes an ECMT unless one went within ECMT_DELAY (R168, R176). -/
def dropDuplicate (s : State) (n src : Nat) : State :=
  let s := s.bump (Reg.HG_DUP_DROP n) 1
  match ((s.hgAt n).rxAt src).ecmtAt with
  | some t => if s.fclk < t + ecmtDelay s n then s else sendEcmt s n src
  | none => sendEcmt s n src

/-- An ahead packet is discarded for space (R173). -/
def dropAhead (s : State) (n : Nat) : State :=
  (s.bump (Reg.HG_RESEQ_DROP n) 1).setB (Reg.HG_E2E_STATUS n) 3 true

/-- The admission of a packet at the arrival of its head (R173): a REQ or SNP packet that is neither in order nor ahead with room
is discarded as it arrives. -/
def admitHead (s : State) (n : Nat) (f : Flit) : Bool :=
  let x := (s.hgAt n).rxAt f.hdr.src.toNat
  let d := (f.hdr.seq - x.next).toNat
  decide (2 ≤ f.vc ∧ f.vc ≠ 4 ∧ f.vc ≠ 5) || decide (d = 0) ||
  (decide (d ≤ 2047) && !x.held.any (fun q => decide (q.hdr.seq = f.hdr.seq)) && decide (f.flits + 36 ≤ sharedFree s n))

/-- A checked REQ, RSP or SNP packet classified by its sequence number (Table 6-2, R173); `stored` says that its head was admitted. -/
def classify (s : State) (n : Nat) (p : Pkt) (stored : Bool) (err : MemErr) : State :=
  let src := p.hdr.src.toNat
  let x := (s.hgAt n).rxAt src
  let d := (p.hdr.seq - x.next).toNat
  if d = 0 then (if stored then commitRead s n src p err else dropAhead s n)
  else if d ≤ 2047 then
    if x.held.any (fun q => decide (q.hdr.seq = p.hdr.seq)) then dropDuplicate s n src
    else if stored then s.updHg n (fun h => h.setRx src { x with held := x.held ++ [p] })
    else dropAhead s n
  else if 63488 ≤ d then dropDuplicate s n src
  else
    let s := (s.bump (Reg.HG_SEQ_FAULT n) 1).setB (Reg.HG_E2E_STATUS n) 2 true
    s.hgAlarm n 0x49 (src + p.hdr.seq.toNat * 2 ^ 21)

/-! ### Failed packets (R100, R175, R179, R212) -/

/-- The channel record of `n` that receives or relays channel `c`. -/
def recOf (s : State) (n c : Nat) : Option (Nat × Word) :=
  (chanRecs s n).find? (fun r => decide (recChan r.2 = c) && (recDst r.2 || recRelay r.2))

/-- The channel state of record `i`. -/
def Headgate.chanAt (h : Headgate) (i : Nat) : ChanSt := Tab.get h.chans ChanSt.reset i
def Headgate.setChan (h : Headgate) (i : Nat) (x : ChanSt) : Headgate := { h with chans := Tab.set h.chans i x }

/-- 64 FCLK cycles have passed since `t`. -/
def spaced (s : State) (t : Option Nat) : Bool := match t with
  | some a => decide (a + 64 ≤ s.fclk)
  | none => true

/-- The ENAK a discarded packet provokes, where R179 allows one: its head passed the hop check. A GDATA provokes a channel ENAK
(R212). -/
def sendEnak (s : State) (n : Nat) (f : Flit) : State :=
  let h := f.hdr
  let src := h.src.toNat
  if !f.hopOk ∨ 160 ≤ src ∨ vnOf h.op = some 3 then s
  else if h.op = opGDATA then
    match recOf s n h.gchan with
    | none => s
    | some (i, _) =>
      let c := (s.hgAt n).chanAt i
      if (h.seq - c.seq).toNat ≤ 2047 ∧ spaced s c.enakAt then
        let s := sendCmt s n src opENAK (c.seq.toNat * 2 ^ 16 + 2 ^ 15 + h.gchan)
        let s := s.updHg n (fun g => g.setChan i { g.chanAt i with enakAt := some s.fclk })
        s.bump (Reg.HG_ENAK_TX n) 1
      else s
  else
    let x := (s.hgAt n).rxAt src
    if (h.seq - x.next).toNat ≤ 2047 ∧ spaced s x.enakAt then
      let s := sendCmt s n src opENAK (x.next.toNat * 2 ^ 16)
      let s := s.updHg n (fun g => g.setRx src { g.rxAt src with enakAt := some s.fclk })
      s.bump (Reg.HG_ENAK_TX n) 1
    else s

/-- A packet that fails R100 or R175 is discarded whole, counted, and answered under R179. -/
def discardPkt (s : State) (n : Nat) (fs : List Flit) (poisBad : Bool) : State :=
  let s := (s.bump (Reg.HG_ECRC_FAIL n) 1).setB (Reg.HG_E2E_STATUS n) (if poisBad then 1 else 0) true
  let s := s.hgEvent n 8 1
  match fs with
  | [] => s
  | f :: _ => sendEnak s n f

/-- The packet of the receive store that is taken next: while a request is held for an entry, the REQ network waits (R154). -/
def nextRx (h : Headgate) : Option (Nat × RawPkt) :=
  (List.zip (List.range h.rxPkts.length) h.rxPkts).find? (fun x => h.overAllot.isEmpty || decide (2 ≤ x.2.vc))

/-- PACKET_RECEIVED: a whole packet is checked (R100, R175, R14), then acted on by its network. -/
def receivePkt (s : State) (n : Nat) (err : MemErr) : State :=
  match nextRx (s.hgAt n) with
  | none => s
  | some (k, raw) =>
    let s := s.updHg n (fun h => { h with rxPkts := dropNth h.rxPkts k })
    if !pktOk raw.flits raw.vc then discardPkt s n raw.flits false
    else if !poisOk raw.flits then discardPkt s n raw.flits true
    else
      let p := pktOf raw.flits
      let src := p.hdr.src.toNat
      match vnOf p.hdr.op with
      | some 3 => if deadDest s n src && !p.hdr.chcmt then s else s.updHg n (fun h => { h with cmtIn := h.cmtIn ++ [p] })
      | some 4 =>
        match readReseq s n p err with
        | (some q, s) => s.updHg n (fun h => { h with gdataIn := h.gdataIn ++ [q] })
        | (none, s) => s
      | _ => classify s n p raw.stored err

/-- HELD_PACKET_COMMIT: the held packet whose SEQ is NEXT commits (R174). -/
def commitHeld (s : State) (n src : Nat) (err : MemErr) : State :=
  let x := (s.hgAt n).rxAt src
  match x.held.find? (fun p => decide (p.hdr.seq = x.next)) with
  | none => s
  | some p => commitRead s n src p err

/-! ### ECMT, ENAK and CRED at the source -/

/-- The first control packet of `op` and CHCMT in the inbox, and the headgate without it. -/
def takeCmt (h : Headgate) (op : BitVec 8) (ch : Bool) : Option Pkt × Headgate :=
  let hit (p : Pkt) : Bool := decide (p.hdr.op = op) && (decide (p.hdr.op = opCRED) || p.hdr.chcmt == ch)
  match h.cmtIn.find? hit with
  | none => (none, h)
  | some p =>
    match h.cmtIn.findIdx? hit with
    | some k => (some p, { h with cmtIn := dropNth h.cmtIn k })
    | none => (none, h)

/-- The first `k` uncommitted packets to `d`, from OLDEST, receive end-to-end commit (R177). -/
def commitUpTo (s : State) (n d k : Nat) : State :=
  if k = 0 then s
  else
    let s := s.updHg n (fun h =>
      let x := h.txAt d
      let gone (p : StPkt) : Bool := decide (p.dst = d) && !p.waiting && decide (p.kind ≠ .gua) &&
        decide ((p.pkt.hdr.seq - x.oldest).toNat < k)
      { (h.setTx d { x with oldest := x.oldest + BitVec.ofNat 16 k, stalls := 0, stalled := false, timerAt := s.fclk }) with
        store := h.store.filter (fun p => !gone p) })
    settleTarget s n

/-- An ECMT or ENAK names a number never sent (R177, R180). -/
def cmtInvalid (s : State) (n d : Nat) (seq : Nat) (enak : Bool) : State :=
  let s := (s.bump (Reg.HG_CMT_INVALID n) 1).setB (Reg.HG_E2E_STATUS n) 7 true
  s.hgAlarm n 0x4A (d + seq * 2 ^ 8 + b2n enak * 2 ^ 24)

/-- An ECMT from `d` with CSEQ (R177). -/
def applyEcmt (s : State) (n d : Nat) (cseq : Seq) : State :=
  let k := (cseq - ((s.hgAt n).txAt d).oldest).toNat
  if k < (uncommitted (s.hgAt n) d).length then commitUpTo s n d (k + 1)
  else if 65536 - 1024 ≤ k then s
  else cmtInvalid s n d cseq.toNat false

/-- The oldest unresolved injection of the packet with `seq` is resolved (R180). -/
def resolveOldest (h : Headgate) (d : Nat) (seq : Seq) : Headgate :=
  { h with store := h.store.map (fun p =>
      if p.dst = d ∧ p.waiting = false ∧ p.kind ≠ .gua ∧ p.pkt.hdr.seq = seq then { p with stamps := p.stamps.drop 1 } else p) }

/-- An ENAK from `d` with NSEQ (R180). -/
def applyEnak (s : State) (n d : Nat) (nseq : Seq) : State :=
  let j := (nseq - ((s.hgAt n).txAt d).oldest).toNat
  let u := (uncommitted (s.hgAt n) d).length
  if j ≤ u then
    let s := commitUpTo (s.bump (Reg.HG_ENAK_RX n) 1) n d j
    if j < u then triggerPass (s.updHg n (fun h => resolveOldest h d nseq)) n d else s
  else if 65536 - 1024 ≤ j then s
  else cmtInvalid s n d nseq.toNat true

/-- A CRED from `t` with CTOTAL (R147): the difference returns to the credits; an excess is ignored and flagged. -/
def applyCred (s : State) (n t : Nat) (ctotal : Nat) : State :=
  let g := Reg.HG_ALLOT n t
  let diff := (ctotal + 65536 - s.getF g 20 16) % 65536
  let out := Tab.get (s.hgAt n).taken 0 t
  let s := s.setF g 20 16 ctotal
  let s := s.updHg n (fun h => { h with taken := Tab.set h.taken t (out - diff) })
  if out < diff then s.setB (Reg.HG_STATUS n) 2 true else s

/-! ### Passes (R181 to R184) -/

/-- CMT_TIMEOUT with its multiplier (R182, Table 6-6). -/
def commitTimeoutOf (s : State) (n d : Nat) : Nat :=
  let t := max 0x400 (s.getF (Reg.HG_E2E_CFG n) 0 16)
  if ((s.hgAt n).txAt d).stalled then t * 2 ^ s.getF (Reg.HG_E2E_CFG n) 32 3 else t

/-- The place in the store of the next packet of a pass: the uncommitted packet with the lowest number from the cursor up
that can be sent. -/
def nextReplay (s : State) (n d : Nat) : Option Nat :=
  let h := s.hgAt n
  let x := h.txAt d
  let dist (p : StPkt) : Nat := (p.pkt.hdr.seq - x.cursor).toNat
  let c := (List.zip (List.range h.store.length) h.store).filter (fun e =>
    decide (e.2.dst = d) && !e.2.waiting && decide (e.2.kind ≠ .gua) && !e.2.lost && decide (dist e.2 < (x.next - x.cursor).toNat))
  match c with
  | [] => none
  | e :: rest => some (rest.foldl (fun b e => if dist e.2 < dist b.2 then e else b) e).1

/-- A pass begins (R183): the cursor stands at OLDEST, the commit timer restarts; with nothing to send it ends at once. -/
def beginPass (s : State) (n d : Nat) : State :=
  let s := s.updHg n (fun h =>
    let x := h.txAt d
    h.setTx d { x with pass := true, cursor := x.oldest, passDue := false, timerAt := s.fclk })
  match nextReplay s n d with
  | some _ => s
  | none => s.updHg n (fun h => h.setTx d { h.txAt d with pass := false })

/-- The active pass ends; a pending one runs. -/
def endPass (s : State) (n d : Nat) : State :=
  let x := (s.hgAt n).txAt d
  let s := s.updHg n (fun h => h.setTx d { x with pass := false, pending := false })
  if x.pending then beginPass s n d else s

/-- REPLAY_PASS: a due pass begins, or is pending behind the active one (R183). -/
def startPass (s : State) (n d : Nat) : State :=
  let x := (s.hgAt n).txAt d
  if x.passDue then
    if x.pass then s.updHg n (fun h => h.setTx d { x with passDue := false, pending := true })
    else beginPass s n d
  else s

/-- Both header copies of the packet at place `k` are lost (R189): the pair and SEQ are reported, and the transaction is
answered with POISONED, or a WRP counted. -/
def reportLost (s : State) (n k : Nat) : State :=
  match (s.hgAt n).store[k]? with
  | none => s
  | some p =>
    let s := (s.setB (Reg.HG_E2E_STATUS n) 6 true).hgAlarm n 0x4C (p.dst + p.pkt.hdr.seq.toNat * 2 ^ 8)
    if p.kind ≠ .req then s
    else if p.pkt.hdr.op = opWRP then s.bump (Reg.HG_POST_REFUSE n) 1
    else s.updHg n (fun h => { h with txns := h.txns.map (fun t =>
      if t.id = p.txn then
        { t with parts := updFirst (·.answers p.pkt.hdr.addr) (fun x => { x with outcome := some ocPoisoned }) t.parts }
      else t) })

/-- REPLAY_PACKET_INJECTION: the next uncommitted packet of the pass is injected again, in turn with first injections to
other destinations (R183, R184); one whose map entry is invalid is skipped in this pass (R469). -/
def replayNext (s : State) (n d : Nat) (err : MemErr) : State :=
  let h := s.hgAt n
  let x := h.txAt d
  if x.pass = false ∨ linkUp s n = false then s
  else if h.passTurn = false ∧ anyInjectable s n then s
  else
    match nextReplay s n d with
    | none => endPass s n d
    | some k =>
      let seq := match h.store[k]? with | some p => p.pkt.hdr.seq | none => x.cursor
      let s := s.updHg n (fun h => { (h.setTx d { x with cursor := seq + 1 }) with passTurn := false })
      let s := readStored s n k err
      let lost := match (s.hgAt n).store[k]? with | some p => p.lost | none => true
      let s := if lost then reportLost s n k else if attachValid s n d then injectAgain s n k else s
      match nextReplay s n d with
      | some _ => s
      | none => endPass s n d

/-- The commit timer of a pair expires (R182). -/
def commitExpire (s : State) (n d : Nat) : State :=
  let x := (s.hgAt n).txAt d
  if (uncommitted (s.hgAt n) d).isEmpty then s
  else
    let s := s.advanceTo (x.timerAt + commitTimeoutOf s n d)
    let stalls := min 7 (x.stalls + 1)
    let hit := decide (max 1 (s.getF (Reg.HG_E2E_CFG n) 29 3) ≤ stalls) && !x.stalled
    let s := s.updHg n (fun h =>
      h.setTx d { x with stalls := stalls, stalled := x.stalled || hit, timerAt := s.fclk, passDue := true })
    let s := s.bump (Reg.HG_CMT_TIMEOUT n) 1
    if hit then (s.setB (Reg.HG_E2E_STATUS n) 4 true).hgAlarm n 0x48 (d + x.oldest.toNat * 2 ^ 8) else s

end Sys2Proof.Machine
end

