-- ==== Sys2Proof/Machine/Hai.lean ====
section
/-! DEFINITION. The Headgate Agent Interface (chapter 2) and the initiator path (R132): requests, acceptance, responses,
messages, target channels, snoops, agent reset and the power sidebands. -/

namespace Sys2Proof.Machine

/-! ### Channel conditions -/

/-- A transfer needs PORT_LIVE high and ACLK running (R33, R37, R338). -/
def haiRuns (s : State) (n : Nat) : Bool := (s.hgAt n).portLive && (s.hgAt n).aclkEn

/-- WAKE as driven, with HG_DOM_STATUS.WAKE (R81). -/
def setWake (s : State) (n : Nat) (b : Bool) : State :=
  (s.updHg n (fun h => { h with wake := b })).setB (Reg.HG_DOM_STATUS n) 5 b

/-- PWR_REQ as driven, with HG_DOM_STATUS.PWR_REQ (R78); a change that must cross to a stopped ACLK raises WAKE (R345). -/
def setPwrReq (s : State) (n : Nat) (b : Bool) : State :=
  let wakes := (s.hgAt n).pwrReq != b && (s.hgAt n).portLive && !(s.hgAt n).aclkEn
  let s := (s.updHg n (fun h => { h with pwrReq := b })).setB (Reg.HG_DOM_STATUS n) 3 b
  if wakes then setWake s n true else s

/-- A headgate with something to deliver: it goes on where the interface runs, and raises WAKE where ACLK is stopped (R81,
R345). -/
def deliverOn (s : State) (n : Nat) (f : State → State) : State :=
  if haiRuns s n then f s
  else if (s.hgAt n).portLive then setWake s n true
  else s

/-- A channel command at a headgate: refused where no HAI is present (R27). -/
def atHai (n : Nat) (s : State) (f : State → State) : Out := if hasHai n then .next (f s) else .refused .noHai

/-! ### Weir and contexts (R48, R150) -/

/-- HG_WEIR fields: RATE, BURST (0 acts as 1) and LEVEL. -/
def weirRate (s : State) (n c : Nat) : Nat := s.getF (Reg.HG_WEIR n c) 0 8
def weirBurst (s : State) (n c : Nat) : Nat := max 1 (s.getF (Reg.HG_WEIR n c) 8 12)
def weirLevel (s : State) (n c : Nat) : Int := signed 13 (s.getF (Reg.HG_WEIR n c) 20 13)
def setWeirLevel (s : State) (n c : Nat) (l : Int) : State := s.setF (Reg.HG_WEIR n c) 20 13 (unsignedOf 13 l)

/-- An accepted request lowers the level by its cost, not below -8; with RATE 0 the level stays at BURST (R150). -/
def chargeWeir (s : State) (n : Nat) (r : Req) : State :=
  let c := r.ctx.toNat
  if weirRate s n c = 0 then s else setWeirLevel s n c (max (-8) (weirLevel s n c - weirCost r))

/-- WEIR_REFILL: each level rises by RATE up to BURST. -/
def refillWeirs (s : State) (n : Nat) : State :=
  forRange 64 (fun c t =>
    if weirRate t n c = 0 then setWeirLevel t n c (weirBurst t n c)
    else setWeirLevel t n c (min (weirBurst t n c) (weirLevel t n c + weirRate t n c))) s

/-- Transactions of a context outstanding (R48). -/
def outstanding (h : Headgate) (c : Ctx) : Nat := (h.txns.filter (fun t => decide (t.req.ctx = c))).length

/-- CTX_OPEN[c] (R48). -/
def ctxOpen (s : State) (n : Nat) (c : Ctx) : Bool :=
  decide (outstanding (s.hgAt n) c < 128) && !((s.hgAt n).ctxAt c).reopening &&
  (decide (weirRate s n c.toNat = 0) || decide (0 < weirLevel s n c.toNat))

/-! ### Paceline staging (R205) -/

/-! Fields of a reservation entry (Table 7-2). -/

def entStart (w : Word) : Nat := field w 0 14
def entFlits (w : Word) : Nat := field w 14 4
def entMod (w : Word) : Nat := field w 18 8
def entPhase (w : Word) : Nat := field w 26 8
def entChan (w : Word) : Nat := field w 34 12
def entDsel (w : Word) : Nat := field w 46 8
def entMc (w : Word) : Bool := bit w 54
def entKind (w : Word) : Nat := field w 55 2

/-- The 16 bytes of multicast set `m` of headgate `n`. -/
def setBytes (s : State) (n m : Nat) : List Nat :=
  (List.range 16).map (fun i => s.getF (Reg.HG_PL_SET n (2 * m + i / 8)) (8 * (i % 8)) 8)

/-- The list an entry sends to: the bytes of its set, or its one destination. -/
def entList (s : State) (n : Nat) (w : Word) : List Nat :=
  if entMc w then setBytes s n (entDsel w % 64) else [entDsel w]

/-- The source record of channel `c` at `n`. -/
def srcRec (s : State) (n c : Nat) : Option (Nat × Word) :=
  (chanRecs s n).find? (fun r => decide (recChan r.2 = c) && recSrc r.2)

/-- Packets of channel `c` in staging. -/
def staged (h : Headgate) (c : Nat) : List StPkt := h.store.filter (fun p => decide (p.kind = .gua) && decide (p.pkt.hdr.gchan = c))

/-- The staging of the channel a GDATA names is full. -/
def stagingFull (s : State) (n c : Nat) : Bool :=
  match srcRec s n c with
  | none => false
  | some (_, w) =>
    let coming := ((s.hgAt n).reqs.filter (fun q => decide (q.req.op = opGDATA) && decide (q.req.addr.toNat = c))).length
    decide (recStage w ≤ (staged (s.hgAt n) c).length + coming)

/-! ### REQ (R132 steps 1 to 3) -/

/-- A write still takes beats. -/
def writing (h : Headgate) : Bool := match h.reqs.getLast? with | some q => !q.whole | none => false

/-- FCLK cycles of one cycle of ACLK, rounded up, by the divisor in use: ROOT by 4, 6, 8, 12 or 16, where FCLK is ROOT by 4 (R337,
R338). -/
def aclkCycles (h : Headgate) : Nat := match h.aclkDivInUse with | 0 => 1 | 1 => 2 | 2 => 2 | 3 => 3 | _ => 4

/-- The dead cycle after an aborting beat, in which REQ_READY and WDATA_READY are low (R74). -/
def inDead (s : State) (n : Nat) : Bool := match (s.hgAt n).dead with | some t => decide (s.fclk < t) | none => false

/-- A request is held for a wake (R352). -/
def anyHeld (h : Headgate) : Bool := h.reqs.any (fun q => match q.verdict with | .held _ => true | _ => false)

/-- The domain of a headgate, where it belongs to one. -/
def domainOf (s : State) (n : Nat) : Option Nat :=
  if s.getB (Reg.CK_HG_DOM n) 5 then some (s.getF (Reg.CK_HG_DOM n) 0 5) else none

/-- The domain of a target toward which `n` is closed (R350). -/
def closedDom (s : State) (n t : Nat) : Option Nat :=
  match domainOf s t with
  | some d => if s.getB (Reg.HG_DOM_CLOSE n) d then some d else none
  | none => none

/-- After LIFECYCLE_RETIRE only the path to headgate 151 is open at a headgate that admits (R414). -/
def pathClosed (s : State) (parts : List Part) : Bool :=
  s.rd.openPath.isSome && parts.any (fun p => decide (p.target ≠ .hg 151))

/-- Step 3 of R132: refused where the headgate admits nothing (R329, R414, R441) or a part's domain is closed under REFUSE,
held where it is closed under WAKE (R349). -/
def closedCheck (s : State) (n : Nat) (parts : List Part) : Verdict :=
  if !s.getB (Reg.HG_ADMIT n) 0 || s.getB (Reg.HG_LEVEE n) 2 || pathClosed s parts then .closed
  else
    let ds := parts.filterMap (fun p => match p.target with | .hg t => closedDom s n t | _ => Option.none)
    match ds with
    | [] => .ok
    | _ => if ds.any (fun d => !s.getB (Reg.CK_DOM d) 0) then .closed else .held ds.eraseDups

/-- The outcome a part gets in the source headgate at decode: no window or no map entry, or a pair not enabled (R137, R145,
R469). -/
def localOutcome (s : State) (n : Nat) (p : Part) : Option (BitVec 4) :=
  match p.target with
  | .hg t => if !attachValid s n t then some ocDecode else if !pairEnabled s n t then some ocDenied else Option.none
  | _ => some ocDecode

/-- Steps 1 to 3 of R132 on a request as presented. -/
def planReq (s : State) (n : Nat) (r : Req) : PendReq :=
  let r := normReq r
  let (ps, ilv) := decodeReq s n r
  let ps := ps.map (fun p => { p with loc := localOutcome s n p })
  { req := r, beats := [], need := reqBeats r, whole := decide (reqBeats r = 0), parts := ps, absorb := false,
    verdict := if malformed n r ps ilv then .malformed else closedCheck s n ps }

/-- The store admits `need` more blocks of a request: 896 less HG_PL_STAGE for requests, and none at all but GDATA where that
leaves nothing (R171, R480); GDATA within the staging of its channel (R205), and never the blocks of responses. -/
def storeAdmits (s : State) (n : Nat) (r : Req) (need : Nat) : Bool :=
  let h := s.hgAt n
  let held := kindBlocks h .req + writeBlocks h
  decide (need ≤ openBlocks h) && decide (held + kindBlocks h .gua + need ≤ 896) &&
  (if r.op = opGDATA then !stagingFull s n r.addr.toNat else decide (0 < reqLimit s n) && decide (held + need ≤ reqLimit s n))

/-- REQ_READY (R42, R74, R133, R171, R205, R352, R355). -/
def reqReady (s : State) (n : Nat) (q : PendReq) : Bool :=
  let h := s.hgAt n
  let need := match q.verdict with
    | .ok | .held _ => reqBlocks q.req (q.parts.filter (fun p => p.loc.isNone)).length
    | _ => 0
  !writing h && !anyHeld h && !(h.hold && decide (q.req.op ≠ opGDATA)) && ctxOpen s n q.req.ctx && storeAdmits s n q.req need

/-- The headgates with an HAI in domain `d`. -/
def domainHgs (s : State) (d : Nat) : List Nat :=
  (List.range 160).filter (fun n => hasHai n && decide (domainOf s n = some d))

/-- CK_DOM_d.STATE and the shells of its members with it: the shell answers while the domain is OFF (R353). -/
def setDomState (s : State) (d st : Nat) : State :=
  let s := (s.setF (Reg.CK_DOM d) 1 3 st).setB (Reg.CK_DOM d) 4 (st = 4)
  if st = 4 then forEach (domainHgs s d) (fun n t => t.setB (Reg.HG_DOM_STATUS n) 2 true) s
  else if st = 5 then s
  else forEach (domainHgs s d) (fun n t => t.setB (Reg.HG_DOM_STATUS n) 2 false) s

/-- WAKE raised at the HAI of headgate `n`; where its agent is live with ACLK running it falls at once, and PWR_REQ with it (R81,
R354). -/
def wakeHai (n : Nat) (s : State) : State :=
  if (s.hgAt n).portLive && (s.hgAt n).aclkEn then setPwrReq (setWake s n false) n false else setWake s n true

/-- WAKE raised at every HAI of the domain. -/
def wakeDomain (s : State) (d : Nat) : State := forEach (domainHgs s d) wakeHai s

/-- The wake line of `n` for domain `d` is raised (R352): WAKE_HELD and WAKE_PEND; in OFF the fabric wakes the domain itself. -/
def raiseWakeLine (n d : Nat) (s : State) : State :=
  let s := (s.setB (Reg.HG_DOM_STATUS n) 7 true).setB (Reg.CK_DOM d) 5 true
  let s := s.updHg n (fun h => { h with wakeHeld := some s.fclk })
  if s.getF (Reg.CK_DOM d) 1 3 = 4 then setDomState (wakeDomain s d) d 5 else s

/-- The wake line of `n` falls; WAKE_PEND stays while another headgate holds a request for the domain. -/
def dropWakeLine (n d : Nat) (s : State) : State :=
  let s := (s.updHg n (fun h => { h with wakeHeld := none })).setB (Reg.HG_DOM_STATUS n) 7 false
  let others := s.hg.any (fun x => x.2.wakeHeld.isSome && x.2.reqs.any (fun q =>
    match q.verdict with | .held ds => ds.contains d | _ => false))
  s.setB (Reg.CK_DOM d) 5 others

/-- A request is no longer held: the wake lines of its domains fall. -/
def unhold (s : State) (n : Nat) (q : PendReq) : State :=
  match q.verdict with
  | .held ds => forEach ds (dropWakeLine n) s
  | _ => s

/-- REQ_TRANSFER: the request moves on REQ where REQ_READY is high. One closed toward WAKE domains raises the wake line of each
(R352). -/
def reqTake (s : State) (n : Nat) (r : Req) : State :=
  if !haiRuns s n || inDead s n then s
  else
    let q := planReq s n r
    if reqReady s n q then
      let s := s.updHg n (fun h => { h with reqs := h.reqs ++ [q] })
      match q.verdict with
      | .held ds => forEach ds (raiseWakeLine n) s
      | _ => s
    else s

/-! ### WDATA (R41, R73) -/

/-- The last request changed. -/
def mapLast {α : Type} (f : α → α) : List α → List α
  | [] => []
  | [x] => [f x]
  | x :: y :: xs => x :: mapLast f (y :: xs)

/-- A beat of the write in progress is taken; WDATA_LAST ends the write, and one that does not stand on the last beat the request
asks for makes it malformed (log entry 73). -/
def beatTake (s : State) (n : Nat) (b : Beat) (last : Bool) : State :=
  if !haiRuns s n || inDead s n then s
  else if writing (s.hgAt n) then
    s.updHg n (fun h => { h with reqs := mapLast (fun q => { q with beats := q.beats ++ [b], whole := last }) h.reqs })
  else s

/-- The write in progress is withdrawn, and the dead cycle follows (R73, R74). -/
def beatAbort (s : State) (n : Nat) : State :=
  if !haiRuns s n || inDead s n then s
  else
    match (s.hgAt n).reqs.getLast? with
    | some q =>
      if q.whole then s
      else
        let s := s.updHg n (fun h => { h with reqs := h.reqs.dropLast, dead := some (s.fclk + aclkCycles h) })
        (unhold s n q).bump (Reg.HG_HAI_ABORT n) 1
    | none => s

/-! ### Acceptance (R43 to R47, R58, R139) -/

/-- A posted request, or a part of one, is dropped under R40: the sticky counter, and alarm 0x44 with its reason. -/
def postedDrop (s : State) (n : Nat) (c : Ctx) (op : BitVec 8) (why : Nat) : State :=
  (s.bump (Reg.HG_POST_REFUSE n) 1).hgAlarm n 0x44 (c.toNat + op.toNat * 2 ^ 6 + why * 2 ^ 14)

/-- The ACC notice, or its absorption by the siphon (R75). -/
def giveAcc (s : State) (n : Nat) (c : Ctx) (tag : Tag) (closed absorb : Bool) : State :=
  if absorb then s.bump (Reg.HG_SOURCE_RESET n) 1
  else s.updHg n (fun h => { h with acc := some { ctx := c, tag := tag, closed := closed } })

/-- A part as the source tracks it. -/
def mkPart (target : Nat) (lo : Addr) (bytes : BitVec 9) (oc : Option (BitVec 4)) : PartSt :=
  { target := target, lo := lo, bytes := bytes, blocks := 0, outcome := oc, done := 0, state := 0, data := [], from_ := 0,
    seq := 0, arrival := 0 }

/-- A part answered in the source headgate: counted and reported as its reason asks (R137, R145, R469). -/
def noteLocal (s : State) (n : Nat) (r : Req) (p : Part) (oc : BitVec 4) : State :=
  let s := s.bump (Reg.HG_DECODE_FAULT n) 1
  let s := match p.target with
    | .overlap a b => (s.setB (Reg.HG_STATUS n) 1 true).hgAlarm n 0x43 (a + b * 2 ^ 8 + r.ctx.toNat * 2 ^ 16)
    | _ => s
  if isPosted r.op then postedDrop s n r.ctx r.op (if oc = ocDenied then 1 else 2) else s

/-- The packet of a part (R92, R93). The enables of a WRIO (R246) travel as those of a WR do (log entry 18). -/
def mkReqPkt (n t : Nat) (r : Req) (tag : Tag) (lo : Addr) (bytes : BitVec 9) (bs : List Beat)
    (locked split lastp : Bool) : Pkt :=
  { hdr := { Header.zero with
      op := r.op, src := BitVec.ofNat 8 n, dst := BitVec.ofNat 8 t
      attr := mkAttr (isPosted r.op) locked r.secret false 1 split lastp
      ctx := r.ctx, tag := tag, bytes := bytes, aop := r.aop, addr := lo }
    ext := if r.op = opWR ∨ r.op = opWRP ∨ r.op = opWRUL ∨ r.op = opWRIO then writeExt lo bytes bs else 0
    data := bs.map (fun b => { data := b.data, poison := b.poison }) }

/-- The parts of an accepted request with their packets: (part, lo, bytes), in address order (R139). -/
def partPieces (r : Req) (bs : List Beat) (ps : List Part) : List (Part × Addr × BitVec 9) :=
  ps.flatMap (fun p =>
    if p.loc.isSome then [(p, p.lo, p.bytes)]
    else (partRanges r bs p.lo p.bytes).map (fun x => (p, x.1, x.2)))

/-- One piece of an accepted request: answered at once, dropped, or stored as a waiting packet. -/
def acceptPiece (n : Nat) (r : Req) (bs : List Beat) (tag : Tag) (id : Nat) (split : Bool) (last : Nat)
    (acc : State × List PartSt) (x : Nat × Part × Addr × BitVec 9) : State × List PartSt :=
  let (s, ps) := acc
  let (i, p, lo, bytes) := x
  match p.target, p.loc with
  | .hg t, none =>
    if deadDest s n t then
      if r.op = opWRP then (s.bump (Reg.HG_SIPHON_POST n) 1, ps)
      else (s.bump (Reg.HG_SIPHON_TD n) 1, ps ++ [mkPart t lo bytes (some ocDead)])
    else
      let c := (s.hgAt n).ctxAt r.ctx
      let isLk := decide (r.op = opRDLK) || decide (r.op = opWRUL) || decide (r.op = opUNLK)
      let locked := isLk || (decide (r.op ≠ opMSG) && decide (c.lock ≠ .free) && decide (c.lockTgt = t))
      let k := mkReqPkt n t r tag lo bytes (partBeats r bs lo bytes) locked split (split && decide (i + 1 = last))
      (storePkt s n (mkStored k .req t (curEpoch s n) id), ps ++ [mkPart t lo bytes none])
  | _, oc =>
    let oc := oc.getD ocDecode
    (noteLocal s n r p oc, ps ++ [mkPart 1000 lo bytes (some oc)])

/-- The lock state after a lock opcode is accepted and sent (R58). -/
def lockOnAccept (s : State) (n id : Nat) (r : Req) (parts : List PartSt) : State :=
  match parts with
  | [p] =>
    if r.op = opRDLK ∧ p.outcome = none then
      s.updHg n (fun h => h.setCtx r.ctx { h.ctxAt r.ctx with lock := .waiting, lockTgt := p.target, lockAddr := r.addr, lockTxn := id })
    else s
  | _ => s

/-- A lock opcode the source answers itself with LOCK_REFUSED (R58). -/
def lockRefused (c : CtxSt) (op : BitVec 8) : Bool :=
  (decide (op = opRDLK) && decide (c.lock ≠ .free)) || ((decide (op = opWRUL) || decide (op = opUNLK)) && decide (c.lock = .free))

/-- A transaction begins (R48): its outcome is due on RSP. -/
def openTxn (s : State) (n id : Nat) (r : Req) (tag : Tag) (parts : List PartSt) (absorb : Bool) : State :=
  s.updHg n (fun h => { h with txns := h.txns ++ [{ id := id, req := r, tag := tag, born := curEpoch s n, posted := false,
                                                     parts := parts, sent := 0, absorb := absorb }] })

/-- The destinations of channel `c`, whose source record is `w`: the final set of a channel laid through relays, else the lists of
its ordinary entries (R213). -/
def gdataDests (s : State) (n c : Nat) (w : Word) : List Nat :=
  let l := if recRelayed w then setBytes s n (recFset w)
    else (List.range 256).flatMap (fun e =>
      let x := s.reg (Reg.HG_PL_ENTRY n e)
      if entChan x = c ∧ entKind x = 0 ∧ 1 ≤ entFlits x then entList s n x else [])
  l.filter (fun d => decide (d ≠ 255))

/-- A GDATA accepted: staged, or dropped where its channel is not open here, it is too long, or a pair it needs is not enabled (R57,
R145, R205). -/
def acceptGdata (s : State) (n : Nat) (q : PendReq) (tag : Tag) : State :=
  let c := q.req.addr.toNat
  match srcRec s n c with
  | none => postedDrop s n q.req.ctx opGDATA 3
  | some (_, w) =>
    if recFlits w < q.beats.length + 1 then postedDrop s n q.req.ctx opGDATA 0
    else if (gdataDests s n c w).any (fun d => !pairEnabled s n d) then
      postedDrop (s.bump (Reg.HG_DECODE_FAULT n) 1) n q.req.ctx opGDATA 1
    else
      let p : Pkt := { hdr := { Header.zero with
                         op := opGDATA, src := BitVec.ofNat 8 n, dst := 255, ctx := q.req.ctx, tag := tag, bytes := q.req.bytes
                         attr := mkAttr true false q.req.secret false 0 false false
                         xinfo := BitVec.ofNat 32 (c * 2 ^ 20) }
                       ext := 0, data := q.beats.map (fun b => { data := b.data, poison := b.poison }) }
      storePkt s n { mkStored p .gua 255 (curEpoch s n) 0 with accAt := s.fclk }

/-- Steps 1 and 2 of R132 with the beats at hand: the request is malformed by R38 or R39, its beats are not those of its range, or it
is a WRUL whose enables would need two packets (R94, R138). -/
def badForm (q : PendReq) : Bool :=
  decide (q.verdict = .malformed) || decide (q.beats.length ≠ q.need) || !enablesOk q.req q.beats ||
  (decide (q.req.op = opWRUL) && decide (4 < (partialBeats q.req.addr q.req.bytes q.beats).length))

/-- The complete request at the head is accepted (R43). -/
def acceptReq (s : State) (n : Nat) (q : PendReq) : State :=
  let r := q.req
  let bad := badForm q
  let h := s.hgAt n
  let c := h.ctxAt r.ctx
  let tag := c.tag
  let id := h.nextId
  let s := s.setHg n { (h.setCtx r.ctx { c with tag := tag + 1 }) with reqs := h.reqs.drop 1, nextId := id + 1 }
  let s := giveAcc s n r.ctx tag false q.absorb
  let s := (chargeWeir s n r).hgEvent n 1 1
  if bad then
    if isPosted r.op then postedDrop s n r.ctx r.op 0
    else openTxn s n id r tag [mkPart 1000 r.addr r.bytes (some ocDecode)] q.absorb
  else if r.op = opGDATA then acceptGdata s n q tag
  else if r.op = opFENCE then openTxn s n id r tag [mkPart 1000 0 0 none] q.absorb
  else if lockRefused c r.op then openTxn s n id r tag [mkPart 1000 r.addr r.bytes (some ocLockRefused)] q.absorb
  else
    let ps := partPieces r q.beats q.parts
    let split := decide (1 < ps.length)
    let (s, parts) := (List.zip (List.range ps.length) ps).foldl (acceptPiece n r q.beats tag id split ps.length) (s, [])
    if isPosted r.op then s
    else lockOnAccept (openTxn s n id r tag parts q.absorb) n id r parts

/-- A request refused with CLOSED: ACC_CLOSED, tag zero, nothing follows (R45). The absorbed ACC of one from before a reset counts nowhere
(DESIGN CHOICE, log entry 59). -/
def refuseClosed (s : State) (n : Nat) (q : PendReq) : State :=
  let s := s.updHg n (fun h => { h with reqs := h.reqs.drop 1 })
  let s := (s.bump (Reg.HG_CLOSED_CNT n) 1).hgEvent n 2 1
  if q.absorb then s else giveAcc s n q.req.ctx 0 true false

/-- A context is open again once its last pre-reset outcome is absorbed; its tags restart at 0 (R76). -/
def reopenCtx (h : Headgate) (c : Ctx) : Headgate :=
  if h.txns.any (fun t => t.absorb && decide (t.req.ctx = c)) || h.reqs.any (fun q => q.absorb && decide (q.req.ctx = c)) then h
  else h.setCtx c { h.ctxAt c with tag := 0, reopening := false }

/-- A context whose last pre-reset outcome may just have been absorbed reopens where the agent is live (R48, R76). -/
def absorbed (s : State) (n : Nat) (c : Ctx) : State :=
  if (s.hgAt n).portLive ∧ ((s.hgAt n).ctxAt c).reopening then s.updHg n (fun h => reopenCtx h c) else s

/-- The oldest request gets its ACC: its beats are in the store, and it is no longer held (R43, R45). -/
def headReady (s : State) (n : Nat) (q : PendReq) : Bool :=
  q.whole && (badForm q || match q.verdict with
    | .held ds => !ds.any (fun d => s.getB (Reg.HG_DOM_CLOSE n) d)
    | _ => true)

/-- The oldest request is accepted, or refused with CLOSED; the form check comes first (R40, R132). -/
def judgeHead (s : State) (n : Nat) (q : PendReq) : State :=
  if q.verdict = .closed ∧ !badForm q then refuseClosed s n q
  else
    match q.verdict with
    | .held _ =>
      let ok := { q with verdict := .ok }
      acceptReq (unhold (s.updHg n (fun h => { h with reqs := ok :: h.reqs.drop 1 })) n q) n ok
    | _ => acceptReq s n q

/-- ACCEPTANCE: the oldest request gets its ACC, where ACLK runs to carry it (R345), or the siphon absorbs it (R75). -/
def acceptHead (s : State) (n : Nat) : State :=
  match (s.hgAt n).reqs with
  | [] => s
  | q :: _ =>
    if !headReady s n q then s
    else if q.absorb then absorbed (judgeHead s n q) n q.req.ctx
    else deliverOn s n (fun s => judgeHead s n q)

/-- The FCLK cycle in which a request held since `t` for domain `d` is given up. -/
def wakeLimitAt (s : State) (t d : Nat) : Nat := t + max 1 (s.getF (Reg.CK_DOM d) 18 10) * 16000

/-- The domain whose limit a held request reaches first. -/
def firstLimit (s : State) (t : Nat) : List Nat → Nat
  | [] => 0
  | d :: ds => ds.foldl (fun a b => if wakeLimitAt s t b < wakeLimitAt s t a then b else a) d

/-- WAKE_LIMIT_EXPIRY (R352): a held request not accepted in WAKE_LIMIT is refused with CLOSED. -/
def wakeExpire (s : State) (n : Nat) : State :=
  match (s.hgAt n).wakeHeld, (s.hgAt n).reqs.find? (fun q => match q.verdict with | .held _ => true | _ => false) with
  | some t, some q =>
    match q.verdict with
    | .held ds =>
      let d := firstLimit s t ds
      let s := s.advanceTo (wakeLimitAt s t d)
      let s := s.updHg n (fun h => { h with reqs := h.reqs.map (fun x => if x = q then { x with verdict := .closed } else x) })
      (acceptHead (unhold s n q) n).hgAlarm n 0x51 d
    | _ => s
  | _, _ => s

/-! ### RSP (R50, R53, R54, R140) -/

/-- Every part has its outcome. -/
def Txn.complete (t : Txn) : Bool := t.parts.all (fun p => p.outcome.isSome)

/-- The combined outcome (R140): the lowest-addressed part that is not OK, else OK. -/
def Txn.outcome (t : Txn) : BitVec 4 :=
  match t.parts.find? (fun p => decide (p.outcome ≠ some ocOK)) with
  | some p => p.outcome.getD ocOK
  | none => ocOK

/-- RSP_DONE: the bytes performed by all parts. -/
def Txn.done (t : Txn) : Nat := sumBy (·.done) t.parts

/-- The beats of the response (R53). -/
def Txn.beats (t : Txn) : Nat :=
  if carriesData t.outcome then max 1 (rspBeats t.req.op t.req.addr t.req.bytes) else 1

/-- Beat `k` of the response, assembled in address order; zero where a part brought no data (R53, R140). -/
def Txn.beat (t : Txn) (k : Nat) : DBeat :=
  if carriesData t.outcome then
    let blk := t.req.addr.toNat / 64 + k
    match t.parts.find? (fun p => decide (p.lo.toNat / 64 ≤ blk) && decide (blk ≤ (p.lo.toNat + p.bytes.toNat) / 64)) with
    | some p => (p.data[blk - p.lo.toNat / 64]?).getD DBeat.zero
    | none => DBeat.zero
  else DBeat.zero

/-- RSP_STATE: the grant of a coherent response; 0 for RDIO and for every failing or poisoned outcome (R237, R249). -/
def Txn.rspState (t : Txn) : BitVec 2 :=
  match t.parts with
  | [p] => if isCoherent t.req.op ∧ t.outcome = ocOK ∧ t.req.op ≠ opRDIO then p.state else 0
  | _ => 0

/-- The destinations of a transaction in the mesh. -/
def Txn.dests (t : Txn) : List Nat := (t.parts.map (·.target)).filter (fun d => decide (d < 160))

/-- The order of R50 and R68 lets `t` be presented: no earlier transaction of its context has a destination in common, no
other response is part way, and no snoop that arrived earlier from one of its sources waits. -/
def rspAllowed (h : Headgate) (t : Txn) : Bool :=
  !h.txns.any (fun u => decide (u.id < t.id) && decide (u.req.ctx = t.req.ctx) && u.dests.any (fun d => t.dests.contains d)) &&
  !h.txns.any (fun u => decide (u.id ≠ t.id) && decide (0 < u.sent)) &&
  !h.snoops.any (fun q => !q.presented && t.parts.any (fun p =>
      decide (p.target < 160) && decide (p.from_ = q.pkt.hdr.src.toNat) && decide (q.arrival < p.arrival)))

/-- The source lock state after a response (Table 2-10); `mine` says that it answers the RDLK the context sent. -/
def lockAfterRsp (c : CtxSt) (op : BitVec 8) (oc : BitVec 4) (mine : Bool) : CtxSt :=
  if op = opRDLK then
    match c.lock with
    | .waiting => if !mine then c
        else if oc = ocOK ∨ oc = ocLockBroken ∨ oc = ocPoisoned then { c with lock := .held } else { c with lock := .free }
    | _ => if oc = ocLockLost ∧ c.lock = .held then { c with lock := .free } else c
  else if c.lock = .held ∧ (op = opWRUL ∨ op = opUNLK ∨ oc = ocLockLost) then { c with lock := .free }
  else c

/-- The CACK of a completed coherent request toward its home (R71, R72), with SECRET 0 and BYTES 63 (DESIGN CHOICE, log entries 62 and
63). -/
def mkCack (n home : Nat) (c : Ctx) (tag : Tag) (addr : Addr) : Pkt :=
  { hdr := { Header.zero with
      op := opCACK, src := BitVec.ofNat 8 n, dst := BitVec.ofNat 8 home, attr := mkAttr false false false false 2 false false
      ctx := c, tag := tag, bytes := 63, addr := addr
      xinfo := BitVec.ofNat 32 ((c.toNat * 2 ^ 8 + tag.toNat) * 2 ^ 16) }
    ext := 0, data := [] }

/-- The response to this request is answered with a CACK (R241). -/
def wantsCack (op : BitVec 8) (oc : BitVec 4) : Bool :=
  (decide (oc = ocOK) || decide (oc = ocPoisoned)) &&
  (decide (op = opRDS) || decide (op = opRDO) || decide (op = opUPG) || decide (op = opRDIO) || decide (op = opWRIO))

/-- A transaction ends: its pool blocks free (R146), the lock state moves (R58), and the CACK is sent by the headgate or
awaited from the agent. -/
def endTxn (s : State) (n : Nat) (t : Txn) (byHeadgate : Bool) : State :=
  let h := s.hgAt n
  let oc := t.outcome
  let c := h.ctxAt t.req.ctx
  let h := { (h.setCtx t.req.ctx (lockAfterRsp c t.req.op oc (decide (c.lockTxn = t.id)))) with
    txns := h.txns.filter (fun u => decide (u.id ≠ t.id))
    poolUsed := h.poolUsed - sumBy (·.blocks) t.parts }
  let s := s.setHg n h
  match t.parts with
  | [p] =>
    if wantsCack t.req.op oc ∧ p.target < 160 then
      if byHeadgate then storeReply s n .rsp (mkCack n p.target t.req.ctx t.tag t.req.addr)
      else s.updHg n (fun h => { h with cackWait := h.cackWait ++ [(t.req.ctx, t.tag, p.target, t.req.addr)] })
    else s
  | _ => s

/-- The store has room for the CACK that the end of the transaction brings, or keeps for the agent's (R69, R171). -/
def cackRoom (h : Headgate) (t : Txn) : Bool := !wantsCack t.req.op t.outcome || decide (0 < openBlocks h)

/-- The response of part `p` as read from the response pool (R190): a bad data word makes it POISONED, and with both header copies
lost it is gone. -/
def readRsp (s : State) (n : Nat) (p : PartSt) (err : MemErr) : PartSt × State :=
  let q : Pkt := { hdr := { Header.zero with src := BitVec.ofNat 8 p.from_, seq := p.seq }, ext := 0, data := p.data }
  match readReseq s n q err with
  | (some q, s) => ({ p with data := q.data, outcome := p.outcome.map (fun oc => deliveredOutcome oc q.data) }, s)
  | (none, s) => ({ p with data := [], outcome := none }, s)

/-- The first part of the transaction that came from the mesh is read before the first beat goes out (R190, log entry 60). -/
def readTxn (s : State) (n : Nat) (t : Txn) (err : MemErr) : Txn × State :=
  match t.parts.find? (fun p => decide (p.target < 160)) with
  | some p =>
    if t.sent = 0 then
      let (q, s) := readRsp s n p err
      let t := { t with parts := updFirst (fun x => decide (x.target < 160)) (fun _ => q) t.parts }
      (t, s.updHg n (fun h => { h with txns := h.txns.map (fun u => if u.id = t.id then t else u) }))
    else (t, s)
  | none => (t, s)

/-- The next beat of the response of a transaction is transferred; the last ends it (R53). -/
def rspOut (s : State) (n : Nat) (t : Txn) : State :=
  let b := t.beat t.sent
  let last := decide (t.beats ≤ t.sent + 1)
  let s := s.updHg n (fun h => { h with out := .rsp t.req.ctx t.tag t.outcome t.done t.rspState b last })
  if last then endTxn s n t (!isCaching n)
  else s.updHg n (fun h => { h with txns := h.txns.map (fun u => if u.id = t.id then { u with sent := u.sent + 1 } else u) })

/-- RSP_TRANSFER: the next beat of the response of the transaction at place `k`. -/
def rspBeat (s : State) (n k : Nat) (err : MemErr) : State :=
  match (s.hgAt n).txns[k]? with
  | none => s
  | some t =>
    if t.complete ∧ !t.absorb ∧ rspAllowed (s.hgAt n) t ∧ cackRoom (s.hgAt n) t then
      deliverOn s n (fun s =>
        let (t, s) := readTxn s n t err
        if t.complete then rspOut s n t else s)
    else s

/-- FENCE_COMPLETE (R51): every transaction of the context accepted earlier has its end-to-end commit. -/
def fenceDone (s : State) (n : Nat) (c : Ctx) : State :=
  let h := s.hgAt n
  match h.txns.find? (fun t => decide (t.req.op = opFENCE) && decide (t.req.ctx = c) && !t.complete) with
  | none => s
  | some t =>
    if h.store.any (fun p => decide (p.kind = .req) && decide (p.pkt.hdr.ctx = c) && decide (p.txn < t.id)) then s
    else s.setHg n { h with txns := h.txns.map (fun u =>
      if u.id = t.id then { u with parts := u.parts.map (fun p => { p with outcome := some ocOK }) } else u) }

/-- SIPHON_ABSORB: the outcome of the reset transaction at place `k` is absorbed and counted (R75, R76, R250). -/
def siphonAbsorb (s : State) (n k : Nat) : State :=
  match (s.hgAt n).txns[k]? with
  | none => s
  | some t =>
    if t.complete ∧ t.absorb ∧ cackRoom (s.hgAt n) t then absorbed (endTxn (s.bump (Reg.HG_SOURCE_RESET n) 1) n t true) n t.req.ctx
    else s

/-! ### MSGIN (R56, R210) -/

/-- MSGIN_TRANSFER: the next beat of the packet at the front; the last frees its entry or buffer (R158, R210). -/
def msginBeat (s : State) (n : Nat) : State :=
  match (s.hgAt n).msgin with
  | [] => s
  | m :: rest =>
    let last := decide (m.data.length ≤ m.sent + 1)
    if last ∧ m.entry.isSome ∧ openBlocks (s.hgAt n) = 0 then s
    else deliverOn s n (fun s =>
      let b := (m.data[m.sent]?).getD DBeat.zero
      let s := s.updHg n (fun h => { h with out := .msgin m.src m.tag m.bytes m.gua b last })
      if last then
        let s := s.updHg n (fun h => { h with msgin := rest })
        match m.entry with
        | some id => settleTarget (answer s n id ocOK (m.bytes.toNat + 1) []) n
        | none => s.updHg n (fun h =>
            let c := h.chanAt m.chanRec
            h.setChan m.chanRec { c with buffered := c.buffered - 1 })
      else s.updHg n (fun h => { h with msgin := { m with sent := m.sent + 1 } :: rest }))

/-! ### TREQ, TWDATA, TRSP (R62 to R67) -/

/-- TREQ as driven for an entry (R30, R302). -/
def treqOut (e : Entry) (id : Nat) : HaiOut :=
  .treq e.op (BitVec.ofNat 9 id) e.pkt.hdr.src e.pkt.hdr.ctx e.lo (if e.op = opUNLK then e.pkt.hdr.bytes else e.bytes)
    e.pkt.hdr.aop e.pkt.hdr.secret e.pkt.hdr.locked

/-- An UNLK of the owner with BYTES 0x1FF (R161): release without presenting, with BROKEN; answered OK. -/
def breakLock (s : State) (n id : Nat) : State :=
  answer (s.updHg n (fun h => { h with lock := h.lock.release true })) n id ocOK 0 []

/-- The entry presented on TREQ under a free ID: its target timer starts, an RDLK takes the lock (R155, R159, R317). The lock's timer
does not run where the owner's WRUL or UNLK has reached the manager already (R293). -/
def presentEntry (s : State) (n : Nat) (e : Entry) : State :=
  match freeIds s n with
  | [] => s
  | ids =>
    let (d, s) := s.draw
    let id := ids[Config.idPick d % ids.length]?.getD 0
    let bs := entryBeats e
    let lk := (s.hgAt n).lock
    let lock := decide (e.op = opRDLK) && s.getB (Reg.HG_CFG n) 1
    let ended := (s.hgAt n).entries.any (fun x =>
      decide (x.master = e.master) && decide (x.phase = .waiting) && (decide (x.op = opWRUL) || decide (x.op = opUNLK)))
    let timer := if ended then none else some (s.fclk + lockLimit s)
    s.updHg n (fun h =>
      let h := h.updEntry e.id (fun x => { x with phase := .presented, treqId := some id, beatsLeft := bs.length,
                                                  presentedAt := some s.fclk, broken := lock && lk.broken })
      { h with out := treqOut e id
               lock := if lock then LockMgr.grant e.master timer else h.lock
               twdata := if bs.isEmpty then h.twdata else h.twdata ++ [(id, bs)] })

/-- TREQ_PRESENT: the oldest entry that context order and the lock manager let go (R155, R160). What needs no agent is
answered here: LOCK_LOST, the UNLK of a reset owner, and a WRUL whose write is refused (R306). -/
def treqPresent (s : State) (n : Nat) : State :=
  if s.getB (Reg.HG_LEVEE n) 0 ∨ s.getB (Reg.HG_DOM_STATUS n) 2 then s
  else
    let s := dueHg s n
    match nextEntry? s n with
    | none => s
    | some (e, j) =>
      if j = .lost then settleTarget (answer s n e.id ocLockLost 0 []) n
      else if e.op = opUNLK ∧ e.pkt.hdr.bytes = 0x1FF then settleTarget (breakLock s n e.id) n
      else if e.noWrite then
        settleTarget (answer (s.updHg n (fun h => { h with lock := h.lock.release false })) n e.id ocDenied 0 []) n
      else deliverOn s n (fun s => settleTarget (presentEntry s n e) n)

/-- TWDATA_TRANSFER: the next write beat to the agent; the last of a WRP frees its entry (R62, R64, R158). -/
def twdataBeat (s : State) (n : Nat) : State :=
  match (s.hgAt n).twdata with
  | (id, b :: bs) :: rest => deliverOn s n (fun s =>
      let h := s.hgAt n
      let h := { h with
        out := .twdata b bs.isEmpty
        twdata := if bs.isEmpty then rest else (id, bs) :: rest
        entries := h.entries.map (fun e => if e.treqId = some id then { e with beatsLeft := e.beatsLeft - 1 } else e) }
      let s := s.setHg n h
      match h.entries.find? (fun e => decide (e.treqId = some id)) with
      | some e => if bs.isEmpty ∧ e.op = opWRP then settleTarget (freeEntry s n e.id) n else s
      | none => s)
  | _ => s

/-- The agent's outcome as the headgate takes it (R54, R65). -/
def trspOutcome (e : Entry) (oc : BitVec 4) (beats : List DBeat) : BitVec 4 :=
  let oc := if oc = ocOK ∨ oc = ocPoisoned then oc else ocAgentError
  let wr := decide (e.op = opWR) || decide (e.op = opWRUL) || decide (e.op = opATOM) || decide (e.op = opWRIO)
  if beats.any (·.poison) || (wr && (entryBeats e).any (·.poison)) then ocPoisoned
  else if oc = ocOK ∧ e.op = opRDLK ∧ e.broken then ocLockBroken
  else oc

/-- TRSP_RECEIVED (R63 to R65, R156, R302, R304): the response packet is written and the entry freed; an owner's WRUL or UNLK
releases the lock (Table 5-1). The DONE of an AGENT_ERROR is 0, or all the bytes where a poisoned beat makes it POISONED (DESIGN CHOICE,
log entry 58). -/
def trspTake (s : State) (n : Nat) (id : Nat) (oc : BitVec 4) (beats : List DBeat) : State :=
  if !haiRuns s n then s
  else if s.getB (Reg.HG_LEVEE n) 0 then
    (s.bump (Reg.HG_LEVEE_LATE n) 1).updHg n (fun h => { h with staleIds := h.staleIds.filter (fun i => decide (i ≠ id)) })
  else
    match (s.hgAt n).entries.find? (fun e => decide (e.treqId = some id) && decide (e.phase = .presented)) with
    | none => s
    | some e =>
      if e.op = opWRP ∨ openBlocks (s.hgAt n) < 1 + rspBeats e.op e.pkt.hdr.addr e.pkt.hdr.bytes then s
      else
        let s := if oc = ocOK ∨ oc = ocPoisoned ∨ oc = ocAgentError then s else s.bump (Reg.HG_TRSP_BADOUT n) 1
        let out := trspOutcome e oc beats
        let done := if e.op = opUNLK ∨ out = ocAgentError then 0 else e.bytes.toNat + 1
        let s := if (e.op = opWRUL ∨ e.op = opUNLK) ∧ (s.hgAt n).lock.owner = some e.master then
            s.updHg n (fun h => { h with lock := h.lock.release false }) else s
        let s := if e.partDenied then answer s n e.id ocDenied (e.bytes.toNat + 1) (maskRead e beats)
          else answer s n e.id out done beats
        settleTarget s n

/-! ### Snoops (R68 to R71) -/

/-- The oldest snoop not yet presented, where order lets it go (R68, R70). -/
def nextSnoop (h : Headgate) : Option SnoopSt :=
  match h.snoops.find? (fun q => !q.presented) with
  | none => none
  | some q =>
    let sameTxn := h.snoops.any (fun x => x.presented && decide (x.pkt.hdr.txn = q.pkt.hdr.txn))
    let rspFirst := h.txns.any (fun t => t.parts.any (fun p =>
      p.outcome.isSome && decide (p.target < 160) && decide (p.from_ = q.pkt.hdr.src.toNat) && decide (p.arrival < q.arrival)))
    if sameTxn || rspFirst then none else some q

/-- SNP_TRANSFER: the snoop goes to the agent, with room kept for its answer (R69); the headgate answers for an agent that takes no
part in coherence (R250). -/
def snpPresent (s : State) (n : Nat) : State :=
  if snoopsDead s n then answerSnoops s n
  else
    match nextSnoop (s.hgAt n) with
    | none => s
    | some q =>
      if openBlocks (s.hgAt n) < 4 then s
      else deliverOn s n (fun s =>
        let hd := q.pkt.hdr
        s.updHg n (fun h => { h with
          out := .snp hd.op (hd.addr.extractLsb' 6 42) (BitVec.ofNat 16 hd.txn) (BitVec.ofNat 8 hd.rqhg)
          snoops := h.snoops.map (fun x => if x.arrival = q.arrival then { x with presented := true } else x) }))

/-- SNPRSP_ITEM: the item goes to the snoop's home or requester (R70, R88); one that matches no presented snoop is counted. -/
def snprspTake (s : State) (n : Nat) (op : BitVec 8) (txn : Nat) (toReq : Bool) (st : BitVec 2) (data : Line) (last : Bool) :
    State :=
  if !haiRuns s n then s
  else
    match (s.hgAt n).snoops.find? (fun q => q.presented && decide (q.pkt.hdr.txn = txn)) with
    | none => s.bump (Reg.HG_COH_UNMATCHED n) 1
    | some q =>
      let hd := q.pkt.hdr
      let n1 := dataFlits op hd.addr 63 ocOK
      let p : Pkt := { hdr := { Header.zero with
                         op := op, src := BitVec.ofNat 8 n
                         dst := if toReq then BitVec.ofNat 8 hd.rqhg else hd.src
                         attr := mkAttr false false hd.secret false 2 false false
                         ctx := hd.ctx, tag := hd.tag, bytes := 63, addr := hd.addr
                         done := if toReq then 64 else 0
                         state := if op = opDATAF then 2 else if op = opDATAM then 3 else if op = opCENSUSR then st else 0
                         xinfo := BitVec.ofNat 32 (txn * 2 ^ 16) }
                       ext := 0, data := if n1 = 1 then [{ data := data, poison := false }] else [] }
      let s := storeReply s n .rsp p
      if last then s.updHg n (fun h => { h with snoops := h.snoops.filter (fun x => decide (x.arrival ≠ q.arrival)) }) else s

/-- CACK: routed to the home of the request it names, or counted where none awaits it (R71). -/
def cackTake (s : State) (n : Nat) (c : Ctx) (tag : Tag) : State :=
  if !haiRuns s n then s
  else
    match (s.hgAt n).cackWait.findIdx? (fun x => decide (x.1 = c) && decide (x.2.1 = tag)) with
    | none => s.bump (Reg.HG_COH_UNMATCHED n) 1
    | some k =>
      match (s.hgAt n).cackWait[k]? with
      | some (_, _, home, addr) =>
        storeReply (s.updHg n (fun h => { h with cackWait := dropNth h.cackWait k })) n .rsp (mkCack n home c tag addr)
      | none => s

/-! ### Agent reset (R61, R66, R75 to R77, R161, R346) -/

/-- The UNLK with BYTES 0x1FF of a context that holds or waits for a lock: injected at once, ahead of the context's waiting
transactions (R161). -/
def unlockCtx (n : Nat) (c : Nat) (s : State) : State :=
  let h := s.hgAt n
  let x := h.ctxAt (BitVec.ofNat 6 c)
  if x.lock = .free then s
  else
    let r : Req := { op := opUNLK, ctx := BitVec.ofNat 6 c, addr := x.lockAddr, bytes := 0x1FF, aop := 0, secret := false }
    let p := mkReqPkt n x.lockTgt r x.tag x.lockAddr 0x1FF [] true false false
    let st := { mkStored p .req x.lockTgt (curEpoch s n) h.nextId with ahead := true }
    let h := { (h.setCtx r.ctx { x with lock := .free, tag := x.tag + 1 }) with
      store := st :: h.store
      txns := h.txns ++ [{ id := h.nextId, req := r, tag := x.tag, born := curEpoch s n, posted := false,
                           parts := [mkPart x.lockTgt x.lockAddr 0x1FF none], sent := 0, absorb := true }]
      nextId := h.nextId + 1 }
    let s := s.setHg n h
    if injectable s n 0 then injectFirst s n 0 else s

/-- The initiator side after the fall of PORT_LIVE, or under ISO_INIT (R75, R329): incomplete requests are discarded, locks
are released, and every later ACC and outcome goes to the siphon. -/
def resetInitiator (s : State) (n : Nat) : State :=
  let h := s.hgAt n
  let lost := sumBy (fun q => if q.whole then 0 else q.beats.length) h.reqs
  let gone := h.reqs.filter (fun q => !q.whole)
  let kept := h.reqs.filter (·.whole)
  let h := kept.foldl (fun h q => h.setCtx q.req.ctx (h.ctxAt q.req.ctx)) h
  let h := { h with
    reqs := kept.map (fun q => { q with absorb := true })
    txns := h.txns.map (fun t => { t with absorb := true, sent := 0 })
    ctxs := h.ctxs.map (fun x => (x.1, { x.2 with reopening := true }))
    acc := none, dead := none, cackWait := [] }
  let s := (s.setHg n h).bump (Reg.HG_HAI_DISCARD n) lost
  let s := forEach gone (fun q t => unhold t n q) s
  forRange 64 (unlockCtx n) s

/-- The target side after the fall (R66): every unanswered TREQ gets AGENT_ERROR, a WRP cut in its beats is counted and
reported, and the TREQ_IDs are free. -/
def cutEntry (n : Nat) (e : Entry) (s : State) : State :=
  if e.phase ≠ .presented then s
  else if e.op = opWRP then
    let sent := (entryBeats e).length - e.beatsLeft
    let s := (s.bump (Reg.HG_WRP_CUT n) 1).hgAlarm n 0x54 (e.src + e.pkt.hdr.ctx.toNat * 2 ^ 8 + sent * 2 ^ 14)
    freeEntry s n e.id
  else
    let s := if (e.op = opWRUL ∨ e.op = opUNLK) ∧ (s.hgAt n).lock.owner = some e.master then
        s.updHg n (fun h => { h with lock := h.lock.release false }) else s
    if e.partDenied then answer s n e.id ocDenied 0 [] else answer s n e.id ocAgentError 0 []

/-- Committed GDATA still waiting on MSGIN are discarded and counted in DROP (R211); a MSG is presented again from its first
beat. -/
def cutMsgin (s : State) (n : Nat) : State :=
  let h := s.hgAt n
  let h' := h.msgin.foldl (fun (h : Headgate) m =>
    if m.gua then
      let c := h.chanAt m.chanRec
      h.setChan m.chanRec { c with buffered := c.buffered - 1, drop := satAdd 16 c.drop 1 }
    else h) h
  s.setHg n { h' with msgin := (h.msgin.filter (fun m => !m.gua)).map (fun m => { m with sent := 0 }) }

/-- PWR_ACK as crossed. -/
def setPwrAck (s : State) (n : Nat) (b : Bool) : State :=
  (s.updHg n (fun h => { h with pwrAck := b })).setB (Reg.HG_DOM_STATUS n) 4 b

/-- AGENT_PORT_LIVE_FALL (R66, R75, R77, R250); the sluices of the boundary return to their initial state, so PWR_ACK reads low
(R346). -/
def liveFall (s : State) (n : Nat) : State :=
  if !(s.hgAt n).portLive then s
  else
    let es := (s.hgAt n).entries
    let s := s.updHg n (fun h => { h with portLive := false, liveFellAt := some s.fclk, out := .none, twdata := [], staleIds := []
                                          liveCycled := if h.liveCycled = 0 then 1 else h.liveCycled })
    let s := setPwrAck (resetInitiator s n) n false
    let s := answerSnoops (forEach es (cutEntry n) s) n
    settleTarget (cutMsgin s n) n

/-- AGENT_PORT_LIVE_RISE (R76, R79, R81, R354): contexts whose outcomes are all absorbed reopen, the shell stops, WAKE falls
where ACLK runs, and at a wake of the domain PWR_REQ falls. -/
def liveRise (s : State) (n : Nat) : State :=
  if (s.hgAt n).portLive then s
  else
    let s := s.updHg n (fun h =>
      let h := { h with portLive := true, liveCycled := if h.liveCycled = 1 then 2 else h.liveCycled }
      h.ctxs.foldl (fun h x => reopenCtx h (BitVec.ofNat 6 x.1)) h)
    let s := s.setB (Reg.HG_DOM_STATUS n) 2 false
    let quiesce := match domainOf s n with | some d => decide (s.getF (Reg.CK_DOM d) 1 3 = 3) | none => false
    let s := if quiesce then s else setPwrReq s n false
    if (s.hgAt n).aclkEn then setWake s n false else s

/-! ### Power sidebands and ACLK (R78 to R81, R338, R350, R351) -/

/-- PWR_ACK_RISE (R78, R350): seen while PORT_LIVE is high (R37). From PWR_ACK on the headgate answers snoops; it is the Rider that
turns the domain OFF. -/
def pwrAckRise (s : State) (n : Nat) : State :=
  if (s.hgAt n).portLive then answerSnoops (setPwrAck s n true) n else s

/-- PWR_ACK_FALL: PWR_ACK falls after PWR_REQ; the level crosses into FCLK (R80), while PORT_LIVE is high (R37). -/
def pwrAckDrop (s : State) (n : Nat) : State := if (s.hgAt n).portLive then setPwrAck s n false else s

/-- Every held request whose domain is open again is accepted at once (R354). -/
def openDom (d n : Nat) (s : State) : State :=
  let s := s.setB (Reg.HG_DOM_CLOSE n) d false
  match (s.hgAt n).reqs with
  | q :: _ =>
    match q.verdict with
    | .held ds => if ds.contains d then acceptHead s n else s
    | _ => s
  | [] => s

/-- A sleep is abandoned (R351): PWR_REQ falls, every headgate opens in ascending order, the domain is ON. -/
def abandonSleep (s : State) (d : Nat) : State :=
  let s := forEach (domainHgs s d) (fun n t => setPwrReq t n false) s
  setDomState (forRange 160 (openDom d) s) d 0

/-- PWR_ACK_TIMEOUT: ACK_LIMIT of a quiescing domain expires (R351). -/
def ackExpire (s : State) (d : Nat) : State :=
  if s.getF (Reg.CK_DOM d) 1 3 = 3 then
    abandonSleep (s.advanceTo (Tab.get s.bd.domAck 0 d + max 1 (s.getF (Reg.CK_DOM d) 8 10) * 1600)) d
  else s

/-- ACLK_EN_CHANGE: the gate follows ACLK_EN_n, with the divisor of HG_CFG taken as it opens (R338); WAKE falls once the
agent is live with ACLK running (R81, R344). -/
def aclkChange (s : State) (n : Nat) (level : Bool) : State :=
  let s := s.updHg n (fun h => { h with
    aclkEn := level, aclkDivInUse := if level && !h.aclkEn then s.getF (Reg.HG_CFG n) 4 3 else h.aclkDivInUse })
  let s := s.setB (Reg.HG_DOM_STATUS n) 6 level
  if level && (s.hgAt n).portLive then setWake s n false else s

/-! ### The meanings of the HAI commands -/

def execReqTransfer (n : Hg) (r : Req) (s : State) : Out := atHai n s (fun s => reqTake s n r)
def execWdataBeat (n : Hg) (b : WdataBeat) (s : State) : Out := atHai n s (fun s => beatTake s n b.beat b.last)
def execWdataAbort (n : Hg) (s : State) : Out := atHai n s (fun s => beatAbort s n)
def execAcceptance (n : Hg) (s : State) : Out := atHai n s (fun s => acceptHead s n)
/-- Every 256 FCLK cycles (R150); a headgate without an HAI has contexts for its own requests alike. -/
def execWeirRefill (n : Hg) (s : State) : Out := .next (refillWeirs s n)
def execPartInjection (n : Hg) (k : Nat) (err : MemErr) (s : State) : Out :=
  .next (
    if injectNow s n k then
      let s := readStored s n k err
      let s' := injectFirst s n k
      match (s'.hgAt n).store[k]? with
      | some p => if p.lost then reportLost s' n k else s'
      | none => s'
    else s)
def execFenceComplete (n : Hg) (c : Ctx) (s : State) : Out := atHai n s (fun s => fenceDone s n c)
def execRspTransfer (n : Hg) (k : RspPick) (s : State) : Out := atHai n s (fun s => rspBeat s n k.place k.err)
def execMsginTransfer (n : Hg) (s : State) : Out := atHai n s (fun s => msginBeat s n)
def execTreqPresent (n : Hg) (s : State) : Out := atHai n s (fun s => treqPresent s n)
def execTwdataTransfer (n : Hg) (s : State) : Out := atHai n s (fun s => twdataBeat s n)
def execTrspReceived (n : Hg) (id : BitVec 9) (oc : BitVec 4) (beats : List DBeat) (s : State) : Out :=
  atHai n s (fun s => trspTake s n id.toNat oc beats)
/-- A snoop channel exists on the caching variant only (R28). -/
def execSnpTransfer (n : Hg) (s : State) : Out := if isCaching n then .next (snpPresent s n) else .refused .notCaching
def execSnprspItem (n : Hg) (op : BitVec 8) (txn : BitVec 16) (toReq : Bool) (st : BitVec 2) (data : Line) (last : Bool)
    (s : State) : Out :=
  if isCaching n then .next (snprspTake s n op txn.toNat toReq st data last) else .refused .notCaching
def execCack (n : Hg) (c : Ctx) (tag : Tag) (s : State) : Out :=
  if isCaching n then .next (cackTake s n c tag) else .refused .notCaching
def execAgentPortLiveFall (n : Hg) (s : State) : Out := atHai n s (fun s => liveFall s n)
def execAgentPortLiveRise (n : Hg) (s : State) : Out := atHai n s (fun s => liveRise s n)
def execSiphonAbsorb (n : Hg) (k : Nat) (s : State) : Out := atHai n s (fun s => siphonAbsorb s n k)
def execPwrAckRise (n : Hg) (s : State) : Out := atHai n s (fun s => pwrAckRise s n)
def execPwrAckTimeout (d : Dom) (s : State) : Out := .next (ackExpire s d)
def execAclkEnChange (n : Hg) (level : Bool) (s : State) : Out := atHai n s (fun s => aclkChange s n level)
def execWakeLimitExpiry (n : Hg) (s : State) : Out := atHai n s (fun s => wakeExpire s n)
def execPwrAckFall (n : Hg) (s : State) : Out := atHai n s (fun s => pwrAckDrop s n)

end Sys2Proof.Machine
end

