-- ==== Sys2Proof/Machine/Home.lean ====
section
/-! DEFINITION. The home slices (chapters 8 and 9): the directory, the flows of Table 8-2 as lists of steps, snoop rounds,
memory accesses, line queues, evictions, timeouts, the sweep, failure, the hand-over to the spare and the census. -/

namespace Sys2Proof.Machine

/-! ### Lines and the directory (R253, R255, R256) -/

/-- The base of the interleave group as the home's own decode slots give it. -/
def homeBase (s : State) (n : Nat) : Nat :=
  match (decSlots s n).find? (·.ilv) with
  | some d => d.base
  | none => 0

/-- A'[34:6] of an address. -/
def lineNo (s : State) (n a : Nat) : Nat := ((a - homeBase s n) / 64) % 2 ^ 29

/-- The address of a line. -/
def lineAddr (s : State) (n l : Nat) : Addr := BitVec.ofNat 48 (homeBase s n + 64 * l)

/-- The set and the tag of a line: A'[20:10] and A'[34:21]. -/
def setOf (l : Nat) : Nat := l / 16 % 2048
def tagOf (l : Nat) : Nat := l / 2 ^ 15

/-- The slice whose lines slice `k` serves (R274). -/
def servedSlice (s : State) (k : Nat) : Nat :=
  if s.getB (Reg.HS_CFG k) 1 then s.getF (Reg.HS_CFG k) 2 4 else k

/-- The line of slice `v` with a set and a tag (R253). -/
def lineFrom (v set tag : Nat) : Nat :=
  ((v % 16) ^^^ (set % 16) ^^^ (set / 16 % 16) ^^^ (set / 256 + 8 * (tag % 2))) + 16 * set + 2 ^ 15 * tag

def Slice.entry (x : Slice) (set way : Nat) : DirEntry := Tab.get x.dir DirEntry.empty (32 * set + way)
def Slice.setEntry (x : Slice) (set way : Nat) (e : DirEntry) : Slice := { x with dir := Tab.set x.dir (32 * set + way) e }

/-- The way that holds a line. -/
def Slice.wayOf (x : Slice) (l : Nat) : Option Nat :=
  (List.range 20).find? (fun w => let e := x.entry (setOf l) w; e.valid && decide (e.tag.toNat = tagOf l))

/-- The entry of a line. -/
def Slice.entryOf (x : Slice) (l : Nat) : Option DirEntry := (x.wayOf l).map (x.entry (setOf l))

/-- A mask of caching agents. -/
def maskOf (l : List (BitVec 4)) : BitVec 16 := BitVec.ofNat 16 (l.foldr (fun a m => m ||| 2 ^ a.toNat) 0)
def allAgents : BitVec 16 := 0xFFFF
def without (m : BitVec 16) (a : BitVec 4) : BitVec 16 := m &&& ~~~(maskOf [a])
/-- The caching agents of a mask, ascending. -/
def agentsOf (m : BitVec 16) : List (BitVec 4) := (bitsOf m 16).map (BitVec.ofNat 4)

/-- Every cache that may hold the line (R230). -/
def DirEntry.holders (e : DirEntry) : BitVec 16 := if e.ovf then allAgents else maskOf e.ptrs

/-- ST, the pointers and OVF of what is recorded (R256). -/
def DirWrite.parts : DirWrite → BitVec 2 × List (BitVec 4) × Bool
  | .di => (0, [], false)
  | .dm o => (3, [o], false)
  | .df h sh ovf => if ovf ∨ 2 < sh.length then (2, [h], true) else (2, h :: sh, false)
  | .ds sh ovf => if ovf ∨ 3 < sh.length then (1, [], true) else (1, sh, false)

/-- The recency ranks after an access to way `w`, whose rank counted as `old` (R258). -/
def Slice.touch (x : Slice) (set w old : Nat) : Slice :=
  (List.range 20).foldl (fun x v =>
    let e := x.entry set v
    if v = w then x.setEntry set v { e with lru := 0 }
    else if e.valid ∧ e.lru.toNat < old then x.setEntry set v { e with lru := e.lru + 1 }
    else x) x

/-- An access finds the entry of the line. -/
def Slice.access (x : Slice) (l : Nat) : Slice :=
  match x.wayOf l with
  | none => x
  | some w => x.touch (setOf l) w (x.entry (setOf l) w).lru.toNat

/-- The entry of a line takes what is recorded; DI clears VALID (R258). -/
def Slice.recordLine (x : Slice) (l : Nat) (w : DirWrite) : Slice :=
  match x.wayOf l with
  | none => x
  | some v =>
    let e := x.entry (setOf l) v
    match w with
    | .di => x.setEntry (setOf l) v { e with valid := false }
    | w =>
      let (st, ptrs, ovf) := w.parts
      x.setEntry (setOf l) v { e with st := st, ptrs := ptrs, ovf := ovf }

/-- A free way of a set. -/
def Slice.freeWay (x : Slice) (set : Nat) : Option Nat := (List.range 20).find? (fun w => !(x.entry set w).valid)

/-- A new entry in way `v`, the most recent of its set; its old rank is the lowest no valid entry holds (log entry 19). -/
def Slice.fillWay (x : Slice) (v l : Nat) (w : DirWrite) : Slice :=
  let set := setOf l
  let old := ((List.range 20).find? (fun r =>
    !(List.range 20).any (fun u => (x.entry set u).valid && decide ((x.entry set u).lru.toNat = r)))).getD 19
  let (st, ptrs, ovf) := w.parts
  (x.setEntry set v { valid := true, tag := BitVec.ofNat 14 (tagOf l), st := st, ovf := ovf, ptrs := ptrs, lru := 0 }).touch set v old

/-- The set is unbuilt (R271). -/
def unbuilt (s : State) (k set : Nat) : Bool := s.getB (Reg.HS_UNBUILT k (set / 64)) (set % 64)
def setUnbuilt (s : State) (k set : Nat) (b : Bool) : State := s.setB (Reg.HS_UNBUILT k (set / 64)) (set % 64) b

/-! ### Slots and lines (R257, R259) -/

def Slice.slot (x : Slice) (i : Nat) : Option Slot := (x.slots.find? (fun e => decide (e.1 = i))).map (·.2)
def Slice.setSlot (x : Slice) (i : Nat) (sl : Slot) : Slice := { x with slots := Tab.set x.slots i sl }

/-- A slot holds its line but while it waits for it. -/
def Slot.holds (sl : Slot) (l : Nat) : Bool := decide (sl.line = l) && decide (sl.wait ≠ HWait.line)

/-- The line has an open transaction: its entry is pinned. -/
def Slice.pinned (x : Slice) (l : Nat) : Bool := x.slots.any (fun e => e.2.holds l)

/-- The line is held: by an open transaction, or for the census walk, which asks for it (R276). -/
def Slice.held (x : Slice) (l : Nat) : Bool := x.pinned l || x.walk.any (fun q => decide (q.1 = l))

/-- The line is busy, or others wait for it. -/
def Slice.busy (x : Slice) (l : Nat) : Bool := x.held l || x.lineQueue.any (fun q => decide (q.1 = l))

def Slot.isEviction (sl : Slot) : Bool := match sl.kind with | .eviction _ _ => true | _ => false

/-- Slots in use that are not kept for evictions, and those that are. -/
def Slice.used (x : Slice) : Nat := (x.slots.filter (fun e => !e.2.isEviction)).length
def Slice.evictions (x : Slice) : Nat := (x.slots.filter (fun e => e.2.isEviction)).length

/-- The lowest free slot. -/
def Slice.freeSlot (x : Slice) : Option Nat := (List.range 256).find? (fun i => (x.slot i).isNone)

/-- A slot as its transaction begins, with its GEN one use further (R257). -/
def mkSlot (x : Slice) (i : Nat) (kind : SlotKind) (p : Pkt) (lo : Addr) (bytes : BitVec 9) (denied : Bool) (line last : Nat)
    (todo : List HAct) : Slot :=
  { gen := Tab.get x.gens 0 i + 1, no := x.grants, kind := kind, pkt := p, lo := lo, bytes := bytes, denied := denied, line := line,
    last := last, wait := .lookup, todo := todo, awaited := 0, census := [], snpData := none, memData := DBeat.zero,
    rdata := [], done := 0, gave := false, ownerDead := false, poisoned := false, memOut := false, fresh := false,
    timer := none, blocks := 0, cackIn := false, freed := false }

/-- The slot is taken. -/
def Slice.open_ (x : Slice) (i : Nat) (sl : Slot) : Slice :=
  { (x.setSlot i sl) with gens := Tab.set x.gens i sl.gen, grants := x.grants + 1 }

def State.slot? (s : State) (k i : Nat) : Option Slot := (s.hsAt k).slot i
def State.putSlot (s : State) (k i : Nat) (sl : Slot) : State := s.updHs k (fun x => x.setSlot i sl)

/-- The headgate of a slice. -/
def homeHg (k : Nat) : Nat := 100 + k

/-- The slice has stopped (R272). -/
def hsFailed (s : State) (k : Nat) : Bool := s.getB (Reg.HS_STATUS k) 0

/-- Caching agents treated as dead (R268). -/
def deadMask (s : State) (k : Nat) : BitVec 16 := BitVec.ofNat 16 (s.getF (Reg.HS_DEAD_MASK k) 0 16)

/-- Those treated as dead for a line: the agent being swept is served normally on the lines already swept (R270). -/
def deadFor (s : State) (k line : Nat) : BitVec 16 :=
  let x := s.hsAt k
  match x.sweeping with
  | some a => if setOf line < x.sweepSet ∧ !x.sweepPend.contains line then without (deadMask s k) a else deadMask s k
  | none => deadMask s k

/-- The home timeout in FCLK cycles (R267). -/
def homeLimit (s : State) (k : Nat) : Nat := 64 * max 25 (s.getF (Reg.HS_TMO_CFG k) 0 12)

/-- The caching agent of a requester, where it is one (R225). -/
def agentOf (n : Nat) : Option (BitVec 4) := if isCaching n then some (BitVec.ofNat 4 (n - 40)) else none

/-! ### Beats of a plain access (R238, R302) -/

/-- The allowed bytes of a slot's access in its line: the enables. -/
def lineLanes (s : State) (n : Nat) (sl : Slot) : BitVec 64 :=
  let base := (lineAddr s n sl.line).toNat
  let a := max sl.lo.toNat base
  let z := min (sl.lo.toNat + sl.bytes.toNat) (base + 63)
  laneMask (a % 64) (z % 64)

/-- The bytes the access has in its line. -/
def lineBytes (s : State) (n : Nat) (sl : Slot) : Nat :=
  let base := (lineAddr s n sl.line).toNat
  min (sl.lo.toNat + sl.bytes.toNat) (base + 63) + 1 - max sl.lo.toNat base

/-- The request's beat for the slot's line, with the enables of R93 inside the allowed bytes. -/
def lineBeat (s : State) (n : Nat) (sl : Slot) : Beat :=
  let h := sl.pkt.hdr
  let k := sl.line - lineNo s n h.addr.toNat
  match sl.pkt.data[k]? with
  | some b => { data := b.data, poison := b.poison, be := extEnables sl.pkt.ext h.addr h.bytes k &&& lineLanes s n sl }
  | none => { data := 0, poison := false, be := 0 }

/-! ### The flows (Tables 8-2 and 9-2, R238, R266) -/

/-- The round of invalidations and the write of what it brings. -/
def roundActs (mask : BitVec 16) (owner : Bool) : List HAct := [.round opINV mask owner, .wrSnp]

/-- A stale write-back or eviction, or one that removes a sharer by pointer: what is recorded. -/
def dropSharer (e : DirEntry) (r : BitVec 4) : DirWrite :=
  match e.st.toNat, e.ptrs with
  | 2, h :: sh => .df h (sh.filter (fun a => decide (a ≠ r))) e.ovf
  | _, ps => let rest := ps.filter (fun a => decide (a ≠ r)); if rest.isEmpty then .di else .ds rest e.ovf

/-- The request and the state of its line select the row of Table 8-2: its steps. `shown` says that the requester itself reported a copy
to the census, which makes its UPG an exact sharer's (R277). -/
def flowOf (op : BitVec 8) (e : Option DirEntry) (req : Option (BitVec 4)) (poisonedOperand shown : Bool) : List HAct :=
  let d := e.getD DirEntry.empty
  let st := if e.isSome then d.st.toNat else 0
  let ps := d.ptrs
  let top := ps.headD 0
  let sharers := if st = 2 then ps.drop 1 else ps
  let r := req.getD 0
  let isTop := req.isSome && (decide (st = 2) || decide (st = 3)) && decide (top = r)
  let exact := req.isSome && (decide (st = 1) || decide (st = 2)) && !d.ovf && sharers.contains r
  let hold := if e.isSome then d.holders else 0
  let others := sharers.filter (fun a => decide (a ≠ r))
  let spare := if d.ovf ∧ req.isSome then without hold r else hold
  let fin (a : HAct) (grant : Bool) : List HAct := [.resv, a, .cack grant]
  if (op = opRDS ∨ op = opRDO ∨ op = opRDIO ∨ op = opWRIO) ∧ isTop then [.reply opCMP ocAgentError 0]
  else if op = opRDS then
    match st with
    | 3 => [.fwd opFWDS top true, .wrSnp, .record (.df r [top] false), .resv, .cack true]
    | 2 => [.fwd opFWDS top false, .record (.df r (top :: others) d.ovf), .resv, .cack true]
    | 1 => [.rdMem, .record (.df r others d.ovf)] ++ fin (.reply opDATAF ocOK 2) true
    | _ => [.alloc, .rdMem, .record (.df r [] false)] ++ fin (.reply opDATAF ocOK 2) true
  else if op = opRDO then
    match st with
    | 3 => [.fwd opFWDO top true, .record (.dm r), .resv, .cack true]
    | 2 => roundActs (without (without hold r) top) false ++ [.fwd opFWDO top false, .record (.dm r), .resv, .cack true]
    | 1 => roundActs (without hold r) false ++ [.rdMem, .record (.dm r)] ++ fin (.reply opDATAM ocOK 3) true
    | _ => [.alloc, .rdMem, .record (.dm r)] ++ fin (.reply opDATAM ocOK 3) true
  else if op = opUPG then
    if exact ∨ (isTop ∧ st = 2) ∨ (shown ∧ (st = 1 ∨ st = 2)) then
      roundActs (without hold r) false ++ [.record (.dm r)] ++ fin (.reply opCMP ocOK 3) true
    else fin (.reply opCMP ocOK 0) false
  else if op = opWBM then
    if isTop ∧ st = 3 then [.wrReq, .record .di, .reply opCMP ocOK 0]
    else if exact then [.record (dropSharer d r), .reply opCMP ocOK 0]
    else [.reply opCMP ocOK 0]
  else if op = opEVC then
    if isTop ∧ st = 2 then
      [.record (if sharers.isEmpty ∧ d.ovf = false then .di else .ds sharers d.ovf), .reply opCMP ocOK 0]
    else if exact then [.record (dropSharer d r), .reply opCMP ocOK 0]
    else [.reply opCMP ocOK 0]
  else if op = opRDIO then
    if st = 3 then [.fwd opFWDS top true, .wrSnp, .record (.ds [top] false), .resv, .cack false]
    else .rdMem :: fin (.reply opDATA ocOK 0) false
  else if op = opWRIO then
    (if st = 0 then [] else roundActs spare (decide (st = 3)) ++ [.record .di]) ++ [.wrReq] ++ fin (.reply opCMP ocOK 0) false
  else if op = opATOM then
    if poisonedOperand then [.reply opDATA ocPoisoned 0]
    else (if st = 0 then [] else roundActs spare (decide (st = 3)) ++ [.record .di]) ++
      [.rdMem, .wrAtom, .reply opDATA ocOK 0, .waitMem]
  else if op = opRD then
    (if st = 3 then roundActs (maskOf [top]) true ++ [.record .di] else []) ++ [.rdMem, .nextLine]
  else (if st = 0 then [] else roundActs spare (decide (st = 3)) ++ [.record .di]) ++ [.wrReq, .nextLine]

/-- What the flow counts as it starts: a protocol error with its alarm, a failed UPG, a stale WBM or EVC (Table 8-2). -/
def noteFlow (s : State) (k : Nat) (sl : Slot) (flow : List HAct) : State :=
  let h := sl.pkt.hdr
  match flow with
  | .reply _ oc _ :: _ =>
    if oc = ocAgentError then
      (s.bump (Reg.HS_COH_PROTO k) 1).alarm (stSlice k) 0x83 k (sl.line + h.src.toNat * 2 ^ 29 + h.op.toNat * 2 ^ 37)
    else if h.op = opWBM ∨ h.op = opEVC then s.bump (Reg.HS_COH_STALE k) 1
    else s
  | .record _ :: _ => if h.op = opWBM then s.bump (Reg.HS_COH_STALE k) 1 else s
  | .resv :: _ => if h.op = opUPG then s.bump (Reg.HS_COH_UPG_FAIL k) 1 else s
  | _ => s

/-! ### Snoops (R232, R234, R242) -/

/-- A snoop of the home to a caching agent, with its TXN and, for a forward, the requester (Table 3-6), and the context and tag of the
request that caused it (R88). SECRET is the request's and BYTES 63 (DESIGN CHOICE, log entries 62 and 63). -/
def mkSnp (s : State) (k i : Nat) (sl : Slot) (op : BitVec 8) (a : BitVec 4) : Pkt :=
  let h := sl.pkt.hdr
  let fwd := decide (op = opFWDS) || decide (op = opFWDO)
  { hdr := { Header.zero with
      op := op, src := BitVec.ofNat 8 (homeHg k), dst := BitVec.ofNat 8 (40 + a.toNat)
      attr := mkAttr false false h.secret false 2 false false
      ctx := h.ctx, tag := h.tag, bytes := 63, addr := lineAddr s (homeHg k) sl.line
      xinfo := BitVec.ofNat 32 ((sl.gen.toNat * 2 ^ 8 + i) * 2 ^ 16 + if fwd then h.src.toNat * 2 ^ 8 else 0) }
    ext := 0, data := [] }

/-- The hold time of R247 still keeps snoops for the line from one of these caches. -/
def heldBack (s : State) (k line : Nat) (mask : BitVec 16) : Bool :=
  (s.hsAt k).holds.any (fun h => decide (h.1 = line) && bit mask h.2.1.toNat && decide (s.fclk < h.2.2))

/-- A slot waits. -/
def waitFor (s : State) (k i : Nat) (w : HWait) : State :=
  match s.slot? k i with
  | none => s
  | some sl => s.putSlot k i { sl with wait := w }

/-- The first step of a slot is done. -/
def popAct (s : State) (k i : Nat) : State :=
  match s.slot? k i with
  | none => s
  | some sl => s.putSlot k i { sl with todo := sl.todo.drop 1, wait := .reserved }

/-- The rest of a flow from one step on. -/
def putActs (s : State) (k i : Nat) (todo : List HAct) : State :=
  match s.slot? k i with
  | none => s
  | some sl => s.putSlot k i { sl with todo := todo, wait := .reserved }

/-- The snoops of a step are sent, once hold time, pool space and store room allow (R234, R247, R262): live caches are asked
and awaited, dead ones count as having answered SNPACK (R268). A census of every cache reserves 32 blocks (R277). Answers whether the
step has sent them. -/
def sendSnoops (s : State) (k i : Nat) (sl : Slot) (op : BitVec 8) (mask : BitVec 16) : Bool × State :=
  let n := homeHg k
  let live := mask &&& ~~~(deadFor s k sl.line)
  let c := (agentsOf live).length
  let b := if op = opCENSUS ∧ mask = allAgents ∧ sl.kind ≠ .walk then 32 else 2 * c
  if heldBack s k sl.line live then
    (false, waitFor (if sl.wait = HWait.hold then s else s.bump (Reg.HS_COH_HOLD_WAIT k) 1) k i .hold)
  else if poolFree s n < b ∨ openBlocks (s.hgAt n) < c then (false, waitFor s k i .blocks)
  else
    let s := (agentsOf live).foldl (fun s a => storeReply s n .snp (mkSnp s k i sl op a)) s
    let s := s.updHg n (fun h => { h with poolUsed := h.poolUsed + b })
    let s := if op = opBINV then s.bump (Reg.HS_BINV k) c
      else if op = opCENSUS then s.bump (Reg.HS_CENSUS_SNP k) c
      else if op = opINV ∧ ((s.hsAt k).entryOf sl.line).any (·.ovf) then s.bump (Reg.HS_COH_BCAST k) 1
      else s
    (true, s.putSlot k i { sl with awaited := live, blocks := sl.blocks + b, wait := .replies, timer := some s.fclk })

/-! ### Memory behind the home (R263) -/

/-- The room a memory access needs: the store's, and the pool blocks of its response (R262). -/
def memRoom (s : State) (n : Nat) (op : BitVec 8) : Bool :=
  let h := s.hgAt n
  let b := if op = opRD then 1 else 2
  decide (b ≤ openBlocks h) && decide (kindBlocks h .req + b ≤ reqLimit s n) &&
  decide (rspBlocks op 0 63 ≤ poolFree s n)

/-- A memory access is written into the replay store, or gets its outcome in the home's headgate. -/
def memIssue (s : State) (k i : Nat) (sl : Slot) (op : BitVec 8) (bs : List Beat) : State × Option (BitVec 4) :=
  let n := homeHg k
  let a := 2 ^ 35 + 64 * sl.line
  let r : Req := { op := op, ctx := BitVec.ofNat 6 i, addr := BitVec.ofNat 48 a, bytes := 63, aop := 0,
                   secret := sl.pkt.hdr.secret }
  let p : Part := { target := (blockTarget s n (decSlots s n) a).1, lo := r.addr, bytes := 63, loc := none }
  match p.target, localOutcome s n p with
  | .hg t, none =>
    if deadDest s n t then (s.bump (Reg.HG_SIPHON_TD n) 1, some ocDead)
    else
      let id := (s.hgAt n).nextId
      let s := s.updHg n (fun h => { h with nextId := id + 1 })
      (storePkt s n (mkStored (mkReqPkt n t r (BitVec.ofNat 8 i) r.addr 63 bs false false false) .req t (curEpoch s n) id), none)
  | _, oc => (noteLocal s n r p (oc.getD ocDecode), some (oc.getD ocDecode))

/-- Poisoned data for a line whose only copy is gone. -/
def poisonBeat (s : State) : DBeat × State :=
  let (d, s) := s.draw
  ({ data := Config.missingData d, poison := true }, s)

/-- A coherent read that got poisoned data: the line records nothing for the requester (R249). -/
def poisonPath (sl : Slot) : List HAct :=
  let op := sl.pkt.hdr.op
  (if sl.gave ∨ sl.fresh then [.record .di] else []) ++
  [.resv, .reply (if op = opRDS then opDATAF else if op = opRDO then opDATAM else opDATA) ocPoisoned 0, .cack false]

/-- A memory access failed: its outcome goes to the requester with no data, and the line keeps the state its completed steps
have left it (R263, R482). Where the response has already gone, the flow goes on. -/
def memFailed (s : State) (k i : Nat) (sl : Slot) (oc : BitVec 4) : State :=
  let replies := sl.todo.any (fun a => match a with | .reply _ _ _ => true | .nextLine => true | _ => false)
  if replies then
    let todo := (if sl.gave ∨ sl.fresh then [HAct.record .di] else []) ++
      (if sl.pkt.hdr.op = opWRP then [] else [HAct.reply (rspOp sl.pkt.hdr.op oc) oc 0])
    (s.putSlot k i { sl with memOut := false, rdata := [], todo := todo, wait := .reserved })
  else (s.putSlot k i { sl with memOut := false, todo := sl.todo.drop 1, wait := .reserved })

/-- A memory access of slot `i` ends with an outcome and, for a read, a beat. -/
def memEnds (s : State) (k i : Nat) (oc : BitVec 4) (b : Option DBeat) : State × List Nat :=
  match s.slot? k i with
  | none => (s, [])
  | some sl =>
    let op := sl.pkt.hdr.op
    let ok := decide (oc = ocOK) || decide (oc = ocPoisoned)
    match sl.todo with
    | .rdMem :: _ =>
      if ok then
        let got := b.getD DBeat.zero
        let bad := got.poison || decide (oc = ocPoisoned) || sl.ownerDead
        let d : DBeat := { got with poison := bad }
        let sl := { sl with memOut := false, memData := d, rdata := if op = opRD then sl.rdata ++ [d] else [d] }
        if op = opRD then (popAct (s.putSlot k i { sl with poisoned := sl.poisoned || bad }) k i, [i])
        else if bad then
          (putActs (s.putSlot k i sl) k i (if op = opATOM then [.reply opDATA ocPoisoned 0] else poisonPath sl), [i])
        else (popAct (s.putSlot k i sl) k i, [i])
      else (memFailed s k i sl oc, [i])
    | .wrReq :: _ =>
      if ok then
        (popAct (s.putSlot k i { sl with memOut := false, gave := true, poisoned := sl.poisoned || decide (oc = ocPoisoned) }) k i,
         [i])
      else (memFailed s k i sl oc, [i])
    | .wrSnp :: _ | .wrPoison :: _ | .waitMem :: _ =>
      if ok then (popAct (s.putSlot k i { sl with memOut := false }) k i, [i]) else (memFailed s k i sl oc, [i])
    | .reply _ _ _ :: _ =>
      if ok then (s.putSlot k i { sl with memOut := false }, []) else (memFailed s k i sl oc, [i])
    | _ => (s.putSlot k i { sl with memOut := false }, [])

/-- The first step of the slot is a memory access: it is issued and awaited. -/
def memStep (s : State) (k i : Nat) (sl : Slot) (op : BitVec 8) (bs : List Beat) : State × List Nat :=
  if !memRoom s (homeHg k) op then (waitFor s k i .blocks, [])
  else
    match memIssue s k i sl op bs with
    | (s, none) => (s.putSlot k i { sl with memOut := true, wait := .memory }, [])
    | (s, some oc) => memEnds s k i oc none

/-- A whole line written: what a snoop brought, or poison. -/
def fullBeat (d : DBeat) : Beat := { data := d.data, be := laneMask 0 63, poison := d.poison }

/-! ### A round or forward ends (R232, R268, Table 9-4) -/

/-- The request-store entry of the slot is freed (R158); one handed over stands at the failed slice's headgate. -/
def freeRequest (s : State) (k i : Nat) : State :=
  match s.slot? k i with
  | none => s
  | some sl =>
    if sl.freed then s
    else
      let s := s.putSlot k i { sl with freed := true }
      match sl.kind with
      | .request id => settleTarget (freeEntry s (homeHg k) id) (homeHg k)
      | .taken (some id) =>
        let n := homeHg (servedSlice s k)
        settleTarget (freeEntry s n id) n
      | _ => s

/-- The forward to a cache taken as dead: the M owner's line is poisoned, and an F holder's is supplied by memory. -/
def deadForward (s : State) (k i : Nat) (sl : Slot) (owner : Bool) : State :=
  let op := sl.pkt.hdr.op
  let r := (agentOf sl.pkt.hdr.src.toNat).getD 0
  if owner then
    let (b, s) := poisonBeat s
    let s := s.putSlot k i { sl with rdata := [b], ownerDead := true, gave := true }
    putActs s k i (.wrPoison :: poisonPath { sl with gave := true })
  else
    let e := ((s.hsAt k).entryOf sl.line).getD DirEntry.empty
    let others := (e.ptrs.drop 1).filter (fun a => decide (a ≠ r))
    putActs s k i (if op = opRDS then
        [.rdMem, .record (.df r others e.ovf), .resv, .reply opDATAF ocOK 2, .cack true]
      else [.rdMem, .record (.dm r), .resv, .reply opDATAM ocOK 3, .cack true])

/-- The blocks of a round that no reply takes go back. -/
def returnBlocks (s : State) (k i : Nat) (sl : Slot) : State :=
  (s.updHg (homeHg k) (fun h => { h with poolUsed := h.poolUsed - sl.blocks })).putSlot k i { sl with blocks := 0 }

/-- Every reply of the first step of the slot is in, or taken as given; `missing` are the caches taken as dead. The timer of a forward
runs on for the CACK (R267). -/
def roundEnds (s : State) (k i : Nat) (missing : BitVec 16) : State :=
  match s.slot? k i with
  | none => s
  | some sl =>
    let fwd := sl.timer
    let sl := { sl with timer := none, awaited := 0 }
    let s := s.putSlot k i sl
    match sl.todo with
    | .round _ mask owner :: rest =>
      let gone := owner && decide (mask &&& missing ≠ 0)
      s.putSlot k i { sl with gave := true, ownerDead := sl.ownerDead || gone, todo := rest, wait := .reserved }
    | .fwd _ a owner :: rest =>
      if bit missing a.toNat then deadForward s k i sl owner
      else freeRequest (s.putSlot k i { sl with todo := rest, wait := .reserved, timer := fwd }) k i
    | .census _ :: rest => returnBlocks s k i { sl with todo := rest, wait := .reserved }
    | _ :: rest => s.putSlot k i { sl with todo := rest, wait := .reserved }
    | [] => s

/-- A step that snoops: sent, and ended at once where every cache asked is dead. -/
def snoopStep (s : State) (k i : Nat) (sl : Slot) (op : BitVec 8) (mask : BitVec 16) : State × List Nat :=
  match sendSnoops s k i sl op mask with
  | (false, s) => (s, [])
  | (true, s) =>
    if mask &&& ~~~(deadFor s k sl.line) = 0 then (roundEnds s k i (mask &&& deadFor s k sl.line), [i]) else (s, [])

/-! ### Allocation and eviction (R258, R260, R261) -/

/-- The unpinned valid entry with the highest rank, the lower way of equals. -/
def victimOf (s : State) (k set : Nat) : Option Nat :=
  let x := s.hsAt k
  let v := servedSlice s k
  let free := (List.range 20).filter (fun w =>
    let e := x.entry set w
    e.valid && !x.pinned (lineFrom v set e.tag.toNat))
  match free with
  | [] => none
  | w :: ws => some (ws.foldl (fun b c => if (x.entry set b).lru.toNat < (x.entry set c).lru.toNat then c else b) w)

/-- A way is free, or a victim and an eviction slot are. -/
def allocReady (s : State) (k line : Nat) : Bool :=
  ((s.hsAt k).freeWay (setOf line)).isSome ||
  ((victimOf s k (setOf line)).isSome && decide ((s.hsAt k).evictions < 16))

/-- The place of a slot in grant order. -/
def Slice.grantNo (x : Slice) (i : Nat) : Nat := match x.slot i with | some sl => sl.no | none => 0

/-- The slot enters the reserved queue, which is in grant order (R261). -/
def toReserved (s : State) (k i : Nat) : State :=
  let s := waitFor (s.bump (Reg.HS_PIN_WAIT k) 1) k i .reserved
  s.updHs k (fun x =>
    let before (j : Nat) : Bool := decide (x.grantNo j ≤ x.grantNo i)
    { x with resq := x.resq.filter before ++ [i] ++ x.resq.filter (fun j => !before j) })

/-- A way for the line of slot `i`, holding `w`: a free one, or a victim's after its eviction. -/
def allocStep (s : State) (k i : Nat) (sl : Slot) (w : DirWrite) : State × List Nat :=
  let x := s.hsAt k
  let set := setOf sl.line
  if (x.wayOf sl.line).isSome then (popAct s k i, [i])
  else
    match x.freeWay set with
    | some v =>
      let s := s.setHs k (x.fillWay v sl.line w)
      (popAct (s.putSlot k i { sl with fresh := true }) k i, [i])
    | none =>
      match victimOf s k set, x.freeSlot with
      | some v, some j =>
        if x.evictions < 16 then
          let e := x.entry set v
          let vl := lineFrom (servedSlice s k) set e.tag.toNat
          let h := sl.pkt.hdr
          let cause : Pkt := { Pkt.zero with hdr := { Header.zero with ctx := h.ctx, tag := h.tag, attr := h.attr } }
          let ev := mkSlot x j (.eviction v i) cause 0 0 false vl vl
            [.round opBINV e.holders (decide (e.st = 3)), .wrSnp, .evictDone]
          let s := (s.bump (Reg.HS_DIR_EVICT k) 1).updHs k (fun x => x.open_ j { ev with wait := .reserved })
          (waitFor s k i .evict, [j])
        else (toReserved s k i, [])
      | _, _ => (toReserved s k i, [])

/-! ### The census (R277) -/

/-- What the replies to a census say of the line. -/
def censusWrite (c : List (BitVec 4 × BitVec 2)) : DirWrite :=
  let sh := (c.filter (fun x => decide (x.2 = 1))).map (·.1)
  match c.find? (fun x => decide (x.2 = 3)), c.find? (fun x => decide (x.2 = 2)) with
  | some m, _ => .dm m.1
  | none, some f => .df f.1 sh false
  | none, none => if sh.isEmpty then .di else .ds sh false

/-- A handed-over RDS, RDO or UPG whose requester already holds the line, as its census or the walk's has found, is complete (R275). -/
def alreadyServed (sl : Slot) (e : Option DirEntry) : Bool :=
  let op := sl.pkt.hdr.op
  match sl.kind, agentOf sl.pkt.hdr.src.toNat with
  | .taken _, some r =>
    let walked : List (BitVec 4 × BitVec 2) := match e with
      | some d => d.ptrs.map (fun a => (a, if d.st = 3 then 3 else 1))
      | none => []
    (sl.census ++ walked).any (fun c => decide (c.1 = r) &&
      ((decide (op = opRDS) && decide (c.2 ≠ 0)) || ((decide (op = opRDO) || decide (op = opUPG)) && decide (c.2 = 3))))
  | _, _ => false

/-! ### Line queues and the end of a transaction (R239, R241, R261) -/

/-- Slot `j` begins the transaction of a request-store entry. -/
def startEntry (s : State) (k j : Nat) (e : Entry) : State :=
  let n := homeHg k
  let l := lineNo s n e.lo.toNat
  let z := lineNo s n (e.lo.toNat + e.bytes.toNat)
  let s := s.updHg n (fun h => h.updEntry e.id (fun e => { e with phase := .inside }))
  s.updHs k (fun x => x.open_ j (mkSlot x j (.request e.id) e.pkt e.lo e.bytes e.partDenied l z [.flow]))

/-- Slot `j` begins the census of a line of the walk (R276). -/
def startWalk (s : State) (k j line : Nat) (mask : BitVec 16) : State :=
  s.updHs k (fun x => x.open_ j (mkSlot x j .walk Pkt.zero 0 0 false line line [.census mask, .censusAlloc, .censusRec]))

/-- Direct requests wait for the end of a hand-over (R274). -/
def handingOver (s : State) (k : Nat) : Bool := s.getB (Reg.HS_STATUS k) 1

/-- Requests whose line is busy join its queue, in the order they came (R257). -/
def enqueueBusy (s : State) (k : Nat) : State :=
  let n := homeHg k
  if handingOver s k then s
  else (s.hgAt n).entries.foldl (fun s e =>
    let x := s.hsAt k
    let l := lineNo s n e.lo.toNat
    if e.phase = .waiting ∧ e.checked = true ∧ x.busy l ∧ !x.lineQueue.any (fun q => decide (q.2 = .entry e.id)) then
      s.setHs k { x with lineQueue := x.lineQueue ++ [(l, .entry e.id)] }
    else s) s

/-- One place of the line queues served, where it is the first of its line, the line is free and a slot is. -/
def serveWait (k : Nat) (s : State) (q : Nat × LineWait) : State :=
  let x := s.hsAt k
  let s' := s.setHs k { x with lineQueue := x.lineQueue.erase q }
  if x.held q.1 ∨ x.lineQueue.find? (fun p => decide (p.1 = q.1)) ≠ some q then s
  else
    match q.2 with
    | .slot j =>
      match x.slot j with
      | some sl => s'.putSlot k j { sl with wait := .lookup, line := q.1 }
      | none => s'
    | .entry id =>
      match entryAt (s.hgAt (homeHg k)) id with
      | none => s'
      | some e =>
        if e.phase ≠ .waiting then s'
        else if x.used < 240 then
          match x.freeSlot with
          | some j => startEntry s' k j e
          | none => s
        else s
    | .walk mask =>
      if x.used < 240 then
        match x.freeSlot with
        | some j => startWalk s' k j q.1 mask
        | none => s
      else s

/-- Every line queue served in arrival order. -/
def serveQueues (s : State) (k : Nat) : State := (s.hsAt k).lineQueue.foldl (serveWait k) s

/-- The oldest slot of the reserved queue that finds a way resumes (R261). -/
def resumeReserved (s : State) (k : Nat) : State × List Nat :=
  let x := s.hsAt k
  match x.resq.find? (fun i => match x.slot i with | some sl => allocReady s k sl.line | none => true) with
  | none => (s, [])
  | some i => (s.setHs k { x with resq := x.resq.erase i }, [i])

/-- A transaction ends: its slot and blocks are free, its line leaves busy, and the queues move on. -/
def endSlot (s : State) (k i : Nat) : State × List Nat :=
  match s.slot? k i with
  | none => (s, [])
  | some sl =>
    let s := freeRequest s k i
    let s := enqueueBusy s k
    let s := s.updHg (homeHg k) (fun h => { h with poolUsed := h.poolUsed - sl.blocks })
    let s := s.updHs k (fun x => { x with slots := Tab.erase x.slots i })
    resumeReserved (serveQueues s k) k

/-! ### The steps -/

/-- The response of the home: outcome, grant and data (R235, R249, R54, R482). -/
def replyPkt (sl : Slot) (n : Nat) (op : BitVec 8) (oc : BitVec 4) (state : BitVec 2) : Pkt :=
  let h := sl.pkt.hdr
  let oc := if sl.poisoned ∧ oc = ocOK then ocPoisoned else oc
  let plain := decide (h.op = opRD) || decide (h.op = opWR) || decide (h.op = opWRP)
  let denied := plain && sl.denied && (decide (oc = ocOK) || decide (oc = ocPoisoned))
  let oc := if denied then ocDenied else oc
  let done := if plain then sl.done
    else if oc = ocOK ∨ (oc = ocPoisoned ∧ h.op ≠ opATOM) then
      (if h.op = opUPG ∨ h.op = opEVC ∨ (h.op = opWBM ∧ !sl.gave) then 0 else h.bytes.toNat + 1)
    else 0
  let data :=
    if denied ∧ h.op = opRD then maskRead { mkEntry 0 sl.pkt 0 true with lo := sl.lo, bytes := sl.bytes } sl.rdata else sl.rdata
  mkRsp n h op oc done (if oc = ocOK then state else 0) (rspData op h oc data)

/-- The reply step: written once the store has room, and the timer starts where a CACK answers it. -/
def replyStep (s : State) (k i : Nat) (sl : Slot) (op : BitVec 8) (oc : BitVec 4) (state : BitVec 2) : State × List Nat :=
  let p := replyPkt sl (homeHg k) op oc state
  if openBlocks (s.hgAt (homeHg k)) < p.blocks then (waitFor s k i .blocks, [])
  else
    let s := storeReply s (homeHg k) .rsp p
    (freeRequest (popAct s k i) k i, [i])

/-- A line of a plain access is done: the next is acquired as any request acquires its line, or the response follows
(R238, R481). -/
def nextLineStep (s : State) (k i : Nat) (sl : Slot) : State × List Nat :=
  let n := homeHg k
  let sl := { sl with done := sl.done + lineBytes s n sl }
  if sl.line = sl.last then
    (s.putSlot k i { sl with todo := if sl.pkt.hdr.op = opWRP then [] else [.reply (rspOp sl.pkt.hdr.op ocOK) ocOK 0] }, [i])
  else
    let s := enqueueBusy s k
    let nl := sl.line + 1
    let sl := { sl with wait := .line, todo := [.flow], gave := false, fresh := false, ownerDead := false, snpData := none,
                        census := [] }
    let s := s.putSlot k i { sl with line := nl }
    let s := s.updHs k (fun x => { x with lineQueue := x.lineQueue ++ [(nl, .slot i)] })
    resumeReserved (serveQueues s k) k

/-- The atomic (R265, R266): the write is issued where there is one, and the old value is returned. -/
def atomStep (s : State) (k i : Nat) (sl : Slot) : State × List Nat :=
  let h := sl.pkt.hdr
  let beat := (sl.pkt.data[0]?).getD DBeat.zero
  let (w, old) := atomLine h.aop (h.bytes.toNat + 1) (h.addr.toNat % 64) sl.memData.data beat.data
  let (old, s) := freeLanes s old (laneMask 0 h.bytes.toNat)
  let sl := { sl with rdata := [{ data := old, poison := false }] }
  match w with
  | none => (popAct ((s.bump (Reg.HS_ATOM k) 1).putSlot k i sl) k i, [i])
  | some l =>
    if !memRoom s (homeHg k) opWR then (waitFor s k i .blocks, [])
    else
      match memIssue (s.bump (Reg.HS_ATOM k) 1) k i sl opWR [fullBeat { data := l, poison := false }] with
      | (s, none) => (popAct (s.putSlot k i { sl with memOut := true }) k i, [i])
      | (s, some oc) => (memFailed s k i { sl with todo := [.reply opDATA oc 0] } oc, [i])

/-- The first step of slot `i`, with the slots that go on after it. -/
def stepSlot (s : State) (k i : Nat) : State × List Nat :=
  match s.slot? k i with
  | none => (s, [])
  | some sl =>
    match sl.todo with
    | [] => endSlot s k i
    | .flow :: _ =>
      let e := (s.hsAt k).entryOf sl.line
      if alreadyServed sl e then (putActs s k i [], [i])
      else
        let req := agentOf sl.pkt.hdr.src.toNat
        let bad := decide (sl.pkt.hdr.op = opATOM) && sl.pkt.data.any (·.poison)
        let shown := sl.census.any (fun c => decide (some c.1 = req) && decide (c.2 ≠ 0))
        let flow := flowOf sl.pkt.hdr.op e req bad shown
        let s := s.updHs k (fun x => x.access sl.line)
        let s := if bad then s else noteFlow s k sl flow
        let s := if bad then
            let (b, s) := poisonBeat s
            s.putSlot k i { sl with rdata := [b] }
          else s
        (putActs s k i flow, [i])
    | .alloc :: _ =>
      let r := (agentOf sl.pkt.hdr.src.toNat).getD 0
      allocStep s k i sl (if sl.pkt.hdr.op = opRDS then .df r [] false else .dm r)
    | .round op mask _ :: _ => snoopStep s k i sl op mask
    | .fwd op a _ :: _ => snoopStep s k i sl op (maskOf [a])
    | .census mask :: _ => snoopStep s k i sl opCENSUS mask
    | .censusAlloc :: _ =>
      match censusWrite sl.census with
      | .di => (popAct s k i, [i])
      | w =>
        let (s, more) := allocStep s k i sl w
        (match s.slot? k i with
          | some sl' => s.putSlot k i { sl' with fresh := false }
          | none => s, more)
    | .censusRec :: _ => (popAct (s.updHs k (fun x => x.recordLine sl.line (censusWrite sl.census))) k i, [i])
    | .wrSnp :: _ =>
      if sl.ownerDead then
        let (b, s) := poisonBeat s
        let r := memStep s k i sl opWR [fullBeat b]
        (if memRoom s (homeHg k) opWR then r.1.bump (Reg.HS_POISON k) 1 else r.1, r.2)
      else
        match sl.snpData with
        | some d => memStep s k i sl opWR [fullBeat d]
        | none => (popAct s k i, [i])
    | .wrPoison :: _ =>
      let (b, s) := poisonBeat s
      let r := memStep s k i sl opWR [fullBeat b]
      (if memRoom s (homeHg k) opWR then r.1.bump (Reg.HS_POISON k) 1 else r.1, r.2)
    | .rdMem :: _ => memStep s k i sl opRD []
    | .wrReq :: _ =>
      let b := lineBeat s (homeHg k) sl
      let part := sl.ownerDead && decide (b.be ≠ laneMask 0 63)
      memStep s k i { sl with poisoned := sl.poisoned || b.poison || part } opWR [b]
    | .wrAtom :: _ => atomStep s k i sl
    | .waitMem :: _ => if sl.memOut then (waitFor s k i .memory, []) else (popAct s k i, [i])
    | .record w :: _ =>
      let s := s.updHs k (fun x => x.recordLine sl.line w)
      (popAct s k i, [i])
    | .resv :: _ =>
      if poolFree s (homeHg k) < 1 then (waitFor s k i .blocks, [])
      else
        let s := s.updHg (homeHg k) (fun h => { h with poolUsed := h.poolUsed + 1 })
        (popAct (s.putSlot k i { sl with blocks := sl.blocks + 1 }) k i, [i])
    | .reply op oc st :: _ => replyStep s k i sl op oc st
    | .cack _ :: _ =>
      if sl.cackIn then (putActs s k i [], [i])
      else (s.putSlot k i { sl with wait := .cack, timer := some (sl.timer.getD s.fclk) }, [])
    | .nextLine :: _ => nextLineStep s k i sl
    | .evictDone :: _ =>
      match sl.kind with
      | .eviction v forSlot =>
        let s := s.updHs k (fun x => x.setEntry (setOf sl.line) v { x.entry (setOf sl.line) v with valid := false })
        (putActs s k i [], [forSlot, i])
      | _ => (popAct s k i, [i])

/-- Slots run, each until it waits. -/
def runSlots : Nat → Nat → List Nat → State → State
  | 0, _, _, s => s
  | _, _, [], s => s
  | f + 1, k, i :: rest, s => let r := stepSlot s k i; runSlots f k (r.2 ++ rest) r.1

/-- Slot `i` runs, and what its progress frees. The bound is above the steps 256 slots can hold. -/
def runSlot (s : State) (k i : Nat) : State := runSlots 4096 k [i] s

/-! ### The commands -/

/-- The slice grants and serves: ACTIVE and not failed (R257). -/
def sliceServes (s : State) (k : Nat) : Bool := s.getB (Reg.HS_CFG k) 0 && !hsFailed s k

/-- The spare has taken over slice `k` (R274), and has not failed itself (R278). -/
def takenOver (s : State) (k : Nat) : Bool :=
  hsFailed s k && decide (k < 16) && s.getB (Reg.HS_CFG 16) 1 && decide (s.getF (Reg.HS_CFG 16) 2 4 = k) && !hsFailed s 16

/-- Requests still waiting at the failed slice join the hand-over, in the order R155 presents them, until its end withdraws the
slice's headgate (R274). Their entries stay until the spare has answered (R158). -/
def joinHandover (s : State) (k : Nat) : State :=
  let n := homeHg k
  if !handingOver s 16 then s
  else (s.hgAt n).entries.foldl (fun s e =>
    if e.phase = .waiting ∧ e.checked = true then
      (s.updHs 16 (fun x => { x with handover := x.handover ++ [.work (some e.id) e.pkt e.lo e.bytes e.partDenied] })).updHg n
        (fun h => h.updEntry e.id (fun e => { e with phase := .inside }))
    else s) s

/-- The oldest request of an arbiter input whose line is not busy; none before the end of a hand-over (R274). -/
def askerOf (s : State) (k : Nat) (input : Nat) : Option Entry :=
  let n := homeHg k
  if handingOver s k then none
  else (s.hgAt n).entries.find? (fun e =>
    decide (e.phase = .waiting) && e.checked && decide (7 - e.src % 8 = input) &&
    !(s.hsAt k).busy (lineNo s n e.lo.toNat))

/-- A line of the census walk asks at arbiter input 0 (R276). -/
def walkAsks (x : Slice) (input : Nat) : Bool := decide (input = 0) && !x.walk.isEmpty

/-- The slot `j` goes to the winner of the arbiter: at input 0 the walk and the requests take turns (R276). -/
def grantTo (s : State) (k j w : Nat) (arb : Arb) : State :=
  let x := s.hsAt k
  let s := s.setHs k { x with arb := arb.sent w 0 1, lastGrant := s.fclk }
  let req := askerOf s k w
  let walk := walkAsks x w && (req.isNone || !x.walkLast)
  match req, x.walk with
  | none, q :: rest => startWalk (s.updHs k (fun x => { x with walk := rest, walkLast := true })) k j q.1 q.2
  | some e, q :: rest =>
    if walk then startWalk (s.updHs k (fun x => { x with walk := rest, walkLast := true })) k j q.1 q.2
    else startEntry (s.updHs k (fun x => { x with walkLast := decide (w ≠ 0) && x.walkLast })) k j e
  | some e, [] => startEntry s k j e
  | none, [] => s

/-- HOME_REQUEST_GRANT (R239, R257). -/
def homeGrant (s : State) (k : Nat) : State :=
  if takenOver s k then joinHandover s k
  else if !sliceServes s k then s
  else
    let s := enqueueBusy s k
    let x := s.hsAt k
    if 240 ≤ x.used then s
    else
      let askers := (List.range 8).filter (fun i => (askerOf s k i).isSome || walkAsks x i)
      if askers.isEmpty then s
      else
        match x.arb.pick 16 askers, x.freeSlot with
        | some (w, _, arb), some j => grantTo s k j w arb
        | _, _ => s

/-- The slice stops (R272). -/
def failSlice (s : State) (k : Nat) (why : SliceFail) : State :=
  if hsFailed s k then s
  else
    let s := s.setB (Reg.HS_STATUS k) 0 true
    let s := if why = .watchdog then s else s.setB (Reg.HS_STATUS k) 5 true
    let s := s.updHs k (fun x => { x with failedAt := some s.fclk })
    s.alarm (stSlice k) 0x81 k (match why with | .selfCheck => 0 | .dirLimit => 1 | .watchdog => 2)

/-- An uncorrectable entry word at `way` of a set, found by the lookup of `line` (R271): the set is unbuilt, and its entries are given
up, those of other lines with an open transaction apart. -/
def dirUncorr (s : State) (k line way : Nat) : State :=
  let v := servedSlice s k
  let set := setOf line
  let s := setUnbuilt s k set true
  let s := s.updHs k (fun x => (List.range 20).foldl (fun (x : Slice) w =>
    let e := x.entry set w
    let l := lineFrom v set e.tag.toNat
    if e.valid ∧ (l = line ∨ !x.pinned l) then x.setEntry set w { e with valid := false } else x) x)
  let s := (s.bump (Reg.HS_DIR_UNCORR k) 1).setB (Reg.HS_STATUS k) 4 true
  let s := s.alarm (stSlice k) 0x82 k (set + way * 2 ^ 11)
  let recent := ((s.hsAt k).uncorrAt.filter (fun t => decide (s.fclk < t + 2 ^ 20))) ++ [s.fclk]
  let s := s.updHs k (fun x => { x with uncorrAt := recent })
  if 4 ≤ recent.length then failSlice s k .dirLimit else s

/-- DIRECTORY_LOOKUP_DONE (R258, R271, R277). -/
def lookupDone (s : State) (k i : Nat) (err : MemErr) : State :=
  if hsFailed s k then s
  else
    match s.slot? k i with
    | none => s
    | some sl =>
      if sl.wait ≠ .lookup then s
      else
        let set := setOf sl.line
        let s := match err with
          | .ok => s
          | .corrected => s.bump (Reg.HS_DIR_CORR k) 1
          | .uncorrData b => dirUncorr s k sl.line (b % 20)
          | .uncorrHdr | .uncorrBothHdr => dirUncorr s k sl.line 0
        if hsFailed s k then s
        else
          let hit := ((s.hsAt k).wayOf sl.line).isSome
          let todo := match sl.kind with
            | .walk => if hit then [] else sl.todo
            | _ => if hit ∨ unbuilt s k set = false then sl.todo
                   else [.census allAgents, .censusAlloc, .censusRec] ++ sl.todo
          runSlot (putActs s k i todo) k i

/-- HOME_STEP_RESERVED (R262): a step that waits for blocks is tried again. -/
def stepReserved (s : State) (k i : Nat) : State :=
  if hsFailed s k then s
  else
    match s.slot? k i with
    | some sl => if sl.wait = .blocks then runSlot s k i else s
    | none => s

/-- The first packet of the home's inbox that satisfies `q`, and the state without it. -/
def takeHome (s : State) (n : Nat) (q : Pkt → Bool) : Option (Pkt × State) :=
  match (s.hgAt n).homeIn.findIdx? q with
  | none => none
  | some j =>
    match (s.hgAt n).homeIn[j]? with
    | some p => some (p, s.updHg n (fun h => { h with homeIn := dropNth h.homeIn j }))
    | none => none

/-- A packet that reaches a slice whose work has gone to the spare is sent on (R274). -/
def sendOn (s : State) (p : Pkt) : State := s.updHg (homeHg 16) (fun h => { h with homeIn := h.homeIn ++ [p] })

def isReply (p : Pkt) : Bool := decide (p.hdr.op = opSNPACK) || decide (p.hdr.op = opSNPDATA) || decide (p.hdr.op = opCENSUSR)
def isCack (p : Pkt) : Bool := decide (p.hdr.op = opCACK)

/-- The first step of the slot needed data that the SNPACK does not bring (R244): the M owner's to the home, or the holder's to the
requester, which only the SNPACK of an agent itself follows. A headgate's own carries TARGET_DEAD (R250, log entry 68). -/
def needsData (sl : Slot) (a : BitVec 4) (p : Pkt) : Bool :=
  match sl.todo with
  | .round _ mask owner :: _ => owner && bit mask a.toNat
  | .fwd op b owner :: _ => decide (a = b) && ((owner && decide (op = opFWDS)) || decide (p.hdr.outcome = ocDead))
  | _ => false

/-- The awaited reply of cache `a`: its blocks free, its data or state is kept. -/
def takeReply (sl : Slot) (a : BitVec 4) (p : Pkt) : Slot :=
  { sl with
    awaited := without sl.awaited a
    blocks := sl.blocks - 2
    snpData := if p.hdr.op = opSNPDATA then p.data.head? else sl.snpData
    census := if p.hdr.op = opCENSUSR then sl.census ++ [(a, p.hdr.state)] else sl.census }

/-- The ledger of a failed slice, kept by its headgate: a reply clears its bit, and a forwarder's reply leaves the record in
CACKWAIT (R273). -/
def ledgerReply (sl : Slot) : Slot :=
  match sl.todo with
  | .fwd _ _ _ :: rest =>
    { sl with todo := rest.filter (fun a => match a with | .cack _ => true | _ => false), wait := .cack }
  | _ => sl

/-- SNOOP_REPLY_RECEIVED (R232, R244, R257, R268). -/
def snoopReply (s : State) (k : Nat) : State :=
  let n := homeHg k
  match takeHome s n isReply with
  | none => s
  | some (p, s) =>
    let stale (s : State) : State := s.bump (Reg.HS_STALE_RPL k) 1
    match s.slot? k (p.hdr.txn % 256), agentOf p.hdr.src.toNat with
    | some sl, some a =>
      if sl.gen.toNat ≠ p.hdr.txn / 256 ∨ sl.wait ≠ .replies ∨ bit sl.awaited a.toNat = false then stale s
      else if p.hdr.op = opSNPACK ∧ needsData sl a p ∧ !hsFailed s k then s.bump (Reg.HS_COH_PROTO k) 1
      else
        let i := p.hdr.txn % 256
        let s := s.updHg n (fun h => { h with poolUsed := h.poolUsed - 2 })
        let sl := takeReply sl a p
        if hsFailed s k then
          let s := s.putSlot k i (ledgerReply sl)
          if (ledgerReply sl).wait = .cack then freeRequest s k i else s
        else if sl.awaited = 0 then runSlot (roundEnds (s.putSlot k i sl) k i 0) k i
        else s.putSlot k i sl
    | _, _ => if takenOver s k then sendOn s p else stale s

/-- The slot awaits, or will await, the CACK of this requester, context and tag. -/
def cackFor (p : Pkt) (sl : Slot) : Bool :=
  decide (sl.pkt.hdr.src = p.hdr.src) && decide (sl.pkt.hdr.ctx = p.hdr.ctx) && decide (sl.pkt.hdr.tag = p.hdr.tag) &&
  !sl.cackIn && sl.todo.any (fun a => match a with | .cack _ => true | _ => false)

/-- The grant that a CACK confirms starts the hold time (R247). -/
def startHold (s : State) (k : Nat) (sl : Slot) : State :=
  match agentOf sl.pkt.hdr.src.toNat with
  | some a =>
    if sl.todo.any (fun x => decide (x = .cack true)) then
      s.updHs k (fun x => { x with
        holds := (x.holds.filter (fun h => decide (s.fclk < h.2.2))) ++
          [(sl.line, a, s.fclk + max 16 (s.getF (Reg.HS_COH_CFG k) 0 8))] })
    else s
  | none => s

/-- CACK_AT_HOME (R241, R247, R257). -/
def cackHome (s : State) (k : Nat) : State :=
  match takeHome s (homeHg k) isCack with
  | none => s
  | some (p, s) =>
    match (s.hsAt k).slots.find? (fun e => cackFor p e.2) with
    | none => if takenOver s k then sendOn s p else s.bump (Reg.HS_STALE_RPL k) 1
    | some (i, sl) =>
      if hsFailed s k then
        if sl.wait = .cack then
          (s.updHg (homeHg k) (fun h => { h with poolUsed := h.poolUsed - sl.blocks })).updHs k
            (fun x => { x with slots := Tab.erase x.slots i })
        else s.putSlot k i { sl with cackIn := true }
      else
        let s := startHold s k sl
        if sl.wait = .cack then runSlot (putActs s k i []) k i
        else s.putSlot k i { sl with cackIn := true }

/-- HOLD_TIME_EXPIRY (R247): the hold that keeps the snoops of slot `i` back ends. -/
def holdExpire (s : State) (k i : Nat) : State :=
  if hsFailed s k then s
  else
    match s.slot? k i with
    | none => s
    | some sl =>
      if sl.wait ≠ .hold then s
      else
        let ends := ((s.hsAt k).holds.filter (fun h => decide (h.1 = sl.line))).map (fun h => h.2.2)
        let s := s.advanceTo (ends.foldl max 0)
        let s := s.updHs k (fun x => { x with holds := x.holds.filter (fun h => decide (s.fclk < h.2.2)) })
        runSlot s k i

/-- MEMORY_ACCESS_DONE (R263, R266, R482): the oldest response of memory ends its slot's access. -/
def memoryDone (s : State) (k : Nat) : State :=
  let n := homeHg k
  match takeHome s n (fun p => !isReply p && !isCack p) with
  | none => s
  | some (p, s) =>
    let b := rspBlocks (if p.hdr.op = opDATA then opRD else opWR) p.hdr.addr p.hdr.bytes
    let s := s.updHg n (fun h => { h with poolUsed := h.poolUsed - b })
    let i := p.hdr.tag.toNat
    match s.slot? k i with
    | some sl =>
      if hsFailed s k ∨ sl.memOut = false then s
      else
        let r := memEnds s k i (deliveredOutcome p.hdr.outcome p.data) p.data.head?
        runSlots 4096 k r.2 r.1
    | none => s

/-- HOME_TIMEOUT (R267, R268, Table 9-4). -/
def homeExpire (s : State) (k i : Nat) : State :=
  if hsFailed s k then s
  else
    match s.slot? k i with
    | none => s
    | some sl =>
      match sl.timer with
      | none => s
      | some t =>
        let late (missing : BitVec 16) (s : State) : State :=
          let s := s.advanceTo (t + homeLimit s k)
          let s := s.setF (Reg.HS_DEAD_MASK k) 0 16 ((deadMask s k) ||| missing).toNat
          let s := (s.bump (Reg.HS_TMO_CNT k) 1).setB (Reg.HS_STATUS k) 3 true
          s.alarm (stSlice k) 0x80 k (sl.line + missing.toNat * 2 ^ 29)
        match sl.wait with
        | .replies =>
          let c := (agentsOf sl.awaited).length
          let s := late sl.awaited s
          let s := s.updHg (homeHg k) (fun h => { h with poolUsed := h.poolUsed - 2 * c })
          let s := s.putSlot k i { sl with blocks := sl.blocks - 2 * c }
          runSlot (roundEnds s k i sl.awaited) k i
        | .cack =>
          let s := late (match agentOf sl.pkt.hdr.src.toNat with | some a => maskOf [a] | none => 0) s
          runSlot (putActs s k i []) k i
        | _ => s

/-! ### The sweep (R270) -/

/-- A write of 1 to HS_SWEEP.GO. -/
def sweepGo (s : State) (k : Nat) (agent : BitVec 4) : State :=
  let s := (s.setF (Reg.HS_SWEEP k) 0 4 agent.toNat).setB (Reg.HS_SWEEP k) 5 true
  s.updHs k (fun x => { x with sweeping := some agent, sweepSet := 0, sweepPend := [] })

/-- One entry visited for agent `a`: whether it must be visited again. -/
def sweepEntry (k : Nat) (a : BitVec 4) (s : State) (l : Nat) : State :=
  let x := s.hsAt k
  let later (s : State) : State := s.updHs k (fun x => { x with sweepPend := x.sweepPend ++ [l] })
  match x.entryOf l with
  | none => s
  | some e =>
    if x.pinned l then later s
    else if !e.ptrs.contains a then s
    else if e.st = 3 then
      match x.freeSlot with
      | some j =>
        if x.used < 240 then
          let sl := mkSlot x j .sweep Pkt.zero 0 0 false l l [.wrPoison, .record .di]
          runSlot (s.setHs k (x.open_ j sl)) k j
        else later s
      | none => later s
    else if e.st = 2 ∧ e.ptrs.head? = some a then
      let sh := e.ptrs.drop 1
      s.setHs k (x.recordLine l (if sh.isEmpty ∧ e.ovf = false then .di else .ds sh e.ovf))
    else s.setHs k (x.recordLine l (dropSharer e a))

/-- SWEEP_SET_VISIT: the next set, or the lines that were busy; after the last the agent leaves HS_DEAD_MASK. -/
def sweepVisit (s : State) (k : Nat) : State :=
  if hsFailed s k then s
  else
    let x := s.hsAt k
    match x.sweeping with
    | none => s
    | some a =>
      let v := servedSlice s k
      let ls := if x.sweepSet < 2048 then
          (List.range 20).filterMap (fun w =>
            let e := x.entry x.sweepSet w
            if e.valid then some (lineFrom v x.sweepSet e.tag.toNat) else none)
        else x.sweepPend
      let s := s.setHs k { x with sweepSet := min 2048 (x.sweepSet + 1),
                                  sweepPend := if x.sweepSet < 2048 then x.sweepPend else [] }
      let s := ls.foldl (sweepEntry k a) s
      let y := s.hsAt k
      if y.sweepSet = 2048 ∧ y.sweepPend.isEmpty ∧ !y.slots.any (fun e => decide (e.2.kind = .sweep)) then
        let s := s.setF (Reg.HS_DEAD_MASK k) 0 16 (without (deadMask s k) a).toNat
        (s.setB (Reg.HS_SWEEP k) 5 false).updHs k (fun x => { x with sweeping := none })
      else s

/-- SLICE_WATCHDOG_EXPIRY (R272): a non-empty request store with no grant for two home timeouts. -/
def sliceWatchdog (s : State) (k : Nat) : State :=
  match (s.hgAt (homeHg k)).entries with
  | [] => s
  | e :: _ =>
    if hsFailed s k ∨ s.getB (Reg.HS_CFG k) 0 = false then s
    else failSlice (s.advanceTo (max (s.hsAt k).lastGrant e.arrivedAt + 2 * homeLimit s k)) k .watchdog

/-! ### Hand-over and census walk (R274 to R276) -/

/-- HANDOVER_RECORD: the spare serves the oldest record. -/
def handoverRecord (s : State) : State :=
  let x := s.hsAt 16
  let n := homeHg 16
  match x.handover with
  | [] => s
  | .finish :: rest => (s.setHs 16 { x with handover := rest }).setB (Reg.HS_STATUS 16) 1 false
  | h :: rest =>
    match x.freeSlot with
    | none => s
    | some j =>
      if hsFailed s 16 ∨ 240 ≤ x.used then s
      else
        let s := s.setHs 16 { x with handover := rest, lastGrant := s.fclk }
        match h with
        | .finish => s
        | .cackWait p line grant =>
          let sl := mkSlot x j (.taken none) p p.hdr.addr p.hdr.bytes false line line [.cack grant]
          s.updHs 16 (fun y => y.open_ j { sl with wait := .cack, timer := some s.fclk })
        | .memDone id p lo bytes denied line old =>
          let sl := mkSlot x j (.taken id) p lo bytes denied line line
            (if p.hdr.op = opWRP then [] else [.reply (rspOp p.hdr.op ocOK) ocOK 0])
          let s := s.updHs 16 (fun y => y.open_ j { sl with rdata := [old], done := bytes.toNat + 1, wait := .reserved })
          runSlot s 16 j
        | .work id p lo bytes denied =>
          let l := lineNo s n lo.toNat
          let z := lineNo s n (lo.toNat + bytes.toNat)
          let sl := mkSlot x j (.taken id) p lo bytes denied l z [.flow]
          if x.busy l then
            s.updHs 16 (fun y => { (y.open_ j { sl with wait := .line }) with lineQueue := y.lineQueue ++ [(l, .slot j)] })
          else s.updHs 16 (fun y => y.open_ j sl)

/-- A line of the walk opens a transaction, which queues like any request: behind its line, or at arbiter input 0 (R276). -/
def Slice.walkLine (x : Slice) (l : Nat) (mask : BitVec 16) : Slice :=
  if x.busy l then { x with lineQueue := x.lineQueue ++ [(l, .walk mask)] } else { x with walk := x.walk ++ [(l, mask)] }

/-- CENSUS_WALK_SET: the next set of the failed slice is read, and each of its lines without an entry in the spare gets its
census; a set the port cannot read stays unbuilt. -/
def censusWalk (s : State) (readable : Bool) : State :=
  if !s.getB (Reg.HS_STATUS 16) 2 || hsFailed s 16 then s
  else
    let c := Reg.HS_CENSUS 16
    let set := s.getF c 0 11
    let v := servedSlice s 16
    let old := s.hsAt v
    let s := if readable then
        let s := (List.range 20).foldl (fun s w =>
          let e := old.entry set w
          let l := lineFrom v set e.tag.toNat
          if e.valid ∧ ((s.hsAt 16).wayOf l).isNone then s.updHs 16 (fun x => x.walkLine l e.holders) else s) s
        setUnbuilt s 16 set false
      else s.setF c 12 12 (s.getF c 12 12 + 1)
    let s := s.setF c 0 11 (set + 1)
    if set = 2047 then (s.setB c 11 true).setB (Reg.HS_STATUS 16) 2 false else s

/-! ### The rows -/

def execHomeRequestGrant (k : Sl) (s : State) : Out := .next (homeGrant s k)
def execDirectoryLookupDone (k : Sl) (slot : Fin 256) (err : MemErr) (s : State) : Out := .next (lookupDone s k slot err)
def execHomeStepReserved (k : Sl) (slot : Fin 256) (s : State) : Out := .next (stepReserved s k slot)
def execSnoopReplyReceived (k : Sl) (s : State) : Out := .next (snoopReply s k)
def execCackAtHome (k : Sl) (s : State) : Out := .next (cackHome s k)
def execHoldTimeExpiry (k : Sl) (slot : Fin 256) (s : State) : Out := .next (holdExpire s k slot)
def execMemoryAccessDone (k : Sl) (s : State) : Out := .next (memoryDone s k)
def execHomeTimeout (k : Sl) (slot : Fin 256) (s : State) : Out := .next (homeExpire s k slot)
def execHsSweepGo (k : Sl) (agent : BitVec 4) (s : State) : Out := .next (sweepGo s k agent)
def execSweepSetVisit (k : Sl) (s : State) : Out := .next (sweepVisit s k)
def execSliceFailure (k : Sl) (why : SliceFail) (s : State) : Out := .next (failSlice s k why)
def execSliceWatchdogExpiry (k : Sl) (s : State) : Out := .next (sliceWatchdog s k)
def execHandoverRecord (s : State) : Out := .next (handoverRecord s)
def execCensusWalkSet (readable : Bool) (s : State) : Out := .next (censusWalk s readable)

end Sys2Proof.Machine
end

