-- ==== Sys2Proof/Machine/Routers.lean ====
section
/-! DEFINITION. Routers and links (chapter 4): arrival and its checks, output arbitration, credits, heartbeats, and the
declaration of a faulty link at a router (R128) and at a headgate (R315, R320). -/

namespace Sys2Proof.Machine

/-! ### Router parts -/

/-- The buffer of channel `v` at input `p`. -/
def Router.buf (r : Router) (p v : Nat) : List BufFlit := Tab.get r.bufs [] (9 * p + v)
def Router.setBuf (r : Router) (p v : Nat) (l : List BufFlit) : Router := { r with bufs := Tab.set r.bufs (9 * p + v) l }
/-- The packet open on arrival in a channel, where one is. -/
def Router.openAt (r : Router) (p v : Nat) : Option OpenPkt := (r.arrival.find? (fun x => decide (x.1 = 9 * p + v))).map (·.2)
def Router.setOpen (r : Router) (p v : Nat) (o : Option OpenPkt) : Router :=
  { r with arrival := match o with
      | some x => Tab.set r.arrival (9 * p + v) x
      | none => Tab.erase r.arrival (9 * p + v) }
def Router.arb (r : Router) (o : Nat) : Arb := Tab.get r.arbs Arb.reset o
def Router.setArb (r : Router) (o : Nat) (a : Arb) : Router := { r with arbs := Tab.set r.arbs o a }
def Router.guaArb (r : Router) (o : Nat) : Arb := Tab.get r.gua Arb.reset o
def Router.setGua (r : Router) (o : Nat) (a : Arb) : Router := { r with gua := Tab.set r.gua o a }

/-- A credit for channel `v` goes back from an input to the sender on its link (R106). -/
def returnCredit (s : State) (e : LEnd) (v : Nat) : State :=
  match e.far with
  | some f => s.pushCredit f v
  | none => s

/-- Credits for channel `v` at a sending end. -/
def LinkEnd.credit (k : LinkEnd) (v : Nat) : Nat := cell k.credits v
def LinkEnd.addCredit (k : LinkEnd) (v : Nat) : LinkEnd := { k with credits := setNth k.credits v (cell k.credits v + 1) }
def LinkEnd.useCredit (k : LinkEnd) (v : Nat) : LinkEnd := { k with credits := setNth k.credits v (cell k.credits v - 1) }

/-- The local port of router `i` that its map names for headgate `d` (R21). -/
def localPort (s : State) (i d : Nat) : Option Nat :=
  (List.range 4).find? (fun p => decide (s.getF (Reg.RT_LOCAL_MAP i) (8 * p) 8 = d))

/-- The local port that the map held for the neighbour on mesh port `o` names for `d` (R109). -/
def neighbourPort (s : State) (i o d : Nat) : Option Nat :=
  (List.range 4).find? (fun p => decide (s.getF (Reg.RT_NBR_MAP i (o - 4)) (8 * p) 8 = d))

/-! ### Sinks and the declaration of a fault (R127 to R129, R315, R320) -/

/-- A port that takes flits: enabled and not faulty. -/
def takesFlits (s : State) (i o : Nat) : Bool := s.enabled (.rt i o) && !s.faulty (.rt i o)

/-- The outputs among `os` that input `p` still waits for keep their collision marks; the marks of the others are cleared (R122). -/
def Router.unmark (r : Router) (p : Nat) (os : List Nat) : Router :=
  { r with collided := r.collided.filter (fun c => decide (c.1 ≠ p) || !os.contains c.2) }

/-- The flits of one buffer that are routed to a faulty or disabled output are discarded: credits go back, the flits are counted in
RT_PURGE, and the packet open on arrival no longer goes there (R128, R324). -/
def sinkBuf (i p v : Nat) (s : State) : State :=
  let l := (s.rtAt i).buf p v
  let keep (b : BufFlit) : BufFlit := { b with copies := b.copies.filter (fun c => takesFlits s i c.1) }
  let gone := sumBy (fun b => b.copies.length - (keep b).copies.length) l
  let left := (l.filter (fun b => (keep b).copies.isEmpty && !b.trunc)).length
  let dead := (List.range 8).filter (fun o => !takesFlits s i o)
  let t := s.updRt i (fun r =>
    let r := r.setBuf p v ((l.map keep).filter (fun b => !b.copies.isEmpty))
    let r := if v = 8 then r.unmark p dead else r
    match r.openAt p v with
    | some o =>
      let outs := o.outs.filter (fun c => !dead.contains c.1)
      r.setOpen p v (some { o with outs := outs, purge := if o.purge = .no ∧ outs.isEmpty then .count else o.purge })
    | none => r)
  forRange left (fun _ u => returnCredit u (.rt i p) v) (if gone = 0 then t else t.bump (Reg.RT_PURGE i) gone)

/-- Every buffer of router `i` after a port has become a sink, and after each arrival. -/
def sinkAll (s : State) (i : Nat) : State :=
  if s.getF (Reg.RT_PORT_STATUS i) 8 8 = 0 ∧ s.getF (Reg.RT_CTRL i) 0 8 = 255 then s
  else forRange 72 (fun k t => sinkBuf i (k / 9) (k % 9) t) s

/-- The flits of the buffer that belong to the packet still open on arrival: from its last head on. -/
def splitOpen (l : List BufFlit) : List BufFlit × List BufFlit :=
  let tail := (l.reverse.takeWhile (fun b => !b.flit.isHead)).length
  let k := if tail < l.length then l.length - tail - 1 else 0
  (l.take k, l.drop k)

/-- The packet open in channel `v` of input `p` is closed (R128 step 3): on every output its head has left on, the flits received
follow and a truncation tail; on the others nothing. With none, the packet is discarded whole and counted in RT_PURGE. The credit of
each flit discarded goes back (R106). -/
def closeOpen (i p : Nat) (v : Nat) (s : State) : State :=
  match (s.rtAt i).openAt p v with
  | none => s
  | some o =>
    let (before, mine) := splitOpen ((s.rtAt i).buf p v)
    let s := s.updRt i (fun r => r.setOpen p v none)
    if o.purge ≠ .no then s
    else
      let t : BufFlit := { flit := truncTail v, copies := o.outs, vcOut := o.vcOut, bad := false, trunc := true }
      let cut (b : BufFlit) : BufFlit := { b with copies := b.copies.filter (fun c => o.sent.contains c.1) }
      let keep := (mine.map cut).filter (fun b => !b.copies.isEmpty)
      let s := s.updRt i (fun r =>
        let r := r.setBuf p v (before ++ keep ++ (if o.sent.isEmpty then [] else [cut t]))
        if v = 8 ∧ before.isEmpty then r.unmark p ((List.range 8).filter (fun q => !o.sent.contains q)) else r)
      let s := if o.sent.isEmpty then s.bump (Reg.RT_PURGE i) mine.length else s
      forRange (mine.length - keep.length) (fun _ u => returnCredit u (.rt i p) v) s

/-- R128 for port `p` of router `i`, with the cause of Table 16-7. -/
def declareRouter (s : State) (i p cause : Nat) : State :=
  if s.faulty (.rt i p) ∨ !s.enabled (.rt i p) then s
  else
    let s := (s.setB (Reg.RT_PORT_STATUS i) (8 + p) true).setB (Reg.RT_FAULT i) p true
    let s := forRange 9 (closeOpen i p) s
    let s := s.updRt i (fun r =>
      { (r.setArb p (r.arb p).drop).setGua p (r.guaArb p).drop with hbDue := Tab.set r.hbDue p false })
    (sinkAll s i).alarm (stRouter i) 0x10 i (p + cause * 2 ^ 3)

/-- The packets arriving on link `l` are given up. -/
def Headgate.dropArriving (h : Headgate) (l : Nat) : Headgate :=
  { h with rxAsm := h.rxAsm.filter (fun x => decide (x.1 / 16 ≠ l)), rxDrop := h.rxDrop.filter (fun k => decide (k / 16 ≠ l)) }

/-- A link of a headgate can take its traffic (R320). -/
def healthyLink (s : State) (n l : Nat) : Bool :=
  let e := LEnd.hg n l
  s.enabled e && !s.faulty e && s.live e && !(s.link e).hbFirst &&
  decide (s.fclk < (s.link e).hbAt + s.getF (Reg.HG_LINK_CFG n) 0 12)

/-- Every reservation entry of `n` loses VALID, and every channel it sources is demoted (R320 step 2). -/
def clearEntries (s : State) (n : Nat) : State :=
  let s := forRange 256 (fun e t =>
    if bit (Tab.get t.regs 0 (Reg.HG_PL_ENTRY n e)) 63 then t.setB (Reg.HG_PL_ENTRY n e) 63 false else t) s
  forEach (chanRecs s n) (fun r t =>
    if recSrc r.2 then t.updHg n (fun h => h.setChan r.1 { h.chanAt r.1 with demoted := true }) else t) s

/-- R315 and R320 for link `l` of headgate `n`. -/
def declareHeadgate (s : State) (n l cause : Nat) : State :=
  let e := LEnd.hg n l
  if s.faulty e ∨ !s.enabled e then s
  else
    let s := s.setB (Reg.HG_ATTACH n) (2 + l) true
    let s := match e.far with | some f => s.setWire f [] | none => s
    let s := s.updHg n (fun h => h.dropArriving l)
    let inUse := decide (linkInUse s n = l)
    let move := inUse && s.getB (Reg.HG_ATTACH n) 1 && healthyLink s n (1 - l)
    let s := if move then
        let s := (s.setF (Reg.HG_ATTACH n) 0 1 (1 - l)).setB (Reg.HG_ATTACH n) 6 true
        (triggerAll (clearEntries s n) n).bump (Reg.HG_FAILOVER_CNT n) 1
      else s
    let s := s.hgAlarm n 0x40 (l + cause * 2 + b2n move * 2 ^ 5)
    if inUse && !healthyLink s n (1 - l) && !move then s.hgAlarm n 0x41 (s.getF (Reg.HG_ATTACH n) 2 2) else s

/-- The link at an end is declared faulty. -/
def declare (s : State) (e : LEnd) (cause : Nat) : State :=
  match e with
  | .rt i p => declareRouter s i p cause
  | .hg n l => declareHeadgate s n l cause

/-- `k` hop errors at an end: RT_HOP_ERR at a router, and the aligned window of R127. -/
def hopErrors (s : State) (e : LEnd) (k : Nat) : State :=
  if k = 0 then s
  else
    let s := match e with | .rt i p => s.bump (Reg.RT_HOP_ERR i p) k | .hg _ _ => s
    let cfg := s.linkCfg e
    let w := s.fclk / 2 ^ clip 6 15 (field cfg 26 4)
    let x := s.link e
    let n := (if x.winStart = w then x.winErrs else 0) + k
    let s := s.setLink e { x with winStart := w, winErrs := n }
    if max 1 (field cfg 22 4) ≤ n then declare s e 1 else s

/-! ### Routes (R96, R109, R110, R114) -/

/-- The look-ahead output for the router beyond mesh output `o` (R109). -/
def lookahead (s : State) (i o : Nat) (h : Header) (vcOut : Nat) : Nat :=
  match neighbour i o with
  | none => 0
  | some j =>
    let legA := decide (vcOut < 8) && decide (vcOut % 2 = 0)
    let t := if legA ∧ h.wpv = 1 ∧ nodeOf j ≠ h.wnode.toNat then h.wnode.toNat else h.dnode.toNat
    match xyStep j t with
    | some p => p
    | none => (neighbourPort s i o h.dst.toNat).getD 0

/-- The channel of a packet on its output: leg B at the waypoint router (R102, R114). -/
def nextVc (i : Nat) (h : Header) (vc : Nat) : Nat :=
  if h.wpv = 1 ∧ nodeOf i = h.wnode.toNat ∧ vc < 8 ∧ vc % 2 = 0 then vc + 1 else vc

/-- A destination is on no local port: route miss (R21, R96). -/
def routeMiss (s : State) (i p d : Nat) : State :=
  (s.setB (Reg.RT_FAULT i) 9 true).alarm (stRouter i) 0x12 i (d + p * 2 ^ 8)

/-- A copy added to those already routed. -/
def addCopy (cs : List (Nat × BitVec 16)) (o : Nat) (m : BitVec 16) : List (Nat × BitVec 16) :=
  if cs.any (fun c => decide (c.1 = o)) then cs.map (fun c => if c.1 = o then (o, c.2 ||| m) else c) else cs ++ [(o, m)]

/-- The copies of a multicast head (R96). -/
def multicastRoute (s : State) (i p : Nat) (f : Flit) : List (Nat × BitVec 16) × State :=
  (bitsOf f.mcmask 16).foldl (fun acc k =>
    let (d, node) := mcEntry f.ext k
    let m : BitVec 16 := BitVec.ofNat 16 (2 ^ k)
    match xyStep i node with
    | some o => (addCopy acc.1 o m, acc.2)
    | none =>
      match localPort s i d with
      | some o => (addCopy acc.1 o m, acc.2)
      | none => (acc.1, routeMiss acc.2 i p d)) ([], s)

/-- The guaranteed packet of a head is late from here on: its destinations count it in LATE (Table 7-10). -/
def markLate (s : State) (f : Flit) : State :=
  if f.isHead ∧ f.vc = 8 then s.setLateGua (s.lateGua ++ [(f.hdr.gchan, f.hdr.seq.toNat)]) else s

/-- The copies of a unicast head: its LAPORT, or for a local port the one the map names (R110, R21). -/
def unicastRoute (s : State) (i p : Nat) (f : Flit) : List (Nat × BitVec 16) × State :=
  let o := f.laport
  let d := f.hdr.dst.toNat
  if 4 ≤ o then ([(o, 0)], s)
  else if s.getF (Reg.RT_LOCAL_MAP i) (8 * o) 8 = d then ([(o, 0)], s)
  else
    match localPort s i d with
    | some q => ([(q, 0)], markLate ((s.bump (Reg.RT_MAP_MISM i) 1).setB (Reg.RT_FAULT i) 10 true) f)
    | none => ([], routeMiss s i p d)

/-! ### Arrival at a router (R112, R124, R125, R130) -/

/-- The buffer word is written and read with the error found in it (R130): none where the control word is lost. -/
def bufferWord (s : State) (i p : Nat) (f : Flit) (err : MemErr) : Option Flit × State :=
  match err with
  | .ok => (some f, s)
  | .corrected => (some f, (s.bump (Reg.RT_SRAM_CORR i) 1).setB (Reg.RT_FAULT i) 13 true)
  | .uncorrData _ =>
    let (d, s) := s.draw
    (some { f with payload := Config.badData d },
     (s.setB (Reg.RT_FAULT i) 14 true).alarm (stRouter i) 0x14 i (p + f.vc * 2 ^ 3))
  | _ => (none, (s.setB (Reg.RT_FAULT i) 14 true).alarm (stRouter i) 0x14 i (p + f.vc * 2 ^ 3 + 2 ^ 7))

/-- A good head is routed and stored. -/
def storeHead (s : State) (i p : Nat) (f : Flit) (stored : Flit) : State :=
  let (cs, s) := if f.mc then multicastRoute s i p f else unicastRoute s i p f
  let v := nextVc i f.hdr f.vc
  let s := if cs.isEmpty then returnCredit s (.rt i p) f.vc
    else s.updRt i (fun r => r.setBuf p f.vc (r.buf p f.vc ++
      [{ flit := stored, copies := cs, vcOut := v, bad := false, trunc := false }]))
  if f.kind = 1 then
    s.updRt i (fun r => r.setOpen p f.vc
      (some { outs := cs, vcOut := v, sent := [], purge := if cs.isEmpty then .quiet else .no }))
  else s

/-- The outputs a failing head asks for: its LAPORT, or those its list reads as (R96, R118). -/
def badCopies (s : State) (i p : Nat) (f : Flit) : List (Nat × BitVec 16) :=
  if f.mc then (multicastRoute s i p f).1 else [(f.laport, 0)]

/-- A failing head asks for its outputs where it stands alone in its buffer, and withdraws; the rest of its packet is purged
(R118, R124). -/
def storeBadHead (s : State) (i p : Nat) (f : Flit) : State :=
  let s := if f.kind = 1 then
      s.updRt i (fun r => r.setOpen p f.vc (some { outs := [], vcOut := f.vc, sent := [], purge := .count }))
    else s
  let cs := badCopies s i p f
  if ((s.rtAt i).buf p f.vc).isEmpty ∧ !cs.isEmpty then
    s.updRt i (fun r => r.setBuf p f.vc [{ flit := f, copies := cs, vcOut := f.vc, bad := true, trunc := false }])
  else returnCredit s (.rt i p) f.vc

/-- A data flit joins the packet open in its channel, or is purged with it. -/
def storeData (s : State) (i p : Nat) (f : Flit) (stored : Flit) (o : OpenPkt) : State :=
  let s := if f.kind = 2 then s.updRt i (fun r => r.setOpen p f.vc none) else s
  match o.purge with
  | .no => s.updRt i (fun r => r.setBuf p f.vc (r.buf p f.vc ++
      [{ flit := stored, copies := o.outs, vcOut := o.vcOut, bad := false, trunc := false }]))
  | .count => returnCredit (s.bump (Reg.RT_PURGE i) 1) (.rt i p) f.vc
  | .quiet => returnCredit s (.rt i p) f.vc

/-- A packet flit is discarded as it arrives at an end; the credit of its channel goes back (R106). -/
def refuseFlit (s : State) (e : LEnd) (f : Flit) : State := if f.vc ≤ 8 then returnCredit s e f.vc else s

/-- A packet flit at input `p` of router `i`. -/
def routerFlit (s : State) (i p : Nat) (f : Flit) (err : MemErr) : State :=
  let s := if f.hopOk then s else hopErrors s (.rt i p) 1
  if s.faulty (.rt i p) then refuseFlit s (.rt i p) f
  else
    let o := (s.rtAt i).openAt p f.vc
    let bad := decide (8 < f.vc) || (f.isHead == o.isSome) ||
      (f.isHead && !f.mc && !s.enabled (.rt i f.laport))
    if bad then declareRouter (refuseFlit s (.rt i p) f) i p 3
    else
      match bufferWord s i p f err with
      | (none, s) => declareRouter (refuseFlit s (.rt i p) f) i p 3
      | (some g, s) =>
        match o with
        | some o => sinkAll (storeData s i p f g o) i
        | none =>
          if !f.hopOk then sinkAll (storeBadHead s i p f) i
          else if headFault f then
            let s := (s.bump (Reg.RT_HDR_DROP i) 1).setB (Reg.RT_FAULT i) 8 true
            let s := s.alarm (stRouter i) 0x11 i (p + f.hdr.src.toNat * 2 ^ 3 + f.hdr.op.toNat * 2 ^ 11)
            sinkAll (storeBadHead s i p f) i
          else sinkAll (storeHead s i p f g) i

/-! ### Arrival at a headgate (R106, R113, R315) -/

/-- A whole packet goes to the receive store; a head that names an invalid value is a header fault (R14). No register of the headgate
counts the packet discarded for it (DESIGN CHOICE, log entry 57). -/
def storeRaw (s : State) (n : Nat) (fs : List Flit) (vc : Nat) (stored : Bool) : State :=
  match fs with
  | [] => s
  | f :: _ =>
    if f.hopOk ∧ headFault f then s.hgAlarm n 0x42 (f.hdr.src.toNat + f.hdr.op.toNat * 2 ^ 8)
    else s.updHg n (fun h => { h with rxPkts := h.rxPkts ++ [{ flits := fs, vc := vc, stored := stored }] })

/-- A packet flit at link `l` of headgate `n`: the receive store takes it and its credit goes back. Its admission to the shared blocks
is decided as its head arrives (R173). -/
def headgateFlit (s : State) (n l : Nat) (f : Flit) : State :=
  let e := LEnd.hg n l
  let s := if f.hopOk then s else hopErrors s e 1
  if s.faulty e then refuseFlit s e f
  else
    let key := 16 * l + f.vc
    let asm := Tab.get (s.hgAt n).rxAsm [] key
    if 8 < f.vc ∨ (f.isHead == !asm.isEmpty) then declareHeadgate (refuseFlit s e f) n l 3
    else
      let stored := if f.isHead then admitHead s n f else !(s.hgAt n).rxDrop.contains key
      let s := returnCredit s e f.vc
      let s := (s.count (ckEj n) 1).observe true n 1 f
      let fs := asm ++ [f]
      let s := s.updHg n (fun h =>
        { h with rxAsm := Tab.set h.rxAsm key (if f.isLast then [] else fs),
                 rxDrop := (h.rxDrop.filter (fun k => decide (k ≠ key))) ++ (if f.isLast || stored then [] else [key]) })
      if f.isLast then storeRaw s n fs f.vc stored else s

/-! ### Heartbeats (R85, R123, R126) -/

/-- The node and port that a heartbeat arriving at an end must carry: those of the far end; a headgate stands at the node and
local port of its attachment (log entry 17). -/
def heartbeatFrom (e : LEnd) : Nat × Nat :=
  match e, e.far with
  | .rt i p, some (.hg _ _) => (nodeOf i, p)
  | _, some (.rt j q) => (nodeOf j, q)
  | _, _ => (0, 0)

/-- A control flit at an end: a correct heartbeat restarts the silence time; a wrong identity declares the link (R126). One whose KIND
is not 3, or whose type is reserved, is ignored (DESIGN CHOICE, log entry 61). -/
def controlFlit (s : State) (e : LEnd) (f : Flit) : State :=
  if !f.hopOk then hopErrors s e 1
  else if f.kind ≠ 3 ∨ field f.payload 0 4 ≠ 1 then s
  else
    let (node, port) := heartbeatFrom e
    if field f.payload 4 8 ≠ node ∨ field f.payload 12 3 ≠ port then declare s e 4
    else
      let c := field f.payload 16 16
      let x := s.link e
      let missing := if x.hbFirst then 0 else (c + 65536 - (x.hbSeen.toNat + 1) % 65536) % 65536
      let s := s.setLink e { x with hbSeen := BitVec.ofNat 16 c, hbFirst := false, hbAt := s.fclk }
      hopErrors s e missing

/-- The flit the wire towards an end carries next: at a local port the headgate still holds it and sends the first whose
channel has a credit, which it spends (R105, R115). -/
def nextOnWire (s : State) (e : LEnd) : Option (Flit × State) :=
  match e.far with
  | some (.hg n l) =>
    let k := s.link (.hg n l)
    let fits (f : Flit) : Bool := f.isControl || decide (0 < k.credit f.vc)
    match (s.wire e).findIdx? fits with
    | none => none
    | some j =>
      match (s.wire e)[j]? with
      | none => none
      | some f =>
        let s := s.setWire e (dropNth (s.wire e) j)
        some (f, if f.isControl then s else s.setLink (.hg n l) (k.useCredit f.vc))
  | _ =>
    match s.wire e with
    | [] => none
    | f :: rest => some (f, s.setWire e rest)

/-- A flit on the link as the receiver sees it. -/
def arriveBits (s : State) (e : LEnd) (f : Flit) (err : MemErr) : State :=
  if !s.enabled e then s
  else if s.faulty e then (if f.isControl then s else refuseFlit s e f)
  else if f.isControl then controlFlit s e f
  else
    match e with
    | .rt i p => routerFlit s i p f err
    | .hg n l => headgateFlit s n l f

/-- The next flit on the link towards `e` arrives, with `damage` added on the way; a heartbeat where `hb` is set, else a packet
flit. -/
def arrive (s : State) (e : LEnd) (damage : BitVec 576) (err : MemErr) (hb : Bool) : State :=
  match nextOnWire s e with
  | none => s
  | some (f, t) =>
    if f.isControl == hb then arriveBits t e (Flit.ofBits (f.toBits ^^^ damage)) err else s

/-- The heartbeat of an end is due. A router sends it in the first cycle without a guaranteed flit; a headgate puts it behind
its guaranteed flits and its earlier heartbeats (R123). -/
def heartbeatDue (s : State) (e : LEnd) : State :=
  if !s.enabled e ∨ s.faulty e then s
  else
    match e with
    | .rt i p => s.updRt i (fun r => { r with hbDue := Tab.set r.hbDue p true })
    | .hg n l =>
      match e.far with
      | some (.rt i p) =>
        let x := s.link e
        let f := heartbeatFlit (nodeOf i) p x.hbSent.toNat
        let w := s.wire (.rt i p)
        let ahead (g : Flit) : Bool := decide (g.vc = 8) || g.isControl
        let s := s.setWire (.rt i p) (w.filter ahead ++ [f] ++ w.filter (fun g => !ahead g))
        s.setLink e { x with hbSent := x.hbSent + 1 }
      | _ => let _ := (n, l); s

/-- SILENCE cycles pass without a correct heartbeat (R127). -/
def silenceExpire (s : State) (e : LEnd) : State :=
  if !s.enabled e ∨ s.faulty e then s
  else declare (s.advanceTo ((s.link e).hbAt + field (s.linkCfg e) 0 12)) e 0

/-- PORT_LIVE received at an end. -/
def setLive (s : State) (e : LEnd) (b : Bool) : State :=
  match e with
  | .rt i p => s.setB (Reg.RT_PORT_STATUS i) p b
  | .hg n l => s.setB (Reg.HG_ATTACH n) (4 + l) b

/-- The neighbour's PORT_LIVE falls: an enabled port declares the link (R127). -/
def liveLost (s : State) (e : LEnd) : State :=
  if s.live e then declare (setLive s e false) e 5 else s

/-- The neighbour's PORT_LIVE rises: the next heartbeat starts the sequence anew (R126), and the silence time with it (DESIGN CHOICE,
log entry 65). -/
def liveGained (s : State) (e : LEnd) : State :=
  let s := setLive s e true
  s.setLink e { s.link e with hbFirst := true, hbAt := s.fclk }

/-! ### Credits (R106, R107) -/

/-- CRV, CRVC and CRP as the receiver forms them for a credit, and for an idle cycle. -/
def creditBits (v : Option (BitVec 4)) : BitVec 6 :=
  match v with
  | some c =>
    let ones := 1 + (bitsOf c 4).length
    BitVec.ofNat 6 (32 + c.toNat * 2 + (ones + 1) % 2)
  | none => 1

/-- One cycle of the credit signals at an end, with `damage` added on the way. -/
def creditIn (s : State) (e : LEnd) (damage : BitVec 6) : State :=
  let q := Tab.get s.credits [] e.key
  let w := creditBits q.head? ^^^ damage
  let s := s.setCredits (Tab.set s.credits e.key (q.drop 1))
  if !s.enabled e ∨ s.faulty e then s
  else
    let v := field w 1 4
    if (bitsOf w 6).length % 2 = 0 ∨ (bit w 5 = true ∧ 8 < v) then
      let s := match e with | .rt i _ => s.setB (Reg.RT_FAULT i) 12 true | .hg _ _ => s
      declare s e 2
    else if bit w 5 then s.setLink e ((s.link e).addCredit v)
    else s

/-! ### Output arbitration (R115 to R122) -/

/-- Output `o` has a credit for channel `v`. -/
def outCredit (s : State) (i o v : Nat) : Bool := decide (0 < (s.link (.rt i o)).credit v)

/-- The inputs whose guaranteed flit is at the front for output `o`. A head asks while PORT_LIVE of its input is high; a data flit
passes on the hold without a request (Table 4-2, log entry 66). -/
def guaAsk (s : State) (i o : Nat) : List Nat :=
  (List.range 8).filter (fun p =>
    match (s.rtAt i).buf p 8 with
    | b :: _ => b.copies.any (fun c => decide (c.1 = o)) && (s.live (.rt i p) || !b.flit.isHead)
    | [] => false)

/-- The guaranteed side of output `o` takes this cycle: an asker has a credit, and where a packet holds that side, the holder asks
(R119). -/
def guaTakes (s : State) (i o : Nat) : Bool :=
  outCredit s i o 8 && (match ((s.rtAt i).guaArb o).hold with
    | some h => (guaAsk s i o).contains h
    | none => !(guaAsk s i o).isEmpty)

/-- Output `o` is taken this cycle by a guaranteed flit or by a heartbeat. -/
def outTaken (s : State) (i o : Nat) : Bool := guaTakes s i o || Tab.get (s.rtAt i).hbDue false o

/-- The channels in round-robin order after `last`. -/
def roundRobin (last : Nat) : List Nat := (List.range 8).map (fun k => (last + 1 + k) % 8)

/-- What input `p` presents to the crossbar besides a guaranteed flit (R115): the channel and the output. -/
def presents (s : State) (i p : Nat) : Option (Nat × Nat) :=
  let r := s.rtAt i
  let guaFirst := match r.buf p 8 with
    | b :: _ => b.copies.any (fun c => outCredit s i c.1 8)
    | [] => false
  if guaFirst then none
  else
    let front (v : Nat) (head : Bool) : Option (Nat × Nat) :=
      match r.buf p v with
      | b :: _ =>
        match b.copies with
        | (o, _) :: _ =>
          if b.flit.isHead == head && outCredit s i o b.vcOut && (if head then s.live (.rt i p) else !outTaken s i o)
          then some (v, o) else none
        | [] => none
      | [] => none
    match (roundRobin (Tab.get r.rrData 7 p)).findSome? (fun v => front v false) with
    | some x => some x
    | none => (roundRobin (Tab.get r.rrHead 7 p)).findSome? (fun v => front v true)

/-- The flit at the front of channel `v` of input `p` leaves on output `o`: look-ahead, channel and mask written, a new hop
code, a credit spent; at its last copy the buffer's credit goes back (R105, R106, R109). -/
def sendFlit (s : State) (i o p v : Nat) : State :=
  match (s.rtAt i).buf p v with
  | [] => s
  | b :: rest =>
    let f := b.flit
    let mask := match b.copies.find? (fun c => decide (c.1 = o)) with | some c => c.2 | none => 0
    let la := if f.isHead ∧ !f.mc ∧ 4 ≤ o then lookahead s i o f.hdr b.vcOut else 0
    let g := (f.rewrite b.vcOut la mask).stamp
    let s := s.setLink (.rt i o) ((s.link (.rt i o)).useCredit b.vcOut)
    let s := match (LEnd.rt i o).far with | some e => s.pushWire e [g] | none => s
    let keep := b.copies.filter (fun c => decide (c.1 ≠ o))
    let openHere := f.isHead && !rest.any (fun x => x.flit.isHead)
    let s := s.updRt i (fun r =>
      let r := match r.openAt p v with
        | some x => if openHere && decide (x.purge = Purge.no) then r.setOpen p v (some { x with sent := x.sent ++ [o] }) else r
        | none => r
      let r := r.setBuf p v (if keep.isEmpty then rest else { b with copies := keep } :: rest)
      if f.isLast ∧ v = 8 then r.unmark p [o] else r)
    let s := if keep.isEmpty ∧ !b.trunc then returnCredit s (.rt i p) v else s
    let s := if b.trunc then s.bump (Reg.RT_TRUNC i) 1 else s
    let s := (s.count (ckFlits i o) 1).observe false (nodeOf i) o g
    let s := if f.isHead then s.rtEvent i o 1 1 else s
    let s := if b.vcOut = 8 then s.rtEvent i o 2 1 else s
    if s.getF (Reg.PR_RTO_CFG (8 * i + o)) 4 4 = b.vcOut then s.rtEvent i o 7 1 else s

/-- A failing head withdraws from output `o`; once it asks for no other it leaves its buffer and its credit goes back. A grant it had
is counted (R118). -/
def dropBad (s : State) (i p v : Nat) (granted : Bool) (o : Nat) : State :=
  match (s.rtAt i).buf p v with
  | b :: rest =>
    if b.bad then
      let keep := b.copies.filter (fun c => decide (c.1 ≠ o))
      let s := s.updRt i (fun r =>
        let r := r.setBuf p v (if keep.isEmpty then rest else { b with copies := keep } :: rest)
        if v = 8 then r.unmark p [o] else r)
      let s := if keep.isEmpty then returnCredit s (.rt i p) v else s
      if granted then (s.bump (Reg.RT_WITHDRAW i) 1).rtEvent i o 8 1 else s
    else s
  | [] => s

/-- FLITS of the packet whose head is at the front of a buffer; 1 for a data flit. -/
def frontFlits (s : State) (i p v : Nat) : Nat :=
  match (s.rtAt i).buf p v with
  | b :: _ => if b.flit.isHead then b.flit.flits else 1
  | [] => 1

/-- The front flit ends its packet. -/
def frontLast (s : State) (i p v : Nat) : Bool :=
  match (s.rtAt i).buf p v with
  | b :: _ => b.flit.isLast
  | [] => false

def frontBad (s : State) (i p v : Nat) : Bool :=
  match (s.rtAt i).buf p v with
  | b :: _ => b.bad
  | [] => false

/-- The guaranteed packet at the front of input `p` is late. -/
def markFront (i p : Nat) (s : State) : State :=
  match (s.rtAt i).buf p 8 with
  | b :: _ => markLate s b.flit
  | [] => s

/-- Guaranteed packets that wait behind a collision, each counted once (R122). -/
def collide (s : State) (i o : Nat) (asked : List Nat) (waits : List Nat) : State :=
  let fresh := waits.filter (fun p => !(s.rtAt i).collided.contains (p, o))
  if fresh.isEmpty then s
  else
    let s := s.updRt i (fun r => { r with collided := r.collided ++ fresh.map (fun p => (p, o)) })
    let s := (s.bump (Reg.RT_GUA_COLL i) fresh.length).setB (Reg.RT_FAULT i) 11 true
    let s := forEach fresh (markFront i) s
    s.alarm (stRouter i) 0x13 i (o + sumBy (fun p => 2 ^ p) asked * 2 ^ 3)

/-- The guaranteed side of output `o` in one cycle (R119): whether it took the cycle. -/
def guaCycle (s : State) (i o : Nat) (askers : List Nat) : Bool × State :=
  if askers.isEmpty then (false, s)
  else
    let a := (s.rtAt i).guaArb o
    if !outCredit s i o 8 then
      (false, collide (s.updRt i (fun r => r.setGua o (a.waitMore askers))) i o askers askers)
    else
      let others (w : Nat) := askers.filter (fun p => decide (p ≠ w))
      match a.hold with
      | some h =>
        let a := a.waitMore (others h)
        if askers.contains h then
          let last := frontLast s i h 8
          let s := s.updRt i (fun r => r.setGua o (a.advance h last))
          (true, collide (sendFlit s i o h 8) i o askers (others h))
        else (false, collide (s.updRt i (fun r => r.setGua o a)) i o askers askers)
      | none =>
        match a.pick (nthOf (s.getF (Reg.RT_ARB_CFG i) 0 7)) askers with
        | none => (false, s)
        | some (w, _, a) =>
          if frontBad s i w 8 then
            (true, collide (dropBad (s.updRt i (fun r => r.setGua o a)) i w 8 true o) i o askers (others w))
          else
            let s := s.updRt i (fun r => r.setGua o (a.sent w 8 (frontFlits s i w 8)))
            (true, collide (sendFlit s i o w 8) i o askers (others w))

/-- The round-robin positions move past the channels presented to `o` (R115). That they move on presentation and start at channel 0 is
DESIGN CHOICE (log entry 64). -/
def turnRR (r : Router) (pres : List (Nat × Nat)) : Router :=
  pres.foldl (fun (r : Router) x =>
    match r.buf x.1 x.2 with
    | b :: _ => if b.flit.isHead then { r with rrHead := Tab.set r.rrHead x.1 x.2 } else { r with rrData := Tab.set r.rrData x.1 x.2 }
    | [] => r) r

/-- The best-effort side of output `o` in one cycle, not taken by a guaranteed flit or a heartbeat (R118). `pres` are the inputs
that present a flit for it with their channels. -/
def bestCycle (s : State) (i o : Nat) (pres : List (Nat × Nat)) : State :=
  let a := (s.rtAt i).arb o
  let askers := pres.map (·.1)
  let vcAt (p : Nat) : Nat := match pres.find? (fun x => decide (x.1 = p)) with | some x => x.2 | none => 0
  match a.hold with
  | some h =>
    let a := a.waitMore (askers.filter (fun p => decide (p ≠ h)))
    if pres.contains (h, a.holdVc) then
      let last := frontLast s i h a.holdVc
      sendFlit (s.updRt i (fun r => r.setArb o (a.advance h last))) i o h a.holdVc
    else (s.updRt i (fun r => r.setArb o a)).rtEvent i o 5 1
  | none =>
    match a.pick (nthOf (s.getF (Reg.RT_ARB_CFG i) 0 7)) askers with
    | none => s
    | some (w, contest, a) =>
      let s := if contest then s.rtEvent i o 4 (askers.length - 1) else s
      let v := vcAt w
      if frontBad s i w v then dropBad (s.updRt i (fun r => r.setArb o a)) i w v true o
      else sendFlit (s.updRt i (fun r => r.setArb o (a.sent w v (frontFlits s i w v)))) i o w v

/-- Some flit at the front of a buffer waits for a credit of output `o`. -/
def waitsCredit (s : State) (i o : Nat) : Bool :=
  (s.rtAt i).bufs.any (fun x => match x.2 with
    | b :: _ => b.copies.any (fun c => decide (c.1 = o)) && !outCredit s i o b.vcOut
    | [] => false)

/-- A heartbeat leaves on the output of a router. -/
def sendHeartbeat (s : State) (i o : Nat) : State :=
  let x := s.link (.rt i o)
  let f := heartbeatFlit (nodeOf i) o x.hbSent.toNat
  let s := match (LEnd.rt i o).far with
    | some (.hg n l) => s.pushWire (.hg n l) [f]
    | some e => s.pushWire e [f]
    | none => s
  let s := s.setLink (.rt i o) { x with hbSent := x.hbSent + 1 }
  (s.updRt i (fun r => { r with hbDue := Tab.set r.hbDue o false })).rtEvent i o 3 1

/-- One cycle of output `o` of router `i`. -/
def arbitrateOut (s : State) (i o : Nat) : State :=
  if !s.enabled (.rt i o) ∨ s.faulty (.rt i o) then s
  else
    let s := if waitsCredit s i o then s.rtEvent i o 6 1 else s
    let pres := (List.range 8).filterMap (fun p =>
      match presents s i p with
      | some (v, q) => if q = o then some (p, v) else none
      | none => none)
    let bad := (s.rtAt i).bufs.filterMap (fun x => match x.2 with
      | b :: _ => if b.bad ∧ b.copies.any (fun c => decide (c.1 = o)) then some (x.1 / 9, x.1 % 9) else none
      | [] => none)
    let s := s.updRt i (fun r => turnRR r pres)
    let (took, s) := guaCycle s i o (guaAsk s i o)
    let hb := Tab.get (s.rtAt i).hbDue false o
    let s := if took ∨ hb then
        let s := s.updRt i (fun r => r.setArb o ((r.arb o).waitMore (pres.map (·.1))))
        if took then s else sendHeartbeat s i o
      else bestCycle s i o pres
    forEach bad (fun x t => dropBad t i x.1 x.2 false o) s

/-! ### The meanings of the router and link commands -/

def execFlitArrival (r : Rcv) (damage : BitVec 576) (err : MemErr) (s : State) : Out :=
  .next (arrive s (rcvEnd r) damage err false)
def execOutputArbitration (i : Rt) (o : Port) (s : State) : Out := .next (arbitrateOut s i o)
def execCreditReturn (r : Rcv) (damage : BitVec 6) (s : State) : Out := .next (creditIn s (rcvEnd r) damage)
def execHeartbeatTimer (r : Rcv) (s : State) : Out := .next (heartbeatDue s (rcvEnd r))
def execHeartbeatReceived (r : Rcv) (damage : BitVec 576) (s : State) : Out :=
  .next (arrive s (rcvEnd r) damage .ok true)
def execLinkSilenceTimeout (r : Rcv) (s : State) : Out := .next (silenceExpire s (rcvEnd r))
def execLinkPortLiveFall (r : Rcv) (s : State) : Out := .next (liveLost s (rcvEnd r))

end Sys2Proof.Machine
end

