-- ==== Sys2Proof/Machine/Faults.lean ====
section
/-! DEFINITION. Isolation (chapter 12): the target timeout, the target levee and its siphon, the isolation of the initiator
side, the remote levee, the pair reset, and the writes that enable, disable and clear links. -/

namespace Sys2Proof.Machine

/-! ### The target levee (R317, R326) -/

/-- The target timeout in FCLK cycles. -/
def targetLimit (s : State) (n : Nat) : Nat := 64 * max 25 (s.getF (Reg.HG_TGT_TMO n) 0 12)

/-- HG_LEVEE.TGT rises: presented requests return to the siphon and their IDs stay taken, the lock manager is released with
BROKEN, MSGIN and the snoops are answered by the headgate (R326, R250), and one alarm is raised. -/
def setLevee (s : State) (n : Nat) (byHardware : Bool) : State :=
  if s.getB (Reg.HG_LEVEE n) 0 then s
  else
    let h := s.hgAt n
    let s := (s.setB (Reg.HG_LEVEE n) 0 true).setB (Reg.HG_LEVEE n) 3 (!h.entries.isEmpty)
    let s := s.updHg n (fun h => { h with
      staleIds := h.staleIds ++ h.entries.filterMap (fun e => if e.phase = .presented then e.treqId else none)
      entries := h.entries.map (fun e =>
        if e.phase = .presented ∨ e.phase = .message then { e with phase := .waiting, treqId := none } else e)
      lock := if h.lock.owner.isSome then h.lock.release true else h.lock,
      liveCycled := 0, leveeBelow := h.nextEntry })
    let s := answerSnoops s n
    let s := (cutMsgin s n).updHg n (fun h => { h with msgin := [] })
    s.hgAlarm n 0x4F (b2n byHardware)

/-- SIPHON_ANSWER: the oldest entry is answered with TARGET_DEAD, or a WRP is absorbed; DRAINING falls with the last of those
held at the levee (R326). -/
def siphonAnswer (s : State) (n : Nat) : State :=
  if !s.getB (Reg.HG_LEVEE n) 0 then s
  else
    let s := match (s.hgAt n).entries.find? (fun e => decide (e.phase ≠ .answer)) with
      | none => s
      | some e =>
        if e.op = opWRP then freeEntry (s.bump (Reg.HG_SIPHON_POST n) 1) n e.id
        else if openBlocks (s.hgAt n) < 1 then s
        else answer (s.bump (Reg.HG_SIPHON_TD n) 1) n e.id ocDead 0 []
    let s := settleTarget s n
    let h := s.hgAt n
    if h.entries.any (fun e => decide (e.id < h.leveeBelow)) then s else s.setB (Reg.HG_LEVEE n) 3 false

/-- TGT is cleared (R330): requests that came under the levee and still wait are checked as arriving. -/
def clearLevee (s : State) (n : Nat) : State :=
  let s := s.setB (Reg.HG_LEVEE n) 0 false
  let es := (s.hgAt n).entries.filter (fun e => !e.checked && decide (e.phase = .waiting))
  settleTarget (forEach es (fun e t => checkEntry t n e.id e.pkt.hdr) s) n

/-- The start of a running target timer (R317): of the TREQ presented under `id`, or that of the oldest waiting request, a MSG released
to MSGIN among them, while PORT_LIVE is low. -/
def targetTimer (h : Headgate) (id : Option (BitVec 9)) : Option Nat :=
  match id with
  | some i => (h.entries.find? (fun e => decide (e.treqId = some i.toNat) && decide (e.phase = .presented))).bind (·.presentedAt)
  | none =>
    if !h.portLive && h.entries.any (fun e => decide (e.phase = .waiting) || decide (e.phase = .message)) then h.liveFellAt else none

/-- A target timer that has reached its limit runs no more. -/
def Headgate.stopTimer (h : Headgate) (id : Option (BitVec 9)) : Headgate :=
  match id with
  | some i => { h with entries := h.entries.map (fun e => if e.treqId = some i.toNat then { e with presentedAt := none } else e) }
  | none => { h with liveFellAt := none }

/-- A target timer expires (R317). -/
def targetExpire (s : State) (n : Nat) (id : Option (BitVec 9)) : State :=
  match targetTimer (s.hgAt n) id with
  | none => s
  | some t =>
    let s := (s.advanceTo (t + targetLimit s n)).updHg n (fun h => h.stopTimer id)
    let c := Reg.HG_TGT_TMO n
    let s := s.setB c 12 true
    let s := match id with | some i => s.setF c 13 9 i.toNat | none => s
    let s := (s.bump (Reg.HG_TGT_TMO_CNT n) 1).hgAlarm n 0x47 ((id.getD 0).toNat + b2n id.isNone * 2 ^ 9)
    if s.getB (Reg.HG_LEVEE n) 1 then setLevee s n true else s

/-- HG_LEVEE.ISO_INIT rises (R329). -/
def setIso (s : State) (n : Nat) : State :=
  if s.getB (Reg.HG_LEVEE n) 2 then s else resetInitiator (s.setB (Reg.HG_LEVEE n) 2 true) n

/-! ### The remote levee and the pair reset (R328, R331) -/

/-- The home's memory accesses to `d` whose outcome has not arrived get TARGET_DEAD (R263, R328). -/
def deadMemory (s : State) (k d : Nat) : State :=
  let n := homeHg k
  let gone := (s.hsAt k).slots.filter (fun e => e.2.memOut &&
    decide ((blockTarget s n (decSlots s n) (2 ^ 35 + 64 * e.2.line)).1 = .hg d))
  forEach gone (fun e t =>
    let held := !(t.hgAt n).store.any (fun p => decide (p.kind = .req) && p.waiting && decide (p.pkt.hdr.tag.toNat = e.1))
    let b := match e.2.todo with | .rdMem :: _ => 2 | _ => 1
    let t := if held then t.updHg n (fun h => { h with poolUsed := h.poolUsed - b }) else t
    if hsFailed t k then t
    else
      let r := memEnds t k e.1 ocDead none
      runSlots 4096 k r.2 r.1) s

/-- Bit `d` of HG_DEAD_DEST rises at `n` (R328). -/
def setRemote (s : State) (n d : Nat) : State :=
  if deadDest s n d then s
  else
    let s := s.setB (Reg.HG_DEAD_DEST n (d / 64)) (d % 64) true
    let open_ (t : Txn) : Nat := (t.parts.filter (fun p => decide (p.target = d) && p.outcome.isNone)).length
    let c := sumBy open_ (s.hgAt n).txns
    let owed := (s.hgAt n).entries.filter (fun e => decide (e.phase = .answer) && decide (e.src = d))
    let s := if isHome n then deadMemory s (n - 100) d else s
    let s := s.updHg n (fun h => { (h.setTx d PairTx.reset) with
      store := h.store.filter (fun p => decide (p.dst ≠ d) || decide (p.kind = .gua))
      cmtIn := h.cmtIn.filter (fun p => decide (p.hdr.src.toNat ≠ d) || p.hdr.chcmt)
      txns := h.txns.map (fun t => { t with parts := t.parts.map (fun p =>
        if p.target = d ∧ p.outcome.isNone then { p with outcome := some ocDead, done := 0, data := [] } else p) }) })
    let s := s.bump (Reg.HG_SIPHON_TD n) c
    settleTarget (forEach owed (fun e t => freeEntry t n e.id) s) n

/-- HG_PAIR_RESET.GO with PEER `d` (R331); `held` says that HOLD stands with that PEER. -/
def pairReset (s : State) (n d : Nat) (held : Bool) : State :=
  let s := s.setF (Reg.HG_PAIR_RESET n) 0 8 d
  if 160 ≤ d ∨ !(uncommitted (s.hgAt n) d).isEmpty ∨ (!deadDest s n d ∧ !held) then s.setB (Reg.HG_PAIR_RESET n) 9 true
  else
    let s := s.setB (Reg.HG_PAIR_RESET n) 9 false
    let s := (s.setF (Reg.HG_ALLOT n d) 20 16 0).setF (Reg.HG_GRANT n d) 20 16 0
    s.updHg n (fun h =>
      { ((h.setTx d PairTx.reset).setRx d PairRx.reset) with taken := Tab.set h.taken d 0 })

/-- HG_PAIR_RESET.HOLD written with PEER `d`. -/
def pairHold (s : State) (n d : Nat) (hold : Bool) : State :=
  (s.setF (Reg.HG_PAIR_RESET n) 0 8 d).setB (Reg.HG_PAIR_RESET n) 10 hold

/-! ### Attachments and ports (R320, R403, R105, R126, R325) -/

/-- HG_ATTACH.USE written: a move clears the headgate's entries, demotes its channels and triggers passes (R181, R218). -/
def writeUse (s : State) (n : Nat) (use : Bool) : State :=
  if s.getF (Reg.HG_ATTACH n) 0 1 = b2n use then s
  else triggerAll (clearEntries (s.setF (Reg.HG_ATTACH n) 0 1 (b2n use)) n) n

/-- The enable bit of an end. -/
def setEnabled (s : State) (e : LEnd) (b : Bool) : State :=
  match e with
  | .rt i p => s.setB (Reg.RT_CTRL i) p b
  | .hg n l => s.setB (Reg.HG_ATTACH n) (8 + l) b

/-- A link end starts anew: full credits, heartbeat counts at 0, the first heartbeat not checked for a gap (R105, R126). -/
def restartLink (s : State) (e : LEnd) : State :=
  s.setLink e { LinkEnd.reset with hbAt := s.fclk }

/-- What an end still holds of packets partly received is given up as its port is disabled (log entry 21). -/
def dropPartial (s : State) (e : LEnd) : State :=
  match e with
  | .rt i p =>
    let s := forRange 9 (closeOpen i p) s
    let s := s.updRt i (fun r =>
      { (r.setArb p (r.arb p).drop).setGua p (r.guaArb p).drop with hbDue := Tab.set r.hbDue p false })
    sinkAll s i
  | .hg n l => s.updHg n (fun h => h.dropArriving l)

/-- PORT_EN, PRI_EN or SEC_EN written: it drives PORT_LIVE towards the far end, which declares the link where it falls
(R127). -/
def writeEnable (s : State) (e : LEnd) (b : Bool) : State :=
  if s.enabled e = b ∨ e.far.isNone then setEnabled s e b
  else
    let s := setEnabled s e b
    let s := if b then restartLink s e else dropPartial s e
    match e.far with
    | some f => if b then liveGained s f else liveLost s f
    | none => s

/-- PORT_CLEAR, PRI_CLEAR or SEC_CLEAR written: of a disabled port it clears the faulty state and resets the credits. -/
def clearPort (s : State) (e : LEnd) : State :=
  if s.enabled e then s
  else
    let s := match e with
      | .rt i p => s.setB (Reg.RT_PORT_STATUS i) (8 + p) false
      | .hg n l => s.setB (Reg.HG_ATTACH n) (2 + l) false
    let s := s.setCredits (Tab.set s.credits e.key [])
    restartLink (s.setWire e []) e

/-! ### The self-check (R314) -/

/-- A headgate's self-check finds a parity error. -/
def selfCheck (s : State) (n : Nat) (table : BitVec 8) : State := s.hgAlarm n 0x53 table.toNat

def execTargetTimeout (n : Hg) (id : Option (BitVec 9)) (s : State) : Out :=
  .next (if hasHai n then targetExpire s n id else s)
def execLeveeTgtSet (n : Hg) (s : State) : Out := .next (setLevee s n false)
def execSiphonAnswer (n : Hg) (s : State) : Out := .next (siphonAnswer s n)
def execIsoInitSet (n : Hg) (s : State) : Out := .next (setIso s n)
def execRemoteLeveeSet (n d : Hg) (s : State) : Out := .next (setRemote s n d)
def execPairResetGo (n : Hg) (peer : BitVec 8) (s : State) : Out := .next (pairReset s n peer.toNat (pairHeld s n peer.toNat))
def execPairResetHold (n : Hg) (peer : BitVec 8) (hold : Bool) (s : State) : Out := .next (pairHold s n peer.toNat hold)
def execAttachUseWrite (n : Hg) (use : Bool) (s : State) : Out := .next (writeUse s n use)
def execPortEnWrite (r : Rcv) (enable : Bool) (s : State) : Out := .next (writeEnable s (rcvEnd r) enable)
def execPortClear (r : Rcv) (s : State) : Out := .next (clearPort s (rcvEnd r))
def execHeadgateSelfCheck (n : Hg) (table : BitVec 8) (s : State) : Out := .next (selfCheck s n table)

end Sys2Proof.Machine
end

