-- ==== Sys2Proof/Machine/Paceline.lean ====
section
/-! DEFINITION. Paceline (chapter 7): the turn generator, the turn tree and the wheel, reservation entries, guaranteed packets
at source, relay and destination, and channel commits. -/

namespace Sys2Proof.Machine

/-! ### Snapshots (R416) -/

/-- The register that shows a live counter at the last snapshot. -/
def snapReg (key : Nat) : Nat :=
  if key < 2000 then (if key % 2 = 0 then Reg.PR_RTO_FLITS (key / 2) else Reg.PR_RTO_EVENT (key / 2))
  else
    let n := (key - 2000) / 3
    if (key - 2000) % 3 = 0 then Reg.PR_HGO_INJ n else if (key - 2000) % 3 = 1 then Reg.PR_HGO_EJ n else Reg.PR_HGO_EVENT n

/-- Every counting probe latches its counters in one cycle, and SNAP_SEQ counts the snapshot modulo 65536. -/
def takeSnapshot (s : State) : State :=
  let s := forEach s.pr.live (fun e t => t.setReg (snapReg e.1) (e.2.setWidth 64)) s
  s.setF Reg.PR_STATUS 0 16 (s.getF Reg.PR_STATUS 0 16 + 1)

/-! ### The turn generator (R193 to R197) -/

/-- K of a value of CK_TURN_CFG, between its limits (Table 7-13). -/
def turnsPerSecond (k : Nat) : Nat := clip 50000 159744 k

/-- K in force in second `sec`: a change takes effect at the next second boundary (R194). -/
def turnK (s : State) (sec : Nat) : Nat :=
  match s.bd.pendingK with
  | some (old, since) => if sec ≤ since then old else turnsPerSecond (s.getF Reg.CK_TURN_CFG 0 18)
  | none => turnsPerSecond (s.getF Reg.CK_TURN_CFG 0 18)

/-- The generator's own copy of the time, in nanoseconds, when it was last set. -/
def ownSet (s : State) : Nat := s.bd.ownSec.toNat * 1000000000 + s.bd.ownNs.toNat

/-- The second of the generator's time: of the input, or of its own copy, 5 ns further each TCLK cycle of 8 FCLK cycles (R196). -/
def ownSecond (s : State) : Nat :=
  if s.bd.time.valid then s.bd.ownSec.toNat else (ownSet s + 5 * ((s.fclk - s.bd.ownAt) / 8)) / 1000000000

/-- The latest turn whose nominal time `floor(j * 10^9 / K)` has been reached at `ns` (R193). -/
def latestTurn (k ns : Nat) : Nat := ((ns + 1) * k - 1) / 1000000000

/-- Turns between the last one issued and turn `j` of second `sec`. -/
def turnsBetween (s : State) (sec j : Nat) : Nat :=
  match s.bd.lastTurn with
  | none => 0
  | some (s0, j0) =>
    if sec = s0 then j - j0 - 1
    else (turnK s s0 - 1 - j0) + fullSeconds s s0 (sec - s0 - 1) + j
where
  /-- The turns of the `m` seconds after second `s0`. -/
  fullSeconds (s : State) (s0 m : Nat) : Nat :=
    match s.bd.pendingK with
    | some (old, since) => min m (since - s0) * old + (m - (since - s0)) * turnsPerSecond (s.getF Reg.CK_TURN_CFG 0 18)
    | none => m * turnsPerSecond (s.getF Reg.CK_TURN_CFG 0 18)

/-- Turn `j` of second `sec` comes after the last turn issued. -/
def turnIsNew (s : State) (sec j : Nat) : Bool :=
  match s.bd.lastTurn with
  | none => true
  | some (s0, j0) => decide (s0 < sec) || (decide (s0 = sec) && decide (j0 < j))

/-- The own copy of the time as it stands at the event: TCLK cycles pass until it has reached `sec`, `ns`, and it is never set
back (R196). -/
def holdoverTime (s : State) (sec : BitVec 48) (ns : BitVec 32) : State :=
  let ticks := max ((s.fclk - s.bd.ownAt) / 8) ((sec.toNat * 1000000000 + ns.toNat - ownSet s + 4) / 5)
  let now := ownSet s + 5 * ticks
  (s.advanceTo (s.bd.ownAt + 8 * ticks)).setBd { s.bd with
    ownSec := BitVec.ofNat 48 (now / 1000000000), ownNs := BitVec.ofNat 32 (now % 1000000000), ownAt := s.bd.ownAt + 8 * ticks }

/-- The time the generator sees in a TCLK cycle: the input, or in holdover its own copy (R196). -/
def generatorTime (s : State) (sec : BitVec 48) (ns : BitVec 32) : State :=
  if s.bd.time.valid then
    s.setBd { s.bd with time := { s.bd.time with sec := sec, ns := ns }, ownSec := sec, ownNs := ns, ownAt := s.fclk }
  else if s.bd.everValid then holdoverTime s sec ns
  else s

/-- The pulse of turn `j` of second `sec`, deferred to 10,016 FCLK cycles after the last (R197). -/
def issuePulse (s : State) (sec j : Nat) : State :=
  let s := s.bump Reg.CK_TURN_SKIP (turnsBetween s sec j)
  let s := match s.bd.lastPulseAt with
    | some t => if s.fclk < t + 10016 then (s.bump Reg.CK_TURN_LATE 1).advanceTo (t + 10016) else s
    | none => s
  let s := (s.setB Reg.CK_TURN_STATUS 0 true).setF Reg.CK_TURN_STATUS 3 18 j
  s.setBd { s.bd with lastTurn := some (sec, j), lastPulseAt := some s.fclk, turnOut := some j,
                             pendingK := s.bd.pendingK.filter (fun x => decide (sec ≤ x.2)) }

/-- TURN_PULSE_ISSUE: one pulse for the latest boundary the generator's time has passed (R193, R196). -/
def issueTurn (s : State) (sec : BitVec 48) (ns : BitVec 32) : State :=
  let s := generatorTime s sec ns
  let now := s.bd.ownSec.toNat
  let j := latestTurn (turnK s now) s.bd.ownNs.toNat
  if !s.bd.everValid ∨ !s.getB Reg.CK_TURN_CFG 18 ∨ !turnIsNew s now j then s else issuePulse s now j

/-- TIME_VALID_CHANGE (R196): holdover begins, or ends at the input. -/
def timeValid (s : State) (valid : Bool) (sec : BitVec 48) (ns : BitVec 32) : State :=
  let s := s.setB Reg.CK_TURN_STATUS 1 valid
  if valid then
    s.setBd { s.bd with time := { sec := sec, ns := ns, valid := true }, everValid := true, ownSec := sec, ownNs := ns
                        ownAt := s.fclk }
      |>.setB Reg.CK_TURN_STATUS 2 false
  else
    let s := if s.bd.everValid then s.setB Reg.CK_TURN_STATUS 2 true else s
    s.setBd { s.bd with time := { s.bd.time with valid := false } }

/-! ### Reservation entries (R202 to R206, R213, R214, R222) -/

/-- The entry fires in turns `j` with `j mod M = P`, where its fields let it fire at all (Table 7-2). -/
def entFires (w : Word) (j : Nat) : Bool :=
  bit w 63 && decide (entStart w ≤ 9215) && decide (1 ≤ entFlits w) && decide (entFlits w ≤ 9) && decide (1 ≤ entMod w) &&
  decide (entPhase w < entMod w) && decide (entKind w ≠ 3) && decide (j % entMod w = entPhase w)

/-! ### The turn tree and the wheel (R198 to R200) -/

/-- The wheel counter of a headgate still runs: cycles 0 to 9215 from the pulse that started it. -/
def counterRuns (s : State) (n : Nat) : Bool :=
  match (s.hgAt n).wheelAt with
  | some t => decide (s.fclk < t + 9216)
  | none => false

/-- The wheel of a headgate runs: its counter does, and the turn's pulse started it. -/
def wheelRuns (s : State) (n : Nat) : Bool := !(s.hgAt n).wheelOff && counterRuns s n

/-- The firings of turn `j` at headgate `n` that send packets on the timetable: ordinary and relay entries, and the replay entries
of demoted channels (R199, R218). -/
def turnFirings (s : State) (n j : Nat) : List (Bool × Nat × Nat) :=
  (List.range 256).filterMap (fun e =>
    let w := s.reg (Reg.HG_PL_ENTRY n e)
    if entFires w j && (decide (entKind w ≠ 1) || demotedAt s n (entChan w)) then some (decide (entKind w = 2), entChan w, s.fclk + entStart w)
    else none)
where
  /-- The channel is demoted at its source. -/
  demotedAt (s : State) (n c : Nat) : Bool := match srcRec s n c with | some (i, _) => ((s.hgAt n).chanAt i).demoted | none => false

/-- The pulse at headgate `n`: its wheel starts, or the turn tree is at fault and what would have fired waits (R199). -/
def pulseAt (j : Nat) (bad : BitVec 160) (n : Nat) (s : State) : State :=
  let parity := bad.getLsbD n
  let mid := counterRuns s n
  if parity || mid then
    let s := s.updHg n (fun h => { h with
      turn := if parity then h.turn else j, pulseAt := some s.fclk, wheelOff := true, missed := h.missed ++ turnFirings s n j, fired := [] })
    (s.setB (Reg.HG_PL_STATUS n) 1 true).hgAlarm n 0x4E (b2n parity + 2 * b2n mid)
  else s.updHg n (fun h => { h with turn := j, pulseAt := some s.fclk, wheelAt := some s.fclk, wheelOff := false, fired := [] })

/-- TURN_PULSE_ARRIVAL: all 160 headgates in one cycle; a snapshot at the turns PR_CTL names (R198, R416). -/
def turnArrives (s : State) (bad : BitVec 160) : State :=
  match s.bd.turnOut with
  | none => s
  | some j =>
    let s := forRange 160 (pulseAt j bad) (s.setBd { s.bd with turnOut := none })
    let every := s.getF Reg.PR_CTL 1 18
    if every ≠ 0 ∧ j % every = 0 then takeSnapshot s else s

/-- TURN_MISS_TIMEOUT: no pulse for 16 nominal turn lengths (R199). -/
def turnMiss (s : State) (n : Nat) : State :=
  let k := turnsPerSecond (s.getF Reg.CK_TURN_CFG 0 18)
  let s := s.advanceTo (((s.hgAt n).pulseAt.getD 0) + 16 * 1600000000 / k)
  (s.setB (Reg.HG_PL_STATUS n) 2 true).hgAlarm n 0x4E 4

/-! ### Firing -/

/-- A mask from the numbers of its bits. -/
def maskNats (l : List Nat) : BitVec 16 := BitVec.ofNat 16 (sumBy (fun i => 2 ^ i) l)

/-- The bits of the used entries of a list. -/
def usedMask (l : List Nat) : BitVec 16 :=
  maskNats ((List.range l.length).filter (fun i => decide (cellOf l i ≠ 255)))
where
  /-- Byte `i` of a list. -/
  cellOf (l : List Nat) (i : Nat) : Nat := (l[i]?).getD 255

/-- The headgates that own the pending bits of a channel's packets (R213). -/
def ownersOf (s : State) (n : Nat) (rec : Word) (e : Word) : List Nat :=
  if recRelayed rec then setBytes s n (recFset rec) else entList s n e

/-- The headgate of the source's list that carries final destination `g` (R222). -/
def carrierOf (s : State) (n : Nat) (rec : Word) (g : Nat) : Nat :=
  if recRelayed rec then
    match (setBytes s n (recFset rec)).findIdx? (fun x => decide (x = g)) with
    | some i => ((setBytes s n (recRset rec))[i]?).getD 255
    | none => g
  else g

/-- The list entries that carry the owners of the bits in `due`. -/
def sendMask (s : State) (n : Nat) (rec : Word) (e : Word) (owners : List Nat) (due : BitVec 16) : BitVec 16 :=
  let carriers := (bitsOf due 16).map (fun i => carrierOf s n rec ((owners[i]?).getD 255))
  let l := entList s n e
  maskNats ((List.range l.length).filter (fun k => carriers.contains ((l[k]?).getD 255)))

/-- The flits of a guaranteed packet to the entries of `mask` that the attachment map of `n` can reach (R95, R97, R203). None
where nothing can be reached. -/
def guaFlits (s : State) (n : Nat) (w : Word) (mask : BitVec 16) (p : Pkt) : List Flit :=
  let l := entList s n w
  let ok (k : Nat) : Bool := mask.getLsbD k && attachValid s n ((l[k]?).getD 255)
  if entMc w then
    let ext := sumBy (fun k =>
      let d := (l[k]?).getD 255
      if d = 255 then 0 else (d + (if attachValid s n d then attachNode s n d else 0) * 2 ^ 8) * 2 ^ (16 * k)) (List.range 16)
    let m := maskNats ((List.range 16).filter ok)
    if m = 0 then []
    else
      Pkt.flits { p with ext := BitVec.ofNat 320 ext, hdr := { p.hdr with dst := 255, dnode := 0, wnode := 0, wpv := 0 } } 8 0 true m
  else if ok 0 then
    let d := entDsel w
    let h := { p.hdr with dst := BitVec.ofNat 8 d, dnode := BitVec.ofNat 8 (attachNode s n d), wnode := 0, wpv := 0 }
    Pkt.flits { p with ext := 0, hdr := h } 8 (injectLaport s n h) false 0
  else []

/-- A guaranteed packet of entry `e` leaves from cycle `s.fclk`; one still under way delays it (R206). -/
def fireFlits (s : State) (n e : Nat) (fs : List Flit) : State :=
  let h := s.hgAt n
  let coll := decide (s.fclk < h.injBusyUntil)
  let s := if coll then
      ((s.bump (Reg.HG_PL_COLL n) 1).setB (Reg.HG_PL_STATUS n) 0 true).hgAlarm n 0x4D (e + h.injEntry * 2 ^ 8)
    else s
  let s := if coll then match fs with | f :: _ => markLate s f | [] => s else s
  let s := s.updHg n (fun h => { h with injBusyUntil := max s.fclk h.injBusyUntil + fs.length, injEntry := e })
  let s := s.hgEvent n 7 1
  if linkUp s n then launch s n fs true else s

/-- The destinations a staged packet is due for (R214): those a channel ENAK named, and at a replay entry in a later turn every
one still pending. -/
def dueMask (p : StPkt) (pulse : Nat) (replayEntry : Bool) : BitVec 16 :=
  if p.waiting then 0 else if replayEntry ∧ p.lastTurn < pulse then p.pend else p.due &&& p.pend

/-- The packet an ordinary or replay entry takes (R204), by its place in the store. -/
def pickStaged (s : State) (n c : Nat) (replayEntry demoted : Bool) (pulse : Nat) : Option Nat :=
  let h := s.hgAt n
  let mine (p : StPkt) : Bool := decide (p.kind = .gua) && decide (p.pkt.hdr.gchan = c)
  let fresh := h.store.findIdx? (fun p => mine p && p.waiting && decide (p.accAt + 4 ≤ s.fclk))
  let due := h.store.findIdx? (fun p => mine p && decide (dueMask p pulse replayEntry ≠ 0))
  let waits := (h.store.filter (fun p => mine p && p.waiting)).length
  if replayEntry then
    match due with
    | some k => some k
    | none => if demoted ∨ 1 < waits then fresh else none
  else
    match fresh with
    | some k => some k
    | none => due

/-- A packet of channel `c` held since cycle `since` fires: whether a turn without a wheel kept it back, and the missed firings left
(R199; when a missed firing makes a packet late is log entry 74). Those before `since` would have found nothing. -/
def takeMissed (l : List (Bool × Nat × Nat)) (relay : Bool) (c since : Nat) : Bool × List (Bool × Nat × Nat) :=
  let l := l.filter (fun x => !(decide (x.1 = relay) && decide (x.2.1 = c) && decide (x.2.2 < since)))
  match l.findIdx? (fun x => decide (x.1 = relay) && decide (x.2.1 = c)) with
  | some k => (true, dropNth l k)
  | none => (false, l)

/-- The staged packet at place `k` fires: its first injection takes SEQ and TURN, a replay keeps them (R204, R213, R214). -/
def fireStaged (s : State) (n e k : Nat) (w : Word) (i : Nat) (rec : Word) (pulse : Nat) : State :=
  match (s.hgAt n).store[k]? with
  | none => s
  | some p =>
    let h := s.hgAt n
    let c := h.chanAt i
    let ep := curEpoch s n
    if p.waiting then
      let owners := ownersOf s n rec w
      let pend := usedMask owners
      let hd := { p.pkt.hdr with
        seq := c.seq, epoch := ep, attr := setBit p.pkt.hdr.attr 4 false
        xinfo := BitVec.ofNat 32 (entChan w * 2 ^ 20 + h.turn % 256 * 2 ^ 12) }
      let q := { p with pkt := { p.pkt with hdr := hd }, waiting := false, owners := owners, pend := pend, due := 0,
                        lastTurn := pulse, stamps := p.stamps ++ [ep] }
      let (kept, missed) := takeMissed h.missed false (entChan w) (p.accAt + 4)
      let late := decide (entKind w = 1) || kept
      let s := s.setHg n { (h.setChan i { c with seq := c.seq + 1 }) with
        missed := missed
        store := if pend = 0 then dropNth h.store k else setNth h.store k q }
      let s := if late then s.setLateGua (s.lateGua ++ [(entChan w, c.seq.toNat)]) else s
      fireFlits s n e (guaFlits s n w (usedMask (entList s n w)) q.pkt)
    else
      let due := dueMask p pulse (entKind w = 1)
      let q := { p with pkt := { p.pkt with hdr := { p.pkt.hdr with epoch := ep, attr := setBit p.pkt.hdr.attr 4 true } },
                        due := p.due &&& ~~~due, lastTurn := pulse, stamps := p.stamps ++ [ep] }
      let s := s.setHg n { h with store := setNth h.store k q }
      let s := s.hgEvent n 3 1
      fireFlits s n e (guaFlits s n w (sendMask s n rec w p.owners due) q.pkt)

/-- A relay entry sends the oldest packet held for relay to its whole set (R222). -/
def fireRelay (s : State) (n e : Nat) (w : Word) : State :=
  match recOf s n (entChan w) with
  | none => s.bump (Reg.HG_PL_EMPTY n) 1
  | some (i, _) =>
    let c := (s.hgAt n).chanAt i
    match c.relay with
    | [] => s.bump (Reg.HG_PL_EMPTY n) 1
    | (since, p) :: rest =>
      let (kept, missed) := takeMissed (s.hgAt n).missed true (entChan w) since
      let s := s.updHg n (fun h => { (h.setChan i { c with relay := rest }) with missed := missed })
      let s := if kept then s.setLateGua (s.lateGua ++ [(p.hdr.gchan, p.hdr.seq.toNat)]) else s
      let p := { p with hdr := { p.hdr with epoch := curEpoch s n } }
      fireFlits s n e (guaFlits s n w (usedMask (entList s n w)) p)

/-- ENTRY_FIRE: the wheel of `n` reaches the entry's start in a turn it fires in (R204). -/
def fireEntry (s : State) (n e : Nat) : State :=
  let w := s.reg (Reg.HG_PL_ENTRY n e)
  let h := s.hgAt n
  match h.wheelAt with
  | none => s
  | some t =>
    if !wheelRuns s n ∨ h.fired.contains e ∨ !entFires w h.turn then s
    else
      let s := (s.advanceTo (t + entStart w)).updHg n (fun h => { h with fired := h.fired ++ [e] })
      if entKind w = 2 then fireRelay s n e w
      else
        match srcRec s n (entChan w) with
        | none => s.bump (Reg.HG_PL_EMPTY n) 1
        | some (i, rec) =>
          match pickStaged s n (entChan w) (entKind w = 1) ((s.hgAt n).chanAt i).demoted t with
          | none => s.bump (Reg.HG_PL_EMPTY n) 1
          | some k => fireStaged s n e k w i rec t

/-! ### Destinations (R208 to R212, R222) -/

/-- A channel ECMT with CSEQ = NEXT - 1 toward the channel's source (R212). -/
def sendChanEcmt (s : State) (n i src : Nat) (rec : Word) : State :=
  let c := (s.hgAt n).chanAt i
  let s := sendCmt s n src opECMT ((c.seq - 1).toNat * 2 ^ 16 + 2 ^ 15 + recChan rec)
  s.updHg n (fun h => h.setChan i { h.chanAt i with ecmtAt := some s.fclk })

/-- The agent of `n` takes no guaranteed packet (R211, R326, R353). -/
def guaDiscards (s : State) (n : Nat) : Bool :=
  !hasHai n || !(s.hgAt n).portLive || s.getB (Reg.HG_LEVEE n) 0 || s.getB (Reg.HG_DOM_STATUS n) 2

/-- Packets in the buffers of a record. -/
def chanHeld (c : ChanSt) : Nat := c.buffered + c.held.length
def relayHeld (c : ChanSt) : Nat := c.relay.length + c.held.length

/-- The buffers of record `i` have room for one more packet; a packet discarded at commit needs none as a destination. -/
def chanRoom (s : State) (n i : Nat) (rec : Word) (discard : Bool) : Bool :=
  let c := (s.hgAt n).chanAt i
  (!recDst rec || discard || decide (chanHeld c < recDbuf rec)) && (!recRelay rec || decide (relayHeld c < recDbuf rec))

/-- A packet is discarded for want of buffer (R209, R480). -/
def chanDrop (s : State) (n i : Nat) (full : Bool) : State :=
  let s := s.updHg n (fun h => let c := h.chanAt i; h.setChan i { c with drop := satAdd 16 c.drop 1 })
  if full then s.setB (Reg.HG_PL_STATUS n) 3 true else s

/-- The packet in order is committed: presented or discarded as a destination, held as a relay, and due for a channel commit. -/
def commitGua (s : State) (n i : Nat) (rec : Word) (p : Pkt) : State :=
  let dst := recDst rec
  let disc := guaDiscards s n
  let late := p.hdr.replay || s.lateGua.contains (p.hdr.gchan, p.hdr.seq.toNat)
  let inWheel := match (s.hgAt n).wheelAt with | some t => decide (s.fclk < t + 9215) | none => false
  let s := s.updHg n (fun h =>
    let c := h.chanAt i
    let c := { c with seq := c.seq + 1, peer := p.hdr.src.toNat, relay := if recRelay rec then c.relay ++ [(s.fclk, p)] else c.relay }
    if !dst then h.setChan i c
    else
      let c := { c with late := if late then satAdd 16 c.late 1 else c.late, commitTurn := c.commitTurn || inWheel }
      if disc then h.setChan i { c with drop := satAdd 16 c.drop 1 }
      else
        let m : MsgIn := { src := p.hdr.src, tag := BitVec.ofNat 12 p.hdr.gchan, bytes := p.hdr.bytes, gua := true, data := p.data,
                           sent := 0, entry := none, chanRec := i }
        { (h.setChan i { c with buffered := c.buffered + 1 }) with msgin := h.msgin ++ [m] })
  let s := s.hgEvent n 6 1
  if dst ∧ !inWheel then sendChanEcmt s n i p.hdr.src.toNat rec else s

/-- Held successors commit in order. -/
def commitSucc (n i : Nat) (rec : Word) : Nat → State → State
  | 0, s => s
  | k + 1, s =>
    let c := (s.hgAt n).chanAt i
    match c.held.find? (fun p => decide (p.hdr.seq = c.seq)) with
    | none => s
    | some p =>
      let s := s.updHg n (fun h => h.setChan i { c with held := c.held.filter (fun q => decide (q.hdr.seq ≠ c.seq)) })
      commitSucc n i rec k (commitGua s n i rec p)

/-- A duplicate at a destination: counted, and answered with a channel commit unless one went within 64 cycles (R209, R212). -/
def guaDuplicate (s : State) (n i : Nat) (rec : Word) (src : Nat) : State :=
  let s := s.bump (Reg.HG_DUP_DROP n) 1
  if recDst rec ∧ spaced s ((s.hgAt n).chanAt i).ecmtAt then sendChanEcmt s n i src rec else s

/-- GDATA_ARRIVAL: the next checked guaranteed packet is classified (Table 7-3). -/
def guaArrives (s : State) (n : Nat) : State :=
  match (s.hgAt n).gdataIn with
  | [] => s
  | p :: rest =>
    let s := s.updHg n (fun h => { h with gdataIn := rest })
    match recOf s n p.hdr.gchan with
    | none => s.bump (Reg.HG_DUP_DROP n) 1
    | some (i, rec) =>
      let c := (s.hgAt n).chanAt i
      let d := (p.hdr.seq - c.seq).toNat
      let src := p.hdr.src.toNat
      if !(dbufPlan s n).1.contains i then chanDrop s n i false
      else if d = 0 then
        if chanRoom s n i rec (guaDiscards s n) then commitSucc n i rec c.held.length (commitGua s n i rec p)
        else chanDrop s n i true
      else if d ≤ 255 then
        if c.held.any (fun q => decide (q.hdr.seq = p.hdr.seq)) then guaDuplicate s n i rec src
        else if chanRoom s n i rec false then s.updHg n (fun h => h.setChan i { c with held := c.held ++ [p] })
        else chanDrop s n i true
      else if 65280 ≤ d then
        if recRelay rec ∧ p.hdr.replay then
          let s := if relayHeld c < recDbuf rec then s.updHg n (fun h => h.setChan i { c with relay := c.relay ++ [(s.fclk, p)] })
            else chanDrop s n i true
          if recDst rec then guaDuplicate s n i rec src else s
        else guaDuplicate s n i rec src
      else
        let s := (s.bump (Reg.HG_SEQ_FAULT n) 1).setB (Reg.HG_PL_STATUS n) 4 true
        s.hgAlarm n 0x49 (src + 2 ^ 8 + p.hdr.gchan * 2 ^ 9 + p.hdr.seq.toNat * 2 ^ 21)

/-- WHEEL_END: at wheel cycle 9215 every channel committed during the wheel is answered (R212). -/
def wheelEnds (s : State) (n : Nat) : State :=
  match (s.hgAt n).wheelAt with
  | none => s
  | some t =>
    forEach (chanRecs s n) (fun r u =>
      let c := (u.hgAt n).chanAt r.1
      if c.commitTurn ∧ recDst r.2 then
        (sendChanEcmt u n r.1 c.peer r.2).updHg n (fun h => h.setChan r.1 { h.chanAt r.1 with commitTurn := false })
      else u) (s.advanceTo (t + 9215))

/-! ### Channel commits at the source (R213, R214, R222) -/

/-- A staged packet after a commit from `d`: the bits `d` owns are cleared where the packet lies before `seq` by at least
`least`. -/
def clearBits (d : Nat) (seq : Seq) (least : Nat) (p : StPkt) : StPkt :=
  let off := (seq - p.pkt.hdr.seq).toNat
  if p.waiting ∨ off < least ∨ 32768 ≤ off then p
  else
    let mine := maskNats ((List.range p.owners.length).filter (fun i => decide (p.owners[i]? = some d)))
    { p with pend := p.pend &&& ~~~mine, due := p.due &&& ~~~mine }

/-- The packet an ENAK names is due again for the owners of `who`. -/
def markDue (who : List Nat) (seq : Seq) (p : StPkt) : StPkt :=
  if p.waiting ∨ p.pkt.hdr.seq ≠ seq then p
  else
    let mine := maskNats ((List.range p.owners.length).filter (fun i => who.contains ((p.owners[i]?).getD 255)))
    { p with due := p.due ||| (mine &&& p.pend) }

/-- Packets of channel `c` changed by `f`; those with no pending bit left are freed. -/
def updStaged (s : State) (n c : Nat) (f : StPkt → StPkt) : State :=
  let mine (p : StPkt) : Bool := decide (p.kind = .gua) && decide (p.pkt.hdr.gchan = c)
  let l := (s.hgAt n).store.map (fun p => if mine p then f p else p)
  let gone := (l.filter (fun p => mine p && !p.waiting && decide (p.pend = 0))).map (fun p => (c, p.pkt.hdr.seq.toNat))
  let s := s.updHg n (fun h => { h with store := l.filter (fun p => !(mine p && !p.waiting && decide (p.pend = 0))) })
  s.setLateGua (s.lateGua.filter (fun x => !gone.contains x))

/-- The final destinations that reach their copy through `r`. -/
def throughRelay (s : State) (n : Nat) (rec : Word) (r : Nat) : List Nat :=
  if recRelayed rec then
    (List.zip (setBytes s n (recFset rec)) (setBytes s n (recRset rec))).filterMap (fun x =>
      if x.2 = r ∧ x.1 ≠ r ∧ x.1 ≠ 255 then some x.1 else none)
  else []

/-- CHANNEL_COMMIT_RECEIVED: a channel ECMT, else a channel ENAK, of the inbox. -/
def chanCommit (s : State) (n : Nat) : State :=
  match takeCmt (s.hgAt n) opECMT true with
  | (some p, h) =>
    let s := s.setHg n h
    match srcRec s n p.hdr.cchan with
    | none => s
    | some _ => updStaged s n p.hdr.cchan (clearBits p.hdr.src.toNat (BitVec.ofNat 16 p.hdr.txn) 0)
  | (none, _) =>
    match takeCmt (s.hgAt n) opENAK true with
    | (none, _) => s
    | (some p, h) =>
      let s := s.setHg n h
      let d := p.hdr.src.toNat
      let nseq : Seq := BitVec.ofNat 16 p.hdr.txn
      match srcRec s n p.hdr.cchan with
      | none => s
      | some (_, rec) =>
        let s := s.bump (Reg.HG_ENAK_RX n) 1
        match throughRelay s n rec d with
        | [] => updStaged s n p.hdr.cchan (fun q => markDue [d] nseq (clearBits d nseq 1 q))
        | far => updStaged s n p.hdr.cchan (markDue (d :: far) nseq)

/-! ### The meanings -/

def execTurnPulseIssue (sec : BitVec 48) (ns : BitVec 32) (s : State) : Out := .next (issueTurn s sec ns)
def execTimeValidChange (valid : Bool) (sec : BitVec 48) (ns : BitVec 32) (s : State) : Out := .next (timeValid s valid sec ns)
def execTurnPulseArrival (bad : BitVec 160) (s : State) : Out := .next (turnArrives s bad)
def execTurnMissTimeout (n : Hg) (s : State) : Out := .next (turnMiss s n)
def execEntryFire (n : Hg) (e : Fin 256) (s : State) : Out := .next (fireEntry s n e)
def execWheelEnd (n : Hg) (s : State) : Out := .next (wheelEnds s n)
def execGdataArrival (n : Hg) (s : State) : Out := .next (guaArrives s n)
def execChannelCommitReceived (n : Hg) (s : State) : Out := .next (chanCommit s n)

end Sys2Proof.Machine
end

