-- ==== Sys2Proof/Machine/Reservoir.lean ====
section
/-! DEFINITION. The Reservoir (chapter 10): ports and chunks, bank arbitration, the bank array with merged writes, atomics and
poison, the scrub, and the bank lock managers with the lock limit timer. -/

namespace Sys2Proof.Machine

/-! ### The array (R280, R286, R288) -/

/-- What a byte nothing has written reads as (log entry 20). -/
def Memory.unwritten (_ : Nat) : Byte := 0

/-- The canonical form of the memory: offsets rising, and no byte listed that an unlisted offset reads as. -/
abbrev Memory.wf (m : List Host.Cell) : Prop := Tab.wf Memory.unwritten m = true

/-- The byte at offset O. -/
def Memory.read (m : List Host.Cell) (o : Nat) : Byte := Tab.get m (Memory.unwritten o) o

/-- The byte at offset O written. -/
def Memory.write (m : List Host.Cell) (o : Nat) (b : Byte) : List Host.Cell := Tab.put Memory.unwritten m o b

/-- Beat `l` = O[23:6]. -/
def Memory.line (m : List Host.Cell) (l : Nat) : Line := lineOf (fun k => Memory.read m (64 * l + k))

/-- The enabled bytes of beat `l` written. -/
def Memory.writeLine (m : List Host.Cell) (l : Nat) (d : Line) (be : BitVec 64) : List Host.Cell :=
  (List.range 64).foldl (fun m k => if be.getLsbD k then Memory.write m (64 * l + k) (byteOf d k) else m) m

/-- The poison bit of a beat set or cleared; the list stays ascending. -/
def setPoison (ps : List Nat) (l : Nat) (b : Bool) : List Nat :=
  let rest := ps.filter (fun x => decide (x ≠ l))
  if b then rest.filter (fun x => decide (x < l)) ++ [l] ++ rest.filter (fun x => decide (l < x)) else rest

/-- Each 8-byte word has all its enables or none: the write needs no merge (R286). -/
def wholeWords (be : BitVec 64) : Bool :=
  (List.range 8).all (fun k => decide (field be (8 * k) 8 = 0) || decide (field be (8 * k) 8 = 255))

/-- The inner code's finding on a bank's read: counted, flagged and reported; answers whether the beat is bad (R288). -/
def bankErr (s : State) (b l : Nat) (err : MemErr) : Bool × State :=
  match err with
  | .ok => (false, s)
  | .corrected => (false, (s.bump Reg.RV_SRAM_CORR 1).setB Reg.RV_STATUS 0 true)
  | _ =>
    let s := (s.bump Reg.RV_SRAM_UNCORR 1).setB Reg.RV_STATUS 1 true
    (true, s.alarm stReservoir 0xC0 b (l / 128 + (l % 4) * 2 ^ 11))

/-! ### Ports and chunks (R283) -/

/-- The request brings no access to a bank: an UNLK, and a WRUL whose write is refused, which goes on as one (R306). -/
def Entry.bare (e : Entry) : Bool := decide (e.op = opUNLK) || e.noWrite

/-- The request ends its master's lock (Table 5-1). -/
def Entry.ends (e : Entry) : Bool := decide (e.op = opWRUL) || decide (e.op = opUNLK)

/-- The request returns read data. -/
def Entry.reads (e : Entry) : Bool := decide (e.op = opRD) || decide (e.op = opRDLK) || decide (e.op = opATOM)

/-- The bank of a chunk. -/
def Chunk.bank (c : Chunk) : Nat := bankOf (c.lo.toNat % 2 ^ 24)

/-- A chunk over bytes `a .. z`; a bare one brings no beat. -/
def mkChunk (bare : Bool) (a z : Nat) : Chunk :=
  { lo := BitVec.ofNat 48 a, bytes := BitVec.ofNat 9 (z - a), reach := none, held := false, passed := false, sent := false,
    beats := if bare then 0 else z / 64 - a / 64 + 1, granted := 0, data := [], performed := 0, outcome := none,
    done := 0 }

/-- The chunks of a request: one for each 256-byte block of its allowed range (R283). -/
def cutChunks (e : Entry) : List Chunk :=
  let a := e.lo.toNat
  let z := if e.bare then a else a + e.bytes.toNat
  if a / 256 = z / 256 then [mkChunk e.bare a z]
  else [mkChunk e.bare a (a / 256 * 256 + 255), mkChunk e.bare (a / 256 * 256 + 256) z]

/-- The bank has granted the chunk's last beat, or it needs none. -/
def Chunk.through (c : Chunk) : Bool := c.outcome.isSome || (c.sent && decide (c.beats ≤ c.granted))

/-- Every chunk of the entry is through. -/
def Entry.through (e : Entry) : Bool := !e.chunks.isEmpty && e.chunks.all Chunk.through

/-- The entries of a Reservoir port that its matrix serves. -/
def portEntries (s : State) (p : Nat) : List Entry :=
  (s.hgAt (117 + p)).entries.filter (fun e => e.checked && (decide (e.phase = .waiting) || decide (e.phase = .inside)))

/-- Earlier requests of the same source context are through (R283). -/
def ctxFree (s : State) (p : Nat) (e : Entry) : Bool :=
  (portEntries s p).all (fun x => decide (e.id ≤ x.id) || decide (x.master ≠ e.master) || x.through)

/-- Chunk `c` of entry `id` at port `p`. -/
def chunkAt (s : State) (p id c : Nat) : Option Chunk := (entryAt (s.hgAt (117 + p)) id).bind (fun e => e.chunks[c]?)

/-- That chunk changed. -/
def updChunk (s : State) (p id c : Nat) (f : Chunk → Chunk) : State :=
  s.updHg (117 + p) (fun h => h.updEntry id (fun e =>
    match e.chunks[c]? with
    | some x => { e with chunks := setNth e.chunks c (f x) }
    | none => e))

/-- Read beats that take room in a port's return buffer: sent and not performed, or waiting with their answer for the
headgate (R282). -/
def returnUsed (s : State) (p : Nat) : Nat :=
  sumBy (fun e =>
    if e.reads then
      if e.phase = .answer then e.rdata.length else sumBy (fun c => if c.sent then c.beats - c.performed else 0) e.chunks
    else 0) (s.hgAt (117 + p)).entries

/-- The bank's queue for the port has room for the chunk's beats, and for a read the return buffer (R282, R284). -/
def chunkRoom (s : State) (p : Nat) (e : Entry) (x : Chunk) : Bool :=
  let mine := ((s.bankAt x.bank).queue.filter (fun q => decide (q.port = p))).length
  e.bare || (decide (mine + x.beats ≤ 4) && (!e.reads || decide (returnUsed s p + x.beats ≤ 8)))

/-! ### Judgement by the bank lock managers (R290 to R292) -/

/-- The bank a master owns. -/
def ownedBank (s : State) (m : Nat × Ctx) : Option Nat :=
  (List.range 32).find? (fun b => decide ((s.bankAt b).lock.owner = some m))

/-- Chunks that have reached a manager and are not through: port, entry, number and chunk. -/
def reachedChunks (s : State) : List (Nat × Entry × Nat × Chunk) :=
  (List.range 8).flatMap (fun p => (portEntries s p).flatMap (fun e =>
    ((List.zip (List.range e.chunks.length) e.chunks).filter (fun c => c.2.reach.isSome && !c.2.through)).map
      (fun c => (p, e, c.1, c.2))))

/-- The accesses that have reached the manager of bank `b` and are not through. -/
def atManager (s : State) (b : Nat) : List (Nat × Entry × Nat × Chunk) :=
  (reachedChunks s).filter (fun x => !x.2.1.bare && decide (x.2.2.2.bank = b))

/-- A queued RDLK: the first chunk of one that was not granted its lock. -/
def isQueued (e : Entry) (c : Chunk) : Bool := decide (e.op = opRDLK) && decide (c.lo = e.lo) && !c.passed && c.outcome.isNone

/-- The bank at which an RDLK of the master is queued. -/
def queuedBank (s : State) (m : Nat × Ctx) : Option Nat :=
  (List.range 32).find? (fun b => (atManager s b).any (fun x => decide (x.2.1.master = m) && isQueued x.2.1 x.2.2.2))

/-- The chunk waits as an ordinary access, and not for an RDLK of its own master (Table 5-1, R291). -/
def isOrdinary (s : State) (e : Entry) (c : Chunk) : Bool :=
  let q := queuedBank s e.master
  !isQueued e c && !e.bare && !(e.ends && q.isSome) && decide (q ≠ some c.bank)

/-- What the managers say of chunk `c` of entry `e`. An RDLK at a FREE bank waits for the RDLKs queued before it, and where it was
queued itself, for the accesses held before it (R292). -/
def judgeChunk (s : State) (e : Entry) (c : Chunk) : Judge :=
  let m := e.master
  let b := c.bank
  let owned := ownedBank s m
  let queued := queuedBank s m
  let elsewhere := (owned.isSome && decide (owned ≠ some b)) || (queued.isSome && decide (queued ≠ some b))
  let op := if e.op = opRDLK ∧ c.lo ≠ e.lo then opRD else e.op
  if e.ends ∧ owned.isNone then (if queued.isSome then .hold else .lost)
  else if e.bare then .present
  else
    let before := (atManager s b).filter (fun x => decide (x.2.2.2.reach.getD 0 < c.reach.getD 0))
    let waits := before.filter (fun x => isQueued x.2.1 x.2.2.2 || (decide (op = opRDLK) && c.held && x.2.2.2.held))
    judge (s.bankAt b).lock m op e.pkt.hdr.locked (waits.map (fun x => (x.2.1.master, isQueued x.2.1 x.2.2.2))) elsewhere c.held

/-! ### The response of a port (R291, R54) -/

/-- The combined outcome of the chunks: the lower-addressed one that is not OK. -/
def chunksOutcome (cs : List Chunk) : BitVec 4 :=
  match cs.find? (fun c => decide (c.outcome ≠ some ocOK)) with
  | some c => c.outcome.getD ocOK
  | none => ocOK

/-- The read beats of the chunks in order, with zero beats for a chunk that brought none. -/
def chunksData (cs : List Chunk) : List DBeat :=
  cs.flatMap (fun c => c.data ++ List.replicate (c.beats - c.data.length) DBeat.zero)

/-- The owner's WRUL or UNLK releases the bank the master owns, unless its lock was lost (R291, R306). -/
def releaseBank (s : State) (e : Entry) (oc : BitVec 4) : State :=
  if e.ends ∧ oc ≠ ocLockLost then
    match ownedBank s e.master with
    | some b =>
      let brk := decide (e.op = opUNLK) && decide (e.pkt.hdr.bytes = 0x1FF)
      let s := s.setBank b { s.bankAt b with lock := (s.bankAt b).lock.release brk }
      if brk then s.setB Reg.RV_STATUS 3 true else s
    | none => s
  else s

/-- Every chunk of entry `id` has its outcome: the owner's WRUL or UNLK releases the bank it owns, and the response is
written (R291, R292). -/
def finishPort (s : State) (p id : Nat) : State :=
  let n := 117 + p
  match entryAt (s.hgAt n) id with
  | none => s
  | some e =>
    if e.chunks.isEmpty ∨ !e.chunks.all (fun c => c.outcome.isSome) then s
    else
      let oc := chunksOutcome e.chunks
      let done := sumBy (·.done) e.chunks
      let data := chunksData e.chunks
      let s := releaseBank s e oc
      let oc := if oc = ocOK ∧ e.op = opRDLK ∧ e.broken then ocLockBroken else oc
      let s := if e.noWrite ∧ oc = ocOK then answer s n id ocDenied 0 []
        else if e.partDenied then answer s n id ocDenied done (maskRead e data)
        else answer s n id oc done data
      settleTarget s n

/-- A chunk gets its outcome without the bank. -/
def answerChunk (s : State) (p id c : Nat) (oc : BitVec 4) : State :=
  finishPort (updChunk s p id c (fun x => { x with outcome := some oc })) p id

/-! ### The managers at work -/

/-- The beats a chunk sends to its bank. -/
def chunkBeats (p : Nat) (e : Entry) (c : Nat) (x : Chunk) : List BankBeat :=
  let ws := entryBeats e
  let first := x.lo.toNat / 64
  (List.range x.beats).map (fun i =>
    let l := first + i
    { port := p, entry := e.id, chunk := c, op := e.op, line := l % 2 ^ 18
      beat := (ws[l - e.lo.toNat / 64]?).getD { data := 0, be := 0, poison := false }
      aop := e.pkt.hdr.aop, lane := e.pkt.hdr.addr.toNat % 64, size := e.pkt.hdr.bytes.toNat + 1, chunkBeats := x.beats })

/-- The timer of the lock a master owns stops (R293). -/
def stopLockTimer (s : State) (m : Nat × Ctx) : State :=
  match ownedBank s m with
  | some b => s.setBank b { s.bankAt b with lock := { (s.bankAt b).lock with timer := none } }
  | none => s

/-- The lock granted to the RDLK of entry `e` at bank `b`: it takes BROKEN with it, and the timer starts, unless the master's UNLK or
WRUL has reached the managers already (Table 5-1, R293). -/
def grantBank (s : State) (p : Nat) (e : Entry) (b : Nat) : State :=
  let k := s.bankAt b
  let ended := (reachedChunks s).any (fun x => decide (x.2.1.master = e.master) && x.2.1.ends &&
    (x.2.1.bare || decide (x.2.2.2.bank = b)))
  let timer := if ended then none else some (s.fclk + lockLimit s)
  let s := (s.bump Reg.RV_LOCK_GRANT 1).updHg (117 + p) (fun h => h.updEntry e.id (fun e => { e with broken := k.lock.broken }))
  s.setBank b { k with lock := LockMgr.grant e.master timer }

/-- The manager presents a chunk: a bare one is done, the first of an RDLK takes the lock. A WRUL whose write goes to another bank
reaches the manager of its lock here (R293, log entry 67). -/
def passChunk (s : State) (p : Nat) (e : Entry) (c : Nat) (x : Chunk) : State :=
  if e.bare then answerChunk s p e.id c ocOK
  else
    let s := if e.op = opRDLK ∧ x.lo = e.lo then grantBank s p e x.bank else s
    let s := if e.ends then stopLockTimer s e.master else s
    updChunk s p e.id c (fun x => { x with passed := true })

/-- A presented chunk's beats go to its bank. -/
def sendChunk (s : State) (p : Nat) (e : Entry) (c : Nat) (x : Chunk) : State :=
  let k := s.bankAt x.bank
  updChunk (s.setBank x.bank { k with queue := k.queue ++ chunkBeats p e c x }) p e.id c (fun x => { x with sent := true })

/-- What becomes of a chunk at its manager now: it is presented or answered LOCK_LOST, or once presented it is sent; none where it
waits. -/
def moveChunk (s : State) (p : Nat) (e : Entry) (c : Nat) (x : Chunk) : Option State :=
  if x.sent then none
  else if x.passed then (if chunkRoom s p e x then some (sendChunk s p e c x) else none)
  else
    match judgeChunk s e x with
    | .present => some (passChunk s p e c x)
    | .lost => some (answerChunk (s.bump Reg.RV_LOCK_LOST 1) p e.id c ocLockLost)
    | .hold => none

/-- A chunk put before the first that reached its manager later. -/
def byReach (x : Nat × Entry × Nat × Chunk) : List (Nat × Entry × Nat × Chunk) → List (Nat × Entry × Nat × Chunk)
  | [] => [x]
  | y :: ys => if x.2.2.2.reach.getD 0 ≤ y.2.2.2.reach.getD 0 then x :: y :: ys else y :: byReach x ys

/-- The chunks that wait at the managers, in the order in which they reached them (R292). -/
def waitingChunks (s : State) : List (Nat × Entry × Nat × Chunk) := (reachedChunks s).foldr byReach []

/-- A chunk the manager holds; an ordinary access counts once (RV_LOCK_WAIT). -/
def holdChunk (s : State) (x : Nat × Entry × Nat × Chunk) : State :=
  let (p, e, c, k) := x
  if k.held ∨ k.passed then s
  else
    let first := !((entryAt (s.hgAt (117 + p)) e.id).any (fun e => e.chunks.any (·.held)))
    let s := if isOrdinary s e k && first then s.bump Reg.RV_LOCK_WAIT 1 else s
    updChunk s p e.id c (fun x => { x with held := true })

/-- The managers act on the chunks that wait, in order, until none moves; those left are held (R292). -/
def moveChunks : Nat → State → State
  | 0, s => s
  | k + 1, s =>
    match (waitingChunks s).findSome? (fun x => moveChunk s x.1 x.2.1 x.2.2.1 x.2.2.2) with
    | some t => moveChunks k t
    | none => (waitingChunks s).foldl holdChunk s

/-- The bank managers after any event: locks whose timer is due are revoked, then the waiting chunks move. -/
def settleBanks (s : State) : State :=
  let s := forRange 32 dueBank s
  moveChunks (3 * (reachedChunks s).length + 1) s

/-! ### RESERVOIR_CHUNK_SEND -/

/-- The chunks of an entry, cut where the port takes it first. -/
def Entry.cut (e : Entry) : List Chunk := if e.phase = .waiting then cutChunks e else e.chunks

/-- The chunk a port sends next: in the order of R155 and in address order, the first whose context lets it go and that finds room
(R282, R283). -/
def nextChunk (s : State) (p : Nat) : Option (Entry × Nat) :=
  (portEntries s p).findSome? (fun e =>
    if ctxFree s p e then
      match e.cut.findIdx? (fun c => c.reach.isNone && c.outcome.isNone) with
      | some i =>
        match e.cut[i]? with
        | some x => if chunkRoom s p e x then some (e, i) else none
        | none => none
      | none => none
    else none)

/-- A chunk reaches its bank's lock manager: it takes its place in the order, by cycle, then port (R292, log entry 76), and an
owner's WRUL or UNLK that reaches the manager of its lock stops the timer (R293). -/
def reachManager (s : State) (p : Nat) (e : Entry) (c : Nat) : State :=
  let no := (8 * s.fclk + p) * 2 ^ 32 + s.rv.reached
  let s := s.updHg (117 + p) (fun h => h.updEntry e.id (fun e => { e with phase := .inside, chunks := e.cut }))
  let s := updChunk s p e.id c (fun x => { x with reach := some no })
  let s := s.setRv { s.rv with reached := s.rv.reached + 1 }
  let home := match e.cut[c]? with
    | some x => decide (ownedBank s e.master = some x.bank)
    | none => false
  if e.ends && (e.bare || home) then stopLockTimer s e.master else s

/-- The next chunk of port `p` reaches its manager, where it is chunk `k` of its request, and the managers act (R283, R291). -/
def chunkSend (s : State) (p k : Nat) : State :=
  let s := settleBanks s
  if s.getB (Reg.HG_LEVEE (117 + p)) 0 then s
  else
    match nextChunk s p with
    | none => s
    | some (e, c) => if c = k then settleBanks (reachManager s p e c) else s

/-! ### BANK_ARBITRATION (R285) -/

/-- The ports with a beat in the bank's queue. -/
def askersOf (k : BankSt) : List Nat := (List.range 8).filter (fun p => k.queue.any (fun q => decide (q.port = p)))

/-- The oldest beat of a port, and the queue without it. -/
def takeBeat (q : List BankBeat) (p : Nat) : Option (BankBeat × List BankBeat) :=
  match q.findIdx? (fun x => decide (x.port = p)) with
  | none => none
  | some j => match q[j]? with
    | some x => some (x, dropNth q j)
    | none => none

/-- The beat of port `p` is granted: it will be performed, and counts towards its chunk. -/
def grantBeat (s : State) (b p : Nat) (arb : BankBeat → Arb) : State :=
  let k := s.bankAt b
  match takeBeat k.queue p with
  | none => s
  | some (x, q) =>
    let s := s.setBank b { k with queue := q, granted := k.granted ++ [x], arb := arb x }
    updChunk s x.port x.entry x.chunk (fun c => { c with granted := c.granted + 1 })

/-- In a cycle with no asker and no hold the park moves to the default master, where PARK_EN is set (R285). -/
def parkIdle (s : State) (b : Nat) (askers : List Nat) (a : Arb) : Arb :=
  let c := s.reg (Reg.RV_BANK_PARK b)
  if askers.isEmpty && a.hold.isNone && bit c 3 then { a with park := field c 0 3, parkV := true } else a

/-- One cycle of a bank's arbiter. -/
def bankArbitrate (s : State) (b : Nat) : State :=
  let k := s.bankAt b
  let askers := askersOf k
  if 0 < k.busy then s.setBank b { k with busy := k.busy - 1, arb := parkIdle s b askers (k.arb.waitMore askers) }
  else
    match k.arb.hold with
    | some h =>
      let a := k.arb.waitMore (askers.filter (fun p => decide (p ≠ h)))
      if askers.contains h then grantBeat s b h (fun _ => a.advance h false)
      else s.setBank b { k with arb := a }
    | none =>
      match k.arb.pick (nthOf (s.getF Reg.RV_CFG 0 7)) askers with
      | some (w, _, a) => grantBeat s b w (fun x => a.sent w 0 x.chunkBeats)
      | none => s.setBank b { k with arb := parkIdle s b askers k.arb }

/-! ### BANK_BEAT_PERFORM (R286 to R288) -/

/-- A chunk's beat is done, with the data it returns and the outcome it would give. -/
def beatDone (s : State) (x : BankBeat) (d : Option DBeat) (oc : BitVec 4) : State :=
  let s := updChunk s x.port x.entry x.chunk (fun c =>
    let c := { c with performed := c.performed + 1, data := c.data ++ d.toList }
    let oc := if c.done = 1 ∨ oc = ocPoisoned then ocPoisoned else ocOK
    if c.beats ≤ c.performed then { c with outcome := some oc, done := c.bytes.toNat + 1 }
    else { c with done := if oc = ocPoisoned then 1 else 0 })
  finishPort s x.port x.entry

/-- The bytes of a beat as read: free data where a word is uncorrectable. -/
def readBeat (s : State) (l : Nat) (bad : Bool) : DBeat × State :=
  if bad then
    let (d, s) := s.draw
    ({ data := Config.badData d, poison := true }, s)
  else ({ data := Memory.line s.rv.mem l, poison := s.rv.poison.contains l }, s)

/-- The array holds `d` in the enabled bytes of a beat, with its poison bit. -/
def writeBeat (s : State) (l : Nat) (d : Line) (be : BitVec 64) (poison : Bool) : State :=
  s.setRv { s.rv with mem := Memory.writeLine s.rv.mem l d be, poison := setPoison s.rv.poison l poison }

/-- A write beat: merged where a word has some of its enables only. -/
def performWrite (s : State) (b : Nat) (x : BankBeat) (err : MemErr) : State :=
  let merged := !wholeWords x.beat.be
  let r := if merged then bankErr s b x.line err else (false, s)
  let bad := r.1
  let s := r.2
  let old := s.rv.poison.contains x.line || bad
  let poison := if x.beat.be = laneMask 0 63 then x.beat.poison else x.beat.poison || old
  let s := writeBeat s x.line x.beat.data x.beat.be poison
  let s := if merged then
      (s.bump Reg.RV_RMW 1).setBank b { s.bankAt b with busy := (s.bankAt b).busy + 1 }
    else s
  beatDone s x none (if x.beat.poison then ocPoisoned else ocOK)

/-- An atomic: read, compute, write; nothing is written where the beat read or the operand is poisoned. -/
def performAtom (s : State) (b : Nat) (x : BankBeat) (err : MemErr) : State :=
  let (bad, s) := bankErr s b x.line err
  let (old, s) := readBeat s x.line bad
  let s := s.setBank b { s.bankAt b with busy := (s.bankAt b).busy + 2 }
  let (w, m) := atomLine x.aop x.size x.lane old.data x.beat.data
  let (m, s) := freeLanes s m (laneMask 0 (x.size - 1))
  if old.poison ∨ x.beat.poison then beatDone s x (some { data := m, poison := true }) ocPoisoned
  else
    let s := s.bump Reg.RV_ATOM 1
    let s := match w with
      | some l => writeBeat s x.line l (laneMask x.lane (x.lane + x.size - 1)) false
      | none => s
    beatDone s x (some { data := m, poison := false }) ocOK

/-- The bank performs its oldest granted beat. -/
def bankPerform (s : State) (b : Nat) (err : MemErr) : State :=
  let k := s.bankAt b
  match k.granted with
  | [] => s
  | x :: rest =>
    let s := s.setBank b { k with granted := rest }
    if x.op = opATOM then performAtom s b x err
    else if x.op = opWR ∨ x.op = opWRP ∨ x.op = opWRUL then performWrite s b x err
    else
      let (bad, s) := bankErr s b x.line err
      let (d, s) := readBeat s x.line bad
      beatDone s x (some d) (if d.poison then ocPoisoned else ocOK)

/-! ### BANK_SCRUB and LOCK_LIMIT_TIMEOUT (R289, R293) -/

/-- The beat number O[23:6] of scrub position `i` of bank `b`: rows and beats ascending. -/
def scrubLine (b i : Nat) : Nat := i / 4 * 128 + b * 4 + i % 4

/-- A due scrub: it takes the bank once its own work has ended, reads one beat and writes back a corrected word. -/
def bankScrub (s : State) (b : Nat) (err : MemErr) : State :=
  if !s.getB Reg.RV_SCRUB_CFG 16 then s
  else
    let k := s.bankAt b
    let askers := askersOf k
    let arb := (List.range (k.busy + 1)).foldl (fun a _ => a.waitMore askers) k.arb
    let s := s.setBank b { k with busy := 0, arb := parkIdle s b askers arb, scrubPos := (k.scrubPos + 1) % 8192 }
    let s := (bankErr s b (scrubLine b k.scrubPos) err).2
    if b = 0 ∧ k.scrubPos = 8191 then s.bump Reg.RV_SCRUB_PASS 1 else s

/-- The lock limit timer of a manager expires (R293): the lock is revoked, and the manager goes on as on release (R292). -/
def lockExpire (s : State) (at_ : LockAt) : State :=
  match (s.lockMgr at_).owner, (s.lockMgr at_).timer with
  | some _, some t =>
    let s := s.advanceTo t
    match at_ with
    | .headgate n => revokeHg s n
    | .bank b => settleBanks (revokeBank s b)
  | _, _ => s

def execReservoirChunkSend (p : Fin 8) (k : Nat) (s : State) : Out := .next (chunkSend s p k)
def execBankArbitration (b : Bank) (s : State) : Out := .next (settleBanks (bankArbitrate s b))
def execBankBeatPerform (b : Bank) (err : MemErr) (s : State) : Out := .next (settleBanks (bankPerform s b err))
def execBankScrub (b : Bank) (err : MemErr) (s : State) : Out := .next (bankScrub s b err)
def execLockLimitTimeout (at_ : LockAt) (s : State) : Out := .next (lockExpire s at_)

end Sys2Proof.Machine
end

