-- ==== Sys2Proof/Machine/Flags.lean ====
section
/-! DEFINITION. The status bits and read-only views: what a register reads where its fields show the state of a part, and the
interrupt outputs of R376. -/

namespace Sys2Proof.Machine

/-- A number from the bits `f 0 .. f (n-1)`. -/
def bitsFrom (n : Nat) (f : Nat → Bool) : Nat := sumBy (fun i => b2n (f i) * 2 ^ i) (List.range n)

/-- `w` with fields (lowest bit, length, value) set. -/
def withFields (w : Word) (fs : List (Nat × Nat × Nat)) : Word := fs.foldl (fun w f => setField w f.1 f.2.1 f.2.2) w

/-! ### The Rider's status and the interrupt outputs (R376, R385, R430) -/

/-- Firmware runs and serves mailboxes: GL_RIDER_STATUS.UP. -/
def riderUp (s : State) : Bool := s.getB Reg.GL_RIDER_STATUS 0
/-- The Rider is halted (R385). -/
def riderHalted (s : State) : Bool := s.getB Reg.GL_RIDER_STATUS 1

/-- IRQ_MB_m (Table 14-10). -/
def irqMailbox (s : State) (m : Nat) : Bool :=
  let b := s.mbAt m
  (bit b.ie 0 && !b.rsp.isEmpty) || (bit b.ie 1 && b.queue.isEmpty && b.cur.isNone) || (bit b.ie 2 && b.overrun) ||
  (bit b.ie 3 && b.riderEvt)

/-- IRQ_ALARM: a record in the alarm FIFO, or one copied and not acknowledged (R430). -/
def irqAlarm (s : State) : Bool := !s.rd.fifo.isEmpty || !s.rd.awaiting.isEmpty
/-- IRQ_FATAL. -/
def irqFatal (s : State) : Bool := riderHalted s

/-! ### Global, clock, mailbox and probe blocks -/

def globalView (s : State) (off : Nat) (v : Word) : Word :=
  if off = Reg.GL_IRQ_STATUS then
    BitVec.ofNat 64 (bitsFrom 32 (irqMailbox s) + b2n (irqAlarm s) * 2 ^ 32 + b2n (irqFatal s) * 2 ^ 33)
  else v

/-- A headgate's scrub of R357 runs. -/
def scrubbing (h : Headgate) : Bool := h.scrubReplay.isSome || h.scrubReseq.isSome

def clockView (s : State) (off : Nat) (v : Word) : Word :=
  if off = Reg.CK_STATUS then setBit v 6 ((List.range 160).any (fun n => scrubbing (s.hgAt n)))
  else if off = Reg.CK_WAKE_PEND then BitVec.ofNat 64 (bitsFrom 32 (fun d => s.getB (Reg.CK_DOM d) 5))
  else if off = Reg.CK_TIME_SEC then BitVec.ofNat 64 (s.bd.time.sec.toNat + b2n s.bd.time.valid * 2 ^ 48)
  else v

/-- Word 0 of the running command, zero where none runs. -/
def curWord (b : Mailbox) : Word := match b.cur with | some c => (c.words[0]?).getD 0 | none => 0

def mailboxView (s : State) (m lo : Nat) (v : Word) : Word :=
  let b := s.mbAt m
  if lo < 0x40 then (b.cmd[lo / 8]?).getD 0
  else if lo < 0x80 then (match b.rsp with | r :: _ => (r[lo / 8 - 8]?).getD 0 | [] => 0)
  else if lo = 0x80 then 0
  else if lo = 0x88 then
    withFields 0 [(0, 7, b.queue.length), (7, 7, b.rsp.length), (14, 1, b2n b.cur.isSome), (15, 1, b2n b.overrun),
      (16, 1, b2n b.riderEvt), (17, 1, b2n (riderUp s)), (18, 1, b2n (riderHalted s)), (19, 4, b.ie.toNat),
      (23, 1, b2n (s.getB (Reg.MB_BIND m) 15))]
  else if lo = 0x98 then
    match b.cur with
    | some c => withFields 0 [(0, 16, field (curWord b) 0 16), (16, 8, c.prog.step), (24, 1, 1)]
    | none => 0
  else v

def probeView (s : State) (off : Nat) (v : Word) : Word :=
  if off = Reg.PR_TIME then BitVec.ofNat 64 (s.fclk % 2 ^ 48)
  else if off = Reg.PR_ALARM_STATUS then
    withFields 0 [(0, 11, s.rd.fifo.length), (11, 1, b2n (irqAlarm s)), (12, 1, b2n s.rd.incidentOpen)]
  else v

/-! ### Home slices and the Reservoir -/

/-- The bits of directory entry (set, way) (Table 9-1, R465): zero for a way above 19. -/
def dirEntryWord (s : State) (k set way : Nat) : Word :=
  if 19 < way then 0
  else
    let x := s.hsAt k
    let e := x.entry set way
    let p (i : Nat) : Nat := ((e.ptrs[i]?).getD 0).toNat
    withFields 0 [(0, 1, b2n e.valid), (1, 14, e.tag.toNat), (15, 2, e.st.toNat), (17, 1, b2n e.ovf), (18, 2, min 3 e.ptrs.length),
      (20, 4, p 0), (24, 4, p 1), (28, 4, p 2), (32, 1, b2n (e.valid && x.pinned (lineFrom (servedSlice s k) set e.tag.toNat))),
      (33, 5, e.lru.toNat)]

def sliceView (s : State) (k lo : Nat) (v : Word) : Word :=
  if lo = 0x40 then withFields 0 [(0, 9, (s.hsAt k).slots.length), (9, 9, (s.hsAt k).resq.length)]
  else if lo = 0x208 then dirEntryWord s k (s.getF (Reg.HS_DIR_SEL k) 0 11) (s.getF (Reg.HS_DIR_SEL k) 11 5)
  else if lo = 0x28 then setBit v 5 ((s.hsAt k).sweeping.isSome)
  else v

/-- The best-effort half of Table 4-12. -/
def arbFields (a : Arb) : List (Nat × Nat × Nat) :=
  [(0, 3, a.park), (3, 1, b2n a.parkV), (4, 3, a.hold.getD 0), (7, 1, b2n a.hold.isSome),
   (8, 4, match a.hold with | some h => cell a.ratchet h | none => 0), (12, 7, a.gcount)]

/-- The fields HELD to BROKEN of Tables 5-7 and 10-7. -/
def lockFields (l : LockMgr) : List (Nat × Nat × Nat) :=
  [(0, 1, b2n l.owner.isSome), (1, 8, match l.owner with | some o => o.1 | none => 0),
   (9, 6, match l.owner with | some o => o.2.toNat | none => 0), (15, 1, b2n l.broken)]

def reservoirView (s : State) (lo : Nat) (v : Word) : Word :=
  if 0x400 ≤ lo ∧ lo < 0x500 ∧ lo % 8 = 0 then withFields 0 (arbFields (s.bankAt ((lo - 0x400) / 8)).arb)
  else if 0x600 ≤ lo ∧ lo < 0x700 ∧ lo % 8 = 0 then
    let b := (lo - 0x600) / 8
    let l := (s.bankAt b).lock
    let there := atManager s b
    let rd := there.filter (fun x => isQueued x.2.1 x.2.2.2)
    let ord := there.filter (fun x => x.2.2.2.held && !x.2.2.2.passed && isOrdinary s x.2.1 x.2.2.2)
    withFields 0 (lockFields l ++ [(16, 8, min 255 rd.length), (24, 8, min 255 ord.length),
      (32, 16, match l.timer with | some t => t - s.fclk | none => 0)])
  else v

/-! ### Routers -/

def routerView (s : State) (i lo : Nat) (v : Word) : Word :=
  let r := s.rtAt i
  if lo = 0x20 then setField v 16 8 (bitsFrom 8 (fun o => (r.arb o).hold.isSome))
  else if 0x300 ≤ lo ∧ lo < 0x340 ∧ lo % 8 = 0 then
    let o := (lo - 0x300) / 8
    let g := (r.guaArb o).hold
    withFields 0 (arbFields (r.arb o) ++ [(19, 3, g.getD 0), (22, 1, b2n g.isSome)])
  else v

/-! ### Headgates -/

/-- HG_PAIR_TX for destination `k` (Table 6-9). -/
def pairTxWord (s : State) (n k : Nat) : Word :=
  if 160 ≤ k then 0
  else
    let x := (s.hgAt n).txAt k
    withFields 0 [(0, 16, x.next.toNat), (16, 16, x.oldest.toNat), (32, 11, (uncommitted (s.hgAt n) k).length), (43, 1, b2n x.pass),
      (44, 1, b2n x.pending), (45, 3, min 7 x.stalls), (48, 1, b2n x.stalled)]

/-- HG_PAIR_RX for source `k` (Table 6-10). -/
def pairRxWord (s : State) (n k : Nat) : Word :=
  if 160 ≤ k then 0
  else
    let x := (s.hgAt n).rxAt k
    withFields 0 [(0, 16, x.next.toNat), (16, 16, x.cseqSent.toNat), (32, 10, x.held.length)]

/-- HG_PL_CH_STAT for record `i` (Table 7-10). -/
def chanStatWord (s : State) (n i : Nat) : Word :=
  let w := chanRec s n i
  let h := s.hgAt n
  let c := h.chanAt i
  if recSrc w then
    let k := (staged h (recChan w)).length
    withFields 0 [(0, 1, b2n c.demoted), (1, 1, b2n (recValid w && decide (recStage w ≤ k))), (2, 4, k), (6, 16, c.seq.toNat)]
  else
    withFields 0 [(2, 4, if recRelay w && !recDst w then relayHeld c else chanHeld c), (6, 16, c.seq.toNat), (22, 16, c.late),
      (38, 16, c.drop)]

/-- Packets not committed, to all destinations. -/
def allUncommitted (h : Headgate) : Nat := (h.store.filter (fun p => !p.waiting && decide (p.kind ≠ .gua))).length

/-- HG_DOM_STATUS.IDLE (Table 13-15). -/
def targetIdle (h : Headgate) : Bool := h.entries.isEmpty && h.staleIds.isEmpty && h.msgin.all (·.gua)

/-- The wheel cycle of a headgate: 0 from the pulse that started its counter up to 9215 (R199, R200). -/
def wheelCycle (s : State) (n : Nat) : Nat := match (s.hgAt n).wheelAt with | some t => min (s.fclk - t) 9215 | none => 0

/-- The fields of registers 0x0010 to 0x0158 that show state. -/
def headgateView0 (s : State) (n lo : Nat) (v : Word) : Word :=
  let h := s.hgAt n
  if lo = 0x10 then setBit v 6 (drained s n)
  else if lo = 0x18 then setField v 10 10 (poolFree s n)
  else if lo = 0x28 then
    withFields 0 (lockFields h.lock ++
      [(16, 8, (h.entries.filter (fun e => decide (e.op = opRDLK) && decide (e.phase = .waiting) && e.checked && hasHai n)).length)])
  else if 0x40 ≤ lo ∧ lo < 0xC0 ∧ lo % 8 = 0 then BitVec.ofNat 64 (epochCount h (BitVec.ofNat 4 ((lo - 0x40) / 8)))
  else if lo = 0x128 then BitVec.ofNat 64 ((h.entries.filter (·.checked)).length)
  else if lo = 0x140 then
    withFields 0 [(0, 11, freeBlocks h), (11, 11, allUncommitted h), (22, 1, b2n (decide (reqLimit s n ≤ kindBlocks h .req + writeBlocks h))),
      (23, 1, b2n (anyPass h))]
  else if lo = 0x150 then pairTxWord s n (s.getF (Reg.HG_PAIR_SEL n) 0 8)
  else if lo = 0x158 then pairRxWord s n (s.getF (Reg.HG_PAIR_SEL n) 0 8)
  else v

/-- The fields of the further registers that show state. -/
def headgateView1 (s : State) (n lo : Nat) (v : Word) : Word :=
  let h := s.hgAt n
  if 0x400 ≤ lo ∧ lo < 0x900 ∧ lo % 8 = 0 then setField v 10 10 (creditOf s n ((lo - 0x400) / 8))
  else if lo = 0xE08 then chanStatWord s n (s.getF (Reg.HG_PL_CH_SEL n) 0 7)
  else if lo = 0xE18 then withFields 0 [(0, 18, h.turn), (18, 14, wheelCycle s n)]
  else if lo = 0xEA8 then withFields v [(0, 1, b2n h.hold), (1, 1, b2n (targetIdle h)), (8, 1, b2n (scrubbing h))]
  else if lo = 0x2018 then BitVec.ofNat 64 ((h.entries.filter (·.marked)).length)
  else v

/-! ### The read of a register (R453, R454, R459) -/

/-- What the register at an 8-byte-aligned FCS offset reads. From 0x800000 the Rider and the TAP reach words of private memory, which the
manual does not lay out (DESIGN CHOICE, log entry 72). -/
def regRead (s : State) (off : Nat) : Word :=
  let v := s.reg off
  match fcsLocate off with
  | (.global, _, _) => globalView s off v
  | (.clock, _, _) => clockView s off v
  | (.mailbox, m, lo) => mailboxView s m lo v
  | (.probe, _, _) => probeView s off v
  | (.slice, k, lo) => sliceView s k lo v
  | (.reservoir, _, lo) => reservoirView s lo v
  | (.router, i, lo) => routerView s i lo v
  | (.headgate, n, lo) => if lo < 0x200 then headgateView0 s n lo v else headgateView1 s n lo v
  | (.none, _, _) => 0
  | (.riderPrivate, _, _) => Tab.get s.rd.sram (Config.riderCoreReg off) off

end Sys2Proof.Machine
end

