-- ==== Sys2Proof/Machine/Mailbox.lean ====
section
/-! DEFINITION. The mailboxes (chapter 14): the four operations of the doorbell (R366), and the answers of the mailbox
hardware while the Rider is halted (R385). -/

namespace Sys2Proof.Machine

/-- PUSH: MB_CMD goes to the tail of the command queue, or is refused while 64 commands are queued (Table 14-3). -/
def mbPush (s : State) (m : Nat) : State :=
  let b := s.mbAt m
  if 64 ≤ b.queue.length then (s.bump (Reg.MB_OVERRUN m) 1).setMb m { b with overrun := true }
  else s.setMb m { b with queue := b.queue ++ [b.cmd] }

/-- POP: the head response is removed. -/
def mbPop (s : State) (m : Nat) : State := s.updMb m (fun b => { b with rsp := b.rsp.tail })

/-- ACK: the selected events are cleared. -/
def mbAck (s : State) (m : Nat) (overrun rider : Bool) : State :=
  s.updMb m (fun b => { b with overrun := b.overrun && !overrun, riderEvt := b.riderEvt && !rider })

/-- IE_WR: the interrupt enables are loaded. -/
def mbIeWr (s : State) (m : Nat) (ie : BitVec 4) : State := s.updMb m (fun b => { b with ie := ie })

/-- A write of `v` to MB_DOORBELL: POP, PUSH, ACK, IE_WR in this order, each where its bit is set (R366). -/
def doorbell (s : State) (m : Nat) (v : Word) : State :=
  let s := if bit v 1 then mbPop s m else s
  let s := if bit v 0 then mbPush s m else s
  let s := if bit v 2 then mbAck s m (bit v 16) (bit v 17) else s
  if bit v 3 then mbIeWr s m (BitVec.ofNat 4 (field v 8 4)) else s

/-- Word 0 of a response (Table 14-8). -/
def rspWord (w0 : Word) (compl step : Nat) (rerun : Bool) : Word :=
  withFields 0 [(0, 32, field w0 0 32), (32, 8, compl), (40, 8, step), (48, 1, b2n rerun)]

/-- A response of eight words, with words 1 to 7 as given and zero beyond. -/
def rspOf (w0 : Word) (results : List Word) : List Word := w0 :: (results ++ List.replicate 7 0).take 7

/-- The response HALTED. -/
def haltedRsp (words : List Word) : List Word := rspOf (rspWord ((words[0]?).getD 0) 0x06 0 false) []

/-- HALTED_MAILBOX_ANSWER: the lowest mailbox with a command and a free response slot gets one answer; a command that was
running is answered before those queued behind it (R370, R385; log entry 22). -/
def haltedAnswer (s : State) : State :=
  if !riderHalted s then s
  else
    match (List.range 32).find? (fun m =>
      let b := s.mbAt m
      (b.cur.isSome || !b.queue.isEmpty) && decide (b.rsp.length < 64)) with
    | none => s
    | some m =>
      let b := s.mbAt m
      match b.cur, b.queue with
      | some c, _ => s.setMb m { b with cur := none, rsp := b.rsp ++ [haltedRsp c.words] }
      | none, q :: rest => s.setMb m { b with queue := rest, rsp := b.rsp ++ [haltedRsp q] }
      | none, [] => s

def execMbPush (m : Mbx) (s : State) : Out := .next (mbPush s m)
def execMbPop (m : Mbx) (s : State) : Out := .next (mbPop s m)
def execMbAck (m : Mbx) (overrun rider : Bool) (s : State) : Out := .next (mbAck s m overrun rider)
def execMbIeWr (m : Mbx) (ie : BitVec 4) (s : State) : Out := .next (mbIeWr s m ie)
def execHaltedMailboxAnswer (s : State) : Out := .next (haltedAnswer s)

end Sys2Proof.Machine
end

