-- ==== Sys2Proof/Machine/Clocks.lean ====
section
/-! DEFINITION. Clocks and supply (chapter 13): the dividers, the hold of a supply warning and its release, and the scrub that
follows. -/

namespace Sys2Proof.Machine

/-! ### The hold (R355, R356, R411) -/

/-- The hold flag of headgate `n`. -/
def setHgHold (b : Bool) (n : Nat) (s : State) : State := s.updHg n (fun h => { h with hold := b })

/-- The hold tree takes a change of the two causes to every headgate in one cycle; a hold entered is counted. -/
def applyHold (s : State) : State :=
  let h := s.bd.supplyHold || s.bd.cmdHold
  if s.getB Reg.CK_STATUS 5 = h then s
  else
    let s := forRange 160 (setHgHold h) (s.setB Reg.CK_STATUS 5 h)
    if h then s.bump Reg.CK_HOLD_CNT 1 else s

/-- SUPPLY_WARN high as crossed: the supply hold is entered with its alarm, or its release count starts again (R355, R356). -/
def warnCrosses (s : State) : State :=
  let again := s.bd.supplyHold
  let s := (s.setB Reg.CK_STATUS 4 true).setB Reg.CK_SUPPLY_EVT 0 true
  let s := if again && s.bd.warnLowAt.isSome then s.setB Reg.CK_SUPPLY_EVT 1 true else s
  let s := applyHold (s.setBd { s.bd with supplyHold := true, warnLowAt := none })
  if again then s else s.alarm stClock 0xD0 0 0

/-- A part of the fabric is under reset. -/
def underReset (s : State) : Bool := s.bd.inColdReset || s.bd.inWarmReset

/-- SUPPLY_WARN_RISE; under reset only the input is high. -/
def supplyRise (s : State) : State :=
  if s.bd.supplyWarn then s
  else
    let s := s.setBd { s.bd with supplyWarn := true }
    if underReset s then s else warnCrosses s

/-- SUPPLY_WARN_FALL: the release count starts, with the length of CK_HOLD_CFG as it then stands (R356, R411). -/
def supplyFall (s : State) : State :=
  if !s.bd.supplyWarn then s
  else
    let s := s.setBd { s.bd with supplyWarn := false }
    if underReset s then s
    else
      let len := 1600 * max 16 (s.getF Reg.CK_HOLD_CFG 0 10)
      let s := s.setB Reg.CK_STATUS 4 false
      s.setBd { s.bd with warnLowAt := some s.fclk, releaseLen := len }

/-- A scrub of both stores of headgate `n` starts at word 0 (R357). -/
def startScrub (n : Nat) (s : State) : State := s.updHg n (fun h => { h with scrubReplay := some 0, scrubReseq := some 0 })

/-- HOLD_RELEASE: SUPPLY_WARN has been low for RELEASE. A commanded hold stays (R411); every headgate scrubs (R357). -/
def holdRelease (s : State) : State :=
  match s.bd.warnLowAt with
  | none => s
  | some t =>
    if !s.bd.supplyHold then s
    else
      let s := s.advanceTo (t + s.bd.releaseLen)
      forRange 160 startScrub (applyHold (s.setBd { s.bd with supplyHold := false, warnLowAt := none }))

/-- The commanded hold entered or left: it acts as R355, and leaving it starts no scrub (R411). -/
def setCmdHold (s : State) (b : Bool) : State :=
  let was := s.bd.cmdHold
  let s := applyHold (s.setBd { s.bd with cmdHold := b })
  if b && !was then s.alarm stClock 0xD0 0 0 else s

/-! ### The scrub (R357, R189, R190) -/

/-- The packet, of those whose sizes are listed, that block `b` of a store belongs to, and the block within it; packets are
taken to stand in order (log entry 15). -/
def blockOwner : List Nat → Nat → Option (Nat × Nat)
  | [], _ => none
  | k :: rest, b => if b < k then some (0, b) else (blockOwner rest (b - k)).map (fun x => (x.1 + 1, x.2))

/-- An error a scrub finds, as an error of the packet whose block `b` holds the word. -/
def scrubErr (b : Nat) : MemErr → MemErr
  | .uncorrData _ => .uncorrData (if b = 0 then 1024 else b - 1)
  | e => e

/-- An uncorrectable word of any kind. -/
def isUncorr : MemErr → Bool
  | .ok => false
  | .corrected => false
  | .uncorrData _ => true
  | .uncorrHdr => true
  | .uncorrBothHdr => true

/-- A word in a block that holds no packet. -/
def scrubFree (s : State) (n which : Nat) (err : MemErr) : State :=
  if isUncorr err then storeUncorr s n which false
  else if err = .corrected then s.bump (Reg.HG_STORE_CORR n) 1
  else s

/-- Word `w` of the replay store is scrubbed. -/
def scrubReplayWord (s : State) (n w : Nat) (err : MemErr) : State :=
  match blockOwner ((s.hgAt n).store.map (fun p => p.pkt.blocks)) (w / 8) with
  | none => scrubFree s n 0 err
  | some (k, b) =>
    let was := match (s.hgAt n).store[k]? with | some p => p.lost | none => false
    let s := readStored s n k (scrubErr b err)
    match (s.hgAt n).store[k]? with
    | some p => if p.lost && !was && !p.waiting then reportLost s n k else s
    | none => s

/-- The packets of the resequencing buffer by source, in order. -/
def heldPkts (h : Headgate) : List (Nat × Pkt) := h.rx.flatMap (fun x => x.2.held.map (fun p => (x.1, p)))

/-- Word `w` of the resequencing buffer is scrubbed. A packet whose header is lost before commit leaves the buffer and is
replayed by its source. -/
def scrubReseqWord (s : State) (n w : Nat) (err : MemErr) : State :=
  let ps := heldPkts (s.hgAt n)
  match (blockOwner (ps.map (fun x => x.2.blocks)) (w / 8)).bind (fun kb => (ps[kb.1]?).map (fun x => (x, kb.2))) with
  | none => scrubFree s n 1 err
  | some ((src, p), b) =>
    let r := readReseq s n p (scrubErr b err)
    r.2.updHg n (fun h =>
      let x := h.rxAt src
      h.setRx src { x with held := match r.1 with
        | some q => x.held.map (fun y => if y.hdr.seq = p.hdr.seq then q else y)
        | none => x.held.filter (fun y => decide (y.hdr.seq ≠ p.hdr.seq)) })

/-- The next position of a scrub of `words` words. -/
def nextWord (words w : Nat) : Option Nat := if w + 1 < words then some (w + 1) else none

/-- STORE_SCRUB_WORD: the next word of one of the two stores. -/
def scrubWord (s : State) (n : Nat) (reseq : Bool) (err : MemErr) : State :=
  let h := s.hgAt n
  match (if reseq then h.scrubReseq else h.scrubReplay) with
  | none => s
  | some w =>
    let s := if isUncorr err then s.setB Reg.CK_SUPPLY_EVT 2 true else s
    if reseq then (scrubReseqWord s n w err).updHg n (fun h => { h with scrubReseq := nextWord 4096 w })
    else (scrubReplayWord s n w err).updHg n (fun h => { h with scrubReplay := nextWord 8192 w })

/-! ### The dividers (R337) -/

/-- ROOT_LOCK rises: the dividers of FCLK, MCLK and TCLK start. -/
def rootRise (s : State) : State :=
  (s.setBd { s.bd with rootLock := true } : State).setF Reg.CK_STATUS 0 4 0xF

def execRootLockRise (s : State) : Out := .next (rootRise s)
def execSupplyWarnRise (s : State) : Out := .next (supplyRise s)
def execSupplyWarnFall (s : State) : Out := .next (supplyFall s)
def execHoldRelease (s : State) : Out := .next (holdRelease s)
def execStoreScrubWord (n : Hg) (reseq : Bool) (err : MemErr) (s : State) : Out := .next (scrubWord s n reseq err)

end Sys2Proof.Machine
end

