-- ==== Sys2Proof/Machine/Detours.lean ====
section
/-! DEFINITION. Waypoint detours (R322, R323): which elements the Rider avoids, the routes that cross them, and the choice of a
source's waypoint entries. -/

namespace Sys2Proof.Machine

/-- Elements to avoid beside those the Rider has on record: routers, and router ports as 8 * index + port. -/
structure Avoid where
  routers : List Nat
  ports : List Nat
  deriving DecidableEq, Repr

def Avoid.none : Avoid := { routers := [], ports := [] }

/-- A router no route may cross: failed, taken out of service, or named. -/
def routerOut (s : State) (av : Avoid) (i : Nat) : Bool :=
  s.rd.failed.contains i || s.rd.outOfService.contains i || s.rd.inHand.contains i || av.routers.contains i

/-- A router port no route may use: disabled, declared faulty, out of service, or named (R323). -/
def portOut (s : State) (av : Avoid) (i p : Nat) : Bool :=
  !s.enabled (.rt i p) || s.faulty (.rt i p) || s.rd.faulty.contains (8 * i + p) ||
  s.rd.outOfService.contains (1000 + 8 * i + p) || s.rd.inHand.contains (1000 + 8 * i + p) || av.ports.contains (8 * i + p)

/-- The routers and router ports that no route may use. -/
def blocked (s : State) (av : Avoid) : Avoid :=
  { routers := (List.range 100).filter (routerOut s av), ports := (List.range 800).filter (fun k => portOut s av (k / 8) (k % 8)) }

/-- XY from router `i` to router `t` crosses nothing blocked. -/
def legOk (b : Avoid) : Nat → Nat → Nat → Bool
  | 0, _, _ => false
  | k + 1, i, t =>
    if b.routers.contains i then false
    else
      match xyStep i (nodeOf t) with
      | none => true
      | some p =>
        match neighbour i p with
        | none => false
        | some j => !b.ports.contains (8 * i + p) && !b.ports.contains (8 * j + farPort p) && legOk b k j t

/-- Hops of XY between two routers. -/
def hops (i t : Nat) : Nat := (max (i % 10) (t % 10) - min (i % 10) (t % 10)) + (max (i / 10) (t / 10) - min (i / 10) (t / 10))

/-- A waypoint entry: the rectangle of destination nodes and the waypoint's router. -/
structure Rect where
  xl : Nat
  xh : Nat
  yl : Nat
  yh : Nat
  w : Nat
  deriving DecidableEq, Repr

def Rect.has (q : Rect) (t : Nat) : Bool :=
  decide (q.xl ≤ t % 10) && decide (t % 10 ≤ q.xh) && decide (q.yl ≤ t / 10) && decide (t / 10 ≤ q.yh)

def Rect.disjoint (a b : Rect) : Bool :=
  decide (a.xh < b.xl) || decide (b.xh < a.xl) || decide (a.yh < b.yl) || decide (b.yh < a.yl)

/-- The HG_WAYPT value of an entry (Table 12-11). -/
def Rect.word (q : Rect) : Word :=
  withFields 0 [(0, 4, q.xl), (4, 4, q.xh), (8, 4, q.yl), (12, 4, q.yh), (16, 8, nodeOf q.w), (63, 1, 1)]

/-- The entry a HG_WAYPT value holds. -/
def Rect.ofWord (w : Word) : Rect :=
  { xl := field w 0 4, xh := field w 4 4, yl := field w 8 4, yh := field w 12 4, w := (nodeIdx (field w 16 8)).getD 100 }

/-- The routers that hold the attachment of some destination of headgate `n`, as its attachment map has them. -/
def destRouters (s : State) (n : Nat) : List Nat :=
  ((List.range 160).filterMap (fun k => if attachValid s n k then nodeIdx (attachNode s n k) else none)).eraseDups

/-- The router headgate `n` injects at. -/
def sourceRouter (s : State) (n : Nat) : Nat := (attachOf n (linkInUse s n)).1

/-! ### The choice of R323 -/

/-- What the choice of a source's entries is made from: the source's router, its destinations, those that need an entry, and what
is blocked. -/
structure Detour where
  r : Nat
  dests : List Nat
  needed : List Nat
  b : Avoid

/-- A route leads from router `r` over some waypoint to router `t`. -/
def viaWaypoint (b : Avoid) (r t : Nat) : Bool := (List.range 100).any (fun w => legOk b 20 r w && legOk b 20 w t)

def detourOf (s : State) (av : Avoid) (n : Nat) : Detour :=
  let b := blocked s av
  let r := sourceRouter s n
  let dests := destRouters s n
  { r := r, dests := dests, needed := dests.filter (fun t => !legOk b 20 r t && viaWaypoint b r t), b := b }

/-- An entry obeys the first two rules of R323: leg A and the leg B to each covered destination cross nothing blocked. -/
def Detour.allows (d : Detour) (q : Rect) : Bool :=
  decide (q.w < 100) && legOk d.b 20 d.r q.w && (d.dests.filter q.has).all (fun t => legOk d.b 20 q.w t)

/-- The longest route of an entry, in hops, from the source to any covered destination. -/
def Detour.length (d : Detour) (q : Rect) : Nat := ((d.dests.filter q.has).map (fun t => hops d.r q.w + hops q.w t)).foldl max 0

/-- The bounding rectangle of the needed destinations within a rectangle. Shrinking an entry to it breaks no rule and lengthens no
route, so that some optimum consists of such entries. -/
def Detour.tight (d : Detour) (q : Rect) : Bool :=
  let ts := d.needed.filter q.has
  ts.any (fun t => decide (t % 10 = q.xl)) && ts.any (fun t => decide (t % 10 = q.xh)) &&
  ts.any (fun t => decide (t / 10 = q.yl)) && ts.any (fun t => decide (t / 10 = q.yh))

/-- The first element with the least key. -/
def leastOf {α : Type} (key : α → Nat) : List α → Option α
  | [] => none
  | x :: rest => match leastOf key rest with | some y => if key x ≤ key y then some x else some y | none => some x

/-- A tight rectangle with the waypoint of its shortest longest route. -/
def Detour.best (d : Detour) (q : Rect) : Option Rect :=
  if !d.tight q then none
  else leastOf d.length (((List.range 100).map (fun w => { q with w := w })).filter d.allows)

/-- The candidates: one entry for each tight rectangle. -/
def Detour.cands (d : Detour) : List Rect :=
  (List.range 10).flatMap (fun xl => (List.range (10 - xl)).flatMap (fun dx =>
    (List.range 10).flatMap (fun yl => (List.range (10 - yl)).filterMap (fun dy =>
      d.best { xl := xl, xh := xl + dx, yl := yl, yh := yl + dy, w := 0 }))))

/-- A set of at most `k` disjoint entries of the list that covers the destinations given. -/
def cover (qs : List Rect) : Nat → List Nat → List Rect → Option (List Rect)
  | _, [], chosen => some chosen.reverse
  | 0, _ :: _, _ => none
  | k + 1, t :: rest, chosen =>
    (qs.filter (fun q => q.has t && chosen.all (fun c => c.disjoint q))).findSome?
      (fun q => cover qs k (rest.filter (fun u => !q.has u)) (q :: chosen))

/-- The longest route of a set of entries. -/
def Detour.longest (d : Detour) (qs : List Rect) : Nat := (qs.map d.length).foldl max 0

/-- An optimal set of entries of a source: of those with the fewest entries one whose longest route is shortest, or with the two
criteria swapped (PARAM_SET 0x0C). -/
def Detour.optimum (d : Detour) (shortestFirst : Bool) : List Rect :=
  let cs := d.cands
  let upTo (l : Nat) : List Rect := cs.filter (fun q => decide (d.length q ≤ l))
  let found (l k : Nat) : Option (List Rect) := cover (upTo l) k d.needed []
  let k := if shortestFirst then 16 else ((List.range 17).find? (fun k => (cover cs k d.needed []).isSome)).getD 16
  let l := ((List.range 80).find? (fun l => (found l k).isSome)).getD 80
  let k := if shortestFirst then ((List.range 17).find? (fun k => (found l k).isSome)).getD 16 else k
  (found l k).getD []

/-- A set of entries as good as an optimal one, under all the rules: the firmware may choose it. -/
def Detour.accepts (d : Detour) (best qs : List Rect) : Bool :=
  qs.all d.allows && (List.range qs.length).all (fun i => (List.range i).all (fun j =>
    match qs[i]?, qs[j]? with | some a, some b => a.disjoint b | _, _ => true)) &&
  d.needed.all (fun t => qs.any (fun q => q.has t)) && qs.all (fun q => decide (q.xl ≤ q.xh) && decide (q.yl ≤ q.yh)) &&
  decide (qs.length = best.length) && decide (d.longest qs = d.longest best)

/-- The sixteen HG_WAYPT values of a source. Which optimal set it is, the manual leaves to the firmware (R323): a free set is
taken where it is one (log entry 11). None where no set exists. -/
def waypointWords (s : State) (av : Avoid) (n : Nat) : List Word × State :=
  let d := detourOf s av n
  let best := if d.needed.isEmpty then [] else d.optimum s.rd.shortestFirst
  let (k, s) := s.draw
  let free := (Config.waypointPick k).map Rect.ofWord
  let qs := if d.accepts best free then free else best
  ((qs.map Rect.word ++ List.replicate 16 0).take 16, s)

/-- No route leads from router `r` to router `t`, not even by a waypoint (R323). -/
def unroutable (b : Avoid) (r t : Nat) : Bool := !legOk b 20 r t && !viaWaypoint b r t

/-- Some destination in the attachment map of `n` has no route in `t`, where `b` is blocked (R324). -/
def lacksRoute (t : State) (b : Avoid) (n : Nat) : Bool := (destRouters t n).any (unroutable b (sourceRouter t n))

end Sys2Proof.Machine
end

