-- ==== Sys2Proof/Machine/Lifecycle.lean ====
section
/-! DEFINITION. Resets, start-up and lifecycle (chapter 17): cold and warm reset, the hardware's and the ROM's steps of Table 17-2
up to the boot path, the unit resets, and the end of a fuse write. -/

namespace Sys2Proof.Machine

/-! ### Stages and the halt (R439, R385) -/

def stage (s : State) : Nat := s.getF Reg.GL_BOOT 0 4
def setStage (s : State) (k : Nat) : State := s.setF Reg.GL_BOOT 0 4 k

/-- RIDER_EVT is set in every mailbox. -/
def riderEvent (s : State) : State := forRange 32 (fun m t => t.updMb m (fun b => { b with riderEvt := true })) s

/-- The Rider halts (R385): HALTED, IRQ_FATAL with it, RIDER_EVT, stage 10; its own work ends. -/
def haltRider (s : State) : State :=
  let s := (s.setB Reg.GL_RIDER_STATUS 1 true).setB Reg.GL_RIDER_STATUS 0 false
  let s := setStage (riderEvent s) 10
  s.setRd { s.rd with restarting := false, active := none, recoveries := [] }

/-! ### Cold and warm reset (R435) -/

/-- The code of a cold reset's cause in GL_BOOT.CAUSE (Table 17-9). -/
def coldCode : ColdCause → Nat
  | .pin => 0
  | .supplyReset => 1
  | .rootLockFall => 2
  | .testEntry => 3

/-- Cold reset: everything at its reset value; the inputs of the boundary keep their levels, and a fall of ROOT_LOCK is one. -/
def coldReset (s : State) (cause : ColdCause) : State :=
  let b := s.bd
  let lock := b.rootLock && decide (cause ≠ .rootLockFall)
  let bd := { Boundary.reset with
    time := b.time, everValid := b.time.valid, ownSec := b.time.sec, ownNs := b.time.ns, ownAt := 0, rootLock := lock
    supplyWarn := b.supplyWarn }
  let t : State := { State.reset with
    bd := bd, tap := { Tap.reset with testMode := decide (cause = .testEntry) }, freeCtr := s.freeCtr, pending := s.pending }
  t.setF Reg.GL_BOOT 4 3 (coldCode cause)

/-- The failed mark of slice `k` kept through a warm reset. -/
def keepFailed (old : State) (k : Nat) (t : State) : State :=
  if old.getB (Reg.HS_STATUS k) 0 then
    (t.setB (Reg.HS_STATUS k) 0 true).updHs k (fun x => { x with failedAt := (old.hsAt k).failedAt })
  else t

/-- What a warm reset keeps of the Rider: its SRAM with image, load area and log, and the restarts already counted. -/
def Rider.kept (r : Rider) : Rider :=
  { Rider.reset with
    pinned := r.pinned, circle := r.circle, lseq := r.lseq, incident := r.incident, sram := r.sram, coreRegs := r.coreRegs
    image := r.image, loadArea := r.loadArea, release := r.release, svn := r.svn
    restartsAt := r.restartsAt, trials := r.trials }

/-- Warm reset with the code of its cause; under cold reset nothing happens, the wider reset governing. -/
def warmReset (s : State) (cause : Nat) : State :=
  if s.bd.inColdReset then s
  else
    let b := s.bd
    let bd := { Boundary.reset with
      time := b.time, everValid := b.everValid, ownSec := b.ownSec, ownNs := b.ownNs, ownAt := b.ownAt, rootLock := b.rootLock
      supplyWarn := b.supplyWarn, inColdReset := false, inWarmReset := true, lcProgReq := b.lcProgReq, lcProgVal := b.lcProgVal }
    let t : State := { State.reset with
      fclk := s.fclk, rv := { Reservoir.reset with mem := s.rv.mem, poison := s.rv.poison }, bd := bd, rd := s.rd.kept
      tap := s.tap, freeCtr := s.freeCtr, pending := s.pending }
    let t := (t.setReg Reg.GL_LIFECYCLE (s.reg Reg.GL_LIFECYCLE)).setReg Reg.GL_FW_KEYS (s.reg Reg.GL_FW_KEYS)
    let t := t.setReg Reg.GL_RIDER_RESTARTS (s.reg Reg.GL_RIDER_RESTARTS)
    let t := (t.setF Reg.CK_STATUS 0 4 (s.getF Reg.CK_STATUS 0 4)).setF Reg.GL_BOOT 4 3 cause
    let t := t.setB Reg.GL_RIDER_STATUS 1 (riderHalted s)
    forRange 17 (keepFailed s) t

/-! ### Release and self-test (R439, R440, R442) -/

/-- The state two fuses stand for (R443). -/
def fuseState (f : BitVec 2) : Nat := if f = 0 then 0 else if f = 1 then 1 else 2

/-- RESET_RELEASE: at a cold start the fuses are sampled; self-test begins. SUPPLY_WARN crosses again where it is high. -/
def resetRelease (s : State) (lc : BitVec 2) (revoked : BitVec 4) (minSvn : BitVec 16) : State :=
  if !underReset s ∨ (s.bd.inColdReset ∧ !s.bd.rootLock) then s
  else
    let cold := s.bd.inColdReset
    let s := if cold then
        let s := s.setReg Reg.GL_LIFECYCLE (withFields 0 [(0, 2, fuseState lc), (2, 2, lc.toNat)])
        (s.setReg Reg.GL_FW_KEYS (withFields 0 [(0, 4, revoked.toNat), (4, 16, minSvn.toNat)])).setF Reg.CK_STATUS 0 4 0xF
      else s
    let s := (setStage s 2).setB Reg.GL_BOOT 7 (!cold)
    let s : State := s.setBd { s.bd with inColdReset := false, inWarmReset := false }
    let s := (s.setB Reg.CK_TURN_STATUS 1 s.bd.time.valid).setB Reg.CK_TURN_STATUS 2 (s.bd.everValid && !s.bd.time.valid)
    if s.bd.supplyWarn then warnCrosses s else s

/-- FAIL_KIND and FAIL_UNIT of a failing store (Table 17-9). -/
def failRecord : TestFail → Nat × Nat
  | .headgateStore n => (0, n.val)
  | .routerBuffers i => (1, i.val)
  | .directory _ => (2, 0xFF)
  | .reservoirBank _ => (2, 0xFF)
  | .traceBank _ => (3, 0xFF)
  | .riderSram => (3, 0xFF)

/-- A failure on which the Rider halts (Table 17-3). -/
def failFatal : TestFail → Bool
  | .headgateStore n => decide (149 ≤ n.val) && decide (n.val ≤ 151)
  | .reservoirBank _ => true
  | .riderSram => true
  | .routerBuffers _ => false
  | .directory _ => false
  | .traceBank _ => false

def failedHgs (fs : List TestFail) : List Nat := fs.filterMap (fun f => match f with | .headgateStore n => some n.val | _ => none)
def failedRouters (fs : List TestFail) : List Nat := fs.filterMap (fun f => match f with | .routerBuffers i => some i.val | _ => none)
def failedSlices (fs : List TestFail) : List Nat := fs.filterMap (fun f => match f with | .directory k => some k.val | _ => none)
def failedBanks (fs : List TestFail) : List Nat := fs.filterMap (fun f => match f with | .traceBank b => some b.val | _ => none)

/-- The RT_LOCAL_MAP value of router `i` (Table 4-11, Tables 1-2 and 1-3). -/
def localMapWord (i : Nat) : Word :=
  withFields 0 ((List.range 4).map (fun p => (8 * p, 8, match hgOnPort i p with | some (n, _) => n | none => 0xFF)))

/-- The maps of router `i`: its own and the copies of its neighbours'. -/
def writeMaps (i : Nat) (s : State) : State :=
  forRange 4 (fun d t => match neighbour i (4 + d) with
    | some j => t.setReg (Reg.RT_NBR_MAP i d) (localMapWord j)
    | none => t) (s.setReg (Reg.RT_LOCAL_MAP i) (localMapWord i))

/-- The link a headgate starts on: the primary, or the secondary where the primary's router failed self-test. -/
def startLink (bad : List Nat) (n : Nat) : Nat := if bad.contains (attachOf n 0).1 then 1 else 0

/-- The HG_ATTACH_k value of an attachment (Table 12-6). -/
def attachWord (n l : Nat) : Word :=
  let (i, p) := attachOf n l
  withFields 0 [(0, 8, nodeOf i), (8, 2, p), (63, 1, 1)]

/-- The attachment map of headgate `n`, its own entry left with VALID clear (R468), and its own USE. -/
def writeAttach (bad : List Nat) (n : Nat) (s : State) : State :=
  forRange 160 (fun k t => if k = n then t else t.setReg (Reg.HG_ATTACH_k n k) (attachWord k (startLink bad k)))
    (s.setF (Reg.HG_ATTACH n) 0 1 (startLink bad n))

/-- An end of a link the ROM leaves disabled. -/
def endOut (badHgs badRts : List Nat) : LEnd → Bool
  | .rt i _ => badRts.contains i
  | .hg n _ => badHgs.contains n

/-- An end is enabled unless it or its far end belongs to a failed unit. -/
def bringUp (badHgs badRts : List Nat) (e : LEnd) (s : State) : State :=
  match e.far with
  | none => s
  | some f => if endOut badHgs badRts e || endOut badHgs badRts f then s else writeEnable s e true

/-- Every end of a link, in ascending order of routers and then headgates. -/
def allEnds : List LEnd :=
  (List.range 100).flatMap (fun i => (List.range 8).map (LEnd.rt i)) ++
  (List.range 160).flatMap (fun n => (List.range 2).map (LEnd.hg n))

/-- The waypoint entries of every source (R323). -/
def writeWaypoints (av : Avoid) (n : Nat) (s : State) : State :=
  let (ws, s) := waypointWords s av n
  forEach (List.zip (List.range 16) ws) (fun x t => t.setReg (Reg.HG_WAYPT n x.1) x.2) s

/-- Step 4: the ROM writes the maps and enables the links (R439, Table 17-3). -/
def meshBringup (s : State) (fs : List TestFail) : State :=
  let bad := failedRouters fs
  let s := forRange 160 (writeAttach bad) (forRange 100 writeMaps (setStage s 4))
  let s := forEach allEnds (bringUp (failedHgs fs) bad) s
  let s : State := s.setRd { s.rd with outOfService := bad }
  let s := if bad.isEmpty then s else forRange 160 (writeWaypoints Avoid.none) s
  forEach (failedSlices fs) (fun k t => (t.setB (Reg.HS_STATUS k) 0 true).updHs k (fun x => { x with failedAt := some s.fclk }))
    (s.setPr { s.pr with failedBanks := failedBanks fs })

/-- SELF_TEST_DONE: failures of a cold start's march test are recorded; the ROM starts, or stops at once (R440, R442, R447). In
test mode the wrappers are handed over instead (R449). -/
def selfTestDone (s : State) (fails : List TestFail) : State :=
  if stage s ≠ 2 ∨ underReset s then s
  else
    let fs := if s.getB Reg.GL_BOOT 7 then [] else fails
    let (kind, unit) := match fs with | f :: _ => failRecord f | [] => (0, 0)
    let s := ((s.setF Reg.GL_BOOT 8 8 (min 255 fs.length)).setF Reg.GL_BOOT 16 8 unit).setF Reg.GL_BOOT 24 2 kind
    let s : State := s.setBd { s.bd with testFails := fs }
    if s.tap.testMode then s
    else if s.getF Reg.GL_LIFECYCLE 0 2 = 2 then setStage s 11
    else if riderHalted s then setStage s 10
    else if fs.any failFatal then haltRider (setStage s 3)
    else meshBringup s fs

/-! ### The boot path (R440) -/

/-- The default window of target `t` (Table 1-6): base and size; headgate 116 has none. -/
def defaultWindow (t : Nat) : Option (Nat × Nat) :=
  if t = 116 then none
  else if 100 ≤ t ∧ t < 116 then some (0, 2 ^ 35)
  else if 56 ≤ t ∧ t < 60 then some (2 ^ 35 + (t - 56) * 2 ^ 33, 2 ^ 33)
  else if 117 ≤ t ∧ t < 125 then some (0x1000000000 + (t - 117) * 0x200000, 0x200000)
  else if t = 151 then some (0xFF00000000, 0x1000000)
  else some (0x2000000000 + t * 0x1000000, 0x1000000)

/-- The window of target `t` of the boot path, at its default. -/
def bootWindow (t : Nat) : Nat × Nat := (defaultWindow t).getD (0, 0)

/-- The protection slot of target `t` of the boot path: the window, and group 1 with READ and WRITE for 149 and 150. -/
def bootSlot (t base size : Nat) (s : State) : State :=
  let s := (s.setReg (Reg.HG_PROT_BASE t) (BitVec.ofNat 64 base)).setReg (Reg.HG_PROT_SIZE t) (BitVec.ofNat 64 size)
  ((s.setReg (Reg.HG_PROT_RIGHTS t 1) 3).setReg (Reg.HG_PROT_GROUP t 149) 1).setReg (Reg.HG_PROT_GROUP t 150) 1

/-- The targets of the boot path. -/
def bootTargets : List Nat := (List.range 8).map (· + 117) ++ [151]

/-- The pair from host `n` to target `t`: decode slot, protection slot where it is not locked (R308), and the floor allotment of one. -/
def bootPair (n t : Nat) (s : State) : State :=
  let (base, size) := bootWindow t
  let s := s.setReg (Reg.HG_DEC_SLOT_w0 n t) (BitVec.ofNat 64 (base + 2 ^ 63))
  let s := s.setReg (Reg.HG_DEC_SLOT_w1 n t) (BitVec.ofNat 64 size)
  let s := if s.getB (Reg.HG_PROT_CTRL t) 1 then s else bootSlot t base size s
  let s := s.setF (Reg.HG_GRANT t n) 0 10 1
  let s := (s.setF (Reg.HG_ALLOT n t) 0 10 1).setB (Reg.HG_ALLOT n t) 36 true
  s.updHg n (fun h => { h with taken := Tab.set h.taken t 0 })

/-- MESH_BRINGUP_DONE: the boot path is written and the ROM serves mailboxes 0 and 1; after a warm reset a kept image is checked
instead (R440, R442). -/
def meshDone (s : State) : State :=
  if stage s ≠ 4 then s
  else
    let s := s.advanceTo (s.fclk + 2 * 1024)
    let s := forEach [149, 150] (fun n t => forEach bootTargets (bootPair n) t) (setStage s 5)
    let s := (s.setB (Reg.HG_ADMIT 149) 0 true).setB (Reg.HG_ADMIT 150) 0 true
    let s := setStage s 6
    if s.getB Reg.GL_BOOT 7 && !s.rd.image.isEmpty then s.setRd { s.rd with restarting := true } else s

/-! ### Unit resets (R436, R437) -/

/-- The request fields of GL_UNIT_RESET as written, with REFUSED as judged. -/
def unitRequest (s : State) (kind : Bool) (unit : Nat) (refused : Bool) : State :=
  let s := (s.setF Reg.GL_UNIT_RESET 0 8 unit).setB Reg.GL_UNIT_RESET 8 kind
  s.setB Reg.GL_UNIT_RESET 11 refused

/-- A unit reset starts, to end after `len` FCLK cycles. -/
def unitStart (s : State) (kind : Bool) (unit len : Nat) : State :=
  let s := (unitRequest s kind unit false).setB Reg.GL_UNIT_RESET 10 true
  s.setBd { s.bd with unitBusy := some (kind, unit, s.fclk + len) }

/-- Every port of router `i` and every port facing it is disabled. -/
def routerClosed (s : State) (i : Nat) : Bool :=
  (List.range 8).all (fun p => !s.enabled (.rt i p) && (match (LEnd.rt i p).far with | some f => !s.enabled f | none => true))

/-- What a router reset clears (Table 17-1). -/
def clearRouter (s : State) (i : Nat) : State :=
  let s := s.setRt i Router.reset
  ((s.setReg (Reg.RT_CTRL i) (regReset (Reg.RT_CTRL i))).setReg (Reg.RT_PORT_STATUS i) (regReset (Reg.RT_PORT_STATUS i))).setReg
    (Reg.RT_FAULT i) (regReset (Reg.RT_FAULT i))

/-- ROUTER_RESET, refused while another unit reset runs (log entry 23). -/
def routerReset (s : State) (i : Nat) : State :=
  if 100 ≤ i ∨ s.bd.unitBusy.isSome ∨ !routerClosed s i then unitRequest s false i true
  else clearRouter (unitStart s false i 64) i

/-- What a headgate logic reset zeroes of the stores and the state behind the registers; the request store, the inputs from the
agent and the wheel stay. -/
def Headgate.logicCleared (h : Headgate) (taken : Tab Nat) : Headgate :=
  { h with
    reqs := [], acc := none, dead := none, out := .none, ctxs := [], txns := [], cackWait := [], taken := taken, store := []
    tx := [], rx := [], poolUsed := 0, cmtIn := [], gdataIn := [], homeIn := [], overAllot := [], rxAsm := [], rxDrop := [], rxPkts := []
    lock := LockMgr.reset, staleIds := [], twdata := [], msgin := [], snoops := [], wakeHeld := none
    chans := h.chans.map (fun x => (x.1, { x.2 with held := [], buffered := 0, relay := [] }))
    scrubReplay := none, scrubReseq := none }

/-- The registers a headgate logic reset sets for pair `k` and context `k`. -/
def clearPair (n k : Nat) (s : State) : State :=
  (s.setF (Reg.HG_ALLOT n k) 20 16 0).setF (Reg.HG_GRANT n k) 20 16 0

def weirToBurst (n k : Nat) (s : State) : State := setWeirLevel s n k (weirBurst s n k)

/-- HEADGATE_LOGIC_RESET (R437): every CREDIT is zero, every weir full. -/
def headgateReset (s : State) (n : Nat) : State :=
  if 160 ≤ n ∨ s.bd.unitBusy.isSome ∨ !s.getB (Reg.HG_LEVEE n) 0 ∨ !s.getB (Reg.HG_LEVEE n) 2 ∨ s.enabled (.hg n 0) ∨
      s.enabled (.hg n 1) then
    unitRequest s true n true
  else
    let s := unitStart s true n 8192
    let taken := (List.range 160).foldl (fun t k => Tab.set t k (s.getF (Reg.HG_ALLOT n k) 0 10)) ([] : Tab Nat)
    let s := s.updHg n (fun h => h.logicCleared taken)
    let s := forRange 160 (clearPair n) (s.setF (Reg.HG_EPOCH n) 0 4 0)
    forRange 64 (weirToBurst n) s

/-- The running unit reset of the kind ends and BUSY clears. -/
def unitDone (s : State) (kind : Bool) : State :=
  match s.bd.unitBusy with
  | none => s
  | some (k, _, t) =>
    if k ≠ kind then s
    else
      let s := (s.advanceTo t).setB Reg.GL_UNIT_RESET 10 false
      s.setBd { s.bd with unitBusy := none }

/-! ### The fuse write (R444) -/

/-- LC_PROG_DONE: the request is withdrawn and GL_LIFECYCLE.STATE takes the new state. -/
def progDone (s : State) : State :=
  if !s.bd.lcProgReq then s
  else
    let st := if s.bd.lcProgVal = 1 then 1 else 2
    let s := (s.setB Reg.GL_LIFECYCLE 4 false).setF Reg.GL_LIFECYCLE 0 2 st
    s.setBd { s.bd with lcProgReq := false }

def execColdReset (cause : ColdCause) (s : State) : Out := .next (coldReset s cause)
def execWarmReset (s : State) : Out := .next (warmReset s 4)
def execResetRelease (lc : BitVec 2) (revoked : BitVec 4) (minSvn : BitVec 16) (s : State) : Out :=
  .next (resetRelease s lc revoked minSvn)
def execSelfTestDone (fails : List TestFail) (s : State) : Out := .next (selfTestDone s fails)
def execMeshBringupDone (s : State) : Out := .next (meshDone s)
def execRouterReset (i : Rt) (s : State) : Out := .next (routerReset s i)
def execRouterResetDone (s : State) : Out := .next (unitDone s false)
def execHeadgateLogicReset (n : Hg) (s : State) : Out := .next (headgateReset s n)
def execHeadgateLogicResetDone (s : State) : Out := .next (unitDone s true)
def execLcProgDone (s : State) : Out := .next (progDone s)

end Sys2Proof.Machine
end

