-- ==== Sys2Proof/Machine/Once.lean ====
section
/-! DEFINITION. The commands of exactly-once delivery (chapter 6) and of credits and epochs (chapter 5). -/

namespace Sys2Proof.Machine

/-- ECMT_DELAY passes since the earliest commit no ECMT covers (R176). -/
def ecmtDue (s : State) (n src : Nat) : State :=
  match ((s.hgAt n).rxAt src).firstAt with
  | some t => sendEcmt (s.advanceTo (t + ecmtDelay s n)) n src
  | none => s

/-- The first ECMT of a pair in the inbox (R177). -/
def takeEcmt (s : State) (n : Nat) : State :=
  match takeCmt (s.hgAt n) opECMT false with
  | (some p, h) => applyEcmt (s.setHg n h) n p.hdr.src.toNat (BitVec.ofNat 16 p.hdr.txn)
  | (none, _) => s

/-- The first ENAK of a pair in the inbox (R180). -/
def takeEnak (s : State) (n : Nat) : State :=
  match takeCmt (s.hgAt n) opENAK false with
  | (some p, h) => applyEnak (s.setHg n h) n p.hdr.src.toNat (BitVec.ofNat 16 p.hdr.txn)
  | (none, _) => s

/-- The first CRED in the inbox (R147). -/
def takeCred (s : State) (n : Nat) : State :=
  match takeCmt (s.hgAt n) opCRED false with
  | (some p, h) => applyCred (s.setHg n h) n p.hdr.src.toNat p.hdr.txn
  | (none, _) => s

/-- A freed entry has waited 128 FCLK cycles (R147). -/
def credDue (s : State) (t src : Nat) : State :=
  match ((s.hgAt t).rxAt src).freedAt with
  | some a => sendCred (s.advanceTo (a + 128)) t src
  | none => s

/-- One further CRED with an unchanged total, 2048 FCLK cycles after the last (R147). -/
def credKeepalive (s : State) (t src : Nat) : State :=
  let x := (s.hgAt t).rxAt src
  match x.credAt with
  | some a =>
    if x.freed = 0 ∧ x.credRepeat = false then
      (sendCred (s.advanceTo (a + 2048)) t src).updHg t (fun h => h.setRx src { h.rxAt src with credRepeat := true })
    else s
  | none => s

/-- HG_REPLAY_CMD written with GO (R181): DEST and ALL are held, GO reads 0. -/
def replayNotice (s : State) (n dest : Nat) (all : Bool) : State :=
  let s := (s.setF (Reg.HG_REPLAY_CMD n) 0 8 dest).setB (Reg.HG_REPLAY_CMD n) 8 all
  if all then triggerAll s n
  else if (uncommitted (s.hgAt n) dest).isEmpty then s
  else triggerPass s n dest

/-! ### The meanings -/

def execPacketReceived (n : Hg) (err : MemErr) (s : State) : Out := .next (receivePkt s n err)
def execHeldPacketCommit (n : Hg) (src : HeldRead) (s : State) : Out := .next (commitHeld s n src.src src.err)
def execEcmtDelayTimeout (n src : Hg) (s : State) : Out := .next (ecmtDue s n src)
def execEcmtReceived (n : Hg) (s : State) : Out := .next (takeEcmt s n)
def execEnakReceived (n : Hg) (s : State) : Out := .next (takeEnak s n)
def execCredReceived (n : Hg) (s : State) : Out := .next (takeCred s n)
def execCredDelayTimeout (t src : Hg) (s : State) : Out := .next (credDue s t src)
def execCredKeepaliveTimeout (t src : Hg) (s : State) : Out := .next (credKeepalive s t src)
def execCommitTimeout (n d : Hg) (s : State) : Out := .next (commitExpire s n d)
def execReplayPass (n d : Hg) (s : State) : Out := .next (startPass s n d)
def execReplayPacketInjection (n d : Hg) (err : MemErr) (s : State) : Out := .next (replayNext s n d err)
def execEpochAdvance (n : Hg) (s : State) : Out := .next (advanceEpoch s n)
/-- The drain of R152 is a level: HG_EPOCH.DRAINED reads it from the counts, and what waits for it reads the counts. The event
stores nothing of its own. -/
def execEpochDrainComplete (_n : Hg) (s : State) : Out := .next s
def execReplayCmdGo (n : Hg) (dest : BitVec 8) (all : Bool) (s : State) : Out := .next (replayNotice s n dest.toNat all)

end Sys2Proof.Machine
end

