-- ==== Sys2Proof/Machine/Fcs.lean ====
section
/-! DEFINITION. The fabric control space (chapter 18): what a write of a register does, the accesses of the FCS port with their
three stages, and the reads with a side effect. -/

namespace Sys2Proof.Machine

/-! ### The store of a register's fields (R7, R454) -/

/-- The bits of the enabled bytes of a word. -/
def byteMask (be : BitVec 8) : Word := BitVec.ofNat 64 (sumBy (fun k => 0xFF * 2 ^ (8 * k)) (bitsOf be 8))

/-- The lock that governs the RWL fields of a register is set: HG_CFG.LOCK, or LOCK of the protection slot (R308). -/
def lockedReg (s : State) (off : Nat) : Bool :=
  match fcsLocate off with
  | (.headgate, n, lo) => if lo = 8 then s.getB (Reg.HG_CFG n) 31 else if 0x2000 ≤ lo ∧ lo < 0x3000 then s.getB (Reg.HG_PROT_CTRL n) 1 else false
  | _ => false

/-- Bits a register's mask names that are fixed in some instances: MEMBER of a headgate without an HAI, and the bits of
headgates 160 to 191. -/
def fixedBits (off : Nat) : Word :=
  if Reg.CK_HG_DOM 0 ≤ off ∧ off < Reg.CK_HG_DOM 160 then (if hasHai ((off - Reg.CK_HG_DOM 0) / 8) then 0 else 0x20)
  else if off = Reg.PR_SECRET_MAP 2 then 0xFFFFFFFF00000000
  else
    match fcsLocate off with
    | (.headgate, _, lo) => if lo = 0x1F30 then 0xFFFFFFFF00000000 else 0
    | _ => 0

/-- The fields of the register at `off` after a write of `v` in the bits `m`: RW and RDR fields, RWL fields while unlocked, and
RW1C bits cleared where 1 is written. -/
def storeFields (s : State) (off : Nat) (v m : Word) : State :=
  match regAt off with
  | none => s
  | some (r, _, _) =>
    let rwl := if lockedReg s off then 0 else r.rwl
    let w := BitVec.ofNat 64 (r.rw ||| r.rdr ||| rwl) &&& m &&& ~~~(fixedBits off)
    let old := s.reg off
    s.setReg off (((old &&& ~~~w) ||| (v &&& w)) &&& ~~~(v &&& m &&& BitVec.ofNat 64 r.w1c))

/-- Bit `i` is written with 1. -/
def sets (v m : Word) (i : Nat) : Bool := bit v i && bit m i

/-! ### Writes with a behaviour of their own -/

/-- GL_RIDER_WDOG.KICK: the watchdog count starts again (R479); halted by debug, the count stands (the field then holds the cycles counted). -/
def kick (s : State) : State := s.setRd { s.rd with wdogAt := if s.rd.debugHalt then 0 else s.fclk }

def writeGlobal (s : State) (off : Nat) (v m : Word) : State :=
  let s := storeFields s off v m
  if off = Reg.GL_UNIT_RESET ∧ sets v m 9 then
    let u := s.getF Reg.GL_UNIT_RESET 0 8
    if s.getB Reg.GL_UNIT_RESET 8 then headgateReset s u else routerReset s u
  else if off = Reg.GL_RIDER_WDOG ∧ sets v m 16 then kick s
  else s

/-- CK_TURN_CFG: K waits for the next second boundary of the generator's time, where there is one (R194, log entry 56); a generator
that is disabled stops. -/
def writeTurnCfg (s : State) (v m : Word) : State :=
  let old := turnK s (ownSecond s)
  let s := storeFields s Reg.CK_TURN_CFG v m
  let s : State := if turnsPerSecond (s.getF Reg.CK_TURN_CFG 0 18) ≠ old ∧ s.bd.everValid then
      s.setBd { s.bd with pendingK := some (old, ownSecond s) }
    else s
  if s.getB Reg.CK_TURN_CFG 18 then s else s.setB Reg.CK_TURN_STATUS 0 false

/-- The merge counters of a register of control sluices are cleared (R343). -/
def mergeClear (s : State) (off : Nat) : State := s.setF off 0 12 0

def writeClock (s : State) (off : Nat) (v m : Word) : State :=
  if off = Reg.CK_MERGE then (if sets v m 31 then mergeClear s off else s)
  else if off = Reg.CK_TURN_CFG then writeTurnCfg s v m
  else
    let s := storeFields s off v m
    if Reg.CK_HG_DOM 0 ≤ off ∧ off < Reg.CK_HG_DOM 160 then
      let n := (off - Reg.CK_HG_DOM 0) / 8
      s.setB (Reg.HG_DOM_STATUS n) 2 (match domainOf s n with | some d => decide (s.getF (Reg.CK_DOM d) 1 3 = 4) | none => false)
    else s

/-- MB_CMD word `k` of mailbox `m`, in the bits of `mask`. -/
def writeCmd (s : State) (m k : Nat) (v mask : Word) : State :=
  s.updMb m (fun b => { b with cmd := setNth b.cmd k ((((b.cmd[k]?).getD 0) &&& ~~~mask) ||| (v &&& mask)) })

def writeMailbox (s : State) (m lo : Nat) (v mask : Word) : State :=
  if lo < 0x40 then writeCmd s m (lo / 8) v mask
  else if lo = 0x80 then doorbell s m (v &&& mask)
  else storeFields s (mbBase m + lo) v mask

/-- PR_PRB_CTL of probe `p`: on a rise of ARMED the weir starts at 64, OVF is clear and the trigger waits for its first match. -/
def writeProbe (s : State) (p : Nat) (v m : Word) : State :=
  let was := s.getB (Reg.PR_PRB_CTL p) 63
  let s := storeFields s (Reg.PR_PRB_CTL p) v m
  if s.getB (Reg.PR_PRB_CTL p) 63 && !was then
    let s := (s.setF (Reg.PR_PRB_STAT p) 26 13 64).setB (Reg.PR_PRB_STAT p) 39 false
    s.setPr { s.pr with trigDone := s.pr.trigDone.filter (fun q => decide (q ≠ p)) }
  else s

/-- The burst of the global trace weir (Table 16-13). -/
def traceBurst (s : State) : Nat := clip 1 64 (s.getF Reg.PR_TRACE_WEIR 6 7)

def writeProbes (s : State) (off : Nat) (v m : Word) : State :=
  if Reg.PR_PRB_CTL 0 ≤ off ∧ off < Reg.PR_PRB_CTL 32 ∧ (off - Reg.PR_PRB_CTL 0) % 0x40 = 0 then
    writeProbe s ((off - Reg.PR_PRB_CTL 0) / 0x40) v m
  else
    let s := storeFields s off v m
    if off = Reg.PR_CTL then (if sets v m 0 then takeSnapshot s else s)
    else if off = Reg.PR_TRACE_WEIR then
      s.setPr { s.pr with globalLevel := min s.pr.globalLevel (traceBurst s : Int) }
    else s

def writeSlice (s : State) (k lo : Nat) (v m : Word) : State :=
  let s := storeFields s (hsBase k + lo) v m
  if lo = 0x28 ∧ sets v m 4 then sweepGo s k (BitVec.ofNat 4 (s.getF (Reg.HS_SWEEP k) 0 4)) else s

/-- RT_CTRL: each PORT_EN that changes, then each PORT_CLEAR. -/
def writeRtCtrl (s : State) (i : Nat) (v m : Word) : State :=
  let s := forRange 8 (fun p t => if bit m p then writeEnable t (.rt i p) (bit v p) else t) s
  forRange 8 (fun p t => if sets v m (8 + p) then clearPort t (.rt i p) else t) s

def writeRouter (s : State) (i lo : Nat) (v m : Word) : State :=
  if lo = 8 then writeRtCtrl s i v m else storeFields s (rtBase i + lo) v m

/-! ### Headgate registers -/

/-- HG_WEIR: a level above the new BURST falls to it; with RATE 0 it stands at BURST (R150). -/
def writeWeir (s : State) (n c : Nat) (v m : Word) : State :=
  let s := storeFields s (Reg.HG_WEIR n c) v m
  setWeirLevel s n c (if weirRate s n c = 0 then (weirBurst s n c : Int) else min (weirLevel s n c) (weirBurst s n c : Int))

/-- HG_ALLOT: CREDIT is set to ALLOT as the pair is enabled. -/
def writeAllot (s : State) (n k : Nat) (v m : Word) : State :=
  let was := pairEnabled s n k
  let s := storeFields s (Reg.HG_ALLOT n k) v m
  if pairEnabled s n k && !was then s.updHg n (fun h => { h with taken := Tab.set h.taken k 0 }) else s

/-- HG_DOM_CLOSE: each bit that falls opens the headgate toward its domain (R354). -/
def writeClose (s : State) (n : Nat) (v m : Word) : State :=
  let old := s.reg (Reg.HG_DOM_CLOSE n)
  let s := storeFields s (Reg.HG_DOM_CLOSE n) v m
  let new := s.reg (Reg.HG_DOM_CLOSE n)
  forRange 32 (fun d t => if bit old d && !bit new d then openDom d n t else t) s

/-- HG_ATTACH: AUTO and FAILED_OVER, the enables, the clears, then USE. -/
def writeAttachReg (s : State) (n : Nat) (v m : Word) : State :=
  let s := storeFields s (Reg.HG_ATTACH n) v (m &&& 0x42)
  let s := forRange 2 (fun l t => if bit m (8 + l) then writeEnable t (.hg n l) (bit v (8 + l)) else t) s
  let s := forRange 2 (fun l t => if sets v m (10 + l) then clearPort t (.hg n l) else t) s
  if bit m 0 then writeUse s n (bit v 0) else s

/-- HG_LEVEE: AUTO, then TGT and ISO_INIT where they change (R326, R329, R330). -/
def writeLevee (s : State) (n : Nat) (v m : Word) : State :=
  let s := storeFields s (Reg.HG_LEVEE n) v (m &&& 2)
  let s := if bit m 0 && (s.getB (Reg.HG_LEVEE n) 0 != bit v 0) then (if bit v 0 then setLevee s n false else clearLevee s n) else s
  if bit m 2 && (s.getB (Reg.HG_LEVEE n) 2 != bit v 2) then (if bit v 2 then setIso s n else s.setB (Reg.HG_LEVEE n) 2 false)
  else s

/-- HG_DEAD_DEST word `k`: each destination whose bit changes (R328). -/
def writeDead (s : State) (n k : Nat) (v m : Word) : State :=
  forRange 64 (fun j t =>
    let d := 64 * k + j
    if d < 160 ∧ bit m j ∧ deadDest t n d ≠ bit v j then
      (if bit v j then setRemote t n d else t.setB (Reg.HG_DEAD_DEST n k) j false)
    else t) s

/-- HG_PAIR_RESET: PEER and HOLD, then GO (R331). -/
def writePairReset (s : State) (n : Nat) (v m : Word) : State :=
  let s := storeFields s (Reg.HG_PAIR_RESET n) v m
  if sets v m 8 then
    let d := s.getF (Reg.HG_PAIR_RESET n) 0 8
    pairReset s n d (pairHeld s n d)
  else s

/-- HG_REPLAY_CMD: DEST and ALL, then GO (R181). -/
def writeReplay (s : State) (n : Nat) (v m : Word) : State :=
  let s := storeFields s (Reg.HG_REPLAY_CMD n) v m
  if sets v m 9 then replayNotice s n (s.getF (Reg.HG_REPLAY_CMD n) 0 8) (s.getB (Reg.HG_REPLAY_CMD n) 8) else s

/-- HG_PL_CHAN: a record that becomes valid starts anew, but for LATE and DROP, which only a reset clears (R223); one that ceases
gives up its packets (R394). -/
def writeChan (s : State) (n i : Nat) (v m : Word) : State :=
  let was := s.getB (Reg.HG_PL_CHAN n i) 63
  let s := storeFields s (Reg.HG_PL_CHAN n i) v m
  let is := s.getB (Reg.HG_PL_CHAN n i) 63
  if is && !was then
    s.updHg n (fun h => h.setChan i { ChanSt.reset with late := (h.chanAt i).late, drop := (h.chanAt i).drop })
  else if was && !is then
    s.updHg n (fun h => { (h.setChan i { h.chanAt i with held := [], relay := [], buffered := 0 }) with
      msgin := h.msgin.filter (fun x => !(x.gua && decide (x.chanRec = i))) })
  else s

/-- A slot register: every entry checked and not complete is marked (R312). A locked slot is not written. -/
def writeSlot (s : State) (n lo : Nat) (v m : Word) : State :=
  let off := hgBase n + lo
  if lockedReg s off ∨ (regAt off).isNone then s
  else
    (storeFields s off v m).updHg n (fun h => { h with
      entries := h.entries.map (fun e => if e.checked then { e with marked := true } else e) })

def writeHeadgate (s : State) (n lo : Nat) (v m : Word) : State :=
  if lo = 0x10 then (if sets v m 4 then advanceEpoch s n else s)
  else if lo = 0x138 then writeReplay s n v m
  else if 0x200 ≤ lo ∧ lo < 0x400 then writeWeir s n ((lo - 0x200) / 8) v m
  else if 0x400 ≤ lo ∧ lo < 0x900 then writeAllot s n ((lo - 0x400) / 8) v m
  else if 0x900 ≤ lo ∧ lo < 0xE00 then settleTarget (storeFields s (hgBase n + lo) v m) n
  else if lo = 0xEA0 then writeClose s n v m
  else if lo = 0xEB0 then (if sets v m 31 then mergeClear s (Reg.HG_SLUICE n) else s)
  else if lo = 0x1F08 then writeAttachReg s n v m
  else if lo = 0x1F10 then writeLevee s n v m
  else if 0x1F20 ≤ lo ∧ lo < 0x1F38 then writeDead s n ((lo - 0x1F20) / 8) v m
  else if lo = 0x1F38 then writePairReset s n v m
  else if 0x2000 ≤ lo ∧ lo < 0x3000 then writeSlot s n lo v m
  else if 0x3C00 ≤ lo then writeChan s n ((lo - 0x3C00) / 8) v m
  else storeFields s (hgBase n + lo) v m

/-- A write of `v` in the bits `m` of the 8-byte-aligned FCS offset `off`, by a master that may write there. An offset without
a register ignores it (R453). -/
def regWrite (s : State) (off : Nat) (v m : Word) : State :=
  match fcsLocate off with
  | (.global, _, _) => writeGlobal s off v m
  | (.clock, _, _) => writeClock s off v m
  | (.mailbox, k, lo) => writeMailbox s k lo v m
  | (.probe, _, _) => writeProbes s off v m
  | (.slice, k, lo) => writeSlice s k lo v m
  | (.reservoir, _, _) => storeFields s off v m
  | (.router, i, lo) => writeRouter s i lo v m
  | (.headgate, n, lo) => writeHeadgate s n lo v m
  | (.none, _, _) => s
  | (.riderPrivate, _, _) =>
    let old := Tab.get s.rd.sram (Config.riderCoreReg off) off
    s.setRd { s.rd with sram := Tab.set s.rd.sram off ((old &&& ~~~m) ||| (v &&& m)) }

/-- A whole word written by the Rider. -/
def riderWrite (s : State) (off : Nat) (v : Word) : State := regWrite s off v 0xFFFFFFFFFFFFFFFF

/-! ### Reads (R9, R454, R463) -/

/-- A read by any master but the Rider: the private range reads zero. -/
def clientRead (s : State) (off : Nat) : Word := if 0x800000 ≤ off then 0 else regRead s off

/-- The one side effect of a read: CK_TIME_SEC latches the nanoseconds (R463). -/
def readLatch (s : State) (off : Nat) : State :=
  if off = Reg.CK_TIME_SEC then s.setReg Reg.CK_TIME_NS (s.bd.time.ns.setWidth 64) else s

/-! ### The judgement of a client's word (R363, R367, R456) -/

/-- Mailbox `m` is bound to the requester. -/
def boundTo (s : State) (m src : Nat) (c : Ctx) : Bool :=
  let b := s.reg (Reg.MB_BIND m)
  bit b 15 && decide (field b 0 8 = src) && (bit b 14 || decide (field b 8 6 = c.toNat))

/-- The word lies in MB_CMD, MB_RSP or MB_DOORBELL. -/
def boundWord (off : Nat) : Bool := match fcsLocate off with | (.mailbox, _, lo) => decide (lo < 0x88) | _ => false

/-- The 64-byte block of a word is refused at the mailbox binding: some word of the access in it needs the binding (R367). -/
def bindingRefuses (s : State) (words : List Nat) (src : Nat) (c : Ctx) (off : Nat) : Bool :=
  words.any (fun w => decide (w / 64 = off / 64) && boundWord w) &&
    (match fcsLocate off with | (.mailbox, m, _) => !boundTo s m src c | _ => false)

/-- Table 14-1 lets a client write the word. -/
def classAllows (s : State) (off : Nat) : Bool :=
  if 0x800000 ≤ off then false
  else if boundWord off ∧ (off % 0x1000 < 0x40 ∨ off % 0x1000 = 0x80) then true
  else
    match regAt off with
    | none => true
    | some (r, _, _) =>
      decide (s.getF Reg.GL_LIFECYCLE 0 2 = 0) && decide (r.rdr = 0) && decide (r.trig = 0) &&
        (if r.rwl ≠ 0 then !lockedReg s off else decide (r.rw ≠ 0) || decide (r.w1c ≠ 0))

/-- A refused word is counted and recorded (R456, R461). -/
def noteRefused (s : State) (off src : Nat) (c : Ctx) (posted read : Bool) : State :=
  let s := s.bump Reg.GL_FCS_REFUSE 1
  s.setReg Reg.GL_FCS_PORT (withFields 0 [(0, 24, off), (24, 8, src), (32, 6, c.toNat), (38, 1, b2n posted), (39, 1, b2n read), (40, 1, 1)])

/-- One word of a client's write: the state after it, and whether it was refused. -/
def clientWord (s : State) (words : List Nat) (src : Nat) (c : Ctx) (posted : Bool) (off : Nat) (v m : Word) : State × Bool :=
  if bindingRefuses s words src c off ∨ !classAllows s off then (noteRefused s off src c posted false, true)
  else (regWrite s off v m, false)

/-- The alarm of a WRP of which words were refused (R457); `partly` says that some were performed. -/
def postedRefusal (s : State) (src : Nat) (c : Ctx) (partly : Bool) : State :=
  s.hgAlarm 151 0x45 (src + c.toNat * 2 ^ 8 + b2n partly * 2 ^ 14)

/-! ### FCS_ACCESS (R454 to R458) -/

/-- The FCS base: that of the window of headgate 151 in its own decode slot (log entry 36). -/
def fcsBase (s : State) : Nat := field (s.reg (Reg.HG_DEC_SLOT_w0 151 151)) 6 42 * 64

/-- The FCS offset of a byte of the window of headgate 151: its address relative to the FCS base (R9). -/
def fcsOffset (s : State) (a : Nat) : Nat := (a + (2 ^ 48 - fcsBase s)) % 2 ^ 48

/-- The 8-byte-aligned offsets that `len` bytes from offset `lo` touch. -/
def wordsOf (lo len : Nat) : List Nat := (List.range ((lo + len - 1) / 8 + 1 - lo / 8)).map (fun k => 8 * (lo / 8 + k))

/-- Bytes of the range `lo .. lo + len - 1` of offsets in the word at `w`. -/
def bytesIn (lo len w : Nat) : Nat := min (lo + len) (w + 8) - max lo w

/-- What a read has gathered: the state, the words read with their offsets, the bytes performed, whether one was refused. -/
structure FcsRead where
  state : State
  words : List (Nat × Word)
  done : Nat
  refused : Bool

/-- One word of a client's read. -/
def readWord (words : List Nat) (src : Nat) (c : Ctx) (lo len : Nat) (r : FcsRead) (w : Nat) : FcsRead :=
  if bindingRefuses r.state words src c w then
    { r with state := noteRefused r.state w src c false true, words := r.words ++ [(w, 0)], refused := true }
  else
    { r with state := readLatch r.state w, words := r.words ++ [(w, clientRead r.state w)], done := r.done + bytesIn lo len w }

/-- The beats of a read from its words, lanes outside them zero. -/
def fcsBeats (ws : List (Nat × Word)) (first n : Nat) : List DBeat :=
  (List.range n).map (fun k =>
    { data := lineOf (fun j =>
        let a := 64 * (first + k) + j
        match ws.find? (fun x => decide (x.1 = a / 8 * 8)) with
        | some x => x.2.extractLsb' (8 * (a % 8)) 8
        | none => 0)
      poison := false })

/-- Lanes of a read beat outside the request's range are left open (R53). -/
def openLanes (lo bytes : Nat) (ds : List DBeat) (s : State) : List DBeat × State :=
  let hi := lo + bytes
  (List.zip (List.range ds.length) ds).foldl (fun (acc : List DBeat × State) x =>
    let base := (lo / 64 + x.1) * 64
    let be := BitVec.ofNat 64 (sumBy (fun j => if lo ≤ base + j ∧ base + j ≤ hi then 2 ^ j else 0) (List.range 64))
    let (l, t) := freeLanes acc.2 x.2.data be
    (acc.1 ++ [{ x.2 with data := l }], t)) ([], s)

/-- An RD at the FCS port. -/
def fcsRd (s : State) (e : Entry) : State :=
  let h := e.pkt.hdr
  let len := e.bytes.toNat + 1
  let lo := fcsOffset s e.lo.toNat
  let ws := wordsOf lo len
  let r := ws.foldl (readWord ws h.src.toNat h.ctx lo len) { state := s, words := [], done := 0, refused := false }
  let beats := fcsBeats r.words (lo / 64) (rangeBeats e.lo e.bytes)
  if e.partDenied then answer r.state 151 e.id ocDenied r.done (maskRead e beats)
  else
    let (beats, t) := openLanes e.lo.toNat e.bytes.toNat beats r.state
    answer t 151 e.id (if r.refused then ocDenied else ocOK) r.done beats

/-- What a write has done: the state, the bytes performed, whether a word was refused. -/
structure FcsWrite where
  state : State
  done : Nat
  refused : Bool

/-- The data and enables of the word at `w` from the beats of a write whose first beat holds offset `64 * first`. -/
def beatWord (bs : List Beat) (first w : Nat) : Word × BitVec 8 :=
  match bs[w / 64 - first]? with
  | some b => (wordOf b.data (w % 64 / 8), b.be.extractLsb' (w % 64) 8)
  | none => (0, 0)

/-- One word of a client's write. -/
def writeWord (words : List Nat) (src : Nat) (c : Ctx) (posted : Bool) (lo len : Nat) (bs : List Beat) (r : FcsWrite) (w : Nat) :
    FcsWrite :=
  let x := beatWord bs (lo / 64) w
  let (t, bad) := clientWord r.state words src c posted w x.1 (byteMask x.2)
  { state := t, done := if bad then r.done else r.done + bytesIn lo len w, refused := r.refused || bad }

/-- A WR or WRP at the FCS port. -/
def fcsWr (s : State) (e : Entry) : State :=
  let h := e.pkt.hdr
  let len := e.bytes.toNat + 1
  let lo := fcsOffset s e.lo.toNat
  let ws := wordsOf lo len
  let bs := entryBeats e
  let posted := decide (e.op = opWRP)
  let r := ws.foldl (writeWord ws h.src.toNat h.ctx posted lo len bs) { state := s, done := 0, refused := false }
  let s := if posted && r.refused then postedRefusal r.state h.src.toNat h.ctx (decide (0 < r.done)) else r.state
  let oc := if e.partDenied || r.refused then ocDenied else if bs.any (·.poison) then ocPoisoned else ocOK
  answer s 151 e.id oc r.done []

/-- FCS_ACCESS: the oldest access at headgate 151 that passed its slot is performed; opcodes other than RD, WR and WRP perform
nothing (R458). -/
def fcsAccess (s : State) : State :=
  if s.getB (Reg.HG_LEVEE 151) 0 then s
  else
    match (s.hgAt 151).entries.find? (fun e => e.checked && decide (e.phase = .waiting)) with
    | none => s
    | some e =>
      let s := if e.op = opRD then fcsRd s e
        else if e.op = opWR ∨ e.op = opWRP then fcsWr s e
        else answer s 151 e.id ocAgentError 0 []
      settleTarget s 151

/-- REGISTER_WRITE: by the Rider, or by a client through stages 2 and 3. -/
def registerWrite (s : State) (who : Writer) (off : Nat) (v : Word) (be : BitVec 8) : State :=
  let off := off / 8 * 8
  match who with
  | .rider => regWrite s off v (byteMask be)
  | .client n c posted =>
    let (t, bad) := clientWord s [off] n c posted off v (byteMask be)
    if bad && posted then postedRefusal t n c false else t

/-- A read whose word is kept as the port's last answer. -/
def fcsReadAt (s : State) (off : Nat) : State :=
  (readLatch s off).setFcsRead (some (BitVec.ofNat 24 off, regRead s off))

def execWatchdogKick (s : State) : Out := .next (kick s)
def execFcsAccess (s : State) : Out := .next (fcsAccess s)
def execRegisterWrite (who : Writer) (off : BitVec 24) (data : Word) (be : BitVec 8) (s : State) : Out :=
  .next (registerWrite s who off.toNat data be)
def execTimeSecRead (s : State) : Out := .next (fcsReadAt s Reg.CK_TIME_SEC)
def execDirEntryRead (k : Sl) (s : State) : Out := .next (fcsReadAt s (Reg.HS_DIR_ENTRY k))
def execSnapshot (s : State) : Out := .next (takeSnapshot s)
def execMergeClear (hg : Option Hg) (s : State) : Out :=
  .next (mergeClear s (match hg with | some n => Reg.HG_SLUICE n | none => Reg.CK_MERGE))

end Sys2Proof.Machine
end

