-- ==== Sys2Proof/Machine/AlarmChain.lean ====
section
/-! DEFINITION. The alarm chain (R426 to R430) and the incident log (R431, R432). -/

namespace Sys2Proof.Machine

/-! ### The incident log -/

/-- Trace records dropped fabric-wide since cold or warm reset. -/
def traceDrops (s : State) : Nat := sumBy (fun p => (s.reg (Reg.PR_PRB_DROP p)).toNat) (List.range 32)

/-- The incident a record belongs to: the open one, or a new one that it opens. -/
def openIncident (s : State) : State :=
  if s.rd.incidentOpen then s
  else s.setRd { s.rd with incidentOpen := true, incident := s.rd.incident + 1, incRecords := 0, overwritten := 0,
                                  traceLostBase := traceDrops s, coalesced := 0 }

/-- A record logged: pinned among the first 64 of its incident, else in the circle of 128, whose oldest record gives way. -/
def logRecord (s : State) (evt : Bool) (w3 w4 w5 : Word) (onlyCounted : Nat) : State :=
  let s := openIncident s
  let r := s.rd
  let pin := decide (r.incRecords < 64)
  let full := !pin && decide (128 ≤ r.circle.length)
  let own := full && (match r.circle with | x :: _ => decide (x.incident = BitVec.ofNat 16 r.incident) | [] => false)
  let gone := r.overwritten + b2n own
  let rec' : LogRec :=
    { lseq := BitVec.ofNat 32 r.lseq, incident := BitVec.ofNat 16 r.incident, pinned := pin, riderEvt := evt
      time := BitVec.ofNat 48 s.fclk, w3 := w3, w4 := w4, w5 := w5, overwritten := BitVec.ofNat 32 gone
      traceLost := BitVec.ofNat 32 (traceDrops s - r.traceLostBase), coalesced := BitVec.ofNat 32 (r.coalesced + onlyCounted) }
  let r := { r with
    lseq := r.lseq + 1, incRecords := r.incRecords + 1, overwritten := gone, coalesced := r.coalesced + onlyCounted
    lastRecordAt := s.fclk }
  s.setRd (if pin then { r with pinned := Tab.set r.pinned (r.incRecords - 1) rec' }
      else { r with circle := (if full then r.circle.tail else r.circle) ++ [rec'] })

/-- Words 0 to 2 of an alarm record (Table 16-6). -/
def alarmWords (a : AlarmRec) : Word × Word × Word :=
  (withFields 0 [(0, 8, a.typ.toNat), (8, 8, a.source.toNat), (16, 1, b2n a.summary), (17, 1, b2n a.copied), (18, 1, b2n a.recirc),
     (32, 32, a.count.toNat)], a.time.setWidth 64, a.detail)

/-- Events of a record that are reported only by its COUNT: all of a summary's, all but the first of a full record's. -/
def onlyCounted (a : AlarmRec) : Nat := if a.summary then a.count.toNat else a.count.toNat - 1

/-- A copied alarm record is logged. -/
def logAlarm (s : State) (a : AlarmRec) : State :=
  let (w0, w1, w2) := alarmWords a
  logRecord s false w0 w1 w2 (onlyCounted a)

/-- A Rider event (R432): its code in word 3 [7:0] and its arguments above. -/
def logEvent (s : State) (code arg : Nat) : State := logRecord s true (BitVec.ofNat 64 (code + arg * 2 ^ 8)) 0 0 0

/-- The record LOG_READ returns for an index: a pinned slot, or the circle from its oldest. -/
def logAt (r : Rider) (i : Nat) : Option LogRec :=
  if i < 64 then (r.pinned.find? (fun x => decide (x.1 = i))).map (·.2) else r.circle[i - 64]?

/-- Words 1 to 7 of a log record (Table 16-8). -/
def logWords (x : LogRec) : List Word :=
  [withFields 0 [(0, 32, x.lseq.toNat), (32, 16, x.incident.toNat), (48, 1, b2n x.pinned), (49, 1, b2n x.riderEvt)],
   x.time.setWidth 64, x.w3, x.w4, x.w5, withFields 0 [(0, 32, x.overwritten.toNat), (32, 32, x.traceLost.toNat)],
   x.coalesced.setWidth 64]

/-- A recovery of a fault; the Rider's part in a hardware wake is none. -/
def Recovery.isFault (r : Recovery) : Bool := match r.kind with | .wake _ => false | _ => true

/-- The recoveries of faults in progress. -/
def faultsRun (s : State) : List Recovery := s.rd.recoveries.filter Recovery.isFault

/-- A recovery of a fault runs. -/
def recovers (s : State) : Bool := !(faultsRun s).isEmpty

/-- INCIDENT_CLOSE: 1 ms after the last record, with no recovery running. -/
def incidentClose (s : State) : State :=
  if !s.rd.incidentOpen ∨ recovers s then s
  else
    let s := s.advanceTo (s.rd.lastRecordAt + 1600000)
    s.setRd { s.rd with incidentOpen := false }

/-! ### The ring (R426, R429) -/

/-- The coalescing state whose last record is `id` moves to place `p`. -/
def placeRec (cs : List Coalesce) (id : Nat) (p : RecPlace) : List Coalesce :=
  cs.map (fun c => if c.recId = id ∧ c.place ≠ .none then { c with place := p } else c)

/-- ALARM_RING_ENTRY: the first record waiting in the station enters the ring. -/
def ringEntry (s : State) (station : Nat) : State :=
  match s.al.waiting.find? (fun r => decide (r.station = station)) with
  | none => s
  | some r => s.setAl { s.al with
      waiting := s.al.waiting.filter (fun x => decide (x.id ≠ r.id)), ring := s.al.ring ++ [r]
      states := placeRec s.al.states r.id .ring }

/-- The ring with record `id` changed. -/
def updRing (rs : List RingRec) (id : Nat) (f : RingRec → RingRec) : List RingRec := rs.map (fun r => if r.id = id then f r else r)

/-- ALARM_COPY: the first record without COPIED reaches the Rider's station, whose FIFO of 1024 takes it while it has room. -/
def alarmCopy (s : State) : State :=
  match s.al.ring.find? (fun r => !r.alarm.copied) with
  | none => s
  | some r =>
    if 1024 ≤ s.rd.fifo.length then s
    else
      let a := { r.alarm with copied := true }
      let s := s.bump Reg.PR_ALARM_RX 1
      let s := s.setAl { s.al with ring := updRing s.al.ring r.id (fun x => { x with alarm := a }) }
      s.setRd { s.rd with fifo := s.rd.fifo ++ [a], awaiting := (s.rd.awaiting ++ [(a.typ, a.source)]).eraseDups }

/-- A record that names requester `n` and has not been read by its station, in its first lap (R429). -/
def namesRequester (r : RingRec) (n : Nat) : Bool :=
  decide (r.alarm.typ = 0x45) && decide (field r.alarm.detail 0 8 = n) && !r.alarm.recirc && !r.passed

/-- The requester's station adds the record's COUNT to HG_POST_REFUSE. -/
def countRefusal (s : State) (r : RingRec) : State :=
  let n := field r.alarm.detail 0 8
  let s := if n < 160 then s.bump (Reg.HG_POST_REFUSE n) r.alarm.count.toNat else s
  s.setAl { s.al with ring := updRing s.al.ring r.id (fun x => { x with passed := true }) }

/-- ALARM_STATION_PASS: the first such record on the ring passes headgate `n`. -/
def stationPass (s : State) (n : Nat) : State :=
  match s.al.ring.find? (fun r => namesRequester r n) with
  | none => s
  | some r => countRefusal s r

/-- ALARM_RECORD_RETURN: the first record of the station comes back, and is removed if COPIED, else goes round again with RECIRC;
by then it has passed its requester. A record not copied returns so only while the Rider's FIFO is full. -/
def recordReturn (s : State) (station : Nat) : State :=
  match s.al.ring.find? (fun r => decide (r.station = station) && (r.alarm.copied || decide (1024 ≤ s.rd.fifo.length))) with
  | none => s
  | some r =>
    let s := if namesRequester r (field r.alarm.detail 0 8) then countRefusal s r else s
    let rest := s.al.ring.filter (fun x => decide (x.id ≠ r.id))
    if r.alarm.copied then s.setAl { s.al with ring := rest, states := placeRec s.al.states r.id .returned }
    else s.setAl { s.al with ring := rest ++ [{ r with alarm := { r.alarm with recirc := true }, passed := true }] }

/-! ### Acknowledgement (R427, R430) -/

/-- The Rider's station sends a token, and what it names no longer awaits acknowledgement. -/
def sendToken (s : State) (typ src : BitVec 8) (all : Bool) : State :=
  let s := s.setAl { s.al with tokens := s.al.tokens ++ [{ typ := typ, source := src, all := all, seen := [] }] }
  s.setRd { s.rd with awaiting := s.rd.awaiting.filter (fun x => !all && !(decide (x.1 = typ) && decide (x.2 = src))) }

/-- The token names the state and reaches it at its station. -/
def Token.names (k : Token) (c : Coalesce) : Bool := k.all || (decide (c.typ = k.typ) && decide (c.source = k.source))

/-- One state acted on: its counted events go out as a summary record, and it is IDLE again. -/
def ackState (a : Alarms) (c : Coalesce) : Alarms :=
  let a := { a with states := a.states.filter (fun d => !d.isFor c.station c.typ c.source c.requester) }
  if c.count = 0 then a
  else { a with
    waiting := a.waiting ++ [{ alarm := mkAlarm c.typ c.source true c.count c.time c.detail, station := c.station, id := a.nextId
                               passed := false }]
    nextId := a.nextId + 1 }

/-- The next token for the station: one that has not reached it and names some state there. -/
def tokenFor (s : State) (station : Nat) : Option (Nat × Token) :=
  (List.zip (List.range s.al.tokens.length) s.al.tokens).find? (fun x =>
    !x.2.seen.contains station && s.al.states.any (fun c => decide (c.station = station) && x.2.names c))

/-- Tokens that some station with a state they name has still to see stay on the ring. -/
def liveTokens (a : Alarms) : List Token :=
  a.tokens.filter (fun k => a.states.any (fun c => k.names c && !k.seen.contains c.station))

/-- ALARM_ACK_TOKEN: a token acts on the states whose last record has returned and been removed; others wait for the next. -/
def ackToken (s : State) (station : Nat) : State :=
  match tokenFor s station with
  | none => s.setAl { s.al with tokens := liveTokens s.al }
  | some (i, k) =>
    let due := s.al.states.filter (fun c => decide (c.station = station) && k.names c && decide (c.place = .returned))
    let a := due.foldl ackState s.al
    let a := { a with tokens := setNth a.tokens i { k with seen := k.seen ++ [station] } }
    s.setAl { a with tokens := liveTokens a }

def execAlarmRingEntry (station : Fin 280) (s : State) : Out := .next (ringEntry s station)
def execAlarmCopy (s : State) : Out := .next (alarmCopy s)
def execAlarmStationPass (n : Hg) (s : State) : Out := .next (stationPass s n)
def execAlarmRecordReturn (station : Fin 280) (s : State) : Out := .next (recordReturn s station)
def execAlarmAckToken (station : Fin 280) (s : State) : Out := .next (ackToken s station)
def execIncidentClose (s : State) : Out := .next (incidentClose s)

end Sys2Proof.Machine
end

