-- ==== Sys2Proof/Machine/Probes.lean ====
section
/-! DEFINITION. Trace probes (R417 to R425): the filter CAMs, captures, the weirs and the trace output. -/

namespace Sys2Proof.Machine

/-! ### The filter CAM (R418, R419) -/

/-- Header word W2, W1 or W0 of a head flit (R87), W2 being bits [191:128]. -/
def headWord (f : Flit) (k : Nat) : Word := f.payload.extractLsb' (64 * k) 64

/-- The units an entry of a SIZE occupies, none for 3. -/
def camUnits (size : Nat) : Nat := match size with | 0 => 1 | 1 => 2 | 2 => 4 | _ => 0

/-- What unit `u` of an entry compares (Table 16-3). -/
def camInput (f : Flit) (u : Nat) : Word := match u with
  | 0 => headWord f 2 | 1 => headWord f 1 | 2 => headWord f 0 | _ => f.fcw

/-- A head flit that a CAM entry can match: KIND 1 or 3 on a virtual channel other than 0xF. -/
def camHead (f : Flit) : Bool := f.isHead && !f.isControl

/-- The entry of probe `p` matches the observation at its point. -/
def camMatch (s : State) (p : Nat) (o : Obs) : Bool :=
  let size := s.getF (Reg.PR_PRB_CTL p) 16 2
  camHead o.flit && probeAt s p o.atHg o.where_ o.port && decide (size ≠ 3) &&
    (List.range (camUnits size)).all (fun u =>
      let i := 4 * p + u
      decide ((camInput o.flit u ^^^ s.reg (Reg.PR_CAM_MATCH i)) &&& s.reg (Reg.PR_CAM_MASK i) = 0))

/-- The observations of one FCLK cycle: the longest start of the bank's list with one time and no point twice (log entry 25). -/
def oneCycle : List Obs → List Obs → List Obs × List Obs
  | acc, [] => (acc, [])
  | acc, o :: rest =>
    if acc.all (fun x => decide (x.time = o.time) &&
        !(decide (x.atHg = o.atHg) && decide (x.where_ = o.where_) && decide (x.port = o.port))) then
      oneCycle (acc ++ [o]) rest
    else (acc, o :: rest)

/-! ### Records (R420 to R422) -/

/-- Headgate `n` is a secret target as published to the probes. -/
def secretMap (s : State) (n : Nat) : Bool := s.getB (Reg.PR_SECRET_MAP (n / 64)) (n % 64)

/-- The payload of the packet is withheld (R422). -/
def traceMasked (s : State) (h : Header) : Bool := h.secret || secretMap s h.src.toNat || secretMap s h.dst.toNat

/-- The record block (Table 16-4). -/
def recordBlock (p rseq blocks entry : Nat) (masked multi : Bool) (o : Obs) : Line :=
  let w0 := withFields 0 [(0, 16, rseq), (16, 5, p), (21, 4, blocks), (25, 1, b2n masked), (26, 4, entry), (30, 1, b2n multi)]
  let w1 := withFields 0 [(0, 48, o.time)]
  let w2 := withFields 0 [(0, 18, o.turn), (18, 14, o.wcyc), (32, 8, o.where_), (40, 1, b2n o.atHg), (41, 3, o.port)]
  let ws := [w0, w1, w2, o.flit.fcw, headWord o.flit 2, headWord o.flit 1, headWord o.flit 0]
  (List.zip (List.range 7) ws).foldl (fun l x => setWord l x.1 x.2) 0

/-- A record is whole. -/
def TraceRec.whole (r : TraceRec) : Bool := decide (r.blocksDue < r.blocks.length)

/-- Blocks of the write queue of bank `b` in use: those reserved by its records and not yet written. -/
def queuedBlocks (s : State) (b : Nat) : Nat :=
  sumBy (fun r => if r.probe / 4 = b then r.blocksDue + 1 - r.blocks.length else 0) s.pr.bufs

/-- The one pulse of a probe's trigger after arming (R425, R343): the Rider logs it, and a pulse within the round trip of an
earlier one merges. -/
def triggerPulse (s : State) (p : Nat) : State :=
  if !s.getB (Reg.PR_PRB_CTL p) 26 ∨ s.pr.trigDone.contains p then s
  else
    let s : State := s.setPr { s.pr with trigDone := s.pr.trigDone ++ [p] }
    let (d, s) := s.draw
    let trip := 2 * (2 + Config.syncDelay d % 2) + 3
    let x := Tab.get s.bd.probeSluice CtlSluice.reset p
    let x := if x.pending ∧ x.until_ < s.fclk then { until_ := x.until_ + trip, pending := false } else x
    let (x, merged) : CtlSluice × Nat :=
      if x.until_ = 0 ∨ x.until_ < s.fclk then ({ until_ := s.fclk + trip, pending := false }, 0)
      else ({ x with pending := true }, b2n x.pending)
    let s : State := s.setBd { s.bd with probeSluice := Tab.set s.bd.probeSluice p x }
    let s := s.setF Reg.CK_MERGE 4 4 (min 15 (s.getF Reg.CK_MERGE 4 4 + merged))
    if merged = 1 ∨ riderHalted s then s else logEvent s 0x07 p

/-- Probe `p` wins the capture of head `o`: its whole record is reserved, with the head's payload, or dropped. -/
def captureHead (s : State) (p : Nat) (o : Obs) (multi : Bool) : State :=
  let st := Reg.PR_PRB_STAT p
  let b := p / 4
  let masked := traceMasked s o.flit.hdr
  let blocks := if masked then 0 else min (s.getF (Reg.PR_PRB_CTL p) 12 4) o.flit.flits
  let rseq := s.getF st 0 16
  let s := s.setF st 0 16 (rseq + 1)
  let noQueue := decide (16 < queuedBlocks s b + blocks + 1)
  if noQueue ∨ s.getF st 16 10 < blocks + 1 then
    let s := (s.bump (Reg.PR_PRB_DROP p) 1).setB st 39 true
    if noQueue then s.setB (Reg.PR_BANK b) 5 true else s
  else
    let blk := recordBlock p rseq blocks (4 * (p % 4)) masked multi o
    let r : TraceRec := { probe := p, blocks := if blocks = 0 then [blk] else [blk, o.flit.payload] }
    let s := s.setF st 16 10 (s.getF st 16 10 - (blocks + 1))
    s.setPr { s.pr with bufs := s.pr.bufs ++ [r] }

/-- The blocks of a record whose packet ended short of its FLITS: what follows is left open. -/
def padRecord (s : State) (r : TraceRec) : TraceRec × State :=
  let k := r.blocksDue + 1 - r.blocks.length
  (List.range k).foldl (fun (acc : TraceRec × State) _ =>
    let (d, t) := acc.2.draw
    ({ acc.1 with blocks := acc.1.blocks ++ [Config.missingData d] }, t)) (r, s)

/-- A later flit of a packet under capture: its payload goes to each record of the bank that follows its channel at the point;
a tail ends the record. -/
def followFlit (s : State) (b : Nat) (o : Obs) : State :=
  let ks := (List.range s.pr.bufs.length).filter (fun k => match s.pr.bufs[k]? with
    | some r => decide (r.probe / 4 = b) && r.follows o.atHg o.where_ o.port &&
        (match r.blocks with | h :: _ => decide (field h 250 4 = o.flit.vc) | [] => false)
    | none => false)
  forEach ks (fun k t => match t.pr.bufs[k]? with
    | none => t
    | some r =>
      let r : TraceRec := { r with blocks := r.blocks ++ [o.flit.payload] }
      let (r, t) := if o.flit.isLast then padRecord t r else (r, t)
      t.setPr { t.pr with bufs := setNth t.pr.bufs k r }) s

/-- The probes of bank `b` whose entries match among the observations, each with the observation, lowest unit first. -/
def matchesOf (s : State) (b : Nat) (os : List Obs) : List (Nat × Obs) :=
  (List.range 4).filterMap (fun k => (os.find? (camMatch s (4 * b + k))).map (fun o => (4 * b + k, o)))

/-- TRACE_CAPTURE: the observations of one cycle reach bank `b`. Every match is a hit; the lowest unit captures. -/
def traceCapture (s : State) (b : Nat) : State :=
  match Tab.get s.pr.obs [] b with
  | [] => s
  | o :: rest =>
    let (now, later) := oneCycle [o] rest
    let s : State := s.setPr { s.pr with obs := Tab.set s.pr.obs b later }
    let s := forEach (now.filter (fun x => !camHead x.flit && !x.flit.isControl)) (fun x t => followFlit t b x) s
    let ms := matchesOf s b now
    let s := forEach ms (fun m t => t.bump (Reg.PR_PRB_HITS m.1) 1) s
    let s := forEach ms (fun m t => triggerPulse t m.1) s
    match ms with
    | [] => s
    | (p, x) :: more =>
      let multi := !more.isEmpty
      let s := if multi then (s.setF (Reg.PR_BANK b) 0 4 (4 * (p % 4))).setB (Reg.PR_BANK b) 4 true else s
      captureHead s p x multi

/-! ### The weirs and the output (R423, R424) -/

def probeLevel (s : State) (p : Nat) : Int := signed 13 (s.getF (Reg.PR_PRB_STAT p) 26 13)
def setProbeLevel (s : State) (p : Nat) (l : Int) : State := s.setF (Reg.PR_PRB_STAT p) 26 13 (unsignedOf 13 l)
def probeRate (s : State) (p : Nat) : Nat := s.getF (Reg.PR_PRB_CTL p) 18 8

/-- The oldest record of probe `p` that its weir lets leave. -/
def leavable (s : State) (p : Nat) : Option TraceRec :=
  match s.pr.bufs.find? (fun r => decide (r.probe = p)) with
  | some r => if r.whole ∧ (probeRate s p = 0 ∨ 0 < probeLevel s p) then some r else none
  | none => none

/-- The sixteen-byte beats of a record, four to a block, lowest byte first. -/
def recordBeats (r : TraceRec) : List (Nat × BitVec 128 × Bool) :=
  let bs := r.blocks.flatMap (fun l => (List.range 4).map (fun k => l.extractLsb' (128 * k) 128))
  (List.zip (List.range bs.length) bs).map (fun x => (r.probe, x.2, decide (x.1 + 1 = bs.length)))

/-- TRACE_RECORD_DRAIN: the next probe in turn whose record may leave puts it on the output, one record at a time. -/
def recordDrain (s : State) : State :=
  if !s.pr.out.isEmpty ∨ s.pr.globalLevel ≤ 0 then s
  else
    match ((List.range 32).map (fun k => (s.pr.rr + 1 + k) % 32)).filterMap (fun p => (leavable s p).map (fun r => (p, r))) with
    | [] => s
    | (p, r) :: _ =>
      let n := r.blocks.length
      let s := if probeRate s p = 0 then s else setProbeLevel s p (max (-10) (probeLevel s p - n))
      let s := s.setF (Reg.PR_PRB_STAT p) 16 10 (s.getF (Reg.PR_PRB_STAT p) 16 10 + n)
      let i := s.pr.bufs.findIdx (fun x => decide (x.probe = p))
      s.setPr { s.pr with
          bufs := dropNth s.pr.bufs i, globalLevel := max (-10) (s.pr.globalLevel - n), rr := p, out := recordBeats r }

/-- TRACE_BEAT: the funnel takes a beat; the fourth of a block delivers the block. -/
def traceBeat (s : State) : State :=
  match s.pr.out with
  | [] => s
  | b :: rest =>
    let s : State := s.setPr { s.pr with out := rest, lastOut := some b }
    if rest.length % 4 = 0 then s.bump Reg.PR_TRACE_OUT 1 else s

/-- TRACE_WEIR_REFILL: each level rises by its RATE up to its burst. -/
def traceRefill (s : State) : State :=
  let s := forRange 32 (fun p t => setProbeLevel t p (min 64 (probeLevel t p + probeRate t p))) s
  let rate := clip 1 32 (s.getF Reg.PR_TRACE_WEIR 0 6)
  s.setPr { s.pr with globalLevel := min (traceBurst s : Int) (s.pr.globalLevel + rate) }

def execTraceCapture (b : Fin 8) (s : State) : Out := .next (traceCapture s b)
def execTraceRecordDrain (s : State) : Out := .next (recordDrain s)
def execTraceBeat (s : State) : Out := .next (traceBeat s)
def execTraceWeirRefill (s : State) : Out := .next (traceRefill s)

end Sys2Proof.Machine
end

