-- ==== Sys2Proof/Machine/Timetable.lean ====
section
/-! DEFINITION. The Rider's timetable (R207, R214 to R217, R222): trees and their busy cycles, conflicts and limits, the search for a
place, relay layouts, and the registers of a channel as placed. -/

namespace Sys2Proof.Machine

/-! ### Trees (R96, R207) -/

/-- The outputs of XY from router `i` to local port `lp` of router `t`, with their positions from `pos`. -/
def pathOuts : Nat → Nat → Nat → Nat → Nat → List (Nat × Nat)
  | 0, _, _, _, _ => []
  | k + 1, i, t, lp, pos =>
    match xyStep i (nodeOf t) with
    | none => [(8 * i + lp, pos)]
    | some p => (8 * i + p, pos) :: (match neighbour i p with | some j => pathOuts k j t lp (pos + 1) | none => [])

/-- The router and local port of headgate `d` by the attachment map of headgate `n`. -/
def destAt (s : State) (n d : Nat) : Option (Nat × Nat) :=
  if attachValid s n d then (nodeIdx (attachNode s n d)).map (fun t => (t, attachPort s n d)) else none

/-- The headgates named in the bytes of a set. -/
def usedOf (bytes : List Nat) : List Nat := bytes.filter (fun d => decide (d < 160))

/-- The outputs of the tree from `n` with their positions; the source's attachment link is the output 1000 + n. -/
def treeOuts (s : State) (n : Nat) (bytes : List Nat) : List (Nat × Nat) :=
  ((1000 + n, 0) :: (usedOf bytes).flatMap (fun d =>
    match destAt s n d with
    | some (t, lp) => pathOuts 20 (sourceRouter s n) t lp 1
    | none => [])).eraseDups

/-- The hops H from `n` to `d`. -/
def hopsTo (s : State) (n d : Nat) : Nat := match destAt s n d with | some (t, _) => hops (sourceRouter s n) t | none => 0

/-- The router port an output of a tree is: of an attachment link, its router end. -/
def outPort (s : State) (o : Nat) : Nat × Nat :=
  if o < 1000 then (o / 8, o % 8) else attachOf (o - 1000) (linkInUse s (o - 1000))

/-- The output crosses an element to be avoided. -/
def outCut (s : State) (o : Nat) : Bool :=
  let (i, p) := outPort s o
  routerOut s Avoid.none i || portOut s Avoid.none i p ||
  (if p < 4 then false
   else match neighbour i p with
     | some j => routerOut s Avoid.none j || portOut s Avoid.none j (farPort p)
     | none => true)

/-- Every destination has an attachment and no output of the tree is cut. -/
def treeClear (s : State) (n : Nat) (bytes : List Nat) : Bool :=
  (usedOf bytes).all (fun d => (destAt s n d).isSome) && (treeOuts s n bytes).all (fun o => !outCut s o.1)

/-! ### Conflicts and limits (R215, R216) -/

/-- An output busy in the cycles `first .. first + len - 1` of the turns j with j mod m = p. -/
structure Busy where
  out : Nat
  first : Nat
  len : Nat
  m : Nat
  p : Nat
  deriving DecidableEq, Repr

/-- The busy spans of an entry that fires at `start`. -/
def spansOf (s : State) (n : Nat) (bytes : List Nat) (start flits m p : Nat) : List Busy :=
  (treeOuts s n bytes).map (fun o => { out := o.1, first := start + 3 + o.2, len := flits, m := m, p := p })

/-- The busy spans of an entry on record. -/
def busyOf (s : State) (x : PlEntry) : List Busy :=
  spansOf s x.hg x.dests (entStart x.v) (entFlits x.v) (entMod x.v) (entPhase x.v)

/-- The timetable on record, without the channels listed. -/
def timetable (s : State) (skip : List Nat) : List Busy :=
  (s.rd.chans.filter (fun c => !skip.contains c.chan)).flatMap (fun c => c.entries.flatMap (busyOf s))

/-- Both fire in some common turn. -/
def meet (a b : Busy) : Bool := let g := Nat.gcd a.m b.m; decide (a.p % g = b.p % g)

/-- R215. -/
def conflict (a b : Busy) : Bool := meet a b && decide (a.first < b.first + b.len) && decide (b.first < a.first + a.len)

/-- The lowest common multiple of the moduli. -/
def lcmOf (ys : List Busy) : Nat := ys.foldl (fun l y => Nat.lcm l y.m) 1

/-- The spans that occupy the output together, for each residue of the turn number, or all where the multiple is above 65,536. -/
def loads (ys : List Busy) : List (List Busy) :=
  let l := lcmOf ys
  if l ≤ 65536 then (List.range l).map (fun r => ys.filter (fun y => decide (r % y.m = y.p))) else [ys]

/-- Limit 1: the link cap in percent. -/
def capOk (cap : Nat) (ys : List Busy) : Bool := (loads ys).all (fun g => decide (100 * sumBy (·.len) g ≤ cap * 9216))

/-- Cycles of aligned block `b` that a span occupies. -/
def inBlock (b : Nat) (y : Busy) : Nat := min (y.first + y.len) (128 * b + 128) - max y.first (128 * b)

/-- Limit 2: one cycle of every aligned block of 128 stays free. -/
def gapOk (ys : List Busy) : Bool :=
  (loads ys).all (fun g => (List.range 72).all (fun b => decide (sumBy (inBlock b) g < 128)))

/-- New spans meet no conflict and keep limits 1 and 2 on every output. -/
def fits (cap : Nat) (tt new : List Busy) : Bool :=
  new.all (fun x =>
    let ys := tt.filter (fun y => decide (y.out = x.out))
    ys.all (fun y => !conflict x y) && capOk cap (x :: ys) && gapOk (x :: ys))

/-! ### The search (R214, R216) -/

/-- The wheel cycle in which the tail is stored, for the farthest destination (limit 3). -/
def tailAt (s : State) (n : Nat) (bytes : List Nat) (start flits : Nat) : Nat :=
  start + 3 + ((usedOf bytes).map (hopsTo s n)).foldl max 0 + (flits - 1) + 3

/-- The first of `k` numbers from `x` that satisfies `ok`. -/
def firstFrom : Nat → Nat → (Nat → Bool) → Option Nat
  | 0, _, _ => none
  | k + 1, x, ok => if ok x then some x else firstFrom k (x + 1) ok

/-- A start and a phase for an entry: phases in the order given; in each the preferred start, then those from `earliest` up. -/
def search (s : State) (tt : List Busy) (c : Chan) (n : Nat) (bytes : List Nat) (phases : List Nat) (pref : Option Nat)
    (earliest : Nat) : Option (Nat × Nat) :=
  phases.findSome? (fun p =>
    let ok (x : Nat) : Bool :=
      decide (tailAt s n bytes x c.flits ≤ min 9215 c.deadline) && fits s.rd.cap tt (spansOf s n bytes x c.flits c.modulus p)
    match pref with
    | some x => if ok x then some (x, p) else (firstFrom (9216 - earliest) earliest ok).map (fun y => (y, p))
    | none => (firstFrom (9216 - earliest) earliest ok).map (fun y => (y, p)))

/-- A segment of a channel as placed: an entry without its number. -/
structure Seg where
  hg : Nat
  start : Nat
  phase : Nat
  kind : Nat
  dests : List Nat
  deriving DecidableEq, Repr

def segSpans (s : State) (c : Chan) (g : Seg) : List Busy := spansOf s g.hg g.dests g.start c.flits c.modulus g.phase

/-- A way to lay a channel: relays and the destinations each carries; the rest are reached directly. -/
abbrev Layout := List (Nat × List Nat)

/-- The source's list under a layout. -/
def sourceList (c : Chan) (lay : Layout) : List Nat :=
  if lay.isEmpty then c.dests
  else
    let direct := (usedOf c.dests).filter (fun d => !lay.any (fun (x : Nat × List Nat) => x.2.contains d))
    (direct ++ (lay.map Prod.fst).filter (fun (r : Nat) => !direct.contains r) ++ List.replicate 16 0xFF).take 16

/-- The phases a channel allows, lowest first. -/
def Chan.phases (c : Chan) : List Nat := if c.phaseAny then List.range c.modulus else [c.phase]

/-- The relay entries of a layout behind an ordinary entry, in the phases the channel allows, each from the channel's earliest start:
in the ordinary entry's own phase only after the packet's arrival (DEDUCED, log entry 69). -/
def layRelays (s : State) (c : Chan) (ord : Seg) : List Busy → Layout → Option (List Seg)
  | _, [] => some []
  | tt, (r, ds) :: rest =>
    let bytes := (ds ++ List.replicate 16 0xFF).take 16
    let from_ (p : Nat) : Nat := if p = ord.phase then max c.earliest (tailAt s c.src [r] ord.start c.flits + 1) else c.earliest
    match c.phases.findSome? (fun p => search s tt c r bytes [p] none (from_ p)) with
    | none => none
    | some (x, p) =>
      let g : Seg := { hg := r, start := x, phase := p, kind := 2, dests := bytes }
      (layRelays s c ord (segSpans s c g ++ tt) rest).map (fun gs => g :: gs)

/-- The ordinary and relay entries of a channel under a layout. -/
def layOrdinary (s : State) (tt : List Busy) (c : Chan) (lay : Layout) : Option (List Seg) :=
  let bytes := sourceList c lay
  match search s tt c c.src bytes c.phases none c.earliest with
  | none => none
  | some (x, p) =>
    let g : Seg := { hg := c.src, start := x, phase := p, kind := 0, dests := bytes }
    (layRelays s c g (segSpans s c g ++ tt) lay).map (fun gs => g :: gs)

/-- The replay entry beside an ordinary one (R214). -/
def layReplay (s : State) (tt : List Busy) (c : Chan) (ord : Seg) : Option Seg :=
  let phases := (List.range c.modulus).map (fun k => (ord.phase + 1 + k) % c.modulus)
  (search s tt c c.src ord.dests phases (some ord.start) c.earliest).map
    (fun (x : Nat × Nat) => ({ hg := c.src, start := x.1, phase := x.2, kind := 1, dests := ord.dests } : Seg))

/-! ### Room (R201, R208) -/

/-- Entries, records and sets a headgate holds. -/
def entriesAt (s : State) (h : Nat) : Nat := sumBy (fun c => (c.entries.filter (fun x => decide (x.hg = h))).length) s.rd.chans
def recordsAt (s : State) (h : Nat) : Nat := (chanRecs s h).length
def setsAt (s : State) (h : Nat) : Nat := sumBy (fun c => (c.sets.filter (fun x => decide (x.1 = h))).length) s.rd.chans

/-- The shared blocks of a headgate that every record's buffers leave. -/
def sharedLeft (s : State) (h : Nat) : Nat := 512 - poolSize s h - sumBy (fun r => recBlocks r.2) (chanRecs s h)

/-- A record more at `h`, with buffers for `roles` roles, leaves the 45 blocks of R208. -/
def recordFits (s : State) (c : Chan) (h roles : Nat) : Bool :=
  decide (recordsAt s h < 128) && decide (45 + c.dbuf * c.flits * roles ≤ sharedLeft s h)

/-- Entry `e` of headgate `h` is valid, or on record, and not of channel `c`. -/
def entryTaken (s : State) (c : Chan) (h e : Nat) : Bool :=
  (s.getB (Reg.HG_PL_ENTRY h e) 63 && !c.entries.any (fun x => decide (x.hg = h) && decide (x.e = e))) ||
  s.rd.chans.any (fun x => decide (x.chan ≠ c.chan) && x.entries.any (fun y => decide (y.hg = h) && decide (y.e = e)))

/-- The headgates that carry the channel beside its source. -/
def Chan.others (c : Chan) : List Nat := (usedOf c.dests ++ c.relays.map (·.1)).eraseDups

/-- Headgate `h` is source, destination or relay of the channel. -/
def Chan.at_ (c : Chan) (h : Nat) : Bool := decide (c.src = h) || c.others.contains h

/-- Beside every other channel, headgate `h` has room for `es` entries and `ms` sets of channel `c`, and for its record: 256 entries,
64 sets and 128 channels (R201). -/
def roomAt (s : State) (c : Chan) (h es ms : Nat) : Bool :=
  let xs := s.rd.chans.filter (fun x => decide (x.chan ≠ c.chan))
  decide ((List.range 256).countP (entryTaken s c h) + es ≤ 256) &&
  decide (sumBy (fun x => (x.sets.filter (fun y => decide (y.1 = h))).length) xs + ms ≤ 64) &&
  decide ((xs.filter (fun x => x.at_ h)).length < 128)

/-- Headgate `r` holds a record of the channel, or has the blocks for one more. -/
def bufferFits (s : State) (c : Chan) (r : Nat) : Bool :=
  (recOf s r c.chan).isSome || recordFits s c r (if c.dests.contains r then 2 else 1)

/-- Every headgate of a layout has room for its part of the channel. -/
def layoutFits (s : State) (c : Chan) (lay : Layout) : Bool :=
  roomAt s c c.src 2 (if lay.isEmpty then 1 else 3) && (usedOf c.dests).all (fun d => roomAt s c d 0 0) &&
  lay.all (fun x => roomAt s c x.1 1 1 && bufferFits s c x.1)

/-! ### Relay layouts (R216, R222) -/

/-- A list turned so that element `k` comes first. -/
def turned {α : Type} (l : List α) (k : Nat) : List α := l.drop (k % max 1 l.length) ++ l.take (k % max 1 l.length)

/-- Headgate `r` can relay the channel to `ds`. -/
def relayOk (s : State) (c : Chan) (room : Bool) (ds : List Nat) (r : Nat) : Bool :=
  decide (r ≠ c.src) && !ds.contains r && treeClear s c.src [r] && treeClear s r ds &&
  (!room || (roomAt s c r 1 1 && bufferFits s c r))

/-- Destinations the source's own tree does not reach. -/
def cutDests (s : State) (c : Chan) : List Nat := (usedOf c.dests).filter (fun d => !treeClear s c.src [d])

/-- Destinations grouped by the relay chosen for each. -/
def groupBy (xs : List (Nat × Nat)) : Layout :=
  ((xs.map (·.1)).eraseDups).map (fun r => (r, (xs.filter (fun x => decide (x.1 = r))).map (·.2)))

/-- The layouts to try, in the order the firmware tries them: the plain tree where nothing cuts it, then one relay, then one
relay for each destination; with `room`, those whose headgates have room. Which relay comes first is the firmware's pick (log entry
11). -/
def layouts (s : State) (c : Chan) (pick : Nat) (room : Bool) : List Layout :=
  let used := usedOf c.dests
  if !used.all (fun d => (destAt s c.src d).isSome) then []
  else
    let cut := cutDests s c
    let ds := if cut.isEmpty then used else cut
    let all := turned (List.range 160) pick
    let one := (all.filter (relayOk s c room ds)).map (fun r => [(r, ds)])
    let each := ds.map (fun d => (all.find? (relayOk s c room [d])).map (fun r => (r, d)))
    ((if cut.isEmpty then [[]] else []) ++ one ++
      (if one.isEmpty && each.all (·.isSome) then [groupBy (each.filterMap id)] else [])).filter (fun l => !room || layoutFits s c l)

/-! ### One computation (R216) -/

/-- The order of placement: increasing modulus, decreasing flits, increasing number. -/
def before (a b : Chan) : Bool :=
  decide (a.modulus < b.modulus) || (decide (a.modulus = b.modulus) &&
    (decide (b.flits < a.flits) || (decide (a.flits = b.flits) && decide (a.chan ≤ b.chan))))

def insertChan (c : Chan) : List Chan → List Chan
  | [] => [c]
  | x :: xs => if before c x then c :: x :: xs else x :: insertChan c xs

def sortChans (cs : List Chan) : List Chan := cs.foldr insertChan []

/-- Ordinary and relay entries of the channels, in order: the timetable as it grows, and each channel with its layout and
segments where one fits. -/
def placeOrdinary (s : State) (pick : Nat) : List Busy → List Chan → List Busy × List (Chan × Option (Layout × List Seg))
  | tt, [] => (tt, [])
  | tt, c :: cs =>
    let got := (layouts s c pick true).findSome? (fun l => (layOrdinary s tt c l).map (fun g => (l, g)))
    let tt' := match got with | some (_, gs) => gs.flatMap (segSpans s c) ++ tt | none => tt
    let r := placeOrdinary s pick tt' cs
    (r.1, (c, got) :: r.2)

/-- A whole channel under a layout: its ordinary entry, the replay entry second, and the relay entries. -/
def layWhole (s : State) (tt : List Busy) (c : Chan) (lay : Layout) : Option (Layout × List Seg) :=
  match layOrdinary s tt c lay with
  | some (o :: gs) => (layReplay s ((o :: gs).flatMap (segSpans s c) ++ tt) c o).map (fun r => (lay, o :: r :: gs))
  | _ => none

/-- Then their replay entries. A channel whose replay entry has no place tries its relay layouts, without its entries so far. -/
def placeReplay (s : State) (pick : Nat) :
    List Busy → List (Chan × Option (Layout × List Seg)) → List (Chan × Option (Layout × List Seg))
  | _, [] => []
  | tt, (c, some (l, o :: gs)) :: rest =>
    match layReplay s tt c o with
    | some r => (c, some (l, o :: r :: gs)) :: placeReplay s pick (segSpans s c r ++ tt) rest
    | none =>
      let own := (o :: gs).flatMap (segSpans s c)
      let tt := tt.filter (fun b => !own.contains b)
      let got := ((layouts s c pick true).filter (fun m => !m.isEmpty && decide (m ≠ l))).findSome? (layWhole s tt c)
      let new := match got with | some (_, gs) => gs.flatMap (segSpans s c) | none => []
      (c, got) :: placeReplay s pick (new ++ tt) rest
  | tt, (c, _) :: rest => (c, none) :: placeReplay s pick tt rest

/-- A computation for the channels listed: the segments of each, ordinary first, replay second, or none. -/
def placeAll (s : State) (pick : Nat) (cs : List Chan) : List (Chan × Option (Layout × List Seg)) :=
  let cs := sortChans cs
  let r := placeOrdinary s pick (timetable s (cs.map (·.chan))) cs
  placeReplay s pick r.1 r.2

/-! ### Numbers of entries, sets and records -/

/-- The lowest of `n` numbers that satisfies `free`. -/
def lowest (n : Nat) (free : Nat → Bool) : Option Nat := (List.range n).find? free

/-- A free entry of headgate `h` for channel `c`: no other channel's, not valid, not among those just taken; `layoutFits` says that
there is one. -/
def freeEntryNo (s : State) (c : Chan) (h : Nat) (taken : List (Nat × Nat)) : Nat :=
  (lowest 256 (fun e => !entryTaken s c h e && !taken.contains (h, e))).getD 0

/-- A free multicast set of headgate `h`. -/
def freeSetNo (s : State) (h : Nat) (taken : List (Nat × Nat)) : Nat :=
  (lowest 64 (fun m => !taken.contains (h, m) &&
    !s.rd.chans.any (fun c => c.sets.any (fun x => decide (x.1 = h) && decide (x.2.1 = m))))).getD 0

/-- The value of an entry (Table 7-2). -/
def entryWord (c : Chan) (g : Seg) (set : Nat) : Word :=
  withFields 0 [(0, 14, g.start), (14, 4, c.flits), (18, 8, c.modulus), (26, 8, g.phase), (34, 12, c.chan), (46, 8, set),
    (54, 1, 1), (55, 2, g.kind), (63, 1, 1)]

/-- The reach list of a relayed channel: the headgate of the source's list that carries each destination (R222). -/
def reachList (c : Chan) (lay : Layout) : List Nat :=
  c.dests.map (fun d => match lay.find? (fun x => x.2.contains d) with | some x => x.1 | none => d)

/-- Entry and set numbers for the segments: the source's entries share one set; each relay has its own; a relayed channel has
FSET and RSET at its source. Numbers the channel holds are used again. -/
def numberSegs (s : State) (c : Chan) (lay : Layout) (segs : List Seg) : Chan :=
  let held (h k : Nat) : Option Nat := ((c.sets.filter (fun x => decide (x.1 = h)))[k]?).map (·.2.1)
  let set0 := (held c.src 0).getD (freeSetNo s c.src [])
  let fset := (held c.src 1).getD (freeSetNo s c.src [(c.src, set0)])
  let rset := (held c.src 2).getD (freeSetNo s c.src [(c.src, set0), (c.src, fset)])
  let setAt (h : Nat) : Nat := if h = c.src then set0 else (held h 0).getD (freeSetNo s h [])
  let heldEntry (g : Seg) (taken : List (Nat × Nat)) : Option Nat :=
    (c.entries.find? (fun x => decide (x.hg = g.hg) && decide (entKind x.v = g.kind) && !taken.contains (x.hg, x.e))).map (·.e)
  let es := segs.foldl (fun (acc : List PlEntry) g =>
    let taken := acc.map (fun x => (x.hg, x.e))
    let e := (heldEntry g taken).getD (freeEntryNo s c g.hg taken)
    acc ++ [{ hg := g.hg, e := e, v := entryWord c g (setAt g.hg), dests := g.dests }]) []
  let src := match segs with | g :: _ => g.dests | [] => c.dests
  { c with
    entries := es, relays := lay, unreachable := false, cut := 0
    sets := [(c.src, set0, src)] ++
      (if lay.isEmpty then [] else [(c.src, fset, c.dests), (c.src, rset, reachList c lay)]) ++
      lay.map (fun x => (x.1, setAt x.1, (x.2 ++ List.replicate 16 0xFF).take 16)) }

/-! ### The registers of a channel (R393, Tables 7-8 and 7-9) -/

/-- The record a headgate holds, or would take, for a channel. -/
def recNo (s : State) (h chan : Nat) : Nat :=
  match (chanRecs s h).find? (fun r => decide (recChan r.2 = chan)) with
  | some r => r.1
  | none => (lowest 128 (fun i => !recValid (chanRec s h i))).getD 0

/-- HG_PL_CHAN of a channel at headgate `h`. -/
def recWord (c : Chan) (h : Nat) : Word :=
  let src := decide (h = c.src)
  let sets := c.sets.filter (fun x => decide (x.1 = c.src))
  let f := match sets[1]? with | some x => x.2.1 | none => 0
  let r := match sets[2]? with | some x => x.2.1 | none => 0
  withFields 0 [(0, 12, c.chan), (12, 1, b2n src), (13, 1, b2n (c.dests.contains h)),
    (14, 1, b2n (c.relays.any (fun x => decide (x.1 = h)))), (15, 4, c.flits), (19, 4, c.stage), (23, 4, c.dbuf),
    (27, 6, if src then f else 0), (33, 6, if src then r else 0), (39, 1, b2n (src && !c.relays.isEmpty)), (63, 1, 1)]

/-- A whole register written. -/
def wrAll (off : Nat) (v : Word) : RAct := .wr off v 0xFFFFFFFFFFFFFFFF
/-- A field written. -/
def wrField (off lo len v : Nat) : RAct := .wr off (setField 0 lo len v) (setField 0 lo len (2 ^ len - 1))
/-- A bit written. -/
def wrBit (off i : Nat) (b : Bool) : RAct := wrField off i 1 (b2n b)

/-- A word from eight bytes. -/
def wordOfBytes (bs : List Nat) : Word := BitVec.ofNat 64 (bs.foldr (fun b acc => acc * 256 + b % 256) 0)

/-- The two words of a multicast set. -/
def setActs (x : Nat × Nat × List Nat) : List RAct :=
  [wrAll (Reg.HG_PL_SET x.1 (2 * x.2.1)) (wordOfBytes (x.2.2.take 8)),
   wrAll (Reg.HG_PL_SET x.1 (2 * x.2.1 + 1)) (wordOfBytes (x.2.2.drop 8))]

/-- Blocks of staging at the source. -/
def Chan.blocks (c : Chan) : Nat := c.stage * c.flits

/-- The records and sets of a channel as placed: destinations and relays, the sets, then the source's with DEMOTED; a source
without a record takes its staging first (Table 15-6). -/
def recordActs (s : State) (c : Chan) : List RAct :=
  let fresh := (srcRec s c.src c.chan).isNone
  (c.others.map (fun h => wrAll (Reg.HG_PL_CHAN h (recNo s h c.chan)) (recWord c h))) ++ c.sets.flatMap setActs ++
  (if fresh then [wrField (Reg.HG_PL_STAGE c.src) 0 10 (s.getF (Reg.HG_PL_STAGE c.src) 0 10 + c.blocks)] else []) ++
  [wrAll (Reg.HG_PL_CHAN c.src (recNo s c.src c.chan)) (recWord c c.src), .demote c.src c.chan true]

/-- The entries of one kind. -/
def Chan.ofKind (c : Chan) (k : Nat) : List PlEntry := c.entries.filter (fun x => decide (entKind x.v = k))

def clearEntry (x : PlEntry) : RAct := wrBit (Reg.HG_PL_ENTRY x.hg x.e) 63 false
def writeEntry (x : PlEntry) : RAct := wrAll (Reg.HG_PL_ENTRY x.hg x.e) (setBit x.v 63 false)
def validEntry (x : PlEntry) : RAct := wrAll (Reg.HG_PL_ENTRY x.hg x.e) x.v

/-- The stamp of headgate `n` advanced (R152), once the next value counts nothing. -/
def stampActs (n : Nat) : List RAct := [.wait (.canAdvance n), wrBit (Reg.HG_EPOCH n) 4 true]

/-- The entry stands in its register as it is on record. -/
def entryStands (s : State) (x : PlEntry) : Bool := decide (s.reg (Reg.HG_PL_ENTRY x.hg x.e) = x.v)

/-- The largest transit of any destination from the fire cycle (R207, R222). A relay entry in a later phase adds the turns between, of
1,600,000,000 / K cycles each; a transit above 14 bits reads as 16,383 (DESIGN CHOICE, log entry 79). -/
def Chan.transit (s : State) (c : Chan) (k : Nat) : Nat :=
  match c.ofKind 0 with
  | o :: _ =>
    let s0 := entStart o.v
    let direct := (usedOf o.dests).filter (fun d => c.dests.contains d)
    let a := (direct.map (fun d => 3 + hopsTo s c.src d + (c.flits - 1) + 3)).foldl max 0
    let later (x : PlEntry) : Nat := (entPhase x.v + c.modulus - entPhase o.v) % c.modulus * (1600000000 / k)
    min 16383 ((c.ofKind 2).foldl (fun m x => max m (later x + tailAt s x.hg x.dests (entStart x.v) c.flits - s0)) a)
  | [] => 0

/-! ### Placing channels again (R219, R221) -/

/-- A channel's tree crosses an element to be avoided. -/
def chanCut (s : State) (c : Chan) : Bool := c.unreachable || c.entries.any (fun x => !treeClear s x.hg x.dests)

/-- R219 step 1 for channels: DEMOTED first, then VALID of those of their entries that `affected` names, in the order of R216, relay
entries last. -/
def clearActs (cs : List Chan) (affected : PlEntry → Bool) : List RAct :=
  let cs := sortChans cs
  cs.map (fun c => .demote c.src c.chan true) ++
  (List.range 3).flatMap (fun k => cs.flatMap (fun c => ((c.ofKind k).filter affected).map clearEntry))

/-- R221 step 1: of the channels cut, the entries whose trees cross an element to be avoided. -/
def cutActs (s : State) (cs : List Chan) : List RAct := clearActs (cs.filter (chanCut s)) (fun x => !treeClear s x.hg x.dests)

/-- A placed channel differs from its registers. -/
def changed (s : State) (c : Chan) : Bool := !c.entries.all (entryStands s)

/-- A channel that no layout restores (R222): its destinations cut off, as bits of its list. -/
def unreachableChan (s : State) (c : Chan) : Chan :=
  let bad := (usedOf c.dests).filter (fun d => !treeClear s c.src [d])
  let cut := if bad.isEmpty then usedOf c.dests else bad
  { c with unreachable := true
           cut := BitVec.ofNat 16 (sumBy (fun i => if cut.contains ((c.dests[i]?).getD 0xFF) then 2 ^ i else 0) (List.range 16)) }

/-- The computation for the listed channels, and the steps that bring it into force: clearing of the entries that differ, writing,
validating, DEMOTED cleared, the reports, and the drain of the sources (R219). Relays no longer used give up their records. -/
def placeActs (s : State) (cs : List Chan) : List RAct × State :=
  let (d, s) := s.draw
  let got := placeAll s (Config.relayPick d) cs
  let placed := got.foldl (fun (acc : List Chan × State) x =>
    let t := acc.2
    let c := match x.2 with
      | some (l, g) => if layoutFits t x.1 l then numberSegs t x.1 l g else unreachableChan t x.1
      | none => unreachableChan t x.1
    (acc.1 ++ [c], t.setRd { t.rd with chans := t.rd.chans.map (fun y => if y.chan = c.chan then c else y) })) ([], s)
  let s' := placed.2
  let old (c : Chan) : List PlEntry := match cs.find? (fun x => decide (x.chan = c.chan)) with | some x => x.entries | none => []
  let kept (c : Chan) (y : PlEntry) : Bool := entryStands s y && (old c).contains y
  let gone := placed.1.filter (·.unreachable)
  let lost := gone.filter (fun c => !cs.any (fun x => decide (x.chan = c.chan) && x.unreachable && decide (x.cut = c.cut)))
  let good := placed.1.filter (fun c => !c.unreachable && !c.entries.all (kept c))
  let relaysOf (c : Chan) : List Nat := match cs.find? (fun x => decide (x.chan = c.chan)) with | some x => x.relays.map (·.1) | none => []
  let freed := good.flatMap (fun c => ((relaysOf c).filter (fun h => !c.others.contains h)).map (fun h =>
    wrAll (Reg.HG_PL_CHAN h (recNo s h c.chan)) 0))
  let ofKind (k : Nat) (es : List PlEntry) : List PlEntry := es.filter (fun x => decide (entKind x.v = k))
  let news (k : Nat) : List PlEntry := good.flatMap (fun c => ofKind k (c.entries.filter (fun y => !kept c y)))
  let olds (k : Nat) : List PlEntry := good.flatMap (fun c => ofKind k ((old c).filter (fun x => !(c.entries.contains x && entryStands s x))))
  let srcs := (good.map (·.src)).eraseDups
  (good.map (fun c => .demote c.src c.chan true) ++ (List.range 3).flatMap (fun k => (olds k).map clearEntry) ++
   clearActs gone (fun _ => true) ++ lost.map (fun c => .event 0x03 (c.chan + c.cut.toNat * 2 ^ 12)) ++
   good.map (fun c => .expand (.restored c.chan)) ++
   (List.range 3).flatMap (fun k => (news k).map writeEntry) ++
   (List.range 3).flatMap (fun k => (news k).map validEntry) ++
   freed ++ good.map (fun c => .demote c.src c.chan false) ++ good.map (fun c => .event 0x04 c.chan) ++
   srcs.flatMap stampActs ++ (if srcs.isEmpty then [] else [.wait (.drained srcs false)]), s')

/-! ### Collisions (R217) -/

/-- Every valid entry as the registers hold it: headgate, number, value. -/
def validEntries (s : State) : List (Nat × Nat × Word) :=
  (List.range 160).flatMap (fun n => (List.range 256).filterMap (fun e =>
    let w := Tab.get s.regs 0 (Reg.HG_PL_ENTRY n e)
    if bit w 63 then some (n, e, w) else none))

/-- The record of an entry. -/
def entryOnRecord (s : State) (n e : Nat) : Option (Chan × PlEntry) :=
  s.rd.chans.findSome? (fun c => (c.entries.find? (fun x => decide (x.hg = n) && decide (x.e = e))).map (fun x => (c, x)))

/-- Entries on record in the order of R216, relay entries last. -/
def sortEntries (xs : List (Chan × PlEntry)) : List (Chan × PlEntry) :=
  (List.range 3).flatMap (fun k => (sortChans ((xs.map (·.1)).eraseDups)).flatMap (fun c =>
    xs.filter (fun x => decide (x.1 = c) && decide (entKind x.2.v = k))))

/-- The steps that repair the entries of a collision at an output, or none where no entry differs. Entries that no channel on record
has are cleared last. -/
def repairActs (s : State) (out : Nat) : List RAct :=
  let near := (validEntries s).filter (fun x => (treeOuts s x.1 (entList s x.1 x.2.2)).any (fun o => decide (o.1 = out)))
  let bad := near.filter (fun x => match entryOnRecord s x.1 x.2.1 with
    | some (_, r) => decide (r.v ≠ x.2.2)
    | none => true)
  let known := sortEntries (bad.filterMap (fun x => entryOnRecord s x.1 x.2.1))
  let stray := bad.filter (fun x => (entryOnRecord s x.1 x.2.1).isNone)
  if bad.isEmpty then []
  else
    known.map (fun x => .demote x.1.src x.1.chan true) ++ known.map (fun x => clearEntry x.2) ++
    stray.map (fun x => wrBit (Reg.HG_PL_ENTRY x.1 x.2.1) 63 false) ++
    known.map (fun x => writeEntry x.2) ++ known.map (fun x => validEntry x.2) ++
    known.map (fun x => .demote x.1.src x.1.chan false) ++
    ((known.map (fun x => x.2.hg)).eraseDups).flatMap stampActs ++ [.wait (.drained ((known.map (fun x => x.2.hg)).eraseDups) false)]

end Sys2Proof.Machine
end

