-- ==== Sys2Proof/Machine/RiderImage.lean ====
section
/-! DEFINITION. Firmware images (R377 to R379): SHA-256, ECDSA on P-256, and the checks of Table 14-12. The two standards are named
by the manual and given by FIPS 180-4 and FIPS 186-4 (PRESUMED, log entry 13). -/

namespace Sys2Proof.Machine

/-! ### SHA-256 -/

abbrev W32 := BitVec 32

/-- The largest number below `2 ^ n` whose `k`-th power is at most `x`, found bit by bit from `r` up. -/
def rootBits (k x : Nat) : Nat → Nat → Nat
  | 0, r => r
  | n + 1, r => rootBits k x n (if (r + 2 ^ n) ^ k ≤ x then r + 2 ^ n else r)

/-- The first 32 bits of the fraction of the `k`-th root of `p`. -/
def rootFraction (k p : Nat) : W32 := BitVec.ofNat 32 (rootBits k (p * 2 ^ (32 * k)) 40 0)

/-- The primes below 312: the first 64. -/
def shaPrimes : List Nat :=
  (List.range 312).filter (fun n => decide (2 ≤ n) && (List.range n).all (fun d => decide (d < 2) || decide (n % d ≠ 0)))

/-- The constant of each round, from a cube root. -/
def shaK : List W32 := shaPrimes.map (rootFraction 3)

/-- A hash in progress: the last four values of each of the two sequences that a round extends, newest first. -/
structure Sha where
  as : List W32
  es : List W32
  deriving DecidableEq, Repr

/-- Element `i` of a list of words. -/
def nthW (l : List W32) (i : Nat) : W32 := (l[i]?).getD 0

/-- The initial hash, from square roots. -/
def Sha.init : Sha :=
  let hs := (shaPrimes.take 8).map (rootFraction 2)
  { as := hs.take 4, es := hs.drop 4 }

/-- The words of the hash in order. -/
def Sha.words (v : Sha) : List W32 := v.as ++ v.es

/-- The exclusive or of the rotations of a word to the right. -/
def turns (rs : List Nat) (x : W32) : W32 := (rs.map x.rotateRight).foldl (· ^^^ ·) 0

/-- One round: a new value of each sequence from the message word and the constant. -/
def Sha.round (v : Sha) (wk : W32 × W32) : Sha :=
  let e := nthW v.es 0
  let choice := (e &&& nthW v.es 1) ||| (~~~e &&& nthW v.es 2)
  let t := nthW v.es 3 + turns [6, 11, 25] e + choice + wk.1 + wk.2
  let x := nthW v.as 0
  let y := nthW v.as 1
  let z := nthW v.as 2
  let majority := (x &&& y) ||| (z &&& (x ||| y))
  { as := (t + turns [2, 13, 22] x + majority) :: v.as.take 3, es := (nthW v.as 3 + t) :: v.es.take 3 }

/-- The message schedule longer by a word, newest first. -/
def shaExtend (ws : List W32) : List W32 :=
  let far := nthW ws 14
  let near := nthW ws 1
  (nthW ws 6 + nthW ws 15 + (turns [7, 18] far ^^^ (far >>> 3)) + (turns [17, 19] near ^^^ (near >>> 10))) :: ws

/-- A number from bytes, most significant first. -/
def beNat (bs : List Byte) : Nat := bs.foldl (fun acc b => acc * 256 + b.toNat) 0
/-- A number from bytes, least significant first. -/
def leNat (bs : List Byte) : Nat := bs.foldr (fun b acc => acc * 256 + b.toNat) 0

/-- The sixteen words of a 64-byte block. -/
def shaWords (bs : List Byte) : List W32 :=
  (List.range 16).map (fun i => BitVec.ofNat 32 (beNat ((bs.drop (4 * i)).take 4)))

/-- One block compressed into the hash. -/
def Sha.block (v : Sha) (bs : List Byte) : Sha :=
  let schedule := ((List.range 48).foldl (fun ws _ => shaExtend ws) (shaWords bs).reverse).reverse
  let x := (List.zip schedule shaK).foldl Sha.round v
  { as := List.zipWith (· + ·) v.as x.as, es := List.zipWith (· + ·) v.es x.es }

/-- The first `n` blocks. -/
def shaBlocks : Nat → Sha → List Byte → Sha
  | 0, v, _ => v
  | n + 1, v, bs => shaBlocks n (v.block (bs.take 64)) (bs.drop 64)

/-- A number as `n` bytes, most significant first. -/
def beBytes (n v : Nat) : List Byte := (List.range n).map (fun i => BitVec.ofNat 8 (v / 256 ^ (n - 1 - i)))

/-- The digest of a message, as a number whose most significant byte comes first. -/
def sha256 (msg : List Byte) : Nat :=
  let pad := (119 - msg.length % 64) % 64
  let m := msg ++ [0x80] ++ List.replicate pad 0 ++ beBytes 8 (8 * msg.length)
  (shaBlocks (m.length / 64) Sha.init m).words.foldl (fun acc w => acc * 2 ^ 32 + w.toNat) 0

/-! ### ECDSA on P-256 -/

def p256p : Nat := 0xFFFFFFFF00000001000000000000000000000000FFFFFFFFFFFFFFFFFFFFFFFF
def p256n : Nat := 0xFFFFFFFF00000000FFFFFFFFFFFFFFFFBCE6FAADA7179E84F3B9CAC2FC632551
def p256b : Nat := 0x5AC635D8AA3A93E7B3EBBD55769886BC651D06B0CC53B0F63BCE3C3E27D2604B
def p256gx : Nat := 0x6B17D1F2E12C4247F8BCE6E563A440F277037D812DEB33A0F4A13945D898C296
def p256gy : Nat := 0x4FE342E2FE1A7F9B8EE7EB4A7C0F9E162BCE33576B315ECECBB6406837BF51F5

/-- A power modulo `m`, over the `k` low bits of the exponent. -/
def powMod (m : Nat) : Nat → Nat → Nat → Nat
  | 0, _, _ => 1
  | k + 1, b, e => let r := powMod m k (b * b % m) (e / 2); if e % 2 = 1 then b * r % m else r

/-- The inverse modulo a prime. -/
def invMod (m a : Nat) : Nat := powMod m 256 (a % m) (m - 2)

/-- The difference modulo `m`. -/
def subMod (m a b : Nat) : Nat := (a + (m - b % m)) % m

/-- The sum of two points; none is the point at infinity. -/
def ecAdd : Option (Nat × Nat) → Option (Nat × Nat) → Option (Nat × Nat)
  | none, q => q
  | p, none => p
  | some (x1, y1), some (x2, y2) =>
    let m := p256p
    if x1 = x2 ∧ (y1 + y2) % m = 0 then none
    else
      let l := if x1 = x2 then (3 * x1 * x1 + (m - 3)) * invMod m (2 * y1) % m
               else subMod m y2 y1 * invMod m (subMod m x2 x1) % m
      let x3 := subMod m (subMod m (l * l % m) x1) x2
      some (x3, subMod m (l * subMod m x1 x3 % m) y1)

/-- A multiple of a point, over the `k` low bits of the factor. -/
def ecMul : Nat → Nat → Option (Nat × Nat) → Option (Nat × Nat)
  | 0, _, _ => none
  | k + 1, e, q => let r := ecMul k (e / 2) (ecAdd q q); if e % 2 = 1 then ecAdd q r else r

/-- The point lies on the curve. -/
def onCurve (x y : Nat) : Bool :=
  decide (x < p256p) && decide (y < p256p) && decide (y * y % p256p = (x * x % p256p * x + (p256p - 3) * x + p256b) % p256p)

/-- The signature (r, s) of a digest is valid under the key (qx, qy). -/
def ecdsaOk (digest r s qx qy : Nat) : Bool :=
  decide (0 < r) && decide (r < p256n) && decide (0 < s) && decide (s < p256n) && onCurve qx qy &&
  (let w := invMod p256n s
   let u := ecAdd (ecMul 256 (digest * w % p256n) (some (p256gx, p256gy))) (ecMul 256 (r * w % p256n) (some (qx, qy)))
   match u with
   | some (x, _) => decide (x % p256n = r)
   | none => false)

/-! ### The image (Table 14-11) -/

/-- Bytes `o .. o + n - 1` of an image. -/
def imgBytes (img : List Byte) (o n : Nat) : List Byte := (img.drop o).take n
/-- A four-byte field. -/
def imgWord (img : List Byte) (o : Nat) : Nat := leNat (imgBytes img o 4)

def imgVersion (img : List Byte) : Nat := imgWord img 8
def imgLength (img : List Byte) : Nat := imgWord img 0xC
def imgKey (img : List Byte) : Nat := imgWord img 0x10
/-- DIGEST, the bytes of SHA-256 in its own order. -/
def imgDigest (img : List Byte) : Nat := beNat (imgBytes img 0x40 32)
/-- The body. -/
def imgBody (img : List Byte) : List Byte := imgBytes img 256 (imgLength img)

/-- The header check of Table 14-12; the image as copied holds the header and exactly its body. -/
def headerOk (s : State) (img : List Byte) : Bool :=
  decide (imgBytes img 0 4 = [0x53, 0x4A, 0x52, 0x46]) && decide (imgWord img 4 = 1) && decide (imgKey img ≤ 3) &&
  decide (imgWord img 0x14 = field (s.reg Reg.GL_IDENT) 16 16) && decide (imgLength img ≤ 655360) && decide (imgLength img % 64 = 0) &&
  decide (img.length = 256 + imgLength img) && (imgBytes img 0x18 40).all (· == 0) && (imgBytes img 0xA0 96).all (· == 0)

/-- The digest check. -/
def digestOk (img : List Byte) : Bool := decide (sha256 (imgBody img) = imgDigest img)

/-- The signature check, of header bytes 0x00 to 0x5F under the ROM's key. -/
def signatureOk (img : List Byte) : Bool :=
  ecdsaOk (sha256 (imgBytes img 0 0x60)) (leNat (imgBytes img 0x60 32)) (leNat (imgBytes img 0x80 32))
    (Config.romKeyX (imgKey img)) (Config.romKeyY (imgKey img))

/-- The checks of Table 14-12 in order: the code of the first failure, 0 for none, and whether the image runs unsigned (R379). -/
def imageCheck (s : State) (img : List Byte) (allow : Bool) : Nat × Bool :=
  if !headerOk s img then (0x10, false)
  else if s.getB Reg.GL_FW_KEYS (imgKey img) then (0x11, false)
  else if imgVersion img / 2 ^ 16 < s.getF Reg.GL_FW_KEYS 4 16 then (0x12, false)
  else if !digestOk img then (0x13, false)
  else if signatureOk img then (0, false)
  else if allow ∧ s.getF Reg.GL_LIFECYCLE 0 2 = 0 then (0, true)
  else (0x14, false)

/-- The image copied from the Reservoir into the load area (R378 step 1; log entry 24). -/
def copyImage (s : State) (off len : Nat) : State :=
  s.setRd { s.rd with loadArea := (List.range len).map (fun i => Memory.read s.rv.mem (off + i)) }

/-! ### Restart (R381, R383) -/

/-- Restarts within the last second. -/
def recentRestarts (s : State) : List Nat := s.rd.restartsAt.filter (fun t => decide (s.fclk < t + 1600000000))

/-- The Rider's SRAM lost its log, and the private words it held (R431). -/
def clearLog (r : Rider) : Rider := { r with pinned := [], circle := [], incidentOpen := false, sram := [] }

/-- The Rider restarts from ROM with a cause of Table 14-14 (R381, R383 step 1), or stops for good where three restarts already lie
within the last second (R333). -/
def restartRider (s : State) (cause : Nat) : State :=
  if riderHalted s ∨ underReset s then s
  else
    let s := s.setF Reg.GL_RIDER_STATUS 3 3 cause
    let s : State := if cause = 3 then s.setRd (clearLog s.rd) else s
    if 3 ≤ (recentRestarts s).length then haltRider s
    else
      let s := riderEvent ((s.bump Reg.GL_RIDER_RESTARTS 1).setB Reg.GL_RIDER_STATUS 0 false)
      s.setRd { s.rd with restarting := true, restartsAt := recentRestarts s ++ [s.fclk], window := none, linkAlarms := [] }

/-- RIDER_WATCHDOG_EXPIRY: the count since the last KICK reaches LIMIT. -/
def watchdogExpiry (s : State) : State :=
  if s.rd.debugHalt then s
  else
    let s := s.advanceTo (s.rd.wdogAt + 1600 * max 100 (s.getF Reg.GL_RIDER_WDOG 0 16))
    let s := restartRider s 1
    s.setRd { s.rd with wdogAt := s.fclk }

/-- LOCKSTEP_MISMATCH. -/
def lockstepMismatch (s : State) : State := if s.rd.debugHalt then s else restartRider s 2

def execRiderWatchdogExpiry (s : State) : Out := .next (watchdogExpiry s)
def execLockstepMismatch (s : State) : Out := .next (lockstepMismatch s)
def execRiderSramUncorrectable (s : State) : Out := .next (restartRider s 3)

end Sys2Proof.Machine
end

