-- ==== Sys2Proof/Machine/RiderPlans.lean ====
section
/-! DEFINITION. What a step of the Rider works out from the state when it is reached: detours and attachments (R319, R321, R324),
channels placed again (R219, R221), links on trial (R325), the preparation of the spare (R274), and agents that do not wake (R354). -/

namespace Sys2Proof.Machine

/-! ### Elements: a router by its index, a link by 1000 + 8 * router + port -/

/-- The router ports of an element that lead anywhere. -/
def elemPorts (key : Nat) : List (Nat × Nat) :=
  if key < 1000 then ((List.range 8).filter (fun p => (LEnd.rt key p).far.isSome)).map (fun p => (key, p))
  else [((key - 1000) / 8, (key - 1000) % 8)]

/-- Both ends of the link on a router port. -/
def bothEnds (i p : Nat) : List LEnd := (LEnd.rt i p) :: (match (LEnd.rt i p).far with | some f => [f] | none => [])

/-- The write of an end's enable bit. -/
def enableAct (b : Bool) : LEnd → RAct
  | .rt i p => wrBit (Reg.RT_CTRL i) p b
  | .hg n l => wrBit (Reg.HG_ATTACH n) (8 + l) b

/-- The write of an end's clear bit. -/
def clearAct : LEnd → RAct
  | .rt i p => wrBit (Reg.RT_CTRL i) (8 + p) true
  | .hg n l => wrBit (Reg.HG_ATTACH n) (10 + l) true

/-- The key of the port a headgate's link stands on. -/
def portKey (n l : Nat) : Nat := 1000 + 8 * (attachOf n l).1 + (attachOf n l).2

/-- The element holds the port of a key. -/
def elemHas (key k : Nat) : Bool := (elemPorts key).any (fun x => decide (1000 + 8 * x.1 + x.2 = k))

/-- Headgates whose attachment in use is on the element. -/
def attachedTo (s : State) (key : Nat) : List Nat := (List.range 160).filter (fun n => elemHas key (portKey n (linkInUse s n)))

/-! ### Attachments (R321, R324) -/

/-- The attachment of `h` written into the map of every headgate in ascending order, each with a stamp and a notice for `h`; then
every drain. -/
def attachActs (s : State) (h : Nat) (step : Bool) : List RAct :=
  (List.range 160).flatMap (fun n =>
    wrAll (Reg.HG_ATTACH_k n h) (attachWord h (linkInUse s h)) :: stampActs n ++
    [wrAll (Reg.HG_REPLAY_CMD n) (withFields 0 [(0, 8, h), (9, 1, 1)])]) ++ (if step then [.stepDone] else []) ++
  [.wait (.drained (List.range 160) false)]

/-- Headgate `h` moves to link `l`: USE first, then the maps, then its channels. -/
def moveActs (h l : Nat) : List RAct := [wrField (Reg.HG_ATTACH h) 0 1 l, .expand (.attach h false), .expand (.placeAt h)]

/-- Every headgate in use on the element moves to its other link. -/
def moveOffActs (s : State) (key : Nat) : List RAct :=
  (attachedTo s key).flatMap (fun h =>
    .movedOff h (portKey h (linkInUse s h)) true :: moveActs h (1 - linkInUse s h))

/-- Headgates moved off the element return where their old link is healthy again. -/
def moveBackActs (s : State) (key : Nat) : List RAct :=
  (s.rd.movedOff.filter (fun x => elemHas key x.2)).flatMap (fun x =>
    let l := if portKey x.1 0 = x.2 then 0 else 1
    if linkInUse s x.1 = l then [.movedOff x.1 x.2 false]
    else if healthyLink s x.1 l then .movedOff x.1 x.2 false :: moveActs x.1 l
    else [])

/-! ### Waypoints (R319 steps 1 to 3) -/

/-- The maps as they will stand: the entry now in use of every headgate attached to a failed router. -/
def mapsToBe (s : State) (hs : List Nat) : State :=
  forRange 160 (fun n t => forEach hs (fun h t => t.setReg (Reg.HG_ATTACH_k n h) (attachWord h (linkInUse s h))) t) s

/-- What is written at headgate `n`, where anything changes or some route of its crosses an avoided element. -/
def routeWrites (s1 : State) (b : Avoid) (hs : List Nat) (notice : Bool) (n : Nat) (s : State) : List RAct × State :=
  let r := sourceRouter s1 n
  let (ws, s) := waypointWords (s1.setFreeCtr s.freeCtr) Avoid.none n |> fun x => (x.1, s.setFreeCtr x.2.freeCtr)
  let new := (List.zip (List.range 16) ws).map (fun x => (Reg.HG_WAYPT n x.1, x.2)) ++
    hs.map (fun h => (Reg.HG_ATTACH_k n h, attachWord h (linkInUse s h)))
  let crosses := (destRouters s1 n).any (fun t => !legOk b 20 r t)
  if crosses ∨ new.any (fun x => s.reg x.1 ≠ x.2) then
    (new.map (fun x => wrAll x.1 x.2) ++ stampActs n ++
      (if notice then [wrAll (Reg.HG_REPLAY_CMD n) (withFields 0 [(8, 1, 1), (9, 1, 1)])] else []), s)
  else ([], s)

/-- Everything is computed before the first write; then the writes of each headgate in ascending order, and the drains. -/
def routeActs (s : State) (notice step : Bool) : List RAct × State :=
  let hs := (List.range 160).filter (fun h => s.rd.failed.contains (attachOf h 0).1 || s.rd.failed.contains (attachOf h 1).1)
  let s1 := mapsToBe s hs
  let b := blocked s1 Avoid.none
  let r := (List.range 160).foldl (fun (acc : List RAct × List Nat × State) n =>
    let x := routeWrites s1 b hs notice n acc.2.2
    (acc.1 ++ x.1, if x.1.isEmpty then acc.2.1 else acc.2.1 ++ [n], x.2)) ([], [], s)
  (r.1 ++ (if step then [.stepDone] else []) ++ [.wait (.drained r.2.1 false)], r.2.2)

/-! ### Channels (R218 to R222) -/

/-- The channel a CHANNEL_OPEN in progress is opening: its own steps write it. -/
def openingChan (s : State) : Option Nat :=
  s.rd.active.bind (fun m => (s.mbAt m).cur.bind (fun c =>
    if field ((c.words[0]?).getD 0) 0 16 = 0x0201 ∧ c.planned then some (field ((c.words[1]?).getD 0) 0 12) else none))

/-- Channels on record but the one being opened. -/
def openChans (s : State) : List Chan := s.rd.chans.filter (fun c => decide (some c.chan ≠ openingChan s))

/-- A channel that is to be placed again: cut, or with an entry missing. -/
def needsPlace (s : State) (c : Chan) : Bool := chanCut s c || changed s c

/-- Source, destination or relay of the channel uses an attachment on the element. -/
def endpointOn (s : State) (key : Nat) (c : Chan) : Bool := (attachedTo s key).any (fun h => c.at_ h)

/-- Channels cut or not whole placed again. In step 1 of the derailleur those with an endpoint on the element are demoted and cleared: no
tree avoids the element until that endpoint has moved (DEDUCED, log entry 71). -/
def placeCutActs (s : State) (key : Option Nat) : List RAct × State :=
  let cs := openChans s
  let waits (c : Chan) : Bool := match key with | some k => endpointOn s k c | none => false
  let r := placeActs s (cs.filter (fun c => needsPlace s c && !waits c))
  (clearActs (cs.filter waits) (fun _ => true) ++ r.1, r.2)

/-- Step 6 for channels: those laid through relays, unreachable ones, and any that need it. -/
def placeBackActs (s : State) : List RAct × State :=
  placeActs s ((openChans s).filter (fun c => needsPlace s c || !c.relays.isEmpty))

/-- Of a channel that is given up before it is open: entries first, then its records, staging and the Rider's own record (R393). -/
def closeUpActs (s : State) (chan : Nat) : List RAct :=
  match s.rd.chans.find? (fun x => decide (x.chan = chan)) with
  | none => []
  | some c =>
    (List.range 3).flatMap (fun k => (c.ofKind k).map clearEntry) ++
    (match srcRec s c.src chan with
     | some (i, _) => [wrAll (Reg.HG_PL_CHAN c.src i) 0, .discard c.src chan false,
         wrField (Reg.HG_PL_STAGE c.src) 0 10 (s.getF (Reg.HG_PL_STAGE c.src) 0 10 - c.blocks)]
     | none => []) ++
    c.others.reverse.filterMap (fun h => (recOf s h chan).map (fun r => wrAll (Reg.HG_PL_CHAN h r.1) 0)) ++ [.forget chan]

/-! ### Links on trial (R325) -/

/-- The key of the link on a router port, the same from both its ends: that of its lower router. -/
def linkKey (i p : Nat) : Nat :=
  match (LEnd.rt i p).far with | some (.rt j q) => min (1000 + 8 * i + p) (1000 + 8 * j + q) | _ => 1000 + 8 * i + p

/-- Failed attempts of a link so far, and the start of the last. -/
def attempts (s : State) (key : Nat) : Nat × Nat :=
  match s.rd.trials.find? (fun x => decide (x.1 = key)) with | some x => x.2 | none => (0, 0)

/-- RT_HOP_ERR at an end; a headgate end has none. -/
def hopErrOf (s : State) : LEnd → Nat
  | .rt i p => (s.reg (Reg.RT_HOP_ERR i p)).toNat
  | .hg _ _ => 0

/-- An end has stood its trial: it sees its far side live, has not declared the link, and takes heartbeats. -/
def endGood (s : State) (e : LEnd) : Bool := s.live e && !s.faulty e && !(s.link e).hbFirst

/-- The far end of the link with a key. -/
def keyFar (key : Nat) : LEnd := ((LEnd.rt ((key - 1000) / 8) ((key - 1000) % 8)).far).getD (LEnd.rt ((key - 1000) / 8) ((key - 1000) % 8))

/-- SILENCE at a router in FCLK cycles. -/
def silenceOf (s : State) (e : LEnd) : Nat := field (s.linkCfg e) 0 12

/-- The four steps of a router port, and its judgement; a link that used its three attempts stays out. -/
def trialActs (s : State) (key : Nat) : List RAct :=
  let i := (key - 1000) / 8
  let p := (key - 1000) % 8
  let es := bothEnds i p
  let f := keyFar key
  if 3 ≤ (attempts s (linkKey i p)).1 then [.code 0x3A, .outOf key true]
  else
    es.map (enableAct false) ++ es.map clearAct ++ es.map (enableAct true) ++ [.trial (linkKey i p), .delay (2 * silenceOf s (.rt i p)),
      .expand (.linkTried key (hopErrOf s (.rt i p)) (hopErrOf s f))]

/-- The judgement: the link is in service again, or disabled at both ends. -/
def linkTriedActs (s : State) (key a b : Nat) : List RAct :=
  let i := (key - 1000) / 8
  let p := (key - 1000) % 8
  let f := keyFar key
  if (bothEnds i p).all (endGood s) ∧ hopErrOf s (.rt i p) = a ∧ hopErrOf s f = b then [.outOf key false]
  else (bothEnds i p).map (enableAct false) ++ [.code 0x3A, .trialFailed (linkKey i p)]

/-- A router in service. -/
def routerServes (s : State) (i : Nat) : Bool := !s.rd.failed.contains i && !s.rd.outOfService.contains i

/-- The link on a router port is out of service by itself, by command or by fault. -/
def linkOut (s : State) (i p : Nat) : Bool :=
  s.rd.outOfService.contains (1000 + 8 * i + p) || s.rd.faulty.contains (8 * i + p) ||
  (match (LEnd.rt i p).far with
   | some (.rt j q) => s.rd.outOfService.contains (1000 + 8 * j + q) || s.rd.faulty.contains (8 * j + q)
   | _ => false)

/-- The ports of an element that are out of service and can return: all of a router that is out, else those whose link is; the
router beyond, and for a link its own, is in service. -/
def portsToRestore (s : State) (key : Nat) : List (Nat × Nat) :=
  (elemPorts key).filter (fun x =>
    ((decide (key < 1000) && !routerServes s key) || (linkOut s x.1 x.2 && routerServes s x.1)) &&
    (match (LEnd.rt x.1 x.2).far with | some (.rt j _) => routerServes s j | _ => true))

/-! ### The spare (R274) -/

/-- Caches set in an awaited mask of the failed slice. -/
def stillAwaited (s : State) (k : Nat) : BitVec 16 := (s.hsAt k).slots.foldl (fun m e => m ||| e.2.awaited) 0

/-- A cache becomes dead in every slice, in ascending order (R327). -/
def deadCacheActs (a : BitVec 4) : List RAct := (List.range 17).map (fun k => wrBit (Reg.HS_DEAD_MASK k) a.toNat true)

/-- A target levee as the Rider sets it: for a caching agent its bit in every slice first (R327). -/
def leveeActs (n : Nat) (iso : Bool) : List RAct :=
  (match agentOf n with | some a => deadCacheActs a | none => []) ++
  [wrBit (Reg.HG_LEVEE n) 0 true] ++ (if iso then [wrBit (Reg.HG_LEVEE n) 2 true] else [])

/-- Every cache still awaited is dead in every slice, then leveed. -/
def sliceQuietActs (s : State) (k : Nat) : List RAct :=
  let m := agentsOf (stillAwaited s k)
  m.flatMap deadCacheActs ++ m.map (fun a => wrBit (Reg.HG_LEVEE (40 + a.toNat)) 0 true)

/-- Grants lowered in ascending source order, to one at least, until they take `excess` fewer (log entry 26). -/
def lowerGrants : List (Nat × Nat) → Nat → List (Nat × Nat)
  | [], _ => []
  | (n, g) :: rest, excess => let d := min excess (g - 1); (n, g - d) :: lowerGrants rest (excess - d)

/-- What each source is granted at the spare: what it held at the failed slice, with 64 entries kept for the hand-over. -/
def spareGrants (s : State) (k : Nat) : List (Nat × Nat) :=
  let held := (List.range 160).filterMap (fun n =>
    let g := s.getF (Reg.HG_GRANT (100 + k) n) 0 10
    if g = 0 ∨ n = 100 + k then none else some (n, g))
  lowerGrants held (sumBy (·.2) held - 448)

/-- The write of HG_ALLOT with ENABLED. -/
def allotAct (n t v : Nat) (en : Bool) : RAct :=
  .wr (Reg.HG_ALLOT n t) (withFields 0 [(0, 10, v), (36, 1, b2n en)]) (withFields 0 [(0, 10, 0x3FF), (36, 1, 1)])

/-- The pairs toward the spare, the target's side of each first (R148). -/
def sparePairActs (s : State) (k : Nat) : List RAct :=
  ((100 + k, 64) :: spareGrants s k).flatMap (fun x =>
    [wrField (Reg.HG_GRANT 116 x.1) 0 10 x.2, allotAct x.1 116 x.2 true])

/-! ### Domains (R354) -/

/-- The HAI is live with ACLK running. -/
def haiAwake (s : State) (n : Nat) : Bool := (s.hgAt n).portLive && (s.hgAt n).aclkEn

/-- Headgates of the domain not live by now are leveed and named in the result, with the alarm and the event of R354. -/
def notLiveActs (s : State) (d : Nat) : List RAct :=
  let out := (domainHgs s d).filter (fun n => !haiAwake s n)
  out.flatMap (fun n => leveeActs n false ++ [.result (1 + n / 64) (BitVec.ofNat 64 (2 ^ (n % 64))), .raise n 0x51 d]) ++
  (if out.isEmpty then [] else [.event 0x08 d])

/-! ### All of them -/

/-- The steps a plan stands for in the state it is reached in. -/
def expandPlan (s : State) : Plan → List RAct × State
  | .routes notice step => routeActs s notice step
  | .attach h step => (attachActs s h step, s)
  | .moveOff key => (moveOffActs s key, s)
  | .moveBack key => (moveBackActs s key, s)
  | .cutChans => (cutActs s (openChans s), s)
  | .placeAt h => placeActs s ((openChans s).filter (fun c => c.at_ h))
  | .placeCut key => placeCutActs s key
  | .placeBack => placeBackActs s
  | .restored c => (match s.rd.chans.find? (fun x => decide (x.chan = c)) with | some x => recordActs s x | none => [], s)
  | .closeUp c => (closeUpActs s c, s)
  | .linkTried key a b => (linkTriedActs s key a b, s)
  | .tryLink key => (trialActs s key, s)
  | .sliceQuiet k => (sliceQuietActs s k, s)
  | .sparePairs k => (sparePairActs s k, s)
  | .notLive d => (notLiveActs s d, s)

end Sys2Proof.Machine
end

