-- ==== Sys2Proof/Machine/RiderRun.lean ====
section
/-! DEFINITION. How the Rider runs commands and recoveries (R371 to R375, R384): what a step waits for, what each step does, the run to
the next boundary or wait, and the response. -/

namespace Sys2Proof.Machine

/-! ### Waits -/

/-- The channel's entries all stand, so that its packets can be resolved. -/
def chanWhole (s : State) (c : Nat) : Bool :=
  match s.rd.chans.find? (fun x => decide (x.chan = c)) with
  | some x => !x.unreachable && x.entries.all (entryStands s)
  | none => true

/-- The epoch drain of a headgate. Without `gua` the packets of a channel that is not whole are left out: they can only be resolved
after the placement that follows the drain (R221; DEDUCED, log entry 27). -/
def drainedBy (s : State) (gua : Bool) (n : Nat) : Bool :=
  if gua then drained s n
  else
    let h := s.hgAt n
    let h' := { h with store := h.store.filter (fun p => decide (p.kind ≠ .gua) || chanWhole s p.pkt.hdr.gchan) }
    (List.range 16).all (fun e => decide (BitVec.ofNat 4 e = curEpoch s n) || decide (epochCount h' (BitVec.ofNat 4 e) = 0))

/-- Nothing accepted is left at headgate `n`. -/
def hgDone (s : State) (n : Nat) : Bool :=
  let h := s.hgAt n
  h.store.isEmpty && h.txns.isEmpty && h.entries.isEmpty

/-- The condition holds. -/
def condHolds (s : State) : Cond → Bool
  | .drained ns gua => ns.all (drainedBy s gua)
  | .canAdvance n => decide (epochCount (s.hgAt n) (curEpoch s n + 1) = 0)
  | .inUseAtMost t src k => decide (s.getF (Reg.HG_GRANT t src) 10 10 ≤ k)
  | .protZero t => !(s.hgAt t).entries.any (·.marked)
  | .siphoned n => !s.getB (Reg.HG_LEVEE n) 3
  | .idle d => (domainHgs s d).all (fun n => targetIdle (s.hgAt n))
  | .acked d => (domainHgs s d).all (fun n => (s.hgAt n).pwrAck)
  | .awake d t => (domainHgs s d).all (haiAwake s) || decide (t ≤ s.fclk)
  | .swept => (List.range 17).all (fun k => hsFailed s k || (s.hsAt k).sweeping.isNone)
  | .committed n d => (uncommitted (s.hgAt n) d).isEmpty
  | .pulseAfter t => (match s.bd.lastPulseAt with | some p => decide (t < p) | none => false) || !s.getB Reg.CK_TURN_STATUS 0
  | .secondAfter sec => match s.bd.lastTurn with | some (x, _) => decide (sec < x) | none => false
  | .unitIdle => s.bd.unitBusy.isNone
  | .fuseDone => !s.bd.lcProgReq
  | .allDone => (List.range 160).all (hgDone s)
  | .until_ t => decide (t ≤ s.fclk)

/-- The cycle in which a timer ends the wait. -/
def Cond.timer : Cond → Option Nat
  | .until_ t => some t
  | .awake _ t => some t
  | _ => none

/-! ### Steps -/

/-- DEMOTED of channel `c` at its source `n`. -/
def setDemoted (s : State) (n c : Nat) (v : Bool) : State :=
  match srcRec s n c with
  | some (i, _) => s.updHg n (fun h => h.setChan i { h.chanAt i with demoted := v })
  | none => s

/-- The link keys of both ends of a link; of a router, its own. -/
def keysOf (key : Nat) : List Nat :=
  if key < 1000 then [key]
  else key :: (match keyFar key with | .rt j q => [1000 + 8 * j + q] | .hg _ _ => [])

/-- An element enters or leaves the record of elements out of service; a link that leaves it is no longer faulty. -/
def setOutOf (r : Rider) (key : Nat) (b : Bool) : Rider :=
  let ks := keysOf key
  let rest := r.outOfService.filter (fun x => !ks.contains x)
  if b then { r with outOfService := rest ++ [key] }
  else { r with outOfService := rest, faulty := r.faulty.filter (fun x => !ks.contains (1000 + x)) }

/-- A trial noted: failed attempts so far, and its start. -/
def setTrial (r : Rider) (key att at_ : Nat) : Rider :=
  { r with trials := r.trials.filter (fun x => decide (x.1 ≠ key)) ++ [(key, att, at_)] }

/-- The spare before a hand-over: an empty directory whose sets are all unbuilt, HS_CFG in one write, HS_DEAD_MASK copied (R274). -/
def prepareSpare (s : State) (k : Nat) : State :=
  let s := s.updHs 16 (fun x => { x with dir := [] })
  let s := forRange 32 (fun w t => t.setReg (Reg.HS_UNBUILT 16 w) 0xFFFFFFFFFFFFFFFF) s
  let s := s.setReg (Reg.HS_CFG 16) (withFields 0 [(0, 1, 1), (1, 1, 1), (2, 4, k)])
  s.setReg (Reg.HS_DEAD_MASK 16) (s.reg (Reg.HS_DEAD_MASK k))

/-- The memory write of a WR's last line, or of an ATOM, has been issued, and the response not sent: the record is MEMDONE (R273). -/
def slotMemDone (sl : Slot) : Bool :=
  let h := sl.pkt.hdr
  let last := decide (sl.line = sl.last)
  let wrote := (atomLine h.aop (h.bytes.toNat + 1) (h.addr.toNat % 64) sl.memData.data ((sl.pkt.data[0]?).getD DBeat.zero).data).1.isSome
  match sl.todo with
  | .wrReq :: _ => (decide (h.op = opWR) || decide (h.op = opWRP)) && last && sl.memOut
  | .nextLine :: _ => (decide (h.op = opWR) || decide (h.op = opWRP)) && last && !sl.poisoned
  | .reply _ oc _ :: _ => decide (oc = ocOK) && !sl.poisoned && (decide (h.op = opWR) || (decide (h.op = opATOM) && wrote))
  | _ => false

/-- The grant that the slot's CACK confirms. -/
def slotGrant (sl : Slot) : Bool := sl.todo.any (fun a => decide (a = .cack true))

/-- The entry a slot still holds. -/
def slotEntry (sl : Slot) : Option Nat := match sl.kind with | .request e => if sl.freed then none else some e | _ => none

/-- The record of a slot, where it serves a request that is not answered in full: an ATOM whose response has gone awaits nothing
(log entry 75). -/
def slotRecord (sl : Slot) : Option Handover :=
  match sl.kind with
  | .request _ | .taken _ =>
    if sl.wait = .cack then some (.cackWait sl.pkt sl.line (slotGrant sl))
    else if slotMemDone sl then
      some (.memDone (slotEntry sl) sl.pkt sl.lo sl.bytes sl.denied sl.line ((sl.rdata.head?).getD DBeat.zero))
    else match sl.todo with
      | .waitMem :: _ => none
      | _ => some (.work (slotEntry sl) sl.pkt sl.lo sl.bytes sl.denied)
  | _ => none

/-- The hand-over of slice `k`: CACKWAIT records, the other slots, then the requests that wait. The records reach the spare as one list;
their MSG packets are not sent one by one (log entry 28). -/
def handOver (s : State) (k : Nat) : State :=
  let n := homeHg k
  let sls := (s.hsAt k).slots.map (·.2)
  let recs := sls.filterMap slotRecord
  let isCackWait (h : Handover) : Bool := match h with | .cackWait _ _ _ => true | _ => false
  let s := s.updHs 16 (fun x => { x with handover := x.handover ++ recs.filter isCackWait ++ recs.filter (fun h => !isCackWait h) })
  let s := (s.updHs k (fun x => { x with slots := [], lineQueue := [], resq := [] })).updHg n
    (fun h => { h with poolUsed := h.poolUsed - sumBy (·.blocks) sls })
  joinHandover (((s.setB (Reg.HS_STATUS 16) 1 true).setB (Reg.HS_STATUS 16) 2 true).setReg (Reg.HS_CENSUS 16) 0) k

/-- PWR_REQ rises at every HAI of the domain, and the timer of ACK_LIMIT starts (R350). -/
def quiesceDomain (s : State) (d : Nat) : State :=
  let s := forEach (domainHgs s d) (fun n t => setPwrReq t n true) s
  s.setBd { s.bd with domAck := Tab.set s.bd.domAck d s.fclk }

/-- The Reservoir and every replay store are zeroed: 8192 beats in each bank (R414). -/
def zeroStores (s : State) : State :=
  let s := s.advanceTo (s.fclk + 8192)
  let s := forRange 160 (fun n t => t.updHg n (fun h => { h with store := [] })) s
  s.setRv { s.rv with mem := [], poison := [] }

/-- What a probe that is disarmed still holds of a record in capture is given up. -/
def disarmProbe (s : State) (p : Nat) : State :=
  s.setPr { s.pr with bufs := s.pr.bufs.filter (fun r => decide (r.probe ≠ p) || r.whole) }

/-- The image is copied; in the ROM's image wait the check begins with it (Table 17-2). -/
def beginImage (s : State) (off len : Nat) : State :=
  let s := if stage s = 6 then setStage s 7 else s
  copyImage s off len

/-- What a step does that only changes the fabric or the Rider's records. -/
def doAct (s : State) : RAct → State
  | .wr off v m => regWrite s off v m
  | .demote n c v => setDemoted s n c v
  | .event code arg => logEvent s code arg
  | .ack typ src all => sendToken s typ src all
  | .domState d st => setDomState s d st
  | .quiesce d => quiesceDomain s d
  | .wakeDom d => wakeDomain s d
  | .hold b => setCmdHold s b
  | .lcProg v => (s.setB Reg.GL_LIFECYCLE 4 true).setBd { s.bd with lcProgReq := true, lcProgVal := v }
  | .zeroStores => zeroStores s
  | .openPath n => (regWrite s (Reg.HG_ADMIT n) 1 1).setRd { s.rd with openPath := some n }
  | .copyImage off len => beginImage s off len
  | .chooser b => s.setRd { s.rd with shortestFirst := b }
  | .setCap c => s.setRd { s.rd with cap := c }
  | .outOf key b => s.setRd (setOutOf s.rd key b)
  | .inHand key b =>
    s.setRd { s.rd with inHand := s.rd.inHand.filter (fun x => decide (x ≠ key)) ++ (if b then [key] else []) }
  | .healed i => s.setRd { s.rd with failed := s.rd.failed.filter (fun x => decide (x ≠ i)) }
  | .movedOff h key b =>
    s.setRd { s.rd with movedOff := s.rd.movedOff.filter (fun x => decide (x ≠ (h, key))) ++ (if b then [(h, key)] else []) }
  | .trial key => s.setRd (setTrial s.rd key (attempts s key).1 s.fclk)
  | .trialFailed key => s.setRd (setOutOf (setTrial s.rd key ((attempts s key).1 + 1) (attempts s key).2) key true)
  | .raise n typ detail => s.hgAlarm n typ detail
  | .forget c => s.setRd { s.rd with chans := s.rd.chans.filter (fun x => decide (x.chan ≠ c)) }
  | .suspect out => s.setRd { s.rd with suspect := s.rd.suspect ++ [out] }
  | .sweep agent => forRange 17 (fun k t => regWrite t (Reg.HS_SWEEP k) (withFields 0 [(0, 4, agent.toNat), (4, 1, 1)]) 0x1F) s
  | .prepareSpare k => prepareSpare s k
  | .handOver k => handOver s k
  | .endRecord => s.updHs 16 (fun x => { x with handover := x.handover ++ [.finish] })
  | .disarm p => disarmProbe s p
  | .owe n t v => s.setRd { s.rd with owed := s.rd.owed ++ [(n, t, v)] }
  | _ => s

/-- Bits set in result word `k`, of 1 to 7. -/
def Prog.addResult (p : Prog) (k : Nat) (v : Word) : Prog :=
  { p with results := setNth p.results (k - 1) (((p.results[k - 1]?).getD 0) ||| v) }

/-- The checked image becomes the one to start (R378 step 3). -/
def startImage (s : State) : State := restartRider (s.setRd { s.rd with loadPending := true }) 4

/-- A failed check leaves the running image, and the ROM waits again. -/
def checkFails (s : State) : State := if stage s = 7 then setStage s 6 else s

/-- The steps of a program run until a numbered step is complete, a wait is not met, or nothing is left. The first argument bounds
the number of steps of one run. -/
def runActs : Nat → Prog → State → Prog × State
  | 0, p, s => (p, s)
  | k + 1, p, s =>
    match p.acts with
    | [] => (p, s)
    | a :: rest =>
      let q := { p with acts := rest }
      match a with
      | .stepDone => ({ q with step := p.step + 1, atStep := true }, s)
      | .wait c => if condHolds s c then runActs k q s else (p, s)
      | .delay n => ({ q with acts := .wait (.until_ (s.fclk + n)) :: rest }, s)
      | .nextTurn => runActs k { q with acts := .wait (.pulseAfter s.fclk) :: rest } s
      | .expand x => let (as, t) := expandPlan s x; runActs k { q with acts := as ++ rest } t
      | .result i v => runActs k (q.addResult i v) s
      | .resultReg i off => runActs k (q.addResult i (regRead s off)) s
      | .code v => runActs k { q with compl := BitVec.ofNat 8 v } s
      | .ownLock => runActs k { q with ownLock := true } s
      | .discard n c tell =>
        let got := staged (s.hgAt n) c
        runActs k (if tell then q.addResult 1 (BitVec.ofNat 64 got.length) else q)
          (s.updHg n (fun h => { h with store := h.store.filter (fun p => !(decide (p.kind = .gua) && decide (p.pkt.hdr.gchan = c))) }))
      | .checkImage allow =>
        match imageCheck s s.rd.loadArea allow with
        | (0, unsigned) => runActs k q (s.setRd { s.rd with unsigned := unsigned })
        | (code, _) => ({ q with acts := [], compl := BitVec.ofNat 8 code }, checkFails s)
      | .restart => (q, startImage s)
      | a => runActs k q (doAct s a)

/-- More steps than any command has. -/
def runBound : Nat := 1000000

/-- The program has a step it can take, or a timer that ends its wait. -/
def canRun (s : State) (p : Prog) : Bool :=
  match p.acts with
  | [] => false
  | .wait c :: _ => condHolds s c || c.timer.isSome
  | _ => true

/-- The timer that the program waits for expires. -/
def timerEnds (s : State) (p : Prog) : State :=
  match p.acts with
  | .wait c :: _ => if condHolds s c then s else match c.timer with | some t => s.advanceTo t | none => s
  | _ => s

/-! ### Serving (R371, R380, R383) -/

/-- The Rider executes: it is not halted, restarting, halted by debug, or under reset, and firmware runs or the ROM waits for an image. -/
def riderWorks (s : State) : Bool :=
  !riderHalted s && !s.rd.restarting && !s.rd.debugHalt && !underReset s && (decide (stage s = 9) || decide (stage s = 6) || decide (stage s = 7))

/-- Some mailbox still shows a command to be run again (R384). -/
def rerunLeft (s : State) : Bool :=
  (List.range 32).any (fun m => match (s.mbAt m).cur with | some c => c.rerun | none => false)

/-- UP is set once the firmware runs and every interrupted command has been answered (R383 step 5). -/
def serveAgain (s : State) : State :=
  if stage s = 9 ∧ !s.rd.restarting ∧ !riderHalted s ∧ !rerunLeft s then s.setB Reg.GL_RIDER_STATUS 0 true else s

/-- The command with code `code` of word 0. -/
def codeOf (ws : List Word) : Nat := field ((ws[0]?).getD 0) 0 16

/-- The response of a command is written and BUSY cleared (R371). -/
def respond (s : State) (m : Nat) (c : Running) : State :=
  let b := s.mbAt m
  let w0 := rspWord ((c.words[0]?).getD 0) c.prog.compl.toNat c.prog.step c.rerun
  let s := s.setMb m { b with cur := none, rsp := b.rsp ++ [rspOf w0 c.prog.results] }
  let s : State := if s.rd.active = some m then s.setRd { s.rd with active := none, served := m } else s
  serveAgain s

/-- A command ends at once with a code. -/
def endWith (s : State) (m : Nat) (c : Running) (code : Nat) : State :=
  respond s m { c with prog := { Prog.start [] with compl := BitVec.ofNat 8 code } }

/-- The command of mailbox `m` runs on, and is answered when nothing of it is left. -/
def driveCommand (s : State) (m : Nat) (c : Running) : State :=
  let (p, t) := runActs runBound { c.prog with atStep := false } (timerEnds s c.prog)
  let c := { c with prog := p }
  let t := t.setMb m { t.mbAt m with cur := some c }
  if p.acts.isEmpty && riderWorks t then respond t m c else t

/-- What a plan of a command finds: a code that refuses it, or its steps. -/
structure Planned where
  code : Nat
  prog : Prog
  state : State

/-- The command is refused with a code of Table 14-9 or 15-2. -/
def refused (s : State) (code : Nat) : Planned := { code := code, prog := Prog.start [], state := s }
/-- The command's steps. -/
def steps (s : State) (acts : List RAct) : Planned := { code := 0, prog := Prog.start acts, state := s }

/-- The running command with the code given, where it has not been planned yet: its plan is made from its words, and it runs to its
first boundary or wait. Where its steps had begun before a restart, preconditions that they changed count as satisfied (R384). -/
def begin_ (s : State) (code : Nat) (plan : State → Nat → List Word → Bool → Planned) : State :=
  match s.rd.active with
  | none => s
  | some m =>
    match (s.mbAt m).cur with
    | none => s
    | some c =>
      if codeOf c.words ≠ code ∨ c.planned ∨ !riderWorks s ∨ recovers s then s
      else
        let x := plan s m c.words c.prog.ran
        if x.code ≠ 0 then endWith x.state m c x.code
        else
          let t : State := x.state.setRd { x.state.rd with disturbed := false }
          driveCommand t m { c with planned := true, prog := { x.prog with ran := c.prog.ran, ownLock := c.prog.ownLock } }

end Sys2Proof.Machine
end

