-- ==== Sys2Proof/Machine/RiderScreen.lean ====
section
/-! DEFINITION. What the Rider checks of a command before its plan (R387, R388): the words of each command, the parameters of Table
15-4, permission, and the start under R371 to R373. -/

namespace Sys2Proof.Machine

/-! ### Words -/

/-- Word `k` of a command. -/
def cw (ws : List Word) (k : Nat) : Word := (ws[k]?).getD 0
/-- A field of word `k`. -/
def cf (ws : List Word) (k lo len : Nat) : Nat := field (cw ws k) lo len
/-- A bit of word `k`. -/
def cb (ws : List Word) (k i : Nat) : Bool := bit (cw ws k) i

/-- The low `n` bits. -/
def lowMask (n : Nat) : Nat := 2 ^ n - 1

/-- The bits each selector of QUERY_STATE uses of word 1 (Table 15-3). -/
def queryMask (sel : Nat) : Nat :=
  match sel with
  | 0 => 0xFF | 1 => 0xFFFFFF | 2 => 0xFFFFFF | 3 => 0xFFFFF | 4 => 0xFFFF | 5 => 0xFFFF | 6 => 0x1FFF | 7 => 0xFFFFFF
  | 8 => 0x3FFFFF | 9 => 0x1FFF | 10 => 0x1FFFFFFF | 11 => 0xFFFFFFF | _ => 0xFF

/-- The bits a command uses of words 1 to 7; none for a code that is no command. -/
def usedBits (ws : List Word) : Option (List Nat) :=
  match codeOf ws with
  | 0x0101 => some [queryMask (cf ws 1 0 8)]
  | 0x0102 => some [lowMask 16, lowMask 64]
  | 0x0201 => some [lowMask 59, lowMask 32, lowMask 64, lowMask 64]
  | 0x0202 => some [lowMask 12]
  | 0x0203 => some [lowMask 27]
  | 0x0301 => some [lowMask 26 + 2 ^ 32]
  | 0x0302 => some [lowMask 35]
  | 0x0401 => some [lowMask 19, lowMask 48, lowMask 48]
  | 0x0402 => some [lowMask 26, lowMask 48, lowMask 48, 0, lowMask 64, lowMask 64, lowMask 32]
  | 0x0501 => some [lowMask 12]
  | 0x0502 => some [lowMask 12]
  | 0x0503 => some [lowMask 16, lowMask 33]
  | 0x0504 => some [lowMask 9]
  | 0x0601 => some [lowMask 5]
  | 0x0602 => some [lowMask 5]
  | 0x0603 => some [lowMask 26, lowMask 64, lowMask 64, lowMask 32]
  | 0x0701 => some [lowMask 12]
  | 0x0702 => some [lowMask 9]
  | 0x0801 => some [lowMask 29, lowMask 64, lowMask 64, lowMask 64, lowMask 64]
  | 0x0802 => some [lowMask 5]
  | 0x0803 => some [lowMask 17]
  | 0x0804 => some [lowMask 8]
  | 0x0901 => some [lowMask 13]
  | 0x0A01 => some [lowMask 26]
  | 0x0A02 => some [lowMask 64, lowMask 32, 1]
  | 0x0A03 => some [lowMask 64]
  | 0x0A04 => some [lowMask 64]
  | _ => none

/-- A reserved bit is set. -/
def reservedSet (ws : List Word) (masks : List Nat) : Bool :=
  decide (cf ws 0 32 32 ≠ 0) ||
  (List.range 7).any (fun k => decide (cw ws (k + 1) &&& ~~~(BitVec.ofNat 64 ((masks[k]?).getD 0)) ≠ 0))

/-! ### Parameters (Table 15-4) -/

/-- A parameter: its register by instance, the field, the number of instances (one without INDEX), and the values in range. -/
structure ParamRow where
  off : Nat → Nat
  lo : Nat
  len : Nat
  count : Nat
  ok : Word → Bool

/-- HG_LINK_CFG and RT_LINK_CFG in range, with SILENCE long enough (Table 4-8, R127). -/
def linkCfgOk (v : Word) : Bool :=
  decide (field v 30 34 = 0) && decide (64 ≤ field v 12 10) && decide (1 ≤ field v 22 4) && decide (6 ≤ field v 26 4) &&
  decide (2 * field v 12 10 + 128 ≤ field v 0 12)

/-- HG_E2E_CFG in range (Table 6-6). -/
def e2eCfgOk (v : Word) : Bool :=
  decide (field v 35 29 = 0) && decide (0x400 ≤ field v 0 16) && decide (1 ≤ field v 16 5) && decide (8 ≤ field v 21 8) &&
  decide (1 ≤ field v 29 3)

def between (lo hi : Nat) (v : Word) : Bool := decide (lo ≤ v.toNat) && decide (v.toNat ≤ hi)

def paramRow (p : Nat) : Option ParamRow :=
  match p with
  | 1 => some { off := Reg.HS_COH_CFG, lo := 0, len := 8, count := 17, ok := between 16 255 }
  | 2 => some { off := Reg.HS_TMO_CFG, lo := 0, len := 12, count := 17, ok := between 25 4095 }
  | 3 => some { off := Reg.HS_CENSUS_CFG, lo := 0, len := 8, count := 17, ok := between 1 255 }
  | 4 => some { off := Reg.HG_TGT_TMO, lo := 0, len := 12, count := 160, ok := between 25 4095 }
  | 5 => some { off := Reg.HG_E2E_CFG, lo := 0, len := 64, count := 160, ok := e2eCfgOk }
  | 6 => some { off := Reg.HG_LINK_CFG, lo := 0, len := 64, count := 160, ok := linkCfgOk }
  | 7 => some { off := fun _ => Reg.RV_CFG, lo := 0, len := 7, count := 0, ok := between 4 64 }
  | 8 => some { off := fun _ => Reg.RV_LOCK_CFG, lo := 0, len := 16, count := 0, ok := between 160 0xFFFF }
  | 9 => some { off := fun _ => Reg.RV_SCRUB_CFG, lo := 0, len := 64, count := 0,
                ok := fun v => decide (field v 17 47 = 0) && decide (256 ≤ field v 0 16) }
  | 10 => some { off := Reg.RV_BANK_PARK, lo := 0, len := 4, count := 32, ok := between 0 15 }
  | 11 => some { off := Reg.HG_RSP_POOL, lo := 0, len := 10, count := 160, ok := between 16 448 }
  | _ => none

/-- The instances an INDEX names: all for 0xFF, which a parameter without instances requires. -/
def paramInsts (r : ParamRow) (idx : Nat) : Option (List Nat) :=
  if idx = 0xFF then some (List.range (max 1 r.count)) else if idx < r.count then some [idx] else none

/-! ### Ranges (R387) -/

/-- A headgate field. -/
def hgField (n : Nat) : Bool := decide (n < 160)

/-- The bytes of words 3 and 4. -/
def destBytes (ws : List Word) : List Nat := (List.range 16).map (fun i => cf ws (3 + i / 8) (8 * (i % 8)) 8)

/-- The fields of CHANNEL_OPEN lie in their ranges (Table 15-5). -/
def openOk (ws : List Word) : Bool :=
  let ds := destBytes ws
  let used := ds.filter (fun d => decide (d ≠ 0xFF))
  hgField (cf ws 1 12 8) && decide (1 ≤ cf ws 1 20 4) && decide (cf ws 1 20 4 ≤ 9) && decide (1 ≤ cf ws 1 24 4) &&
  decide (cf ws 1 24 4 ≤ 8) && decide (1 ≤ cf ws 1 28 4) && decide (cf ws 1 28 4 ≤ 8) && decide (1 ≤ cf ws 2 0 14) &&
  decide (cf ws 2 0 14 ≤ 9215) && decide (cf ws 2 14 14 ≤ 9215) && !used.isEmpty && decide (cf ws 2 28 4 = used.length % 16) &&
  used.all hgField && decide (used.eraseDups.length = used.length) && !used.contains (cf ws 1 12 8)

/-- The fields of QUERY_STATE lie in their ranges. -/
def queryOk (ws : List Word) : Bool :=
  let a := cf ws 1 8 8
  let b := cf ws 1 16 8
  match cf ws 1 0 8 with
  | 0 => true
  | 1 => hgField a && hgField b
  | 2 => hgField a && hgField b
  | 3 => true
  | 4 => (nodeIdx a).isSome
  | 5 => hgField a
  | 6 => true
  | 7 => hgField a && hgField b
  | 8 => hgField a
  | 9 => decide (cf ws 1 8 5 ≤ 16)
  | 10 => decide (cf ws 1 8 5 ≤ 16)
  | 11 => hgField (cf ws 1 20 8)
  | _ => false

/-- Every field of a command lies in its stated range. -/
def rangesOk (ws : List Word) : Bool :=
  let h := cf ws 1 0 8
  match codeOf ws with
  | 0x0101 => queryOk ws
  | 0x0102 =>
    if h = 0x0C then decide (cf ws 1 8 8 = 0xFF) && between 0 1 (cw ws 2)
    else
      match paramRow h with
      | some r => (paramInsts r (cf ws 1 8 8)).isSome && (decide (r.len = 64) || decide ((cw ws 2).toNat < 2 ^ r.len)) && r.ok (cw ws 2)
      | none => false
  | 0x0201 => openOk ws
  | 0x0203 =>
    (!cb ws 1 18 || (decide (50000 ≤ cf ws 1 0 18) && decide (cf ws 1 0 18 ≤ 159744))) &&
    (!cb ws 1 26 || (decide (10 ≤ cf ws 1 19 7) && decide (cf ws 1 19 7 ≤ 90)))
  | 0x0301 => hgField h && hgField (cf ws 1 8 8) && decide (cf ws 1 16 10 ≤ 512) && (cb ws 1 32 == decide (0 < cf ws 1 16 10))
  | 0x0302 => hgField h && decide (1 ≤ cf ws 1 23 12)
  | 0x0401 => (hgField h || decide (h = 255)) && hgField (cf ws 1 8 8)
  | 0x0402 => hgField h
  | 0x0501 | 0x0502 =>
    match nodeIdx h with
    | some i => !cb ws 1 11 || (LEnd.rt i (cf ws 1 8 3)).far.isSome
    | none => false
  | 0x0503 =>
    (nodeIdx h).isSome && (!cb ws 1 15 || (decide (4 ≤ cf ws 1 8 7) && decide (cf ws 1 8 7 ≤ 64))) &&
    (!cb ws 2 32 || linkCfgOk (BitVec.ofNat 64 (cf ws 2 0 32)))
  | 0x0504 => hgField h
  | 0x0603 =>
    decide (1 ≤ cf ws 1 6 10) && decide (1 ≤ cf ws 1 16 10) &&
    (List.range 160).all (fun n => !cb ws (2 + n / 64) (n % 64) || hasHai n)
  | 0x0701 | 0x0702 => hgField h
  | 0x0801 =>
    decide (cf ws 1 17 4 ≤ 9) &&
    (if cb ws 1 13 then hgField (cf ws 1 5 8) && decide (cf ws 1 14 3 ≤ 1) else (nodeIdx (cf ws 1 5 8)).isSome)
  | 0x0901 => !cb ws 1 12 || decide (16 ≤ cf ws 1 2 10)
  | 0x0A01 => hgField (cf ws 1 8 8)
  | 0x0A02 => decide ((cw ws 1).toNat % 0x10000 = 0) && decide ((cw ws 1).toNat + (cw ws 2).toNat ≤ 2 ^ 24)
  | _ => true

/-! ### Permission and start (R371 to R373, R388) -/

/-- Class Q: the command changes no setting. -/
def classQ (code : Nat) : Bool := decide (code = 0x0101) || decide (code = 0x0804)
/-- Class S. -/
def classS (ws : List Word) : Bool := (usedBits ws).isSome && !classQ (codeOf ws)

/-- The command may run for mailbox `m` in the state the fabric is in. -/
def permitted (s : State) (m code : Nat) : Bool :=
  let b := s.reg (Reg.MB_BIND m)
  !(bit b 16 && !classQ code) && (bit b 17 || decide (code < 0x0A01)) &&
  (decide (s.getF Reg.GL_LIFECYCLE 0 2 ≠ 2) || classQ code || decide (code = 0x0803))

/-- The code of Table 14-9 that a command is answered with before anything else is looked at; 0 for none. -/
def screen (s : State) (m : Nat) (ws : List Word) : Nat :=
  if stage s ≠ 9 ∧ codeOf ws ≠ 0x0A02 then 0x03
  else
    match usedBits ws with
    | none => 0x01
    | some masks => if reservedSet ws masks ∨ !rangesOk ws then 0x02 else if !permitted s m (codeOf ws) then 0x03 else 0

/-- The Rider takes commands of mailbox `m`: the firmware serves every one, the ROM the first two. -/
def serves (s : State) (m : Nat) : Bool :=
  riderWorks s && (riderUp s || (decide (stage s ≠ 9) && decide (m < 2)))

/-- A command of class S waits at the head of mailbox `m` and can be answered. -/
def changeWaits (s : State) (m : Nat) : Bool :=
  let b := s.mbAt m
  b.cur.isNone && decide (b.rsp.length < 64) && (match b.queue with | w :: _ => classS w | [] => false)

/-- The mailbox whose command of class S comes next: the first after the last one served (R373). -/
def nextChange (s : State) : Option Nat :=
  ((List.range 32).map (fun k => (s.rd.served + 1 + k) % 32)).find? (changeWaits s)

/-- The running command stands at a step boundary, or nothing runs. -/
def atBoundary (s : State) : Bool :=
  match s.rd.active with
  | none => true
  | some m => match (s.mbAt m).cur with | some c => !c.planned || c.prog.atStep | none => true

/-- COMMAND_START: the command at the head of mailbox `m` starts where its turn has come: one that changes settings alone, in
round-robin order and with no recovery running; another at the next boundary. -/
def commandStart (s : State) (m : Nat) : State :=
  let b := s.mbAt m
  match b.queue with
  | [] => s
  | w :: rest =>
    if !serves s m ∨ b.cur.isSome ∨ 64 ≤ b.rsp.length then s
    else if classS w && (s.rd.active.isSome || recovers s || decide (nextChange s ≠ some m)) then s
    else if !classS w && !atBoundary s then s
    else
      let c : Running := { words := w, planned := false, rerun := false, prog := Prog.start [] }
      let s := s.setMb m { b with queue := rest }
      let code := screen s m w
      let s : State := if classS w then s.setRd { s.rd with served := m } else s
      if code ≠ 0 then endWith s m c code
      else
        let s := s.setMb m { s.mbAt m with cur := some c }
        if classS w then s.setRd { s.rd with active := some m } else s

/-! ### Queries and parameters -/

def execCommandStart (m : Mbx) (s : State) : Out := .next (commandStart s m)

end Sys2Proof.Machine
end

