-- ==== Sys2Proof/Machine/RiderQuery.lean ====
section
/-! DEFINITION. The commands that change no setting (R391, R410), PARAM_SET (R392), and the small commands of one or two writes:
weirs, domains' settings, probes, alarms, hold and mailboxes (R397, R406, R409 to R412). -/

namespace Sys2Proof.Machine

/-! ### QUERY_STATE (Table 15-3) -/

/-- The command of mailbox `m`, of class Q and with the code given, is answered: results in words 1 to 7, and bits of word 0. -/
def answerQuery (s : State) (m code : Nat) (f : State → List Word → List Word × Nat) : State :=
  match (s.mbAt m).cur with
  | none => s
  | some c =>
    if codeOf c.words ≠ code ∨ !riderWorks s then s
    else
      let (ws, top) := f s c.words
      let b := s.mbAt m
      let w0 := setField (rspWord (cw c.words 0) 0 0 c.rerun) 56 8 top
      serveAgain (s.setMb m { b with cur := none, rsp := b.rsp ++ [rspOf w0 ws] })

/-- Faults outstanding (R163): recoveries that run, and links whose alarms are being collected. -/
def faultsOutstanding (s : State) : Nat :=
  (faultsRun s).length + ((s.rd.linkAlarms.map (fun a => (a.typ, a.source, field a.detail 0 3))).eraseDups).length

def queryFabric (s : State) : List Word :=
  [withFields 0 [(0, 16, s.rd.release.toNat), (16, 16, s.rd.svn.toNat), (32, 2, s.getF Reg.GL_LIFECYCLE 0 2), (34, 18, s.getF Reg.CK_TURN_CFG 0 18)],
   withFields 0 [(0, 13, s.rd.chans.length), (13, 8, min 255 (faultsOutstanding s)), (21, 8, min 255 s.rd.suspect.eraseDups.length),
     (29, 1, b2n (recovers s)), (30, 32, min 0xFFFFFFFF s.rd.stallsIgnored)],
   regRead s Reg.GL_RIDER_STATUS]

/-- The record a headgate holds of a channel. -/
def recAt (s : State) (h c : Nat) : Option Nat := ((chanRecs s h).find? (fun r => decide (recChan r.2 = c))).map (·.1)

def queryChannel (s : State) (c : Nat) : List Word :=
  match s.rd.chans.find? (fun x => decide (x.chan = c)) with
  | none => []
  | some x =>
    let o := (x.ofKind 0).head?
    let r := (x.ofKind 1).head?
    let i := (srcRec s x.src c).map (·.1)
    let dem := match i with | some i => ((s.hgAt x.src).chanAt i).demoted | none => true
    let stat (h : Nat) : Word := match recAt s h c with | some i => chanStatWord s h i | none => 0
    [withFields 0 [(0, 8, x.modulus), (8, 8, match o with | some e => entPhase e.v | none => 0),
       (16, 14, match o with | some e => entStart e.v | none => 0), (30, 8, match r with | some e => entPhase e.v | none => 0),
       (38, 2, if x.unreachable then 3 else if dem then 2 else 1), (40, 4, x.relays.length), (44, 4, if x.unreachable then 4 else 0)],
     stat x.src, x.cut.setWidth 64,
     withFields 0 [(0, 32, sumBy (fun h => field (stat h) 22 16) (usedOf x.dests)), (32, 32, sumBy (fun h => field (stat h) 38 16) (usedOf x.dests))]]

/-- A router port out of service: its link, its router or the router beyond is, by command or by fault. -/
def portRecord (s : State) (i p : Nat) : Bool :=
  match (LEnd.rt i p).far with
  | none => false
  | some f => !routerServes s i || linkOut s i p || (match f with | .rt j _ => !routerServes s j | .hg _ _ => false)

def queryRouter (s : State) (i : Nat) : List Word :=
  let ports := bitsFrom 8 (portRecord s i)
  [regRead s (Reg.RT_PORT_STATUS i), regRead s (Reg.RT_FAULT i),
   withFields 0 [(0, 2, if s.rd.failed.contains i then 2 else if s.rd.outOfService.contains i ∨ ports ≠ 0 then 1 else 0), (2, 8, ports)]]

/-- A bitmap of headgates, three words. -/
def hgBitmap (f : Nat → Bool) : List Word :=
  (List.range 3).map (fun k => BitVec.ofNat 64 (bitsFrom 64 (fun j => decide (64 * k + j < 160) && f (64 * k + j))))

def queryProtection (s : State) (t g : Nat) : List Word :=
  [regRead s (Reg.HG_PROT_BASE t), regRead s (Reg.HG_PROT_SIZE t), regRead s (Reg.HG_PROT_CTRL t), regRead s (Reg.HG_PROT_RIGHTS t g)] ++
  hgBitmap (fun n => decide (s.getF (Reg.HG_PROT_GROUP t n) 0 6 = g))

/-- The registers of a selector, read in the order the table lists them. -/
def queryWords (s : State) (ws : List Word) : List Word :=
  let a := cf ws 1 8 8
  let b := cf ws 1 16 8
  match cf ws 1 0 8 with
  | 0 => queryFabric s
  | 1 => [pairTxWord s a b, pairRxWord s b a, BitVec.ofNat 64 (b2n (deadDest s a b))]
  | 2 => [regRead s (Reg.HG_ALLOT a b), regRead s (Reg.HG_GRANT b a)]
  | 3 => queryChannel s (cf ws 1 8 12)
  | 4 => queryRouter s ((nodeIdx a).getD 0)
  | 5 => [Reg.HG_ATTACH a, Reg.HG_LEVEE a, Reg.HG_EPOCH a, Reg.HG_REPLAY_STATUS a, Reg.HG_DOM_STATUS a].map (regRead s)
  | 6 => regRead s (Reg.CK_DOM (cf ws 1 8 5)) :: hgBitmap (fun n => decide (domainOf s n = some (cf ws 1 8 5)))
  | 7 => [regRead s (Reg.HG_DEC_SLOT_w0 a b), regRead s (Reg.HG_DEC_SLOT_w1 a b)]
  | 8 => queryProtection s a (cf ws 1 16 6)
  | 9 => let k := cf ws 1 8 5; [Reg.HS_STATUS k, Reg.HS_CENSUS k, Reg.HS_CFG k, Reg.HS_DEAD_MASK k].map (regRead s)
  | 10 => [dirEntryWord s (cf ws 1 8 5) (cf ws 1 13 11) (cf ws 1 24 5)]
  | 11 =>
    let h := cf ws 1 20 8
    match recAt s h (cf ws 1 8 12) with
    | some i => [chanStatWord s h i, 1]
    | none => [0, 0]
  | _ => []

/-- QUERY_STATE of mailbox `m`. -/
def queryState (s : State) (m : Nat) : State := answerQuery s m 0x0101 (fun s ws => (queryWords s ws, 0))

/-- Records held: the pinned slots taken and the circle. -/
def logHeld (r : Rider) : Nat := r.pinned.length + r.circle.length

/-- LOG_READ of mailbox `m`: the record of an index, zeros beyond, and the number held in word 0. -/
def logRead (s : State) (m : Nat) : State :=
  answerQuery s m 0x0804 (fun s ws => (match logAt s.rd (cf ws 1 0 8) with | some x => logWords x | none => [], logHeld s.rd))

/-! ### PARAM_SET (R392) -/

/-- The pool cannot shrink by more than its free blocks (Table 15-4). -/
def poolStays (s : State) (v n : Nat) : Bool := decide (s.getF (Reg.HG_RSP_POOL n) 0 10 - v ≤ poolFree s n)

def planParam (s : State) (_ : Nat) (ws : List Word) (rerun : Bool) : Planned :=
  let p := cf ws 1 0 8
  let v := (cw ws 2).toNat
  if p = 0x0C then steps s [.chooser (decide (v = 1)), .stepDone]
  else
    match paramRow p with
    | none => refused s 0x02
    | some r =>
      let is := (paramInsts r (cf ws 1 8 8)).getD []
      if p = 0x0B ∧ !rerun ∧ !is.all (poolStays s v) then refused s 0x04
      else steps s (is.map (fun i => wrField (r.off i) r.lo r.len v) ++ [.stepDone])

/-! ### Small commands -/

/-- WEIR_SET: once per context, in ascending order (R397). -/
def planWeir (s : State) (_ : Nat) (ws : List Word) (_ : Bool) : Planned :=
  let h := cf ws 1 0 8
  let cs := if cb ws 1 14 then List.range 64 else [cf ws 1 8 6]
  steps s (cs.map (fun c => wrField (Reg.HG_WEIR h c) 0 20 (cf ws 1 15 8 + cf ws 1 23 12 * 2 ^ 8)) ++ [.stepDone])

/-- The membership bitmap of DOMAIN_SET. -/
def joins (ws : List Word) (n : Nat) : Bool := cb ws (2 + n / 64) (n % 64)

/-- STATE of a domain. -/
def domState (s : State) (d : Nat) : Nat := s.getF (Reg.CK_DOM d) 1 3

/-- DOMAIN_SET: members that leave, members that join, each in ascending order, then CK_DOM (R406). -/
def planDomainSet (s : State) (_ : Nat) (ws : List Word) (rerun : Bool) : Planned :=
  let d := cf ws 1 0 5
  let leaving := (List.range 160).filter (fun n => decide (domainOf s n = some d) && !joins ws n)
  let joining := (List.range 160).filter (fun n => joins ws n && decide (domainOf s n ≠ some d))
  let others := joining.filterMap (domainOf s)
  if !rerun && (decide (domState s d ≠ 0) || others.any (fun x => decide (domState s x ≠ 0))) then refused s 0x40
  else
    steps s (leaving.map (fun n => wrField (Reg.CK_HG_DOM n) 0 6 0) ++ joining.map (fun n => wrField (Reg.CK_HG_DOM n) 0 6 (d + 32)) ++
      [.wr (Reg.CK_DOM d) (withFields 0 [(0, 1, b2n (cb ws 1 5)), (8, 10, cf ws 1 6 10), (18, 10, cf ws 1 16 10)]) 0xFFFFF01, .stepDone])

/-- PROBE_ARM: an entry of one unit where MASK_W1 is zero, else of two; then the point and the budget with ARMED (R409, R418). A probe
of a bank that failed self-test is never armed (Table 17-3). -/
def planProbeArm (s : State) (_ : Nat) (ws : List Word) (rerun : Bool) : Planned :=
  let p := cf ws 1 0 5
  let two := decide (cw ws 5 ≠ 0)
  let ctl := withFields 0 [(0, 8, cf ws 1 5 8), (8, 1, b2n (cb ws 1 13)), (9, 3, cf ws 1 14 3), (12, 4, cf ws 1 17 4), (16, 2, b2n two),
    (18, 8, cf ws 1 21 8), (63, 1, 1)]
  if (s.getB (Reg.PR_PRB_CTL p) 63 && !rerun) || s.pr.failedBanks.contains (p / 4) then refused s 0x50
  else
    steps s ([wrAll (Reg.PR_CAM_MATCH (4 * p)) (cw ws 2), wrAll (Reg.PR_CAM_MASK (4 * p)) (cw ws 4)] ++
      (if two then [wrAll (Reg.PR_CAM_MATCH (4 * p + 1)) (cw ws 3), wrAll (Reg.PR_CAM_MASK (4 * p + 1)) (cw ws 5)] else []) ++
      [wrAll (Reg.PR_PRB_CTL p) ctl, .stepDone])

/-- PROBE_DISARM: capture stops at once. -/
def planProbeDisarm (s : State) (_ : Nat) (ws : List Word) (rerun : Bool) : Planned :=
  let p := cf ws 1 0 5
  if !s.getB (Reg.PR_PRB_CTL p) 63 && !rerun then refused s 0x50
  else steps s [wrBit (Reg.PR_PRB_CTL p) 63 false, .disarm p, .stepDone]

/-- ALARM_ACK: one token (R410, R430). -/
def planAlarmAck (s : State) (_ : Nat) (ws : List Word) (_ : Bool) : Planned :=
  steps s [.ack (BitVec.ofNat 8 (cf ws 1 8 8)) (BitVec.ofNat 8 (cf ws 1 0 8)) (cb ws 1 16), .stepDone]

/-- HOLD_SET: the release time, then the commanded hold (R411). -/
def planHold (s : State) (_ : Nat) (ws : List Word) (_ : Bool) : Planned :=
  steps s ((if cb ws 1 12 then [wrField Reg.CK_HOLD_CFG 0 10 (cf ws 1 2 10)] else []) ++
    (if cb ws 1 1 then [.hold (cb ws 1 0)] else []) ++ [.stepDone])

/-- MB_BIND as the command would leave it. -/
def bindValue (ws : List Word) : Word :=
  withFields 0 [(0, 8, cf ws 1 8 8), (8, 6, cf ws 1 16 6), (14, 4, cf ws 1 22 4)]

/-- MAILBOX_BIND: the mailbox is idle, but for this command where it names its own, and some valid mailbox keeps PRIV (R368, R412). -/
def planBind (s : State) (m : Nat) (ws : List Word) (rerun : Bool) : Planned :=
  let k := cf ws 1 0 5
  let b := s.mbAt k
  let v := bindValue ws
  let busy := (b.cur.isSome && decide (k ≠ m)) || !b.queue.isEmpty || !b.rsp.isEmpty
  let priv := (List.range 32).any (fun j => let x := if j = k then v else s.reg (Reg.MB_BIND j); bit x 15 && bit x 17)
  if !rerun && (busy || !priv) then refused s 0x58 else steps s [wrAll (Reg.MB_BIND k) v, .stepDone]

def execQueryState (m : Mbx) (s : State) : Out := .next (queryState s m)
def execLogRead (m : Mbx) (s : State) : Out := .next (logRead s m)
def execParamSet (s : State) : Out := .next (begin_ s 0x0102 planParam)
def execWeirSet (s : State) : Out := .next (begin_ s 0x0302 planWeir)
def execDomainSet (s : State) : Out := .next (begin_ s 0x0603 planDomainSet)
def execProbeArm (s : State) : Out := .next (begin_ s 0x0801 planProbeArm)
def execProbeDisarm (s : State) : Out := .next (begin_ s 0x0802 planProbeDisarm)
def execAlarmAck (s : State) : Out := .next (begin_ s 0x0803 planAlarmAck)
def execHoldSet (s : State) : Out := .next (begin_ s 0x0901 planHold)
def execMailboxBind (s : State) : Out := .next (begin_ s 0x0A01 planBind)

end Sys2Proof.Machine
end

