-- ==== Sys2Proof/Machine/RiderChannels.lean ====
section
/-! DEFINITION. The Paceline commands: CHANNEL_OPEN (R393), CHANNEL_CLOSE (R394) and PACELINE_SET (R395). -/

namespace Sys2Proof.Machine

/-! ### CHANNEL_OPEN -/

/-- K as CK_TURN_CFG holds it, within its limits. -/
def kNow (s : State) : Nat := turnsPerSecond (s.getF Reg.CK_TURN_CFG 0 18)

/-- The channel a CHANNEL_OPEN describes (Table 15-5). -/
def chanOf (s : State) (ws : List Word) : Chan :=
  { chan := cf ws 1 0 12, src := cf ws 1 12 8, flits := cf ws 1 20 4, modulus := kNow s / cf ws 1 32 18, phase := cf ws 1 51 8
    phaseAny := cb ws 1 50, deadline := cf ws 2 0 14, earliest := cf ws 2 14 14, dests := destBytes ws, stage := cf ws 1 24 4
    dbuf := cf ws 1 28 4, entries := [], sets := [], relays := [], unreachable := false, cut := 0 }

/-- The limits of CHANNEL_LIMIT for a channel laid through the relays given (`s` without the channel). -/
def limitsOk (s : State) (c : Chan) (relays : List Nat) : Bool :=
  decide (s.rd.chans.length < 4096) && decide (entriesAt s c.src + 2 ≤ 256) && decide (recordsAt s c.src < 128) &&
  decide (setsAt s c.src + (if relays.isEmpty then 1 else 3) ≤ 64) &&
  decide (s.getF (Reg.HG_PL_STAGE c.src) 0 10 + c.blocks ≤ 896) &&
  (usedOf c.dests).all (fun d => recordFits s c d (if relays.contains d then 2 else 1)) &&
  relays.all (fun r => decide (entriesAt s r < 256) && decide (setsAt s r < 64) && recordFits s c r (if c.dests.contains r then 2 else 1))

/-- The steps of Table 15-6 for a channel as placed, with its results. -/
def openActs (s : State) (c : Chan) : List RAct :=
  let o := (c.ofKind 0).head?
  let r := (c.ofKind 1).head?
  let word := withFields 0 [(0, 8, c.modulus), (8, 8, match o with | some e => entPhase e.v | none => 0),
    (16, 14, match o with | some e => entStart e.v | none => 0), (30, 8, match r with | some e => entPhase e.v | none => 0),
    (38, 14, c.transit s (kNow s))]
  [.stepDone, .expand (.restored c.chan), .stepDone] ++ (c.ofKind 2 ++ c.ofKind 1 ++ c.ofKind 0).map validEntry ++
  [.stepDone, .demote c.src c.chan false, .result 1 word, .stepDone]

/-- CHANNEL_OPEN. A placement already on record from a run before a restart keeps its numbers. -/
def planOpen (s : State) (_ : Nat) (ws : List Word) (rerun : Bool) : Planned :=
  let rate := cf ws 1 32 18
  let c := chanOf s ws
  let held := s.rd.chans.find? (fun x => decide (x.chan = c.chan))
  let c := match held with | some x => { c with entries := x.entries, sets := x.sets } | none => c
  let s0 : State := s.setRd { s.rd with chans := s.rd.chans.filter (fun x => decide (x.chan ≠ c.chan)) }
  if !s.bd.everValid then refused s 0x20
  else if rate = 0 ∨ kNow s % rate ≠ 0 ∨ 255 < kNow s / rate then refused s 0x21
  else if !c.phaseAny ∧ c.modulus ≤ c.phase then refused s 0x02
  else if held.isSome ∧ !rerun then refused s 0x24
  else if (usedOf c.dests).any (fun d => !Nat.testBit (rightsOf s d c.src) 4) then refused s 0x25
  else if !rerun ∧ !limitsOk s0 c [] then refused s 0x23
  else
    let (d, t) := s0.draw
    match placeAll t (Config.relayPick d) [c] with
    | (_, some (lay, segs)) :: _ =>
      if !rerun ∧ !limitsOk t c (lay.map (·.1)) then refused s 0x23
      else
        let c := numberSegs t c lay segs
        let t : State := t.setRd { t.rd with chans := t.rd.chans ++ [c] }
        steps t (openActs t c)
    | _ => refused s (if (layouts t c (Config.relayPick d) true).isEmpty ∧ !(layouts t c (Config.relayPick d) false).isEmpty then 0x23 else 0x22)

/-! ### CHANNEL_CLOSE -/

/-- The four steps of R394. -/
def closeActs (s : State) (c : Chan) : List RAct :=
  (.demote c.src c.chan true :: (c.ofKind 0 ++ c.ofKind 2 ++ c.ofKind 1).map clearEntry) ++ [.stepDone,
   wrAll (Reg.HG_PL_CHAN c.src (recNo s c.src c.chan)) 0, .discard c.src c.chan true, .stepDone, .nextTurn, .nextTurn] ++
  c.others.map (fun h => wrAll (Reg.HG_PL_CHAN h (recNo s h c.chan)) 0) ++
  [.stepDone, wrField (Reg.HG_PL_STAGE c.src) 0 10 (s.getF (Reg.HG_PL_STAGE c.src) 0 10 - c.blocks), .forget c.chan, .stepDone]

def planClose (s : State) (_ : Nat) (ws : List Word) (rerun : Bool) : Planned :=
  match s.rd.chans.find? (fun x => decide (x.chan = cf ws 1 0 12)) with
  | some c => steps s (closeActs s c)
  | none => if rerun then steps s [] else refused s 0x24

/-! ### PACELINE_SET -/

/-- The timetable on record keeps a link cap. -/
def capHolds (s : State) (cap : Nat) : Bool :=
  let tt := timetable s []
  ((tt.map (·.out)).eraseDups).all (fun o => capOk cap (tt.filter (fun y => decide (y.out = o))))

def planPaceline (s : State) (_ : Nat) (ws : List Word) (rerun : Bool) : Planned :=
  let setK := cb ws 1 18
  let setCap := cb ws 1 26
  if setK ∧ !s.bd.everValid then refused s 0x20
  else if setK ∧ !s.rd.chans.isEmpty then refused s 0x24
  else if setCap ∧ !rerun ∧ !capHolds s (cf ws 1 19 7) then refused s 0x22
  else
    steps s ((if setCap then [.setCap (cf ws 1 19 7)] else []) ++
      (if setK then [wrField Reg.CK_TURN_CFG 0 19 (cf ws 1 0 18 + 2 ^ 18), .wait (.secondAfter s.bd.ownSec.toNat)] else []) ++ [.stepDone])

def execChannelOpen (s : State) : Out := .next (begin_ s 0x0201 planOpen)
def execChannelClose (s : State) : Out := .next (begin_ s 0x0202 planClose)
def execPacelineSet (s : State) : Out := .next (begin_ s 0x0203 planPaceline)

end Sys2Proof.Machine
end

