-- ==== Sys2Proof/Machine/RiderSettings.lean ====
section
/-! DEFINITION. Allotments (R396), decode slots (R398) and protection slots (R399): the plans of ALLOT_SET, DECODE_SET and
REGION_SET. -/

namespace Sys2Proof.Machine

/-! ### ALLOT_SET (Table 15-7) -/

/-- GRANTED for source `n` at target `t`. -/
def grantOf (s : State) (n t : Nat) : Nat := s.getF (Reg.HG_GRANT t n) 0 10

/-- All that target `t` grants. -/
def grantsAt (s : State) (t : Nat) : Nat := sumBy (fun n => grantOf s n t) (List.range 160)

/-- The write of GRANTED. -/
def grantAct (n t v : Nat) : RAct := wrField (Reg.HG_GRANT t n) 0 10 v

/-- A stamp at one headgate and its drain. -/
def stampDrain (n : Nat) : List RAct := stampActs n ++ [.wait (.drained [n] true)]

/-- The pair is raised or enabled: the target's side first (R148). -/
def raiseActs (n t v : Nat) : List RAct := [grantAct n t v, .stepDone, allotAct n t v true, .stepDone] ++ stampDrain n

/-- The pair is lowered or disabled: the source's side first. -/
def lowerActs (n t v : Nat) : List RAct :=
  [allotAct n t v (decide (0 < v)), .stepDone, .wait (.inUseAtMost t n v), .stepDone, grantAct n t v, .stepDone] ++ stampDrain n

/-- A lowering left unfinished is completed when the pair is named again. -/
def settleOwed (s : State) (n t : Nat) : List RAct × State :=
  (((s.rd.owed.filter (fun x => decide (x.1 = n) && decide (x.2.1 = t))).map (fun x => grantAct n t x.2.2)),
   s.setRd { s.rd with owed := s.rd.owed.filter (fun x => !(decide (x.1 = n) && decide (x.2.1 = t))) })

def planAllot (s : State) (_ : Nat) (ws : List Word) (_ : Bool) : Planned :=
  let n := cf ws 1 0 8
  let t := cf ws 1 8 8
  let v := cf ws 1 16 10
  let lower := decide (v < grantOf s n t) || decide (v = 0)
  if !lower ∧ storeSize s t < grantsAt s t - grantOf s n t + v then refused s 0x28
  else
    let (first, s) := settleOwed s n t
    steps s (first ++ (if lower then lowerActs n t v else raiseActs n t v) ++ [.stepDone])

/-! ### DECODE_SET (R141, R398) -/

/-- The writes of R141 at one headgate for the members named, step by step over all of them. -/
def decodeActs (n : Nat) (ms : List Nat) (valid ilv : Bool) (base size : Nat) : List RAct :=
  ms.map (fun t => wrBit (Reg.HG_DEC_SLOT_w0 n t) 63 false) ++
  ms.map (fun t => .wr (Reg.HG_DEC_SLOT_w0 n t) (BitVec.ofNat 64 (base + b2n ilv * 2 ^ 62)) 0x7FFFFFFFFFFFFFFF) ++
  ms.map (fun t => wrAll (Reg.HG_DEC_SLOT_w1 n t) (BitVec.ofNat 64 size)) ++
  ms.map (fun t => wrBit (Reg.HG_DEC_SLOT_w0 n t) 63 valid)

/-- Every named headgate in ascending order, with a stamp at each; then the drains. -/
def decodeAll (hs ms : List Nat) (valid ilv : Bool) (base size : Nat) : List RAct :=
  hs.flatMap (fun n => decodeActs n ms valid ilv base size ++ stampActs n ++ [.stepDone]) ++ [.wait (.drained hs true), .stepDone]

/-- The members a decode change writes: all 16 of the interleave group, or the one slot. -/
def decodeMembers (t : Nat) (ilv : Bool) : List Nat :=
  if ilv ∧ 100 ≤ t ∧ t < 116 then (List.range 16).map (· + 100) else [t]

/-- The window meets another valid slot of headgate `n`. -/
def overlaps (s : State) (n : Nat) (ms : List Nat) (ilv : Bool) (base size : Nat) : Bool :=
  (decSlots s n).any (fun d => !ms.contains d.slot && decide (base < d.base + d.size) && decide (d.base < base + size) &&
    !(ilv && d.ilv && decide (d.base = base) && decide (d.size = size)))

/-- A Reservoir port's window stands at its place over a base that is a multiple of 16 MB: that of port 0 where it decodes (R280,
R281, R398). -/
def portPlaced (s : State) (n t base : Nat) : Bool :=
  if 117 ≤ t ∧ t ≤ 124 then
    let p := (t - 117) * 0x200000
    decide (p ≤ base) && decide ((base - p) % 0x1000000 = 0) &&
    (decide (t = 117) || (match decSlot s n 117 with | some d => decide (d.base + p = base) | none => true))
  else true

/-- The window rules of R134, R253, R280 and R310 for the members at headgate `n`. -/
def windowOk (s : State) (n t : Nat) (ms : List Nat) (ilv : Bool) (base size : Nat) : Bool :=
  decide (base % 64 = 0) && decide (size % 64 = 0) && (!ilv || decide (size ≤ 2 ^ 35)) && portPlaced s n t base &&
  ms.all (fun u => let w := protWindow s u; decide (w.1 = w.2) || (decide (base ≤ w.1) && decide (w.2 ≤ base + size)))

def planDecode (s : State) (_ : Nat) (ws : List Word) (_ : Bool) : Planned :=
  let h := cf ws 1 0 8
  let t := cf ws 1 8 8
  let valid := cb ws 1 16
  let ilv := cb ws 1 17
  let base := cf ws 2 0 48
  let size := cf ws 3 0 48
  let hs := if h = 255 then List.range 160 else [h]
  let ms := decodeMembers t ilv
  if t = 116 ∨ (1 < ms.length ∧ !cb ws 1 18) then refused s 0x04
  else if valid ∧ !hs.all (fun n => windowOk s n t ms ilv base size) then refused s 0x31
  else if valid ∧ hs.any (fun n => overlaps s n ms ilv base size) then refused s 0x30
  else steps s (decodeAll hs ms valid ilv base size)

/-! ### REGION_SET (Table 11-2) -/

/-- The decode window of target `t`, of the interleave group at 100..116: as headgate 0 decodes it, or headgate 1 for target 0. -/
def decodeWindow (s : State) (t : Nat) : Option (Nat × Nat) :=
  let n := if t = 0 then 1 else 0
  let d := if 100 ≤ t ∧ t ≤ 116 then (decSlots s n).find? (fun d => d.ilv && decide (100 ≤ d.slot) && decide (d.slot < 116))
           else decSlot s n t
  d.map (fun d => (d.base, d.base + d.size))

/-- The parameters of Table 15-8 with the slot as it stands. -/
structure Region where
  t : Nat
  g : Nat
  b1 : Nat
  s1 : Nat
  b2 : Nat
  s2 : Nat
  r1 : Nat
  r2 : Nat
  moved : List Nat

def regionOf (s : State) (ws : List Word) : Region :=
  let t := cf ws 1 0 8
  let g := cf ws 1 15 6
  let w := protWindow s t
  let r := s.getF (Reg.HG_PROT_RIGHTS t g) 0 5
  { t := t, g := g, b1 := w.1, s1 := w.2 - w.1
    b2 := if cb ws 1 8 then cf ws 2 0 48 else w.1, s2 := if cb ws 1 8 then cf ws 3 0 48 else w.2 - w.1
    r1 := r, r2 := if cb ws 1 9 then cf ws 1 21 5 else r
    moved := if cb ws 1 10 then (List.range 160).filter (fun n => cb ws (5 + n / 64) (n % 64) && decide (s.getF (Reg.HG_PROT_GROUP t n) 0 6 ≠ g))
             else [] }

/-- The old window lies in the new one, or the new in the old. -/
def Region.grows (r : Region) : Bool := decide (r.s1 = 0) || (decide (r.b2 ≤ r.b1) && decide (r.b1 + r.s1 ≤ r.b2 + r.s2))
def Region.shrinks (r : Region) : Bool := decide (r.s2 = 0) || (decide (r.b1 ≤ r.b2) && decide (r.b2 + r.s2 ≤ r.b1 + r.s1))

/-- Sources in the group afterwards. -/
def Region.members (s : State) (r : Region) : List Nat :=
  (List.range 160).filter (fun n => r.moved.contains n || decide (s.getF (Reg.HG_PROT_GROUP r.t n) 0 6 = r.g))

/-- Sources that gain a first right and are not enabled yet. A run again takes every member that should be. -/
def Region.gains (s : State) (r : Region) (rerun : Bool) : List Nat :=
  (r.members s).filter (fun n => decide (r.r2 ≠ 0) && !pairEnabled s n r.t && (rerun || decide (rightsOf s r.t n = 0)))

/-- Sources that lose their last right and are enabled. -/
def Region.loses (s : State) (r : Region) (rerun : Bool) : List Nat :=
  (r.members s).filter (fun n => decide (r.r2 = 0) && pairEnabled s n r.t && (rerun || decide (rightsOf s r.t n ≠ 0)))

/-- The write where it changes anything. -/
def onChange (b : Bool) (as : List RAct) : List RAct := if b then as else []

/-- SECRET of the slot of `t`, published to the probes in PR_SECRET_MAP (R307): before the slot is marked, and after it is cleared. -/
def secretActs (t : Nat) (b : Bool) : List RAct :=
  let slot := wrBit (Reg.HG_PROT_CTRL t) 0 b
  let map := wrBit (Reg.PR_SECRET_MAP (t / 64)) (t % 64) b
  if b then [map, slot] else [slot, map]

/-- Steps 1 to 11 of Table 11-2; a step that changes nothing is skipped and counts as complete. -/
def protActs (s : State) (r : Region) (setSecret secret lock : Bool) : List RAct :=
  let m := max r.b1 r.b2
  let e := min (r.b1 + r.s1) (r.b2 + r.s2)
  let l := e - m
  let now := s.getB (Reg.HG_PROT_CTRL r.t) 0
  let b5 := if l = 0 then r.b2 else m
  let base (v : Nat) : RAct := wrAll (Reg.HG_PROT_BASE r.t) (BitVec.ofNat 64 v)
  let size (v : Nat) : RAct := wrAll (Reg.HG_PROT_SIZE r.t) (BitVec.ofNat 64 v)
  let right (v : Nat) : RAct := wrField (Reg.HG_PROT_RIGHTS r.t r.g) 0 5 v
  onChange (setSecret && secret && !now) (secretActs r.t true) ++ [.stepDone] ++
  onChange (decide (r.r1 &&& r.r2 ≠ r.r1)) [right (r.r1 &&& r.r2)] ++ [.stepDone] ++
  r.moved.map (fun n => wrField (Reg.HG_PROT_GROUP r.t n) 0 6 r.g) ++ [.stepDone] ++
  onChange (decide (r.s1 ≠ l)) [size l] ++ [.stepDone] ++
  onChange (decide (r.b1 ≠ b5)) [base b5] ++ [.stepDone] ++
  onChange (decide (b5 ≠ r.b2)) [base r.b2] ++ [.stepDone] ++
  onChange (decide (l ≠ r.s2)) [size r.s2] ++ [.stepDone] ++
  onChange (decide (r.r1 &&& r.r2 ≠ r.r2)) [right r.r2] ++ [.stepDone] ++
  onChange (setSecret && !secret && now) (secretActs r.t false) ++ [.stepDone] ++
  onChange lock [wrBit (Reg.HG_PROT_CTRL r.t) 1 true, .ownLock] ++ [.stepDone] ++
  [.resultReg 1 (Reg.HG_PROT_DRAIN r.t), .wait (.protZero r.t), .stepDone]

/-- The actions without their step marks, as one step. -/
def oneStep (as : List RAct) : List RAct := as.filter (fun a => match a with | .stepDone => false | _ => true)

/-- Step 12: pairs enabled with the floor of one and disabled, each in the order of Table 15-7. -/
def pairStep (t : Nat) (gains loses : List Nat) : List RAct :=
  gains.flatMap (fun n => oneStep (raiseActs n t 1)) ++ loses.flatMap (fun n => oneStep (lowerActs n t 0)) ++
  [.result 2 (withFields 0 [(0, 32, gains.length), (32, 32, loses.length)]), .stepDone]

/-- The command of mailbox `m` has set the LOCK of its slot in a step of its own. -/
def lockedItself (s : State) (m : Nat) : Bool := match (s.mbAt m).cur with | some c => c.prog.ownLock | none => false

/-- REGION_SET. A slot locked by anything but the command's own step 10 refuses it whole (R308). -/
def planRegion (s : State) (m : Nat) (ws : List Word) (rerun : Bool) : Planned :=
  let r := regionOf s ws
  let withDec := cb ws 1 14
  let hs := List.range 160
  let gains := r.gains s rerun
  let aligned := decide (r.b2 % 64 = 0) && decide (r.s2 % 64 = 0)
  let inside := withDec || r.s2 = 0 || !cb ws 1 8 ||
    (match decodeWindow s r.t with | some w => decide (w.1 ≤ r.b2) && decide (r.b2 + r.s2 ≤ w.2) | none => false)
  let movable := !(decide (100 ≤ r.t) && decide (r.t ≤ 116)) && (r.grows || r.shrinks) && hs.all (fun n => portPlaced s n r.t r.b2)
  if s.getB (Reg.HG_PROT_CTRL r.t) 1 ∧ !lockedItself s m then refused s 0x32
  else if !aligned ∨ !inside ∨ (withDec ∧ !movable) then refused s 0x31
  else if withDec ∧ hs.any (fun n => overlaps s n [r.t] false r.b2 r.s2) then refused s 0x30
  else if storeSize s r.t < grantsAt s r.t + sumBy (fun n => 1 - grantOf s n r.t) gains then refused s 0x28
  else
    let dec := if withDec then decodeAll hs [r.t] true false r.b2 r.s2 else []
    let prot := protActs s r (cb ws 1 12) (cb ws 1 11) (cb ws 1 13)
    steps s ((if r.grows then dec ++ prot else prot ++ dec) ++ pairStep r.t gains (r.loses s rerun))

def execAllotSet (s : State) : Out := .next (begin_ s 0x0301 planAllot)
def execDecodeSet (s : State) : Out := .next (begin_ s 0x0401 planDecode)
def execRegionSet (s : State) : Out := .next (begin_ s 0x0402 planRegion)

end Sys2Proof.Machine
end

