-- ==== Sys2Proof/Machine/RiderUnits.lean ====
section
/-! DEFINITION. Domains (R350, R354), levees (R327, R328, R330, R331), the lifecycle (R414) and images (R378): the plans of
DOMAIN_SLEEP, DOMAIN_WAKE, LEVEE_SET, LEVEE_CLEAR, LIFECYCLE_SEAL, LIFECYCLE_RETIRE and IMAGE_LOAD. -/

namespace Sys2Proof.Machine

/-- Every headgate. -/
def allHgs : List Nat := List.range 160

/-- Every headgate's stamp advanced, and every drain. -/
def stampAll : List RAct := allHgs.flatMap stampActs ++ [.wait (.drained allHgs true)]

/-! ### Domains -/

/-- Bit `d` of HG_DOM_CLOSE at every headgate in ascending order. -/
def closeBits (d : Nat) (b : Bool) : List RAct := allHgs.map (fun n => wrBit (Reg.HG_DOM_CLOSE n) d b)

/-- DOMAIN_SLEEP: closing, draining, quiesce, off; the state shows each step as it begins (R404). -/
def planSleep (s : State) (_ : Nat) (ws : List Word) (rerun : Bool) : Planned :=
  let d := cf ws 1 0 5
  if (!rerun && decide (domState s d ≠ 0)) || (domainHgs s d).isEmpty then refused s 0x40
  else
    steps s (.domState d 1 :: closeBits d true ++ [.stepDone, .domState d 2] ++ stampAll ++ [.wait (.idle d), .stepDone,
      .domState d 3, .quiesce d, .wait (.acked d), .stepDone, .domState d 4, .stepDone])

/-- DOMAIN_WAKE: waking, live, opening. -/
def planWake (s : State) (_ : Nat) (ws : List Word) (rerun : Bool) : Planned :=
  let d := cf ws 1 0 5
  if !rerun && decide (domState s d ≠ 4) && decide (domState s d ≠ 5) then refused s 0x40
  else
    steps s ([.domState d 5, .wakeDom d, .stepDone, .wait (.awake d (s.fclk + 16000 * s.getF (Reg.CK_DOM d) 18 10)),
      .expand (.notLive d), .stepDone] ++ closeBits d false ++ [.domState d 0, .stepDone])

/-! ### Levees -/

/-- Bit `d` of HG_DEAD_DEST at headgate `n`. -/
def remoteAct (d : Nat) (b : Bool) (n : Nat) : RAct := wrBit (Reg.HG_DEAD_DEST n (d / 64)) (d % 64) b

/-- Every headgate but `d`. -/
def othersOf (d : Nat) : List Nat := allHgs.filter (fun n => decide (n ≠ d))

/-- A target levee in its three steps (R407). -/
def targetLeveeActs (h : Nat) (iso : Bool) : List RAct :=
  (match agentOf h with | some a => deadCacheActs a | none => []) ++ [.stepDone, wrBit (Reg.HG_LEVEE h) 0 true] ++
  (if iso then [wrBit (Reg.HG_LEVEE h) 2 true] else []) ++ [.stepDone, .wait (.siphoned h), .stepDone]

def planLeveeSet (s : State) (_ : Nat) (ws : List Word) (rerun : Bool) : Planned :=
  let h := cf ws 1 0 8
  let iso := cb ws 1 9
  if cb ws 1 11 then steps s [wrBit (Reg.HG_LEVEE h) 1 (cb ws 1 10), .stepDone]
  else if cb ws 1 8 then
    if !rerun && (othersOf h).all (fun n => deadDest s n h) then refused s 0x48
    else steps s ((othersOf h).map (remoteAct h true) ++ [.stepDone])
  else if !rerun && s.getB (Reg.HG_LEVEE h) 0 && (!iso || s.getB (Reg.HG_LEVEE h) 2) then refused s 0x48
  else steps s (targetLeveeActs h iso)

/-- The agent's PORT_LIVE has fallen and risen since the levee; a headgate without an HAI has none (R330). -/
def cycledSince (s : State) (h : Nat) : Bool := !hasHai h || decide ((s.hgAt h).liveCycled = 2)

/-- The pair reset between `d` and `h` (R331 step 2). -/
def pairResetActs (d h : Nat) : List RAct :=
  [wrAll (Reg.HG_PAIR_RESET d) (withFields 0 [(0, 8, h), (10, 1, 1)]), .wait (.committed d h),
   wrAll (Reg.HG_PAIR_RESET h) (withFields 0 [(0, 8, d), (8, 1, 1)]),
   wrAll (Reg.HG_PAIR_RESET d) (withFields 0 [(0, 8, h), (8, 1, 1), (10, 1, 1)]),
   wrAll (Reg.HG_PAIR_RESET d) (withFields 0 [(0, 8, h)])]

/-- LEVEE_CLEAR. A target levee that still stands is lifted only under the conditions of R330, on a run again too; one that the
command's own step has lifted counts as lifted. -/
def planLeveeClear (s : State) (_ : Nat) (ws : List Word) (rerun : Bool) : Planned :=
  let h := cf ws 1 0 8
  if cb ws 1 8 then
    if !rerun && (othersOf h).all (fun n => !deadDest s n h) then refused s 0x48
    else
      steps s (((othersOf h).filter (fun n => !deadDest s n h)).map (remoteAct h true) ++ [.stepDone] ++
        (othersOf h).flatMap (pairResetActs h) ++ [.stepDone] ++ (othersOf h).map (remoteAct h false) ++ [.stepDone])
  else if s.getB (Reg.HG_LEVEE h) 0 && (s.getB (Reg.HG_LEVEE h) 3 || !cycledSince s h) then refused s 0x48
  else if !rerun && !s.getB (Reg.HG_LEVEE h) 0 then refused s 0x48
  else
    steps s ((match agentOf h with | some a => [.sweep a, .wait .swept] | none => []) ++
      [.stepDone, wrBit (Reg.HG_LEVEE h) 0 false, wrBit (Reg.HG_LEVEE h) 2 false, .stepDone])

/-! ### Lifecycle -/

def lifeState (s : State) : Nat := s.getF Reg.GL_LIFECYCLE 0 2

/-- LIFECYCLE_SEAL: the three steps of R444. -/
def planSeal (s : State) (_ : Nat) (ws : List Word) (rerun : Bool) : Planned :=
  let open_ := decide (lifeState s = 0) || (rerun && decide (lifeState s = 1))
  if !open_ || decide (cw ws 1 ≠ 0x4C414553) || s.getB Reg.GL_RIDER_STATUS 2 then refused s 0x60
  else steps s [.lcProg 1, .stepDone, .wait .fuseDone, .stepDone, .stepDone]

/-- LIFECYCLE_RETIRE: the five steps of R414. -/
def planRetire (s : State) (m : Nat) (ws : List Word) (rerun : Bool) : Planned :=
  if (decide (lifeState s = 2) && !rerun) || decide (cw ws 1 ≠ 0x455249544552) then refused s 0x60
  else
    steps s (allHgs.map (fun n => wrBit (Reg.HG_ADMIT n) 0 false) ++ [.stepDone] ++ stampAll ++
      [.wait .allDone, .stepDone, .zeroStores, .stepDone, .lcProg 2, .wait .fuseDone, .stepDone,
       .openPath (s.getF (Reg.MB_BIND m) 0 8), .stepDone])

/-! ### Images -/

/-- IMAGE_LOAD: copy, check, restart (R378). -/
def planImage (s : State) (_ : Nat) (ws : List Word) (_ : Bool) : Planned :=
  steps s [.copyImage (cw ws 1).toNat (cw ws 2).toNat, .stepDone, .checkImage (cb ws 3 0), .stepDone, .restart]

def execDomainSleep (s : State) : Out := .next (begin_ s 0x0601 planSleep)
def execDomainWake (s : State) : Out := .next (begin_ s 0x0602 planWake)
def execLeveeSet (s : State) : Out := .next (begin_ s 0x0701 planLeveeSet)
def execLeveeClear (s : State) : Out := .next (begin_ s 0x0702 planLeveeClear)
def execLifecycleSeal (s : State) : Out := .next (begin_ s 0x0A03 planSeal)
def execLifecycleRetire (s : State) : Out := .next (begin_ s 0x0A04 planRetire)
def execImageLoad (s : State) : Out := .next (begin_ s 0x0A02 planImage)

end Sys2Proof.Machine
end

