-- ==== Sys2Proof/Machine/RiderRoutes.lean ====
section
/-! DEFINITION. Routes and attachments: the derailleur (R324), links on trial (R325), and the plans of ROUTE_DETOUR, ROUTE_RESTORE,
ROUTER_SET and ATTACH_MOVE (R400 to R403). -/

namespace Sys2Proof.Machine

/-- The element a command names in word 1. -/
def elemOf (ws : List Word) : Nat :=
  let i := (nodeIdx (cf ws 1 0 8)).getD 0
  if cb ws 1 11 then 1000 + 8 * i + cf ws 1 8 3 else i

/-! ### The derailleur -/

/-- The fabric as the Rider would see it with the element avoided and every headgate on it moved to its other link. -/
def avoiding (s : State) (key : Nat) : State :=
  let hs := attachedTo s key
  let t : State := s.setRd { s.rd with inHand := s.rd.inHand ++ [key] }
  forEach hs (fun h t =>
    let l := 1 - linkInUse s h
    forEach allHgs (fun n u => u.setReg (Reg.HG_ATTACH_k n h) (attachWord h l)) (t.setF (Reg.HG_ATTACH h) 0 1 l)) t

/-- The code that refuses the derailleur on an element (R324); 0 for none: a headgate on it without a healthy other link, or some pair
with no route that avoids it. -/
def derailCode (s : State) (key : Nat) : Nat :=
  if (attachedTo s key).any (fun h => !healthyLink s h (1 - linkInUse s h)) then 0x38
  else
    let t := avoiding s key
    if allHgs.any (lacksRoute t (blocked t Avoid.none)) then 0x39 else 0

/-- Steps 1 to 4 of Table 12-3, with the replay notices of R185. Channels with an endpoint on the element are cleared in step 1 and
follow the move of that endpoint in step 2. -/
def derailActs (key : Nat) : List RAct :=
  [.inHand key true, .expand (.placeCut (some key)), .stepDone, .expand (.moveOff key), .stepDone, .expand (.routes true true), .stepDone]

/-- Step 6. -/
def railActs (key : Nat) : List RAct :=
  [.inHand key false, .expand (.routes true false), .expand (.moveBack key), .expand .placeBack]

/-- PORT_EN of the element's ports falls at both ends, and the element is out of service (R400). -/
def takeOutActs (key : Nat) : List RAct :=
  (elemPorts key).flatMap (fun x => (bothEnds x.1 x.2).map (enableAct false)) ++ [.outOf key true, .inHand key false]

def planDetour (s : State) (_ : Nat) (ws : List Word) (_ : Bool) : Planned :=
  let key := elemOf ws
  let code := derailCode s key
  if code ≠ 0 then refused s code else steps s (derailActs key ++ takeOutActs key ++ [.stepDone])

/-- The six steps of Table 12-3 with the settings in step 5. -/
def planRouter (s : State) (_ : Nat) (ws : List Word) (_ : Bool) : Planned :=
  let i := (nodeIdx (cf ws 1 0 8)).getD 0
  let code := derailCode s i
  if code ≠ 0 then refused s code
  else
    steps s (derailActs i ++ (if cb ws 1 15 then [wrField (Reg.RT_ARB_CFG i) 0 7 (cf ws 1 8 7)] else []) ++
      (if cb ws 2 32 then [wrField (Reg.RT_LINK_CFG i) 0 32 (cf ws 2 0 32)] else []) ++ [.stepDone] ++ railActs i ++ [.stepDone])

/-! ### Return to service (R325, R401) -/

/-- A router that is out is reset first: every port disabled at both ends, then GL_UNIT_RESET (R436). -/
def resetActs (i : Nat) : List RAct :=
  (elemPorts i).flatMap (fun x => (bothEnds x.1 x.2).map (enableAct false)) ++
  [.wait .unitIdle, wrAll Reg.GL_UNIT_RESET (withFields 0 [(0, 8, i), (9, 1, 1)]), .wait .unitIdle, .outOf i false, .healed i]

def planRestore (s : State) (_ : Nat) (ws : List Word) (_ : Bool) : Planned :=
  let key := elemOf ws
  let first := if key < 1000 ∧ !routerServes s key then resetActs key else []
  steps s (first ++ [.stepDone] ++ (portsToRestore s key).map (fun x => .expand (.tryLink (1000 + 8 * x.1 + x.2))) ++ [.stepDone] ++
    railActs key ++ [.stepDone])

/-! ### ATTACH_MOVE (R321) -/

def planMove (s : State) (_ : Nat) (ws : List Word) (rerun : Bool) : Planned :=
  let h := cf ws 1 0 8
  let l := b2n (cb ws 1 8)
  if linkInUse s h = l ∧ !rerun then refused s 0x04
  else if !healthyLink s h l then refused s 0x38
  else
    steps s [wrField (Reg.HG_ATTACH h) 0 1 l, .stepDone, .expand (.attach h true), .stepDone, .expand (.placeAt h), .stepDone]

def execRouteDetour (s : State) : Out := .next (begin_ s 0x0501 planDetour)
def execRouteRestore (s : State) : Out := .next (begin_ s 0x0502 planRestore)
def execRouterSet (s : State) : Out := .next (begin_ s 0x0503 planRouter)
def execAttachMove (s : State) : Out := .next (begin_ s 0x0504 planMove)

end Sys2Proof.Machine
end

