-- ==== Sys2Proof/Machine/RiderAlarms.lean ====
section
/-! DEFINITION. From alarm to action (R316 to R321, R326 to R328): what the Rider does with each record of its FIFO, the judgement at
the end of the collection window, and the steps of each recovery of Table 12-2. -/

namespace Sys2Proof.Machine

/-! ### The steps of each recovery -/

/-- Sources and types without repeats, each acknowledged (R430). -/
def ackActs (xs : List (Nat × Nat)) : List RAct :=
  (xs.eraseDups).map (fun x => .ack (BitVec.ofNat 8 x.1) (BitVec.ofNat 8 x.2) false)

/-- The alarms that name a link: one from each end. -/
def linkAlarmsOf (i p : Nat) : List (Nat × Nat) :=
  (bothEnds i p).map (fun e => match e with | .rt j _ => (0x10, j) | .hg h _ => (0x40, h))

/-- The alarms of the links of a router. -/
def routerAlarms (i : Nat) : List (Nat × Nat) :=
  (elemPorts i).flatMap (fun x => (linkAlarmsOf x.1 x.2).filter (fun a => decide (a ≠ (0x10, i))))

/-- Headgates moved by hardware off a router's ports, for the return (R324 step 6). -/
def movedActs (s : State) (key : Nat) : List RAct :=
  allHgs.flatMap (fun h =>
    let l := 1 - linkInUse s h
    if s.getB (Reg.HG_ATTACH h) 6 ∧ elemHas key (portKey h l) then [.movedOff h (portKey h l) true] else [])

/-- A link that failed within 10 ms of its trial stays disabled (R325). -/
def trialAgain (s : State) (i p : Nat) : List RAct :=
  let key := linkKey i p
  let x := attempts s key
  if x.2 ≠ 0 ∧ s.fclk < x.2 + 16000000 then (bothEnds i p).map (enableAct false) ++ [.trialFailed key] else []

/-- R319: the routes, the report, and then the channels (R221). -/
def repairRoutes (acks : List (Nat × Nat)) : List RAct :=
  [.expand .cutChans, .expand (.routes true false), .event 0x02 0] ++ ackActs acks ++ [.expand (.placeCut none)]

/-- The spare serves, or served, another slice (R278). -/
def spareTaken (s : State) (k : Nat) : Bool :=
  hsFailed s 16 || (s.getB (Reg.HS_CFG 16) 1 && decide (s.getF (Reg.HS_CFG 16) 2 4 ≠ k))

/-- Byte `k` of HG_ILV_MAP names the spare, at every headgate with its stamp. -/
def mapSpare (k : Nat) : List RAct :=
  allHgs.flatMap (fun n => wrField (Reg.HG_ILV_MAP n (k / 8)) (8 * (k % 8)) 8 116 :: stampActs n)

/-- R274, or the levee of R278: with a spare that fails while it serves a slice, the requests that slice's headgate still holds get
TARGET_DEAD as well. -/
def sliceActs (s : State) (k : Nat) : List RAct :=
  if k = 16 ∧ !s.getB (Reg.HS_CFG 16) 0 then ackActs [(0x81, 16)]
  else if k = 16 ∨ spareTaken s k then
    leveeActs (homeHg k) false ++
      (if k = 16 ∧ s.getB (Reg.HS_CFG 16) 1 then leveeActs (homeHg (s.getF (Reg.HS_CFG 16) 2 4)) false else []) ++
      [.event 0x02 0] ++ ackActs [(0x81, k)]
  else
    [.wait (.until_ ((s.hsAt k).failedAt.getD s.fclk + homeLimit s k)), .expand (.sliceQuiet k), .prepareSpare k,
     .expand (.sparePairs k), .handOver k] ++ mapSpare k ++ [.wait (.drained allHgs false), .endRecord, .event 0x06 0] ++
    ackActs [(0x81, k)]

/-- R321 after a hardware move; a declaration without a move needs no new map, and its channels go under R221. -/
def attachRepair (s : State) (h l : Nat) : List RAct :=
  let x := attachOf h l
  let acks := ackActs [(0x10, x.1), (0x40, h)]
  if linkInUse s h ≠ l ∧ s.getB (Reg.HG_ATTACH h) 6 then
    [.movedOff h (portKey h l) true, .expand .cutChans, .expand (.attach h false), .event 0x02 0] ++ acks ++ [.expand (.placeAt h)]
  else [.expand .cutChans, .event 0x02 0] ++ acks ++ [.expand (.placeCut none)]

/-- A headgate cut off or failed: its remote levee everywhere, and its own side isolated (R328, R329, Table 12-4). -/
def headgateActs (h : Nat) (typ : BitVec 8) : List RAct :=
  (othersOf h).map (remoteAct h true) ++ leveeActs h true ++ [.expand .cutChans, .event 0x02 0] ++
  ackActs (if typ = 0x10 then [(0x10, (attachOf h 0).1), (0x10, (attachOf h 1).1), (0x40, h)] else [(typ.toNat, h)]) ++
  [.expand (.placeCut none)]

/-- The steps of a recovery, from its first. -/
def recoveryActs (s : State) : RecKind → List RAct
  | .slice k => sliceActs s k
  | .router i => (elemPorts i).flatMap (fun x => trialAgain s x.1 x.2) ++ movedActs s i ++ repairRoutes (routerAlarms i)
  | .link i p => trialAgain s i p ++ repairRoutes (linkAlarmsOf i p)
  | .attach h l => trialAgain s (attachOf h l).1 (attachOf h l).2 ++ attachRepair s h l
  | .headgate h typ => headgateActs h typ
  | .target ns typ src => ns.flatMap (fun n => leveeActs n false) ++ [.event 0x02 0, .ack typ src false]
  | .pair n d => [remoteAct d true n, .event 0x02 0] ++ ackActs [(0x48, n)]
  | .collision out typ src =>
    let as := repairActs s out
    (if as.isEmpty then [.suspect out] else as) ++ [.event 0x02 0, .ack typ src false]
  | .view => repairRoutes []
  | .wake d =>
    [.wait (.awake d (s.fclk + 16000 * s.getF (Reg.CK_DOM d) 18 10)), .expand (.notLive d)] ++ closeBits d false ++ [.domState d 0]

/-- The order in which faults of one incident are handled (R318). -/
def RecKind.rank : RecKind → Nat
  | .slice _ => 0
  | .router _ => 1
  | .link _ _ => 2
  | .attach _ _ => 3
  | .headgate _ _ => 4
  | .target _ _ _ => 5
  | .pair _ _ => 6
  | .collision _ _ _ => 7
  | .view => 8
  | .wake _ => 9

/-- A recovery is queued behind those that come before it, once. -/
def queueRecovery (s : State) (k : RecKind) : State :=
  if s.rd.recoveries.any (fun r => decide (r.kind = k)) then s
  else
    let r : Recovery := { kind := k, prog := Prog.start (recoveryActs s k) }
    let before (x : Recovery) : Bool := decide (x.kind.rank ≤ k.rank)
    s.setRd { s.rd with
      recoveries := s.rd.recoveries.filter before ++ [r] ++ s.rd.recoveries.filter (fun x => !before x), disturbed := true }

/-! ### RIDER_ALARM_HANDLING (Table 12-2) -/

/-- The link a link-fault record names, by its router port. -/
def linkNamed (a : AlarmRec) : Nat × Nat :=
  if a.typ = 0x10 then (a.source.toNat, field a.detail 0 3) else attachOf a.source.toNat (field a.detail 0 1)

/-- The cause of a link-fault record. -/
def linkCause (a : AlarmRec) : Nat := if a.typ = 0x10 then field a.detail 3 4 else field a.detail 1 4

/-- A link or a router at its ends is out of service or in hand. -/
def linkAside (s : State) (i p : Nat) : Bool :=
  let aside (x : Nat) : Bool := s.rd.outOfService.contains x || s.rd.inHand.contains x
  aside i || aside (1000 + 8 * i + p) ||
  (match (LEnd.rt i p).far with | some (.rt j q) => aside j || aside (1000 + 8 * j + q) | _ => false)

/-- The fault of the link is on record. -/
def linkKnown (s : State) (i p : Nat) : Bool :=
  s.rd.failed.contains i || s.rd.faulty.contains (8 * i + p) ||
  (match (LEnd.rt i p).far with | some (.rt j q) => s.rd.failed.contains j || s.rd.faulty.contains (8 * j + q) | _ => false)

/-- A recovery that runs will acknowledge a record of the link. -/
def linkRunning (s : State) (i p : Nat) : Bool :=
  s.rd.recoveries.any (fun r => match r.kind with
    | .router j => (bothEnds i p).any (fun e => match e with | .rt k _ => decide (k = j) | .hg _ _ => false)
    | .link j q => (bothEnds i p).any (fun e => decide (e = .rt j q))
    | .attach h l => decide (attachOf h l = (i, p))
    | _ => false)

/-- The acknowledgement of one record. -/
def ackRecord (s : State) (a : AlarmRec) : State := sendToken s a.typ a.source false

/-- A link-fault: an expected fall of PORT_LIVE and a fault already handled are acknowledged; another is collected, and the first
opens the window of SILENCE (R316, R400). -/
def linkFault (s : State) (a : AlarmRec) : State :=
  let (i, p) := linkNamed a
  if linkCause a = 5 ∧ linkAside s i p then ackRecord s a
  else if linkKnown s i p then (if linkRunning s i p then s else ackRecord s a)
  else
    let s : State := s.setRd { s.rd with linkAlarms := s.rd.linkAlarms ++ [a] }
    if s.rd.window.isSome then s else s.setRd { s.rd with window := some (s.fclk + silenceOf s (.rt i p)) }

/-- The pair has a route: neither end's link in use is cut, and the mesh leads from one to the other. -/
def pairReachable (s : State) (n d : Nat) : Bool :=
  let x := attachOf n (linkInUse s n)
  let y := attachOf d (linkInUse s d)
  !portOut s Avoid.none x.1 x.2 && !portOut s Avoid.none y.1 y.2 && !unroutable (blocked s Avoid.none) x.1 y.1

/-- An end-to-end stall: decided by the route and the target's timer (Table 12-2). -/
def stallAlarm (s : State) (a : AlarmRec) : State :=
  let n := a.source.toNat
  let d := field a.detail 0 8
  if !pairReachable s n d then queueRecovery s (.pair n d)
  else if s.getB (Reg.HG_TGT_TMO d) 12 then queueRecovery s (.target [d] a.typ a.source)
  else ackRecord (s.setRd { s.rd with stallsIgnored := s.rd.stallsIgnored + 1 }) a

/-- The caches a home-timeout names, as headgates. -/
def namedCaches (a : AlarmRec) : List Nat := (agentsOf (BitVec.ofNat 16 (field a.detail 29 16))).map (fun x => 40 + x.toNat)

/-- The Rider's answer to a record. Types without a recovery wait for ALARM_ACK (R430). -/
def answerAlarm (s : State) (a : AlarmRec) : State :=
  let src := a.source.toNat
  match a.typ.toNat with
  | 0x10 | 0x40 => linkFault s a
  | 0x13 => queueRecovery s (.collision (8 * src + field a.detail 0 3) a.typ a.source)
  | 0x4D => queueRecovery s (.collision (1000 + src) a.typ a.source)
  | 0x41 | 0x53 => queueRecovery s (.headgate src a.typ)
  | 0x47 => queueRecovery s (.target [src] a.typ a.source)
  | 0x48 => stallAlarm s a
  | 0x80 => queueRecovery s (.target (namedCaches a) a.typ a.source)
  | 0x81 => queueRecovery s (.slice src)
  | _ => s

/-- The firmware handles alarms. -/
def firmwareWorks (s : State) : Bool := riderWorks s && decide (stage s = 9)

/-- RIDER_ALARM_HANDLING: the oldest record of the FIFO leaves it, is logged and answered. -/
def alarmHandling (s : State) : State :=
  match s.rd.fifo with
  | [] => s
  | a :: rest =>
    if firmwareWorks s then answerAlarm (logAlarm (s.setRd { s.rd with fifo := rest }) a) a else s

/-! ### The judgement (R316) -/

/-- The router port that a record declares from its far side. -/
def declaredPort (a : AlarmRec) : Option (Nat × Nat) :=
  let (i, p) := linkNamed a
  if a.typ = 0x40 then some (i, p) else match (LEnd.rt i p).far with | some (.rt j q) => some (j, q) | _ => none

/-- The router on the far side of a port has failed: the link is faulty already. -/
def farFailed (s : State) (i p : Nat) : Bool := match (LEnd.rt i p).far with | some (.rt j _) => s.rd.failed.contains j | _ => false

/-- Every enabled port of router `i` not already faulty has been declared from its far side, and there is one. -/
def judgedFailed (s : State) (decl : List (Nat × Nat)) (i : Nat) : Bool :=
  let ps := (elemPorts i).filter (fun x => s.enabled (.rt i x.2) && !linkOut s i x.2 && !farFailed s i x.2)
  !ps.isEmpty && ps.all (fun x => decl.contains x)

/-- A record of a link that no failed router explains. -/
def standsAlone (failed : List Nat) (a : AlarmRec) : Bool :=
  let (i, p) := linkNamed a
  (bothEnds i p).all (fun e => match e with | .rt j _ => !failed.contains j | .hg _ _ => true)

/-- The recovery of a declared link: of a mesh link from its lower router, of an attachment link from its headgate. -/
def linkRecovery (a : AlarmRec) : RecKind :=
  let (i, p) := linkNamed a
  match (LEnd.rt i p).far with
  | some (.hg h l) => .attach h l
  | some (.rt j q) => if j < i then .link j q else .link i p
  | none => .link i p

/-- The keys of the router ends of a link, as the Rider records faults. -/
def faultKeys (a : AlarmRec) : List Nat :=
  let (i, p) := linkNamed a
  (bothEnds i p).filterMap (fun e => match e with | .rt j q => some (8 * j + q) | .hg _ _ => none)

/-- The router end of headgate `h`'s link `l` has been declared faulty. -/
def routerEndFaulty (s : State) (h l : Nat) : Bool := s.faulty (.rt (attachOf h l).1 (attachOf h l).2)

/-- ALARM_COLLECTION_WINDOW_END: the routers that face declared links are judged, and the recoveries queued. A headgate whose two
links are both declared at the router ends is cut off (Table 12-1). -/
def windowEnd (s : State) : State :=
  match s.rd.window with
  | none => s
  | some t =>
    if !firmwareWorks s then s
    else
      let as := s.rd.linkAlarms
      let s : State := s.advanceTo t
      let s : State := s.setRd { s.rd with window := none, linkAlarms := [] }
      let decl := as.filterMap declaredPort
      let failed := ((decl.map (·.1)).eraseDups).filter (judgedFailed s decl)
      let links := as.filter (standsAlone failed)
      let s : State := s.setRd { s.rd with
        failed := (s.rd.failed ++ failed).eraseDups, faulty := (s.rd.faulty ++ links.flatMap faultKeys).eraseDups }
      let s := forEach failed (fun i t => queueRecovery (logEvent t 0x01 i) (.router i)) s
      let s := forEach links (fun a t => queueRecovery t (linkRecovery a)) s
      let cut := (links.filterMap (fun a => match linkRecovery a with | .attach h _ => some h | _ => none)).eraseDups
      forEach (cut.filter (fun h => routerEndFaulty s h 0 && routerEndFaulty s h 1)) (fun h t =>
        if t.rd.recoveries.any (fun r => match r.kind with | .headgate g _ => decide (g = h) | _ => false) then t
        else queueRecovery t (.headgate h 0x10)) s

def execAlarmCollectionWindowEnd (s : State) : Out := .next (windowEnd s)
def execRiderAlarmHandling (s : State) : Out := .next (alarmHandling s)

end Sys2Proof.Machine
end

