-- ==== Sys2Proof/Machine/RiderResume.lean ====
section
/-! DEFINITION. RIDER_COMMAND_RESUME: what the Rider goes on with (R325, R351, R374, R396), and the abandonment of a command. -/

namespace Sys2Proof.Machine

/-! ### Preconditions looked at again (R374) -/

/-- The code a command would be refused with as the fabric now stands, its own earlier steps counting as satisfied. -/
def stillCode (s : State) (m : Nat) (ws : List Word) : Nat :=
  match codeOf ws with
  | 0x0102 => (planParam s m ws true).code
  | 0x0201 => (planOpen s m ws true).code
  | 0x0203 => (planPaceline s m ws true).code
  | 0x0301 => if deadDest s (cf ws 1 0 8) (cf ws 1 8 8) then 0x04 else (planAllot s m ws true).code
  | 0x0401 => (planDecode s m ws true).code
  | 0x0402 => (planRegion s m ws true).code
  | 0x0501 => (planDetour s m ws true).code
  | 0x0503 => (planRouter s m ws true).code
  | 0x0504 => (planMove s m ws true).code
  | 0x0601 => (planSleep s m ws true).code
  | 0x0602 => (planWake s m ws true).code
  | 0x0603 => (planDomainSet s m ws true).code
  | 0x0702 => (planLeveeClear s m ws true).code
  | 0x0A01 => (planBind s m ws true).code
  | 0x0A03 => (planSeal s m ws true).code
  | 0x0A04 => (planRetire s m ws true).code
  | _ => 0

/-- The steps of a derailleur, which starts again from its first after a recovery (R325). -/
def derailAgain (s : State) (m : Nat) (ws : List Word) : Option (List RAct) :=
  match codeOf ws with
  | 0x0501 => some (planDetour s m ws true).prog.acts
  | 0x0503 => some (planRouter s m ws true).prog.acts
  | _ => none

/-! ### Abandonment -/

/-- What is done before an abandoned command is answered: a channel half open is closed up (R393), a lowering is owed (R396), a
router stays detoured (R402). -/
def abandonActs (s : State) (ws : List Word) (step : Nat) : List RAct :=
  match codeOf ws with
  | 0x0201 => [.expand (.closeUp (cf ws 1 0 12))]
  | 0x0301 =>
    let n := cf ws 1 0 8
    let t := cf ws 1 8 8
    if cf ws 1 16 10 < grantOf s n t ∧ 0 < step then [.owe n t (cf ws 1 16 10)] else []
  | 0x0501 => [.inHand (elemOf ws) false]
  | 0x0503 =>
    let i := (nodeIdx (cf ws 1 0 8)).getD 0
    if 4 ≤ step then takeOutActs i else [.outOf i true, .inHand i false]
  | _ => []

/-- The command of mailbox `m` ends with ABANDONED (R374). -/
def abandon (s : State) (m : Nat) (c : Running) : State :=
  driveCommand s m { c with prog := { c.prog with acts := abandonActs s c.words c.prog.step, compl := 0x05 } }

/-- The domain of a sleep in progress, with the reason that ends it (R351, R404): a wake request, or a timer that already reversed it. -/
def sleepEnds (s : State) (c : Running) : Option (Nat × Nat) :=
  if codeOf c.words ≠ 0x0601 ∨ !c.planned then none
  else
    let d := cf c.words 1 0 5
    if domState s d = 0 then some (d, 2)
    else if domState s d < 4 ∧ s.getB (Reg.CK_DOM d) 5 then some (d, 1) else none

/-- A sleep is abandoned: its reverse writes first, then the response with the reason in word 1. -/
def endSleep (s : State) (m : Nat) (c : Running) (d reason : Nat) : State :=
  let s := if reason = 1 then abandonSleep s d else s
  let p := ({ c.prog with acts := [], compl := 0x05 } : Prog).addResult 1 (BitVec.ofNat 64 reason)
  respond s m { c with prog := p }

/-! ### Going on -/

/-- A recovery can go on, or is done. A hardware wake waits for its agents: its limit comes where the Rider has nothing else to do. -/
def recoveryRuns (s : State) (r : Recovery) : Bool :=
  match r.prog.acts with
  | .wait c :: _ => condHolds s c || (r.isFault && c.timer.isSome)
  | _ => true

/-- The first recovery that can go on runs to its next wait; one with nothing left is over (R318). -/
def driveRecovery (s : State) (r : Recovery) : State :=
  let (p, t) := runActs runBound r.prog (timerEnds s r.prog)
  let upd (x : Recovery) : Option Recovery :=
    if x.kind ≠ r.kind then some x else if p.acts.isEmpty then none else some { x with prog := p }
  t.setRd { t.rd with recoveries := t.rd.recoveries.filterMap upd }

/-- The command at a step boundary goes on, where a recovery has run only after its preconditions are looked at again. -/
def resumeCommand (s : State) (m : Nat) (c : Running) : State :=
  if !s.rd.disturbed then driveCommand s m c
  else
    let s : State := s.setRd { s.rd with disturbed := false }
    if stillCode s m c.words ≠ 0 then abandon s m c
    else
      match derailAgain s m c.words with
      | some as => driveCommand s m { c with prog := { c.prog with acts := as, step := 0 } }
      | none => driveCommand s m c

/-- Grants left to be lowered are lowered. -/
def settleAll (s : State) : State :=
  let t : State := s.setRd { s.rd with owed := [] }
  forEach s.rd.owed (fun x u => regWrite u (Reg.HG_GRANT x.2.1 x.1) (BitVec.ofNat 64 x.2.2) 0x3FF) t

/-- The running command that changes settings, once it has been planned. -/
def activeRun (s : State) : Option (Nat × Running) :=
  s.rd.active.bind (fun m => ((s.mbAt m).cur.filter (·.planned)).map (fun c => (m, c)))

/-- A domain that the hardware wakes (R352), with no command and no part of the Rider's that goes on with it
(log entry 77). -/
def hardwareWake (s : State) : Option Nat :=
  let commanded (d : Nat) : Bool := match s.rd.active with
    | some m => (match (s.mbAt m).cur with | some c => decide (codeOf c.words = 0x0602) && decide (cf c.words 1 0 5 = d) | none => false)
    | none => false
  (List.range 32).find? (fun d => decide (domState s d = 5) && !commanded d &&
    !s.rd.recoveries.any (fun r => decide (r.kind = .wake d)))

/-- The Rider takes up a hardware wake: live, then opening (R354). -/
def takeWake (s : State) (d : Nat) : State :=
  s.setRd { s.rd with recoveries := s.rd.recoveries ++ [{ kind := .wake d, prog := Prog.start (recoveryActs s (.wake d)) }] }

/-- With no command: grants owed are lowered, or the limit of a hardware wake comes. -/
def resumeIdle (s : State) : State :=
  if !s.rd.owed.isEmpty then settleAll s
  else
    match s.rd.recoveries.find? (fun r => canRun s r.prog) with
    | some r => driveRecovery s r
    | none => s

/-- Without a sleep to end: a command within a step that can go on; a recovery; a command at a boundary; what is left. -/
def resumeWork (s : State) : State :=
  let s := match hardwareWake s with | some d => takeWake s d | none => s
  let run := activeRun s
  let mid := run.filter (fun x => !x.2.prog.atStep && canRun s x.2.prog)
  match mid with
  | some (m, c) => driveCommand s m c
  | none =>
    match s.rd.recoveries.find? (recoveryRuns s) with
    | some r => driveRecovery s r
    | none =>
      if recovers s then s
      else
        match run with
        | some (m, c) => if c.prog.atStep then resumeCommand s m c else s
        | none => resumeIdle s

/-- RIDER_COMMAND_RESUME. -/
def riderResume (s : State) : State :=
  if !riderWorks s then s
  else
    match (activeRun s).bind (fun x => (sleepEnds s x.2).map (fun y => (x, y))) with
    | some ((m, c), (d, reason)) => endSleep s m c d reason
    | none => resumeWork s

def execRiderCommandResume (s : State) : Out := .next (riderResume s)

end Sys2Proof.Machine
end

