-- ==== Sys2Proof/Machine/RiderStart.lean ====
section
/-! DEFINITION. RIDER_RESTART (R333, R383, R384): the ROM's check of the image, the opening of the fabric (R441), and the view, the
recoveries and the commands the firmware takes up again. -/

namespace Sys2Proof.Machine

/-! ### The opening (R441) -/

/-- The step of R441 a write of the image's configuration belongs to, by its register; none for a register no step names. -/
def openingStep (off : Nat) : Option Nat :=
  match fcsLocate off with
  | (.clock, _, _) => some (if off = Reg.CK_TURN_CFG then 1 else 6)
  | (.slice, _, _) => some 2
  | (.probe, _, _) => some 6
  | (.mailbox, _, lo) => if lo = 0x90 then some 7 else none
  | (.headgate, _, lo) =>
    if lo = 0x18 then some 2
    else if (0xE80 ≤ lo ∧ lo < 0xE90) ∨ (0x1000 ≤ lo ∧ lo < 0x1A00) then some 3
    else if 0x2000 ≤ lo ∧ lo < 0x3000 then some 4
    else if 0x200 ≤ lo ∧ lo < 0xE00 then some 5
    else none
  | _ => none

/-- The configuration's writes of a step, in ascending order of their registers' blocks; bindings of mailboxes 0 and 1 last. -/
def writesOf (ws : List (Nat × Word)) (k : Nat) : List (Nat × Word) :=
  let own := ws.filter (fun x => decide (openingStep x.1 = some k))
  let last (x : Nat × Word) : Bool := decide (k = 7) && decide ((fcsLocate x.1).2.1 < 2)
  let in_ (i : Nat) : List (Nat × Word) := own.filter (fun x => decide ((fcsLocate x.1).2.1 = i) && !last x)
  (List.range 160).flatMap in_ ++ own.filter last

/-- The writes of a step carried out. -/
def writeStep (ws : List (Nat × Word)) (k : Nat) (s : State) : State :=
  forEach (writesOf ws k) (fun x t => regWrite t x.1 x.2 0xFFFFFFFFFFFFFFFF) s

/-- Step 1: ENABLE follows the time input. -/
def openTurns (ws : List (Nat × Word)) (s : State) : State :=
  let s := writeStep ws 1 s
  regWrite s Reg.CK_TURN_CFG (BitVec.ofNat 64 (b2n s.bd.time.valid * 2 ^ 18)) 0x40000

/-- The slice whose lines the spare takes at opening: the first failed active one, where the spare itself stands (Table 17-3). -/
def spareAtOpening (s : State) : Option Nat :=
  if hsFailed s 16 then none else (List.range 16).find? (hsFailed s)

/-- Step 2: the slices, the pools of 448 blocks (R262), and the failed slices; a second one is leveed (R278). -/
def openSlices (ws : List (Nat × Word)) (s : State) : State :=
  let s := forEach (List.range 17) (fun k t => t.setF (Reg.HG_RSP_POOL (homeHg k)) 0 10 448) (writeStep ws 2 s)
  let s := match spareAtOpening s with
    | some k => s.setReg (Reg.HS_CFG 16) (withFields 0 [(0, 1, 1), (1, 1, 1), (2, 4, k)])
    | none => s
  forEach ((List.range 16).filter (fun k => hsFailed s k && decide (some k ≠ spareAtOpening s)))
    (fun k t => regWrite t (Reg.HG_LEVEE (homeHg k)) 1 1) s

/-- The windows of Table 1-6 at headgate `n` (R24), ascending. -/
def openWindows (n : Nat) (s : State) : State :=
  forEach allHgs (fun t u => match defaultWindow t with
    | some (base, size) =>
      let ilv := b2n (decide (100 ≤ t) && decide (t < 116))
      regWrite (regWrite u (Reg.HG_DEC_SLOT_w1 n t) (BitVec.ofNat 64 size) 0xFFFFFFFFFFFFFFFF)
        (Reg.HG_DEC_SLOT_w0 n t) (BitVec.ofNat 64 (base + ilv * 2 ^ 62 + 2 ^ 63)) 0xFFFFFFFFFFFFFFFF
    | none => u) s

/-- Memory-class headgates (R142). -/
def memoryClass (t : Nat) : Bool :=
  (decide (56 ≤ t) && decide (t ≤ 59)) || (decide (76 ≤ t) && decide (t ≤ 79)) || (decide (96 ≤ t) && decide (t ≤ 116)) ||
  (decide (117 ≤ t) && decide (t ≤ 124))

/-- CLASS and LOCK_CAP of every headgate (R142, R290). No step of R441 names them: they are written before decode (DESIGN CHOICE, log
entry 12). -/
def openClasses (s : State) : State :=
  forEach allHgs (fun t u => regWrite u (Reg.HG_CFG t)
    (withFields 0 [(0, 1, b2n (memoryClass t)), (1, 1, b2n (decide (117 ≤ t) && decide (t ≤ 124)))]) 0x3) s

/-- The failed slice's byte of every map names the spare. -/
def openMaps (s : State) : State :=
  match spareAtOpening s with
  | some k => forEach allHgs (fun n t => t.setF (Reg.HG_ILV_MAP n (k / 8)) (8 * (k % 8)) 8 116) s
  | none => s

/-- Step 3: the image's decode writes, the windows of Table 1-6, and the maps of a failed slice. -/
def openDecode (ws : List (Nat × Word)) (s : State) : State :=
  openMaps (forEach allHgs openWindows (writeStep ws 3 (openClasses s)))

/-- Step 5 at target `t`: pairs of R143 by the rights written, in ascending source order while entries are left; the rest are named in
an event. -/
def openPairs (t : Nat) (s : State) : State :=
  let wants := allHgs.filter (fun n => decide (rightsOf s t n ≠ 0) && !pairEnabled s n t)
  let room := storeSize s t - grantsAt s t
  let s := forEach (wants.take room) (fun n u =>
    regWrite (u.setF (Reg.HG_GRANT t n) 0 10 1) (Reg.HG_ALLOT n t) (withFields 0 [(0, 10, 1), (36, 1, 1)]) (withFields 0 [(0, 10, 0x3FF), (36, 1, 1)])) s
  let left := wants.length - room
  if left = 0 then s else logEvent s 0x09 (t + 2 ^ 8 * left)

/-- Step 8: admission at every other headgate; one that failed self-test stays closed behind its remote levee (Table 17-3). -/
def openAdmission (s : State) : State :=
  let bad := failedHgs s.bd.testFails
  let s := forEach bad (fun h t => forEach (othersOf h) (fun n u => regWrite u (Reg.HG_DEAD_DEST n (h / 64))
    (BitVec.ofNat 64 (2 ^ (h % 64))) (BitVec.ofNat 64 (2 ^ (h % 64)))) t) s
  forEach (allHgs.filter (fun n => !bad.contains n)) (fun n t => t.setB (Reg.HG_ADMIT n) 0 true) s

/-- Links that have used their three attempts stay out until cold reset (R325): disabled at both ends, and on record. -/
def keepOut (s : State) : State :=
  forEach ((s.rd.trials.filter (fun x => decide (3 ≤ x.2.1))).map (·.1)) (fun key t =>
    let t := forEach (bothEnds ((key - 1000) / 8) ((key - 1000) % 8)) (fun e u =>
      match e with
      | .rt i p => regWrite u (Reg.RT_CTRL i) 0 (BitVec.ofNat 64 (2 ^ p))
      | .hg n l => regWrite u (Reg.HG_ATTACH n) 0 (BitVec.ofNat 64 (2 ^ (8 + l)))) t
    t.setRd (setOutOf t.rd key true)) s

/-- The eight steps; the headgate failures' levees stand before admission. -/
def openFabric (s : State) (img : List Byte) : State :=
  let ws := Config.imageWrites (BitVec.ofNat 256 (imgDigest img))
  let s := openDecode ws (openSlices ws (openTurns ws (keepOut (setStage s 8))))
  let s := forEach allHgs openPairs (writeStep ws 5 (writeStep ws 4 s))
  setStage (riderEvent (openAdmission (writeStep ws 7 (writeStep ws 6 s)))) 9

/-! ### The view rebuilt (R333) -/

/-- Router ports declared faulty at either end, as the registers show them, but for elements out of service. -/
def faultsSeen (s : State) : List (Nat × Nat) :=
  (List.range 100).flatMap (fun i => (elemPorts i).filter (fun x =>
    !linkAside s x.1 x.2 && (bothEnds x.1 x.2).any s.faulty))

/-- A router all of whose enabled ports are declared faulty from their far sides. -/
def failedSeen (s : State) (i : Nat) : Bool :=
  let ps := (elemPorts i).filter (fun x => s.enabled (.rt i x.2) && !linkAside s x.1 x.2 && !farFailed s i x.2)
  !ps.isEmpty && ps.all (fun x => match (LEnd.rt i x.2).far with | some f => s.faulty f | none => false)

/-- The recovery of a link with a fault. -/
def linkKind (x : Nat × Nat) : Option RecKind :=
  match (LEnd.rt x.1 x.2).far with
  | some (.hg h l) => some (.attach h l)
  | some (.rt j _) => if x.1 < j then some (.link x.1 x.2) else none
  | none => none

/-- A failed slice whose lines some headgate does not yet send to the spare, or whose hand-over has not ended. -/
def sliceOpen (s : State) (k : Nat) : Bool :=
  hsFailed s k && !s.getB (Reg.HG_LEVEE (homeHg k)) 0 &&
  (decide (k = 16) || !takenOver s k || s.getB (Reg.HS_STATUS 16) 1 ||
   allHgs.any (fun n => decide (s.getF (Reg.HG_ILV_MAP n (k / 8)) (8 * (k % 8)) 8 ≠ 116)))

/-- Waypoint entries stand though nothing is avoided, or a channel's entries do not stand as they are on record. -/
def viewOff (s : State) : Bool :=
  (s.rd.failed.isEmpty && s.rd.faulty.isEmpty && s.rd.outOfService.isEmpty && s.rd.inHand.isEmpty &&
    allHgs.any (fun n => (List.range 16).any (fun k => s.getB (Reg.HG_WAYPT n k) 63))) ||
  s.rd.chans.any (fun c => needsPlace s c && !c.unreachable)

/-- Headgate `h` has both links declared faulty, at its own end or both at their router ends (Table 12-1). -/
def cutOff (s : State) (h : Nat) : Bool :=
  (s.faulty (.hg h 0) && s.faulty (.hg h 1)) || (routerEndFaulty s h 0 && routerEndFaulty s h 1)

/-- Every fault found, as recoveries. -/
def foundKinds (s : State) : List RecKind :=
  let failed := (List.range 100).filter (failedSeen s)
  let links := (faultsSeen s).filter (fun x => (bothEnds x.1 x.2).all (fun e => match e with | .rt j _ => !failed.contains j | .hg _ _ => true))
  ((List.range 17).filter (sliceOpen s)).map RecKind.slice ++ failed.map RecKind.router ++ links.filterMap linkKind ++
  (allHgs.filter (cutOff s)).map (fun h => RecKind.headgate h 0x41)

/-- The recoveries queued before the restart, and one for each fault found, all from their first step; routes and channels that do not
stand as they should are repaired last. HG_DEAD_DEST, HG_LEVEE and the reservation entries are read where a step needs them: the
Rider keeps no copy of the first two. -/
def rebuild (s : State) : State :=
  let old := (faultsRun s).map (·.kind)
  let s : State := s.setRd { s.rd with
    recoveries := [], failed := (List.range 100).filter (failedSeen s)
    faulty := ((faultsSeen s).map (fun x => 8 * x.1 + x.2)).eraseDups }
  let s := forEach (old ++ foundKinds s) (fun k t => queueRecovery t k) s
  if viewOff s then queueRecovery s .view else s

/-! ### Commands taken up again (R380, R384) -/

/-- The command of a mailbox that ran is to be run again from its first step; whether its steps had begun stays known. -/
def runAgain (m : Nat) (s : State) : State :=
  s.updMb m (fun b => { b with cur := b.cur.map (fun c =>
    { c with planned := false, rerun := true
             prog := { Prog.start [] with ran := c.planned || c.prog.ran, ownLock := c.prog.ownLock } }) })

/-- The IMAGE_LOAD that started the image is answered with DONE, RERUN clear. -/
def answerLoad (s : State) : State :=
  match s.rd.active with
  | none => s
  | some m =>
    match (s.mbAt m).cur with
    | none => s
    | some c => respond s m { c with prog := { c.prog with acts := [], step := 3 } }

/-! ### The restart -/

/-- The ROM's check of the image to be run: the body against DIGEST, and the signature of the header unless the image was accepted
unsigned (R379, R383). -/
def startOk (s : State) (img : List Byte) (unsigned : Bool) : Bool :=
  digestOk img && ((unsigned && decide (s.getF Reg.GL_LIFECYCLE 0 2 = 0)) || signatureOk img)

/-- The firmware starts: the header's values, the opening where it is the first start, the view, the event, the commands. -/
def startFirmware (s : State) (img : List Byte) (unsigned load : Bool) : State :=
  let s : State := s.setRd { s.rd with
    image := img, loadPending := false, restarting := false, wdogAt := s.fclk, release := BitVec.ofNat 16 (imgVersion img)
    svn := BitVec.ofNat 16 (imgVersion img / 2 ^ 16) }
  let s := (s.setB Reg.GL_RIDER_STATUS 2 unsigned).setF Reg.GL_RIDER_STATUS 6 2 (imgKey img)
  let s := if stage s = 9 then s else openFabric s img
  let s := rebuild (logEvent s 0x05 (s.getF Reg.GL_RIDER_STATUS 3 3))
  serveAgain (forRange 32 runAgain (if load then answerLoad s else s))

/-- The ROM finds nothing it may start: before the first image of a start it waits for IMAGE_LOAD (R442); else it halts (R383). -/
def noStart (s : State) (any : Bool) : State :=
  if stage s = 9 ∨ (any ∧ (s.rd.loadPending ∨ !s.getB Reg.GL_BOOT 7)) then haltRider (s.setF Reg.GL_RIDER_STATUS 3 3 5)
  else forRange 32 runAgain ((setStage s 6).setRd { s.rd with restarting := false, loadPending := false })

/-- RIDER_RESTART: the restart in progress ends. -/
def restartDone (s : State) : State :=
  if !s.rd.restarting ∨ riderHalted s ∨ s.rd.debugHalt ∨ underReset s then s
  else
    let load := s.rd.loadPending
    let img := if load then s.rd.loadArea else s.rd.image
    let unsigned := if load then s.rd.unsigned else s.getB Reg.GL_RIDER_STATUS 2
    if !img.isEmpty && startOk s img unsigned then startFirmware s img unsigned load else noStart s (!img.isEmpty)

def execRiderRestart (s : State) : Out := .next (restartDone s)

end Sys2Proof.Machine
end

