-- ==== Sys2Proof/Machine/Tap.lean ====
section
/-! DEFINITION. The test access port (R448, R449). -/

namespace Sys2Proof.Machine

/-- The instruction acts in the state the fabric is in (Table 17-5); before the fuses are sampled only what every state allows. -/
def tapActs (s : State) (code : BitVec 8) : Bool :=
  decide (code = 0x01) || decide (code = 0x10) ||
  ((decide (code = 0x20) || decide (code = 0x30) || decide (code = 0x40) || decide (code = 0x41)) && decide (lifeState s = 0) &&
   !s.bd.inColdReset)

/-- The instruction in force and the data register as captured. -/
def tapShows (s : State) (code : BitVec 8) (dr : List Bool) : State := s.setTap { s.tap with ir := code, dr := dr }

/-- The bits of a number, lowest first. -/
def lowBits (n v : Nat) : List Bool := (List.range n).map (Nat.testBit v)

/-- An OPEN-only instruction: its effect, or BYPASS where it is barred. -/
def tapOpen (s : State) (code : BitVec 8) (f : State → State) : State :=
  if tapActs s code then f s else tapShows s code [false]

def tapIdcode (s : State) : State := tapShows s 0x01 (lowBits 32 0x210109CB)

/-- The five registers of STATUS; in RETIRED the last two read zero. -/
def statusWords (s : State) : List Word :=
  [Reg.GL_IDENT, Reg.GL_LIFECYCLE, Reg.GL_BOOT].map (regRead s) ++
  (if lifeState s = 2 then [0, 0] else [Reg.GL_RIDER_STATUS, Reg.CK_STATUS].map (regRead s))

def tapStatus (s : State) : State := tapShows s 0x10 ((statusWords s).flatMap (fun w => lowBits 64 w.toNat))

/-- The result of an access, as the next capture returns it: DONE, REFUSED and the data in the register as updated. -/
def regaccResult (dr : BitVec 96) (refused : Bool) (data : Word) : BitVec 96 :=
  BitVec.ofNat 96 (dr.toNat % 2 ^ 25 + 2 ^ 25 + b2n refused * 2 ^ 26 + data.toNat * 2 ^ 32)

/-- REGACC: the last result is captured, then the update sends one access as the Rider. An offset that is no multiple of 8 is
refused (log entry 30). -/
def regacc (s : State) (dr : BitVec 96) : State :=
  let s := tapShows s 0x20 (lowBits 96 s.tap.regacc.toNat)
  let off := dr.toNat % 2 ^ 24
  let data := BitVec.ofNat 64 (dr.toNat / 2 ^ 32)
  let done (s : State) (refused : Bool) (w : Word) : State := s.setTap { s.tap with regacc := regaccResult dr refused w }
  if off % 8 ≠ 0 then done s true data
  else if Nat.testBit dr.toNat 24 then done (riderWrite s off data) false data
  else
    let t := readLatch s off
    done t false (regRead t off)

/-- Bytes of the Rider's SRAM (R362). -/
def sramSize : Nat := 0x180000

/-- A word of the Rider's SRAM; what it holds at reset is free (log entry 14). -/
def sramWord (s : State) (a : Nat) : Word := if a < sramSize then Tab.get s.rd.sram (Config.riderCoreReg a) a else 0

/-- Core registers are kept beyond every offset of the SRAM. -/
def coreKey (r : BitVec 8) : Nat := 0x1000000 + r.toNat

/-- The core registers after a step: the manual does not give the cores' instructions (log entry 14). -/
def steppedRegs (d : Nat) : Tab Word := (List.range 256).map (fun r => (r, Config.riderCoreReg (0x1000000 * (d + 2) + r)))

/-- RIDER_DBG: the cores halted, stepped and resumed; SRAM and core registers (R449). Halted by debug, the watchdog's count stands. -/
def riderDbg (s : State) (op : DbgOp) : State :=
  let s := tapShows s 0x30 []
  let r := s.rd
  match op with
  | .halt => if r.debugHalt then s else s.setRd { r with debugHalt := true, wdogAt := s.fclk - r.wdogAt }
  | .resume => if r.debugHalt then s.setRd { r with debugHalt := false, wdogAt := s.fclk - r.wdogAt } else s
  | .stepCore =>
    if r.debugHalt then
      let (d, s) := s.draw
      s.setRd { s.rd with coreRegs := steppedRegs d }
    else s
  | .readSram a => tapShows s 0x30 (lowBits 64 (sramWord s a).toNat)
  | .writeSram a w => if a < sramSize then s.setRd { r with sram := Tab.set r.sram a w } else s
  | .readReg x => tapShows s 0x30 (lowBits 64 (Tab.get r.coreRegs (Config.riderCoreReg (coreKey x)) x.toNat).toNat)
  | .writeReg x w => s.setRd { r with coreRegs := Tab.set r.coreRegs x.toNat w }

/-- BYPASS, for its own code and every code that does not act. -/
def tapBypass (s : State) (code : BitVec 8) (tdi : Bool) : State := if tapActs s code then s else tapShows s code [tdi]

def execTapIdcode (s : State) : Out := .next (tapIdcode s)
def execTapStatus (s : State) : Out := .next (tapStatus s)
def execTapRegacc (dr : BitVec 96) (s : State) : Out := .next (tapOpen s 0x20 (fun s => regacc s dr))
def execTapRiderDbg (op : DbgOp) (s : State) : Out := .next (tapOpen s 0x30 (fun s => riderDbg s op))
def execTapTestEntry (s : State) : Out := .next (tapOpen s 0x40 (fun s => coldReset (tapShows s 0x40 []) .testEntry))
def execTapWarm (s : State) : Out := .next (tapOpen s 0x41 (fun s => warmReset (tapShows s 0x41 []) 5))
def execTapBypass (code : BitVec 8) (tdi : Bool) (s : State) : Out := .next (tapBypass s code tdi)

end Sys2Proof.Machine
end

