-- ==== Sys2Proof/Machine/Dispatch.lean ====
section
/-! DEFINITION. The dispatch: one arm for each row of the opcode table. -/

namespace Sys2Proof.Machine

/-- The effect of a command on everything but the queue. -/
def exec (i : Instr) (s : State) : Host.Outcome State Fault Refusal :=
  match i with
  | .reqTransfer n r => Sys2Proof.Machine.execReqTransfer n r s
  | .wdataBeat n b => Sys2Proof.Machine.execWdataBeat n b s
  | .wdataAbort n => Sys2Proof.Machine.execWdataAbort n s
  | .acceptance n => Sys2Proof.Machine.execAcceptance n s
  | .weirRefill n => Sys2Proof.Machine.execWeirRefill n s
  | .partInjection n k err => Sys2Proof.Machine.execPartInjection n k err s
  | .fenceComplete n c => Sys2Proof.Machine.execFenceComplete n c s
  | .rspTransfer n k => Sys2Proof.Machine.execRspTransfer n k s
  | .msginTransfer n => Sys2Proof.Machine.execMsginTransfer n s
  | .treqPresent n => Sys2Proof.Machine.execTreqPresent n s
  | .twdataTransfer n => Sys2Proof.Machine.execTwdataTransfer n s
  | .trspReceived n id outcome beats => Sys2Proof.Machine.execTrspReceived n id outcome beats s
  | .snpTransfer n => Sys2Proof.Machine.execSnpTransfer n s
  | .snprspItem n op txn toReq state data last => Sys2Proof.Machine.execSnprspItem n op txn toReq state data last s
  | .cack n c tag => Sys2Proof.Machine.execCack n c tag s
  | .agentPortLiveFall n => Sys2Proof.Machine.execAgentPortLiveFall n s
  | .agentPortLiveRise n => Sys2Proof.Machine.execAgentPortLiveRise n s
  | .siphonAbsorb n k => Sys2Proof.Machine.execSiphonAbsorb n k s
  | .pwrAckRise n => Sys2Proof.Machine.execPwrAckRise n s
  | .pwrAckTimeout d => Sys2Proof.Machine.execPwrAckTimeout d s
  | .aclkEnChange n level => Sys2Proof.Machine.execAclkEnChange n level s
  | .wakeLimitExpiry n => Sys2Proof.Machine.execWakeLimitExpiry n s
  | .flitArrival r damage err => Sys2Proof.Machine.execFlitArrival r damage err s
  | .outputArbitration rt o => Sys2Proof.Machine.execOutputArbitration rt o s
  | .creditReturn r damage => Sys2Proof.Machine.execCreditReturn r damage s
  | .heartbeatTimer r => Sys2Proof.Machine.execHeartbeatTimer r s
  | .heartbeatReceived r damage => Sys2Proof.Machine.execHeartbeatReceived r damage s
  | .linkSilenceTimeout r => Sys2Proof.Machine.execLinkSilenceTimeout r s
  | .linkPortLiveFall r => Sys2Proof.Machine.execLinkPortLiveFall r s
  | .packetReceived n err => Sys2Proof.Machine.execPacketReceived n err s
  | .heldPacketCommit n src => Sys2Proof.Machine.execHeldPacketCommit n src s
  | .ecmtDelayTimeout n src => Sys2Proof.Machine.execEcmtDelayTimeout n src s
  | .ecmtReceived n => Sys2Proof.Machine.execEcmtReceived n s
  | .enakReceived n => Sys2Proof.Machine.execEnakReceived n s
  | .credReceived n => Sys2Proof.Machine.execCredReceived n s
  | .credDelayTimeout t src => Sys2Proof.Machine.execCredDelayTimeout t src s
  | .credKeepaliveTimeout t src => Sys2Proof.Machine.execCredKeepaliveTimeout t src s
  | .commitTimeout n d => Sys2Proof.Machine.execCommitTimeout n d s
  | .replayPass n d => Sys2Proof.Machine.execReplayPass n d s
  | .replayPacketInjection n d err => Sys2Proof.Machine.execReplayPacketInjection n d err s
  | .epochAdvance n => Sys2Proof.Machine.execEpochAdvance n s
  | .epochDrainComplete n => Sys2Proof.Machine.execEpochDrainComplete n s
  | .replayCmdGo n dest all => Sys2Proof.Machine.execReplayCmdGo n dest all s
  | .turnPulseIssue sec ns => Sys2Proof.Machine.execTurnPulseIssue sec ns s
  | .timeValidChange valid sec ns => Sys2Proof.Machine.execTimeValidChange valid sec ns s
  | .turnPulseArrival badParity => Sys2Proof.Machine.execTurnPulseArrival badParity s
  | .turnMissTimeout n => Sys2Proof.Machine.execTurnMissTimeout n s
  | .entryFire n e => Sys2Proof.Machine.execEntryFire n e s
  | .wheelEnd n => Sys2Proof.Machine.execWheelEnd n s
  | .gdataArrival n => Sys2Proof.Machine.execGdataArrival n s
  | .channelCommitReceived n => Sys2Proof.Machine.execChannelCommitReceived n s
  | .homeRequestGrant sl => Sys2Proof.Machine.execHomeRequestGrant sl s
  | .directoryLookupDone sl slot err => Sys2Proof.Machine.execDirectoryLookupDone sl slot err s
  | .homeStepReserved sl slot => Sys2Proof.Machine.execHomeStepReserved sl slot s
  | .snoopReplyReceived sl => Sys2Proof.Machine.execSnoopReplyReceived sl s
  | .cackAtHome sl => Sys2Proof.Machine.execCackAtHome sl s
  | .holdTimeExpiry sl slot => Sys2Proof.Machine.execHoldTimeExpiry sl slot s
  | .memoryAccessDone sl => Sys2Proof.Machine.execMemoryAccessDone sl s
  | .homeTimeout sl slot => Sys2Proof.Machine.execHomeTimeout sl slot s
  | .hsSweepGo sl agent => Sys2Proof.Machine.execHsSweepGo sl agent s
  | .sweepSetVisit sl => Sys2Proof.Machine.execSweepSetVisit sl s
  | .sliceFailure sl why => Sys2Proof.Machine.execSliceFailure sl why s
  | .sliceWatchdogExpiry sl => Sys2Proof.Machine.execSliceWatchdogExpiry sl s
  | .handoverRecord => Sys2Proof.Machine.execHandoverRecord s
  | .censusWalkSet readable => Sys2Proof.Machine.execCensusWalkSet readable s
  | .reservoirChunkSend p k => Sys2Proof.Machine.execReservoirChunkSend p k s
  | .bankArbitration b => Sys2Proof.Machine.execBankArbitration b s
  | .bankBeatPerform b err => Sys2Proof.Machine.execBankBeatPerform b err s
  | .bankScrub b err => Sys2Proof.Machine.execBankScrub b err s
  | .lockLimitTimeout at_ => Sys2Proof.Machine.execLockLimitTimeout at_ s
  | .targetTimeout n id => Sys2Proof.Machine.execTargetTimeout n id s
  | .leveeTgtSet n => Sys2Proof.Machine.execLeveeTgtSet n s
  | .siphonAnswer n => Sys2Proof.Machine.execSiphonAnswer n s
  | .isoInitSet n => Sys2Proof.Machine.execIsoInitSet n s
  | .remoteLeveeSet n d => Sys2Proof.Machine.execRemoteLeveeSet n d s
  | .pairResetGo n peer => Sys2Proof.Machine.execPairResetGo n peer s
  | .pairResetHold n peer hold => Sys2Proof.Machine.execPairResetHold n peer hold s
  | .attachUseWrite n use => Sys2Proof.Machine.execAttachUseWrite n use s
  | .portEnWrite r enable => Sys2Proof.Machine.execPortEnWrite r enable s
  | .portClear r => Sys2Proof.Machine.execPortClear r s
  | .alarmCollectionWindowEnd => Sys2Proof.Machine.execAlarmCollectionWindowEnd s
  | .riderAlarmHandling => Sys2Proof.Machine.execRiderAlarmHandling s
  | .riderCommandResume => Sys2Proof.Machine.execRiderCommandResume s
  | .riderWatchdogExpiry => Sys2Proof.Machine.execRiderWatchdogExpiry s
  | .lockstepMismatch => Sys2Proof.Machine.execLockstepMismatch s
  | .riderSramUncorrectable => Sys2Proof.Machine.execRiderSramUncorrectable s
  | .riderRestart => Sys2Proof.Machine.execRiderRestart s
  | .haltedMailboxAnswer => Sys2Proof.Machine.execHaltedMailboxAnswer s
  | .watchdogKick => Sys2Proof.Machine.execWatchdogKick s
  | .rootLockRise => Sys2Proof.Machine.execRootLockRise s
  | .supplyWarnRise => Sys2Proof.Machine.execSupplyWarnRise s
  | .supplyWarnFall => Sys2Proof.Machine.execSupplyWarnFall s
  | .holdRelease => Sys2Proof.Machine.execHoldRelease s
  | .storeScrubWord n reseq err => Sys2Proof.Machine.execStoreScrubWord n reseq err s
  | .coldReset cause => Sys2Proof.Machine.execColdReset cause s
  | .warmReset => Sys2Proof.Machine.execWarmReset s
  | .resetRelease lcFuse revoked minSvn => Sys2Proof.Machine.execResetRelease lcFuse revoked minSvn s
  | .selfTestDone fails => Sys2Proof.Machine.execSelfTestDone fails s
  | .meshBringupDone => Sys2Proof.Machine.execMeshBringupDone s
  | .routerReset rt => Sys2Proof.Machine.execRouterReset rt s
  | .routerResetDone => Sys2Proof.Machine.execRouterResetDone s
  | .headgateLogicReset n => Sys2Proof.Machine.execHeadgateLogicReset n s
  | .headgateLogicResetDone => Sys2Proof.Machine.execHeadgateLogicResetDone s
  | .lcProgDone => Sys2Proof.Machine.execLcProgDone s
  | .fcsAccess => Sys2Proof.Machine.execFcsAccess s
  | .registerWrite who off data be => Sys2Proof.Machine.execRegisterWrite who off data be s
  | .timeSecRead => Sys2Proof.Machine.execTimeSecRead s
  | .dirEntryRead sl => Sys2Proof.Machine.execDirEntryRead sl s
  | .snapshot => Sys2Proof.Machine.execSnapshot s
  | .mergeClear hg => Sys2Proof.Machine.execMergeClear hg s
  | .traceCapture b => Sys2Proof.Machine.execTraceCapture b s
  | .traceRecordDrain => Sys2Proof.Machine.execTraceRecordDrain s
  | .traceBeat => Sys2Proof.Machine.execTraceBeat s
  | .alarmRingEntry station => Sys2Proof.Machine.execAlarmRingEntry station s
  | .alarmCopy => Sys2Proof.Machine.execAlarmCopy s
  | .alarmStationPass n => Sys2Proof.Machine.execAlarmStationPass n s
  | .alarmRecordReturn station => Sys2Proof.Machine.execAlarmRecordReturn station s
  | .alarmAckToken station => Sys2Proof.Machine.execAlarmAckToken station s
  | .incidentClose => Sys2Proof.Machine.execIncidentClose s
  | .mbPush m => Sys2Proof.Machine.execMbPush m s
  | .mbPop m => Sys2Proof.Machine.execMbPop m s
  | .mbAck m overrun rider => Sys2Proof.Machine.execMbAck m overrun rider s
  | .mbIeWr m ie => Sys2Proof.Machine.execMbIeWr m ie s
  | .commandStart m => Sys2Proof.Machine.execCommandStart m s
  | .queryState m => Sys2Proof.Machine.execQueryState m s
  | .paramSet => Sys2Proof.Machine.execParamSet s
  | .channelOpen => Sys2Proof.Machine.execChannelOpen s
  | .channelClose => Sys2Proof.Machine.execChannelClose s
  | .pacelineSet => Sys2Proof.Machine.execPacelineSet s
  | .allotSet => Sys2Proof.Machine.execAllotSet s
  | .weirSet => Sys2Proof.Machine.execWeirSet s
  | .decodeSet => Sys2Proof.Machine.execDecodeSet s
  | .regionSet => Sys2Proof.Machine.execRegionSet s
  | .routeDetour => Sys2Proof.Machine.execRouteDetour s
  | .routeRestore => Sys2Proof.Machine.execRouteRestore s
  | .routerSet => Sys2Proof.Machine.execRouterSet s
  | .attachMove => Sys2Proof.Machine.execAttachMove s
  | .domainSleep => Sys2Proof.Machine.execDomainSleep s
  | .domainWake => Sys2Proof.Machine.execDomainWake s
  | .domainSet => Sys2Proof.Machine.execDomainSet s
  | .leveeSet => Sys2Proof.Machine.execLeveeSet s
  | .leveeClear => Sys2Proof.Machine.execLeveeClear s
  | .probeArm => Sys2Proof.Machine.execProbeArm s
  | .probeDisarm => Sys2Proof.Machine.execProbeDisarm s
  | .alarmAck => Sys2Proof.Machine.execAlarmAck s
  | .logRead m => Sys2Proof.Machine.execLogRead m s
  | .holdSet => Sys2Proof.Machine.execHoldSet s
  | .mailboxBind => Sys2Proof.Machine.execMailboxBind s
  | .imageLoad => Sys2Proof.Machine.execImageLoad s
  | .lifecycleSeal => Sys2Proof.Machine.execLifecycleSeal s
  | .lifecycleRetire => Sys2Proof.Machine.execLifecycleRetire s
  | .tapIdcode => Sys2Proof.Machine.execTapIdcode s
  | .tapStatus => Sys2Proof.Machine.execTapStatus s
  | .tapRegacc dr => Sys2Proof.Machine.execTapRegacc dr s
  | .tapRiderDbg op => Sys2Proof.Machine.execTapRiderDbg op s
  | .tapTestEntry => Sys2Proof.Machine.execTapTestEntry s
  | .tapWarm => Sys2Proof.Machine.execTapWarm s
  | .tapBypass code tdi => Sys2Proof.Machine.execTapBypass code tdi s
  | .headgateSelfCheck n table => Sys2Proof.Machine.execHeadgateSelfCheck n table s
  | .pwrAckFall n => Sys2Proof.Machine.execPwrAckFall n s
  | .traceWeirRefill => Sys2Proof.Machine.execTraceWeirRefill s

end Sys2Proof.Machine
end

