-- ==== Sys2Proof/WellFormed.lean ====
section
/-! DEFINITION. Which commands the hardware can present: the operands the interfaces and tables allow. -/

namespace Sys2Proof

open Machine

/-- A link direction exists at the receiving end: a connected port (R13), or one of the two links of a headgate. -/
def Rcv.wf : Rcv → Bool
  | .router i p =>
    let x := i.val % 10
    let y := i.val / 10
    match p.val with
    | 0 => true
    | 1 => decide (2 ≤ y) && decide (y ≤ 7)
    | 2 => decide (1 ≤ x) || (decide (3 ≤ y) && decide (y ≤ 8))
    | 3 => if x = 8 then true else if x = 9 then decide (3 ≤ y) && decide (y ≤ 8) else decide (2 ≤ y) && decide (y ≤ 7)
    | 4 => decide (0 < x)
    | 5 => decide (0 < y)
    | 6 => decide (x < 9)
    | _ => decide (y < 9)
  | .headgate _ _ => true

/-- An UTC triple counts fewer than 10^9 nanoseconds (R463). -/
def nsWf (ns : BitVec 32) : Bool := decide (ns.toNat < 1000000000)

/-- A response carries at most eight beats (R39). -/
def beatsWf (bs : List DBeat) : Bool := decide (bs.length ≤ 8)

/-- SNPRSP_OP is one of the replies of Table 3-4. -/
def snpRspOp (op : BitVec 8) : Bool := decide (0x32 ≤ op.toNat) && decide (op.toNat ≤ 0x36)

/-- A code that can select the bypass register: every one but IDCODE and STATUS, which no state bars (Table 17-5). -/
def bypassCode (code : BitVec 8) : Bool := decide (code ≠ 0x01) && decide (code ≠ 0x10)

/-- The command can be presented: its channel exists at the headgate it names (R27, R28), its link is connected (R13), and
its operands are values the interface has. -/
def Instr.wf : Instr → Bool
  | .reqTransfer n _ => hasHai n
  | .wdataBeat n _ => hasHai n
  | .wdataAbort n => hasHai n
  | .acceptance n => hasHai n
  | .fenceComplete n _ => hasHai n
  | .rspTransfer n _ => hasHai n
  | .msginTransfer n => hasHai n
  | .treqPresent n => hasHai n
  | .twdataTransfer n => hasHai n
  | .trspReceived n _ _ bs => hasHai n && beatsWf bs
  | .snpTransfer n => isCaching n
  | .snprspItem n op _ _ _ _ _ => isCaching n && snpRspOp op
  | .cack n _ _ => isCaching n
  | .agentPortLiveFall n => hasHai n
  | .agentPortLiveRise n => hasHai n
  | .siphonAbsorb n _ => hasHai n
  | .pwrAckRise n => hasHai n
  | .aclkEnChange n _ => hasHai n
  | .wakeLimitExpiry n => hasHai n
  | .pwrAckFall n => hasHai n
  | .flitArrival r _ _ => r.wf
  | .creditReturn r _ => r.wf
  | .heartbeatTimer r => r.wf
  | .heartbeatReceived r _ => r.wf
  | .linkSilenceTimeout r => r.wf
  | .linkPortLiveFall r => r.wf
  | .portEnWrite r _ => r.wf
  | .portClear r => r.wf
  | .turnPulseIssue _ ns => nsWf ns
  | .timeValidChange _ _ ns => nsWf ns
  | .weirRefill _ => true
  | .partInjection _ _ _ => true
  | .pwrAckTimeout _ => true
  | .outputArbitration _ _ => true
  | .packetReceived _ _ => true
  | .heldPacketCommit _ _ => true
  | .ecmtDelayTimeout _ _ => true
  | .ecmtReceived _ => true
  | .enakReceived _ => true
  | .credReceived _ => true
  | .credDelayTimeout _ _ => true
  | .credKeepaliveTimeout _ _ => true
  | .commitTimeout _ _ => true
  | .replayPass _ _ => true
  | .replayPacketInjection _ _ _ => true
  | .epochAdvance _ => true
  | .epochDrainComplete _ => true
  | .replayCmdGo _ _ _ => true
  | .turnPulseArrival _ => true
  | .turnMissTimeout _ => true
  | .entryFire _ _ => true
  | .wheelEnd _ => true
  | .gdataArrival _ => true
  | .channelCommitReceived _ => true
  | .homeRequestGrant _ => true
  | .directoryLookupDone _ _ _ => true
  | .homeStepReserved _ _ => true
  | .snoopReplyReceived _ => true
  | .cackAtHome _ => true
  | .holdTimeExpiry _ _ => true
  | .memoryAccessDone _ => true
  | .homeTimeout _ _ => true
  | .hsSweepGo _ _ => true
  | .sweepSetVisit _ => true
  | .sliceFailure _ _ => true
  | .sliceWatchdogExpiry _ => true
  | .handoverRecord => true
  | .censusWalkSet _ => true
  | .reservoirChunkSend _ _ => true
  | .bankArbitration _ => true
  | .bankBeatPerform _ _ => true
  | .bankScrub _ _ => true
  | .lockLimitTimeout _ => true
  | .targetTimeout _ _ => true
  | .leveeTgtSet _ => true
  | .siphonAnswer _ => true
  | .isoInitSet _ => true
  | .remoteLeveeSet _ _ => true
  | .pairResetGo _ _ => true
  | .pairResetHold _ _ _ => true
  | .attachUseWrite _ _ => true
  | .alarmCollectionWindowEnd => true
  | .riderAlarmHandling => true
  | .riderCommandResume => true
  | .riderWatchdogExpiry => true
  | .lockstepMismatch => true
  | .riderSramUncorrectable => true
  | .riderRestart => true
  | .haltedMailboxAnswer => true
  | .watchdogKick => true
  | .rootLockRise => true
  | .supplyWarnRise => true
  | .supplyWarnFall => true
  | .holdRelease => true
  | .storeScrubWord _ _ _ => true
  | .coldReset _ => true
  | .warmReset => true
  | .resetRelease _ _ _ => true
  | .selfTestDone _ => true
  | .meshBringupDone => true
  | .routerReset _ => true
  | .routerResetDone => true
  | .headgateLogicReset _ => true
  | .headgateLogicResetDone => true
  | .lcProgDone => true
  | .fcsAccess => true
  | .registerWrite _ _ _ _ => true
  | .timeSecRead => true
  | .dirEntryRead _ => true
  | .snapshot => true
  | .mergeClear _ => true
  | .traceCapture _ => true
  | .traceRecordDrain => true
  | .traceBeat => true
  | .alarmRingEntry _ => true
  | .alarmCopy => true
  | .alarmStationPass _ => true
  | .alarmRecordReturn _ => true
  | .alarmAckToken _ => true
  | .incidentClose => true
  | .mbPush _ => true
  | .mbPop _ => true
  | .mbAck _ _ _ => true
  | .mbIeWr _ _ => true
  | .commandStart _ => true
  | .queryState _ => true
  | .paramSet => true
  | .channelOpen => true
  | .channelClose => true
  | .pacelineSet => true
  | .allotSet => true
  | .weirSet => true
  | .decodeSet => true
  | .regionSet => true
  | .routeDetour => true
  | .routeRestore => true
  | .routerSet => true
  | .attachMove => true
  | .domainSleep => true
  | .domainWake => true
  | .domainSet => true
  | .leveeSet => true
  | .leveeClear => true
  | .probeArm => true
  | .probeDisarm => true
  | .alarmAck => true
  | .logRead _ => true
  | .holdSet => true
  | .mailboxBind => true
  | .imageLoad => true
  | .lifecycleSeal => true
  | .lifecycleRetire => true
  | .tapIdcode => true
  | .tapStatus => true
  | .tapRegacc dr => decide (dr.toNat % 8 = 0)
  | .tapRiderDbg _ => true
  | .tapTestEntry => true
  | .tapWarm => true
  | .tapBypass code _ => bypassCode code
  | .headgateSelfCheck _ _ => true
  | .traceWeirRefill => true

end Sys2Proof
end

