-- ==== Sys2Proof/Safety.lean ====
section
/-! DEFINITION. What a safe run is, in the terms the statements use: no refusal, the canonical form every step keeps, and what a
command leaves as it was. -/

namespace Sys2Proof.Machine

/-- The pieces of the state, one for each field of `State`. -/
inductive Piece where
  | fclk | regs | hg | rt | hs | rv | wires | credits | bd | pr | al | rd | mb | tap | fcsRead | lateGua | freeCtr | pending
  deriving DecidableEq, Repr

/-- A piece is the same in two states. -/
def Piece.same (s t : State) : Piece → Prop
  | .fclk => t.fclk = s.fclk
  | .regs => t.regs = s.regs
  | .hg => t.hg = s.hg
  | .rt => t.rt = s.rt
  | .hs => t.hs = s.hs
  | .rv => t.rv = s.rv
  | .wires => t.wires = s.wires
  | .credits => t.credits = s.credits
  | .bd => t.bd = s.bd
  | .pr => t.pr = s.pr
  | .al => t.al = s.al
  | .rd => t.rd = s.rd
  | .mb => t.mb = s.mb
  | .tap => t.tap = s.tap
  | .fcsRead => t.fcsRead = s.fcsRead
  | .lateGua => t.lateGua = s.lateGua
  | .freeCtr => t.freeCtr = s.freeCtr
  | .pending => t.pending = s.pending

/-- The two states differ at most in the pieces listed. -/
def sameExcept (ps : List Piece) (s t : State) : Prop := ∀ p, p ∉ ps → p.same s t

/-- Every register but those at the offsets listed is as it was. -/
def regsKept (offs : List Nat) (s t : State) : Prop := ∀ o, o ∉ offs → t.reg o = s.reg o
/-- Every register below the offset `L` is as it was. -/
def belowKept (L : Nat) (s t : State) : Prop := ∀ o, o < L → t.reg o = s.reg o
/-- Every headgate but those listed is as it was. -/
def hgsKept (ns : List Nat) (s t : State) : Prop := ∀ n, n ∉ ns → t.hgAt n = s.hgAt n
/-- Every router but those listed is as it was. -/
def rtsKept (is : List Nat) (s t : State) : Prop := ∀ i, i ∉ is → t.rtAt i = s.rtAt i
/-- Every home slice but those listed is as it was. -/
def hssKept (ks : List Nat) (s t : State) : Prop := ∀ k, k ∉ ks → t.hsAt k = s.hsAt k
/-- Every mailbox but those listed is as it was. -/
def mbsKept (ms : List Nat) (s t : State) : Prop := ∀ m, m ∉ ms → t.mbAt m = s.mbAt m
/-- Every bank of the Reservoir but those listed is as it was. -/
def banksKept (bs : List Nat) (s t : State) : Prop := ∀ b, b ∉ bs → t.bankAt b = s.bankAt b

/-- Nothing waits at the lock managers of the banks (R292): no lock's limit is due, and every chunk that has reached a manager has gone to
its bank. -/
def banksQuiet (s : State) : Prop :=
  (∀ b : Bank, (s.bankAt b).lock.due s.fclk = false) ∧ ∀ x ∈ reachedChunks s, x.2.2.2.passed = true ∧ x.2.2.2.sent = true

/-- The pieces a command may change; every other piece it leaves as it was. No command changes the queue of commands. -/
def touches : Instr → List Piece
  | .reqTransfer _ _ => [.regs, .hg]
  | .wdataBeat _ _ => [.hg]
  | .wdataAbort _ => [.regs, .hg]
  | .acceptance _ => [.regs, .hg, .pr, .al]
  | .weirRefill _ => [.regs]
  | .partInjection _ _ _ => [.regs, .hg, .wires, .pr, .al, .freeCtr]
  | .fenceComplete _ _ => [.hg]
  | .rspTransfer _ _ => [.regs, .hg, .al, .freeCtr]
  | .msginTransfer _ => [.regs, .hg, .wires, .pr, .al]
  | .treqPresent _ => [.regs, .hg, .wires, .pr, .al, .freeCtr]
  | .twdataTransfer _ => [.regs, .hg, .wires, .pr, .al]
  | .trspReceived _ _ _ _ => [.regs, .hg, .wires, .pr, .al]
  | .snpTransfer _ => [.regs, .hg]
  | .snprspItem _ _ _ _ _ _ _ => [.regs, .hg]
  | .cack _ _ _ => [.regs, .hg]
  | .agentPortLiveFall _ => [.regs, .hg, .wires, .pr, .al]
  | .agentPortLiveRise _ => [.regs, .hg]
  | .siphonAbsorb _ _ => [.regs, .hg]
  | .pwrAckRise _ => [.regs, .hg]
  | .pwrAckTimeout _ => [.fclk, .regs, .hg, .pr, .al]
  | .aclkEnChange _ _ => [.regs, .hg]
  | .wakeLimitExpiry _ => [.fclk, .regs, .hg, .pr, .al]
  | .flitArrival _ _ _ => [.regs, .hg, .rt, .wires, .credits, .pr, .al, .lateGua, .freeCtr]
  | .outputArbitration _ _ => [.regs, .hg, .rt, .wires, .credits, .pr, .al, .lateGua]
  | .creditReturn _ _ => [.regs, .hg, .rt, .wires, .credits, .al]
  | .heartbeatTimer _ => [.hg, .rt, .wires]
  | .heartbeatReceived _ _ => [.regs, .hg, .rt, .wires, .credits, .pr, .al, .lateGua, .freeCtr]
  | .linkSilenceTimeout _ => [.fclk, .regs, .hg, .rt, .wires, .credits, .al]
  | .linkPortLiveFall _ => [.regs, .hg, .rt, .wires, .credits, .al]
  | .packetReceived _ _ => [.regs, .hg, .wires, .pr, .al, .freeCtr]
  | .heldPacketCommit _ _ => [.regs, .hg, .wires, .pr, .al, .freeCtr]
  | .ecmtDelayTimeout _ _ => [.fclk, .regs, .hg, .wires, .pr]
  | .ecmtReceived _ => [.regs, .hg, .wires, .pr, .al]
  | .enakReceived _ => [.regs, .hg, .wires, .pr, .al]
  | .credReceived _ => [.regs, .hg]
  | .credDelayTimeout _ _ => [.fclk, .regs, .hg, .wires, .pr]
  | .credKeepaliveTimeout _ _ => [.fclk, .regs, .hg, .wires, .pr]
  | .commitTimeout _ _ => [.fclk, .regs, .hg, .al]
  | .replayPass _ _ => [.hg]
  | .replayPacketInjection _ _ _ => [.regs, .hg, .wires, .pr, .al, .freeCtr]
  | .epochAdvance _ => [.regs]
  | .epochDrainComplete _ => []
  | .replayCmdGo _ _ _ => [.regs, .hg]
  | .turnPulseIssue _ _ => [.fclk, .regs, .bd]
  | .timeValidChange _ _ _ => [.regs, .bd]
  | .turnPulseArrival _ => [.regs, .hg, .bd, .al]
  | .turnMissTimeout _ => [.fclk, .regs, .al]
  | .entryFire _ _ => [.fclk, .regs, .hg, .wires, .pr, .al, .lateGua]
  | .wheelEnd _ => [.fclk, .regs, .hg, .wires, .pr]
  | .gdataArrival _ => [.regs, .hg, .wires, .pr, .al]
  | .channelCommitReceived _ => [.regs, .hg, .lateGua]
  | .homeRequestGrant _ => [.hg, .hs]
  | .directoryLookupDone _ _ _ => [.regs, .hg, .hs, .wires, .pr, .al, .freeCtr]
  | .homeStepReserved _ _ => [.regs, .hg, .hs, .wires, .pr, .al, .freeCtr]
  | .snoopReplyReceived _ => [.regs, .hg, .hs, .wires, .pr, .al, .freeCtr]
  | .cackAtHome _ => [.regs, .hg, .hs, .wires, .pr, .al, .freeCtr]
  | .holdTimeExpiry _ _ => [.fclk, .regs, .hg, .hs, .wires, .pr, .al, .freeCtr]
  | .memoryAccessDone _ => [.regs, .hg, .hs, .wires, .pr, .al, .freeCtr]
  | .homeTimeout _ _ => [.fclk, .regs, .hg, .hs, .wires, .pr, .al, .freeCtr]
  | .hsSweepGo _ _ => [.regs, .hs]
  | .sweepSetVisit _ => [.regs, .hg, .hs, .wires, .pr, .al, .freeCtr]
  | .sliceFailure _ _ => [.regs, .hs, .al]
  | .sliceWatchdogExpiry _ => [.fclk, .regs, .hs, .al]
  | .handoverRecord => [.regs, .hg, .hs, .wires, .pr, .al, .freeCtr]
  | .censusWalkSet _ => [.regs, .hs]
  | .reservoirChunkSend _ _ => [.regs, .hg, .rv, .wires, .pr, .al]
  | .bankArbitration _ => [.regs, .hg, .rv, .wires, .pr, .al]
  | .bankBeatPerform _ _ => [.regs, .hg, .rv, .wires, .pr, .al, .freeCtr]
  | .bankScrub _ _ => [.regs, .rv, .al]
  | .lockLimitTimeout _ => [.fclk, .regs, .hg, .rv, .wires, .pr, .al]
  | .targetTimeout _ _ => [.fclk, .regs, .hg, .al]
  | .leveeTgtSet _ => [.regs, .hg, .al]
  | .siphonAnswer _ => [.regs, .hg, .wires, .pr, .al]
  | .isoInitSet _ => [.regs, .hg, .wires, .pr]
  | .remoteLeveeSet _ _ => [.regs, .hg, .hs, .wires, .pr, .al, .freeCtr]
  | .pairResetGo _ _ => [.regs, .hg]
  | .pairResetHold _ _ _ => [.regs]
  | .attachUseWrite _ _ => [.regs, .hg]
  | .portEnWrite _ _ => [.regs, .hg, .rt, .wires, .credits, .al]
  | .portClear _ => [.regs, .hg, .rt, .wires, .credits]
  | .alarmCollectionWindowEnd => [.fclk, .rd]
  | .riderAlarmHandling => [.al, .rd]
  | .riderCommandResume => [.fclk, .regs, .hg, .rt, .hs, .rv, .wires, .credits, .bd, .pr, .al, .rd, .mb, .freeCtr]
  | .riderWatchdogExpiry => [.fclk, .regs, .rd, .mb]
  | .lockstepMismatch => [.regs, .rd, .mb]
  | .riderSramUncorrectable => [.regs, .rd, .mb]
  | .riderRestart => [.regs, .hg, .rt, .hs, .wires, .credits, .bd, .pr, .al, .rd, .mb, .freeCtr]
  | .haltedMailboxAnswer => [.mb]
  | .watchdogKick => [.rd]
  | .rootLockRise => [.regs, .bd]
  | .supplyWarnRise => [.regs, .hg, .bd, .al]
  | .supplyWarnFall => [.regs, .bd]
  | .holdRelease => [.fclk, .regs, .hg, .bd]
  | .storeScrubWord _ _ _ => [.regs, .hg, .al, .freeCtr]
  | .coldReset _ => [.fclk, .regs, .hg, .rt, .hs, .rv, .wires, .credits, .bd, .pr, .al, .rd, .mb, .tap, .fcsRead, .lateGua]
  | .warmReset => [.fclk, .regs, .hg, .rt, .hs, .rv, .wires, .credits, .bd, .pr, .al, .rd, .mb, .fcsRead, .lateGua]
  | .resetRelease _ _ _ => [.regs, .hg, .bd, .al]
  | .selfTestDone _ => [.regs, .hg, .rt, .hs, .wires, .credits, .bd, .pr, .al, .rd, .mb, .freeCtr]
  | .meshBringupDone => [.fclk, .regs, .hg, .rd]
  | .routerReset _ => [.regs, .rt, .bd]
  | .routerResetDone => [.fclk, .regs, .bd]
  | .headgateLogicReset _ => [.regs, .hg, .bd]
  | .headgateLogicResetDone => [.fclk, .regs, .bd]
  | .lcProgDone => [.regs, .bd]
  | .fcsAccess => [.regs, .hg, .rt, .hs, .wires, .credits, .bd, .pr, .al, .rd, .mb, .freeCtr]
  | .registerWrite _ _ _ _ => [.regs, .hg, .rt, .hs, .wires, .credits, .bd, .pr, .al, .rd, .mb, .freeCtr]
  | .timeSecRead => [.regs, .fcsRead]
  | .dirEntryRead _ => [.regs, .fcsRead]
  | .snapshot => [.regs]
  | .mergeClear _ => [.regs]
  | .traceCapture _ => [.regs, .bd, .pr, .rd, .freeCtr]
  | .traceRecordDrain => [.regs, .pr]
  | .traceBeat => [.regs, .pr]
  | .alarmRingEntry _ => [.al]
  | .alarmCopy => [.regs, .al, .rd]
  | .alarmStationPass _ => [.regs, .al]
  | .alarmRecordReturn _ => [.regs, .al]
  | .alarmAckToken _ => [.al]
  | .incidentClose => [.fclk, .rd]
  | .mbPush _ => [.regs, .mb]
  | .mbPop _ => [.mb]
  | .mbAck _ _ _ => [.mb]
  | .mbIeWr _ _ => [.mb]
  | .commandStart _ => [.regs, .rd, .mb]
  | .queryState _ => [.regs, .mb]
  | .paramSet => [.fclk, .regs, .hg, .rt, .hs, .rv, .wires, .credits, .bd, .pr, .al, .rd, .mb, .freeCtr]
  | .channelOpen => [.fclk, .regs, .hg, .rt, .hs, .rv, .wires, .credits, .bd, .pr, .al, .rd, .mb, .freeCtr]
  | .channelClose => [.fclk, .regs, .hg, .rt, .hs, .rv, .wires, .credits, .bd, .pr, .al, .rd, .mb, .freeCtr]
  | .pacelineSet => [.fclk, .regs, .hg, .rt, .hs, .rv, .wires, .credits, .bd, .pr, .al, .rd, .mb, .freeCtr]
  | .allotSet => [.fclk, .regs, .hg, .rt, .hs, .rv, .wires, .credits, .bd, .pr, .al, .rd, .mb, .freeCtr]
  | .weirSet => [.fclk, .regs, .hg, .rt, .hs, .rv, .wires, .credits, .bd, .pr, .al, .rd, .mb, .freeCtr]
  | .decodeSet => [.fclk, .regs, .hg, .rt, .hs, .rv, .wires, .credits, .bd, .pr, .al, .rd, .mb, .freeCtr]
  | .regionSet => [.fclk, .regs, .hg, .rt, .hs, .rv, .wires, .credits, .bd, .pr, .al, .rd, .mb, .freeCtr]
  | .routeDetour => [.fclk, .regs, .hg, .rt, .hs, .rv, .wires, .credits, .bd, .pr, .al, .rd, .mb, .freeCtr]
  | .routeRestore => [.fclk, .regs, .hg, .rt, .hs, .rv, .wires, .credits, .bd, .pr, .al, .rd, .mb, .freeCtr]
  | .routerSet => [.fclk, .regs, .hg, .rt, .hs, .rv, .wires, .credits, .bd, .pr, .al, .rd, .mb, .freeCtr]
  | .attachMove => [.fclk, .regs, .hg, .rt, .hs, .rv, .wires, .credits, .bd, .pr, .al, .rd, .mb, .freeCtr]
  | .domainSleep => [.fclk, .regs, .hg, .rt, .hs, .rv, .wires, .credits, .bd, .pr, .al, .rd, .mb, .freeCtr]
  | .domainWake => [.fclk, .regs, .hg, .rt, .hs, .rv, .wires, .credits, .bd, .pr, .al, .rd, .mb, .freeCtr]
  | .domainSet => [.fclk, .regs, .hg, .rt, .hs, .rv, .wires, .credits, .bd, .pr, .al, .rd, .mb, .freeCtr]
  | .leveeSet => [.fclk, .regs, .hg, .rt, .hs, .rv, .wires, .credits, .bd, .pr, .al, .rd, .mb, .freeCtr]
  | .leveeClear => [.fclk, .regs, .hg, .rt, .hs, .rv, .wires, .credits, .bd, .pr, .al, .rd, .mb, .freeCtr]
  | .probeArm => [.fclk, .regs, .hg, .rt, .hs, .rv, .wires, .credits, .bd, .pr, .al, .rd, .mb, .freeCtr]
  | .probeDisarm => [.fclk, .regs, .hg, .rt, .hs, .rv, .wires, .credits, .bd, .pr, .al, .rd, .mb, .freeCtr]
  | .alarmAck => [.fclk, .regs, .hg, .rt, .hs, .rv, .wires, .credits, .bd, .pr, .al, .rd, .mb, .freeCtr]
  | .logRead _ => [.regs, .mb]
  | .holdSet => [.fclk, .regs, .hg, .rt, .hs, .rv, .wires, .credits, .bd, .pr, .al, .rd, .mb, .freeCtr]
  | .mailboxBind => [.fclk, .regs, .hg, .rt, .hs, .rv, .wires, .credits, .bd, .pr, .al, .rd, .mb, .freeCtr]
  | .imageLoad => [.fclk, .regs, .hg, .rt, .hs, .rv, .wires, .credits, .bd, .pr, .al, .rd, .mb, .freeCtr]
  | .lifecycleSeal => [.fclk, .regs, .hg, .rt, .hs, .rv, .wires, .credits, .bd, .pr, .al, .rd, .mb, .freeCtr]
  | .lifecycleRetire => [.fclk, .regs, .hg, .rt, .hs, .rv, .wires, .credits, .bd, .pr, .al, .rd, .mb, .freeCtr]
  | .tapIdcode => [.tap]
  | .tapStatus => [.tap]
  | .tapRegacc _ => [.regs, .hg, .rt, .hs, .wires, .credits, .bd, .pr, .al, .rd, .mb, .tap, .freeCtr]
  | .tapRiderDbg _ => [.rd, .tap, .freeCtr]
  | .tapTestEntry => [.fclk, .regs, .hg, .rt, .hs, .rv, .wires, .credits, .bd, .pr, .al, .rd, .mb, .tap, .fcsRead, .lateGua]
  | .tapWarm => [.fclk, .regs, .hg, .rt, .hs, .rv, .wires, .credits, .bd, .pr, .al, .rd, .mb, .tap, .fcsRead, .lateGua]
  | .tapBypass _ _ => [.tap]
  | .headgateSelfCheck _ _ => [.al]
  | .pwrAckFall _ => [.regs, .hg]
  | .traceWeirRefill => [.regs, .pr]

/-- The offset below which a command changes no register: the base of the lowest block of the fabric control space it works on
(global 0, clock 0x10000, mailboxes 0x20000, probes 0x40000, home slices 0x80000, Reservoir 0xD0000, routers 0x100000, headgates
0x200000), or beyond every register where it changes none. -/
def regFloor : Instr → Nat
  | .wdataBeat _ _ | .fenceComplete _ _ | .heartbeatTimer _ | .replayPass _ _ | .epochDrainComplete _
  | .homeRequestGrant _ | .alarmCollectionWindowEnd | .riderAlarmHandling | .haltedMailboxAnswer | .watchdogKick
  | .alarmRingEntry _ | .alarmAckToken _ | .incidentClose | .mbPop _ | .mbAck _ _ _ | .mbIeWr _ _ | .tapIdcode | .tapStatus
  | .tapRiderDbg _ | .tapBypass _ _ | .headgateSelfCheck _ _ => 0x1000000
  | .weirRefill _ | .partInjection _ _ _ | .rspTransfer _ _ | .snpTransfer _ | .snprspItem _ _ _ _ _ _ _ | .cack _ _ _
  | .agentPortLiveRise _ | .siphonAbsorb _ _ | .pwrAckRise _ | .aclkEnChange _ _ | .ecmtDelayTimeout _ _ | .credReceived _
  | .credDelayTimeout _ _ | .credKeepaliveTimeout _ _ | .commitTimeout _ _ | .replayPacketInjection _ _ _ | .epochAdvance _
  | .replayCmdGo _ _ _ | .turnMissTimeout _ | .entryFire _ _ | .wheelEnd _ | .gdataArrival _ | .channelCommitReceived _
  | .targetTimeout _ _ | .leveeTgtSet _ | .pairResetGo _ _ | .pairResetHold _ _ _ | .attachUseWrite _ _
  | .alarmStationPass _ | .alarmRecordReturn _ | .pwrAckFall _ => 0x200000
  | .flitArrival _ _ _ | .outputArbitration _ _ | .creditReturn _ _ | .heartbeatReceived _ _ | .linkSilenceTimeout _
  | .linkPortLiveFall _ | .portEnWrite _ _ | .portClear _ => 0x100000
  | .msginTransfer _ | .treqPresent _ | .twdataTransfer _ | .trspReceived _ _ _ _ | .packetReceived _ _
  | .heldPacketCommit _ _ | .ecmtReceived _ | .enakReceived _ | .reservoirChunkSend _ _ | .bankArbitration _
  | .bankBeatPerform _ _ | .bankScrub _ _ | .lockLimitTimeout _ | .siphonAnswer _ => 0xD0000
  | .directoryLookupDone _ _ _ | .homeStepReserved _ _ | .snoopReplyReceived _ | .cackAtHome _ | .holdTimeExpiry _ _
  | .memoryAccessDone _ | .homeTimeout _ _ | .hsSweepGo _ _ | .sweepSetVisit _ | .sliceFailure _ _ | .sliceWatchdogExpiry _
  | .handoverRecord | .censusWalkSet _ | .remoteLeveeSet _ _ => 0x80000
  | .turnPulseArrival _ | .snapshot | .traceRecordDrain | .traceBeat | .alarmCopy | .traceWeirRefill => 0x40000
  | .mbPush _ => 0x20000
  | .reqTransfer _ _ | .wdataAbort _ | .acceptance _ | .agentPortLiveFall _ | .pwrAckTimeout _ | .wakeLimitExpiry _
  | .turnPulseIssue _ _ | .timeValidChange _ _ _ | .isoInitSet _ | .rootLockRise | .supplyWarnRise | .supplyWarnFall
  | .holdRelease | .storeScrubWord _ _ _ | .timeSecRead | .dirEntryRead _ | .traceCapture _ => 0x10000
  | .riderCommandResume | .riderWatchdogExpiry | .lockstepMismatch | .riderSramUncorrectable | .riderRestart | .coldReset _
  | .warmReset | .resetRelease _ _ _ | .selfTestDone _ | .meshBringupDone | .routerReset _ | .routerResetDone
  | .headgateLogicReset _ | .headgateLogicResetDone | .lcProgDone | .fcsAccess | .registerWrite _ _ _ _ | .mergeClear _
  | .commandStart _ | .queryState _ | .paramSet | .channelOpen | .channelClose | .pacelineSet | .allotSet | .weirSet
  | .decodeSet | .regionSet | .routeDetour | .routeRestore | .routerSet | .attachMove | .domainSleep | .domainWake
  | .domainSet | .leveeSet | .leveeClear | .probeArm | .probeDisarm | .alarmAck | .logRead _ | .holdSet | .mailboxBind
  | .imageLoad | .lifecycleSeal | .lifecycleRetire | .tapRegacc _ | .tapTestEntry | .tapWarm => 0x0

/-! ### Commands of the Rider -/

/-- Mailbox `m` shows a started command `c` of code `code` that has not begun: the Rider works, the command is the one that changes
settings (R371, R373), and no recovery of a fault runs. -/
def commandReady (code : Nat) (s : State) (m : Mbx) (c : Running) : Prop :=
  s.rd.active = some m.val ∧ (s.mbAt m).cur = some c ∧ codeOf c.words = code ∧ c.planned = false ∧ riderWorks s = true ∧
  recovers s = false

/-- The Rider's records with the mailbox served last, and no command of class S running. -/
def servedRd (m : Mbx) (r : Rider) : Rider := { r with active := none, served := m.val }

/-- The command `c` of mailbox `m` has been answered: its response of Table 14-8 is the last of the mailbox, no command runs for
it, and of GL_RIDER_STATUS only UP may have changed. -/
def answeredWith (m : Mbx) (c : Running) (compl step : Nat) (results : List Word) (s t : State) : Prop :=
  t.rd.active = none ∧ t.rd.served = m.val ∧ (t.mbAt m).cur = none ∧ (t.mbAt m).queue = (s.mbAt m).queue ∧
  (t.mbAt m).rsp = (s.mbAt m).rsp ++ [rspOf (rspWord (cw c.words 0) compl step c.rerun) results] ∧
  mbsKept [m.val] s t ∧ (∀ k, k ≠ 0 → bit (t.reg Reg.GL_RIDER_STATUS) k = bit (s.reg Reg.GL_RIDER_STATUS) k)

/-- The command `c` of mailbox `m` stands at the boundary after its first `k` steps, with the steps `rest` still to do. -/
def standsAfter (m : Mbx) (c : Running) (k : Nat) (rest : List RAct) (s t : State) : Prop :=
  t.rd.active = some m.val ∧ (t.mbAt m).queue = (s.mbAt m).queue ∧ (t.mbAt m).rsp = (s.mbAt m).rsp ∧ mbsKept [m.val] s t ∧
  ∃ d, (t.mbAt m).cur = some d ∧ d.words = c.words ∧ d.rerun = c.rerun ∧ d.planned = true ∧ d.prog.acts = rest ∧ d.prog.step = k ∧
    d.prog.atStep = true

/-- The invariant of the state: both sparse stores are in canonical form. -/
def canonical (s : State) : Prop := Tab.wf regReset s.regs = true ∧ Memory.wf s.rv.mem

end Sys2Proof.Machine
end

