-- ==== Sys2Proof/Certificates/Slice0/Obligations.lean ====
section
/-! DEFINITION. The statements for the provers. What a statement says of a value or a behaviour the manual leaves open is the model's
choice, named with its log entry. -/

open Sys2Proof Sys2Proof.Machine

/-- R366 and Table 14-3: each doorbell operation acts on its mailbox only. PUSH queues MB_CMD behind the 64 commands' limit, and
past it sets OVERRUN and raises MB_OVERRUN (32 bits, saturating); POP drops the head response; ACK clears the selected events;
IE_WR loads the enables. Every other piece of the state stays. R385 and R370: while the Rider is halted the lowest mailbox
with a command and a free response slot gets one answer HALTED (COMPL 0x06, STEP 0, the request's CODE, SEQ and low half in
word 0, the other seven words zero), the oldest queued command first, and nothing but that mailbox changes. That the lowest
mailbox goes first, and that a command running when the Rider halted is answered before those queued behind it, are the
model's choices (log entry 22). -/
def Obligations.MailboxDoorbellsAndHaltedAnswers : Prop :=
  (
    (∀ (s : State) (m : Mbx), (s.mbAt m).queue.length < 64 →
      exec (.mbPush m) s = .next (s.setMb m { s.mbAt m with queue := (s.mbAt m).queue ++ [(s.mbAt m).cmd] })) ∧
    (∀ (s : State) (m : Mbx), 64 ≤ (s.mbAt m).queue.length →
      exec (.mbPush m) s = .next ((s.setReg (Reg.MB_OVERRUN m)
        (BitVec.ofNat 64 (min ((s.reg (Reg.MB_OVERRUN m)).toNat + 1) (2 ^ 32 - 1)))).setMb m { s.mbAt m with overrun := true })) ∧
    (∀ (s : State) (m : Mbx) (r : List Word) (rest : List (List Word)), (s.mbAt m).rsp = r :: rest →
      exec (.mbPop m) s = .next (s.setMb m { s.mbAt m with rsp := rest })) ∧
    (∀ (s : State) (m : Mbx), (s.mbAt m).rsp = [] →
      exec (.mbPop m) s = .next (s.setMb m (s.mbAt m))) ∧
    (∀ (s : State) (m : Mbx) (overrun rider : Bool), exec (.mbAck m overrun rider) s = .next (s.setMb m { s.mbAt m with
      overrun := if overrun then false else (s.mbAt m).overrun
      riderEvt := if rider then false else (s.mbAt m).riderEvt })) ∧
    (∀ (s : State) (m : Mbx) (ie : BitVec 4), exec (.mbIeWr m ie) s = .next (s.setMb m { s.mbAt m with ie := ie }))) ∧
  (
    (∀ (s : State) (m : Mbx) (q : List Word) (rest : List (List Word)), s.getB Reg.GL_RIDER_STATUS 1 = true →
      (s.mbAt m).cur = none → (s.mbAt m).queue = q :: rest → (s.mbAt m).rsp.length < 64 →
      (∀ k : Mbx, k < m → (s.mbAt k).cur = none ∧ (s.mbAt k).queue = [] ∨ 64 ≤ (s.mbAt k).rsp.length) →
      ∃ w0 : Word, field w0 32 8 = 0x06 ∧ field w0 40 8 = 0 ∧ field w0 48 16 = 0 ∧ field w0 0 32 = field ((q[0]?).getD 0) 0 32 ∧
        exec .haltedMailboxAnswer s = .next (s.setMb m { s.mbAt m with
          queue := rest, rsp := (s.mbAt m).rsp ++ [[w0, 0, 0, 0, 0, 0, 0, 0]] })) ∧
    (∀ (s : State) (m : Mbx) (c : Running), s.getB Reg.GL_RIDER_STATUS 1 = true →
      (s.mbAt m).cur = some c → (s.mbAt m).rsp.length < 64 →
      (∀ k : Mbx, k < m → (s.mbAt k).cur = none ∧ (s.mbAt k).queue = [] ∨ 64 ≤ (s.mbAt k).rsp.length) →
      ∃ w0 : Word, field w0 32 8 = 0x06 ∧ field w0 40 8 = 0 ∧ field w0 48 16 = 0 ∧ field w0 0 32 = field ((c.words[0]?).getD 0) 0 32 ∧
        exec .haltedMailboxAnswer s = .next (s.setMb m { s.mbAt m with
          cur := none, rsp := (s.mbAt m).rsp ++ [[w0, 0, 0, 0, 0, 0, 0, 0]] })))

/-- R448 and Table 17-5: IDCODE, STATUS and BYPASS show their data registers (lowest bit first) and change nothing but the TAP.
STATUS gives GL_IDENT, GL_LIFECYCLE, GL_BOOT, GL_RIDER_STATUS and CK_STATUS, lowest word first; in RETIRED (GL_LIFECYCLE[1:0]
= 2) the last two read zero. Every code of no instruction, and each OPEN-only instruction outside OPEN, acts as BYPASS; a
barred instruction is taken to capture zero, and before the fuses are sampled it counts as barred (both the model's choices).
R449, REGACC in OPEN: OFFSET is DR[23:0], WRITE DR[24], DATA DR[95:32]. The update sends one access as the Rider: a write has
exactly the effect of the Rider's own write of the whole word at the offset, a read changes nothing but the latch of
CK_TIME_SEC (R463). The capture shows the result of the access before, and the result of this one carries DONE in [25],
REFUSED in [26] and the data in [95:32]. An offset that is no multiple of 8 is refused and has no effect (the model's choice,
log entry 30). -/
def Obligations.TapShowsIdentityAndReachesRegisters : Prop :=
  (
    (∀ s : State, exec .tapIdcode s = .next (s.setTap { s.tap with
      ir := 0x01, dr := (List.range 32).map (Nat.testBit (0x2 * 2 ^ 28 + 0x1010 * 2 ^ 12 + 0x4E5 * 2 ^ 1 + 1)) })) ∧
    (∀ s : State, s.getF Reg.GL_LIFECYCLE 0 2 ≠ 2 → exec .tapStatus s = .next (s.setTap { s.tap with
      ir := 0x10
      dr := [Reg.GL_IDENT, Reg.GL_LIFECYCLE, Reg.GL_BOOT, Reg.GL_RIDER_STATUS, Reg.CK_STATUS].flatMap
        (fun o => (List.range 64).map (Nat.testBit (regRead s o).toNat)) })) ∧
    (∀ s : State, s.getF Reg.GL_LIFECYCLE 0 2 = 2 → exec .tapStatus s = .next (s.setTap { s.tap with
      ir := 0x10
      dr := [Reg.GL_IDENT, Reg.GL_LIFECYCLE, Reg.GL_BOOT].flatMap
        (fun o => (List.range 64).map (Nat.testBit (regRead s o).toNat)) ++ List.replicate 128 false })) ∧
    (∀ (s : State) (code : BitVec 8) (tdi : Bool), code ≠ 0x01 → code ≠ 0x10 →
      (code ≠ 0x20 ∧ code ≠ 0x30 ∧ code ≠ 0x40 ∧ code ≠ 0x41 ∨ s.getF Reg.GL_LIFECYCLE 0 2 ≠ 0 ∨ s.bd.inColdReset = true) →
      exec (.tapBypass code tdi) s = .next (s.setTap { s.tap with ir := code, dr := [tdi] })) ∧
    (∀ (s : State) (dr : BitVec 96) (op : DbgOp), (s.getF Reg.GL_LIFECYCLE 0 2 ≠ 0 ∨ s.bd.inColdReset = true) →
      exec (.tapRegacc dr) s = .next (s.setTap { s.tap with ir := 0x20, dr := [false] }) ∧
      exec (.tapRiderDbg op) s = .next (s.setTap { s.tap with ir := 0x30, dr := [false] }) ∧
      exec .tapTestEntry s = .next (s.setTap { s.tap with ir := 0x40, dr := [false] }) ∧
      exec .tapWarm s = .next (s.setTap { s.tap with ir := 0x41, dr := [false] }))) ∧
  (
    (∀ (s : State) (dr : BitVec 96), s.getF Reg.GL_LIFECYCLE 0 2 = 0 → s.bd.inColdReset = false →
      bit dr 24 = true → field dr 0 3 = 0 →
      ∃ u r, exec (.registerWrite .rider (dr.extractLsb' 0 24) (dr.extractLsb' 32 64) 0xFF)
          (s.setTap { s.tap with ir := 0x20, dr := (List.range 96).map (Nat.testBit s.tap.regacc.toNat) }) = .next u ∧
        exec (.tapRegacc dr) s = .next (u.setTap { u.tap with regacc := r }) ∧
        bit r 25 = true ∧ bit r 26 = false) ∧
    (∀ (s : State) (dr : BitVec 96), s.getF Reg.GL_LIFECYCLE 0 2 = 0 → s.bd.inColdReset = false →
      bit dr 24 = false → field dr 0 3 = 0 →
      ∃ t, exec (.tapRegacc dr) s = .next t ∧ sameExcept [.tap, .regs] s t ∧ regsKept [Reg.CK_TIME_NS] s t ∧
        t.tap.ir = 0x20 ∧ t.tap.dr = (List.range 96).map (Nat.testBit s.tap.regacc.toNat) ∧
        bit t.tap.regacc 25 = true ∧ bit t.tap.regacc 26 = false ∧
        t.tap.regacc.extractLsb' 32 64 = regRead t (field dr 0 24)) ∧
    (∀ (s : State) (dr : BitVec 96), s.getF Reg.GL_LIFECYCLE 0 2 = 0 → s.bd.inColdReset = false → field dr 0 3 ≠ 0 →
      ∃ t, exec (.tapRegacc dr) s = .next t ∧ sameExcept [.tap] s t ∧ t.tap.ir = 0x20 ∧
        bit t.tap.regacc 25 = true ∧ bit t.tap.regacc 26 = true))

/-- R449, RIDER_DBG in OPEN: halting stops the cores with their watchdog (the count so far is kept), resuming lets it count on;
SRAM words and core registers are read into the data register and written one at a time, and nothing outside the Rider and the
TAP changes. What a step leaves in the core registers the manual does not give: it is free (log entry 14). Table 17-5 and
R449: in OPEN, TEST_ENTRY asserts a cold reset of cause 3 that leaves the TAP in test mode, and WARM asserts a warm reset of
cause 5; both have the effect of that reset from the state with the instruction shown. -/
def Obligations.TapDebugsTheRiderAndAssertsResets : Prop :=
  (
    ∀ s : State, s.getF Reg.GL_LIFECYCLE 0 2 = 0 → s.bd.inColdReset = false →
      (s.rd.debugHalt = false → exec (.tapRiderDbg .halt) s =
        .next ((s.setTap { s.tap with ir := 0x30, dr := [] }).setRd { s.rd with debugHalt := true, wdogAt := s.fclk - s.rd.wdogAt })) ∧
      (s.rd.debugHalt = true → exec (.tapRiderDbg .resume) s =
        .next ((s.setTap { s.tap with ir := 0x30, dr := [] }).setRd { s.rd with debugHalt := false, wdogAt := s.fclk - s.rd.wdogAt })) ∧
      (s.rd.debugHalt = true → ∃ t, exec (.tapRiderDbg .stepCore) s = .next t ∧ sameExcept [.rd, .tap, .freeCtr] s t ∧
        t.rd = { s.rd with coreRegs := t.rd.coreRegs }) ∧
      (∀ (a : Nat) (w : Word), a < 0x180000 → ∃ t, exec (.tapRiderDbg (.writeSram a w)) s = .next t ∧ sameExcept [.rd, .tap] s t ∧
        exec (.tapRiderDbg (.readSram a)) t = .next (t.setTap { t.tap with dr := (List.range 64).map (Nat.testBit w.toNat) })) ∧
      (∀ (a b : Nat) (w : Word), a < 0x180000 → b < 0x180000 → a ≠ b →
        ∃ t, exec (.tapRiderDbg (.writeSram a w)) s = .next t ∧ sramWord t b = sramWord s b) ∧
      (∀ (x : BitVec 8) (w : Word), ∃ t, exec (.tapRiderDbg (.writeReg x w)) s = .next t ∧ sameExcept [.rd, .tap] s t ∧
        exec (.tapRiderDbg (.readReg x)) t = .next (t.setTap { t.tap with dr := (List.range 64).map (Nat.testBit w.toNat) }))) ∧
  (
    ∀ s : State, s.getF Reg.GL_LIFECYCLE 0 2 = 0 → s.bd.inColdReset = false →
      (∃ t, exec .tapTestEntry s = .next t ∧ exec (.coldReset .testEntry) s = .next t ∧ t.tap.testMode = true ∧
        t.bd.inColdReset = true ∧ t.getF Reg.GL_BOOT 4 3 = 3) ∧
      (∃ t u, exec .tapWarm s = .next t ∧ exec .warmReset (s.setTap { s.tap with ir := 0x41, dr := [] }) = .next u ∧
        t.getF Reg.GL_BOOT 4 3 = 5 ∧ t.bd.inWarmReset = true ∧ sameExcept [.regs] u t ∧ regsKept [Reg.GL_BOOT] u t))

/-- R337, R359, R439: ROOT_LOCK as it rises is kept, and CK_STATUS shows the lock and the three dividers running (bits [3:0]).
R355: a rise of SUPPLY_WARN in a fabric out of reset and not in hold puts every headgate into hold, sets WARN and HOLD of
CK_STATUS and WARN_SEEN of CK_SUPPLY_EVT, counts the hold, and raises the supply-warning alarm (type 0xD0, station 278).
Nothing else changes. A rise that finds the supply hold with its release count running restarts the count and sets RECOUNT
(R356), and raises no further alarm. A rise under reset only leaves the input high. R356 and R411: SUPPLY_WARN low starts the
release count with the length of CK_HOLD_CFG.RELEASE in microseconds as it then stands (1600 FCLK cycles each, values below 16
acting as 16) and clears WARN; nothing else changes. -/
def Obligations.SupplyAndClockEventsHoldTheHeadgates : Prop :=
  (
    ∀ s : State, ∃ t, exec .rootLockRise s = .next t ∧ t.getF Reg.CK_STATUS 0 4 = 0xF ∧ t.bd = { s.bd with rootLock := true } ∧
      sameExcept [.bd, .regs] s t ∧ regsKept [Reg.CK_STATUS] s t ∧ ∀ i, 4 ≤ i → t.getB Reg.CK_STATUS i = s.getB Reg.CK_STATUS i) ∧
  (
    (∀ s : State, s.bd.supplyWarn = false → s.bd.inColdReset = false → s.bd.inWarmReset = false → s.bd.supplyHold = false →
      s.getB Reg.CK_STATUS 5 = false →
      ∃ t, exec .supplyWarnRise s = .next t ∧ t.bd = { s.bd with supplyWarn := true, supplyHold := true, warnLowAt := none } ∧
        (∀ n : Hg, t.hgAt n = { s.hgAt n with hold := true }) ∧ t.al = (s.alarm 278 0xD0 0 0).al ∧
        t.getB Reg.CK_STATUS 4 = true ∧ t.getB Reg.CK_STATUS 5 = true ∧ t.getB Reg.CK_SUPPLY_EVT 0 = true ∧
        t.getB Reg.CK_SUPPLY_EVT 1 = s.getB Reg.CK_SUPPLY_EVT 1 ∧
        (t.reg Reg.CK_HOLD_CNT).toNat = min ((s.reg Reg.CK_HOLD_CNT).toNat + 1) (2 ^ 32 - 1) ∧
        sameExcept [.bd, .regs, .hg, .al] s t ∧ regsKept [Reg.CK_STATUS, Reg.CK_SUPPLY_EVT, Reg.CK_HOLD_CNT] s t) ∧
    (∀ (s : State) (k : Nat), s.bd.supplyWarn = false → s.bd.inColdReset = false → s.bd.inWarmReset = false → s.bd.supplyHold = true →
      s.bd.warnLowAt = some k → s.getB Reg.CK_STATUS 5 = true →
      ∃ t, exec .supplyWarnRise s = .next t ∧ t.bd = { s.bd with supplyWarn := true, warnLowAt := none } ∧
        t.getB Reg.CK_STATUS 4 = true ∧ t.getB Reg.CK_SUPPLY_EVT 0 = true ∧ t.getB Reg.CK_SUPPLY_EVT 1 = true ∧
        sameExcept [.bd, .regs] s t ∧ regsKept [Reg.CK_STATUS, Reg.CK_SUPPLY_EVT] s t) ∧
    (∀ s : State, s.bd.supplyWarn = false → (s.bd.inColdReset = true ∨ s.bd.inWarmReset = true) →
      exec .supplyWarnRise s = .next (s.setBd { s.bd with supplyWarn := true }))) ∧
  (
    ∀ s : State, s.bd.supplyWarn = true → s.bd.inColdReset = false → s.bd.inWarmReset = false →
      ∃ t, exec .supplyWarnFall s = .next t ∧ t.bd = { s.bd with
          supplyWarn := false, warnLowAt := some s.fclk, releaseLen := 1600 * max 16 (s.getF Reg.CK_HOLD_CFG 0 10) } ∧
        t.getB Reg.CK_STATUS 4 = false ∧ sameExcept [.bd, .regs] s t ∧ regsKept [Reg.CK_STATUS] s t ∧
        ∀ i, i ≠ 4 → t.getB Reg.CK_STATUS i = s.getB Reg.CK_STATUS i)

/-- R356, R357 and R411: once SUPPLY_WARN has been low for RELEASE the supply hold ends at every headgate, unless a commanded hold
stays, and every headgate starts the scrub of both its stores at word 0; time has reached the end of the count. Only
CK_STATUS.HOLD changes of the registers. R357: a scrub reads the words of a store one after another, 8192 of the replay store
and 4096 of the resequencing buffer; an error-free word of a block that holds no packet changes nothing but the position,
which ends after the last word; a corrected one there is counted in HG_STORE_CORR as well (R189). That packets stand in the
blocks in order is the model's choice (log entry 15). -/
def Obligations.HoldReleaseAndScrubWalk : Prop :=
  (
    ∀ (s : State) (k : Nat), s.bd.warnLowAt = some k → s.bd.supplyHold = true → s.getB Reg.CK_STATUS 5 = true →
      ∃ t, exec .holdRelease s = .next t ∧ t.bd = { s.bd with supplyHold := false, warnLowAt := none } ∧
        t.fclk = max s.fclk (k + s.bd.releaseLen) ∧
        (∀ n : Hg, t.hgAt n = { s.hgAt n with
          hold := if s.bd.cmdHold then (s.hgAt n).hold else false, scrubReplay := some 0, scrubReseq := some 0 }) ∧
        t.getB Reg.CK_STATUS 5 = s.bd.cmdHold ∧
        sameExcept [.fclk, .bd, .regs, .hg] s t ∧ regsKept [Reg.CK_STATUS] s t ∧
        ∀ i, i ≠ 5 → t.getB Reg.CK_STATUS i = s.getB Reg.CK_STATUS i) ∧
  (
    (∀ (s : State) (n : Hg) (w : Nat), (s.hgAt n).scrubReplay = some w → ((s.hgAt n).store.map (fun p => p.pkt.blocks)).sum ≤ w / 8 →
      exec (.storeScrubWord n false .ok) s = .next (s.setHg n { s.hgAt n with
        scrubReplay := if w = 8191 then none else if w < 8191 then some (w + 1) else none })) ∧
    (∀ (s : State) (n : Hg) (w : Nat), (s.hgAt n).scrubReseq = some w → (s.hgAt n).rx = [] →
      exec (.storeScrubWord n true .ok) s = .next (s.setHg n { s.hgAt n with
        scrubReseq := if w = 4095 then none else if w < 4095 then some (w + 1) else none })) ∧
    (∀ (s : State) (n : Hg) (w : Nat), (s.hgAt n).scrubReplay = some w → (s.hgAt n).store = [] →
      ∃ t, exec (.storeScrubWord n false .corrected) s = .next t ∧
        (t.reg (Reg.HG_STORE_CORR n)).toNat = min ((s.reg (Reg.HG_STORE_CORR n)).toNat + 1) (2 ^ 32 - 1) ∧
        sameExcept [.hg, .regs] s t ∧ regsKept [Reg.HG_STORE_CORR n] s t ∧ hgsKept [n.val] s t))

/-- R435, Table 17-1, cold reset: every register is at its reset value but GL_BOOT.CAUSE, which holds the cause's code (Table
17-9); every unit, store, queue and record is as State.reset has it, the Reservoir zeroed; only the inputs of the boundary
keep their levels (a fall of ROOT_LOCK being one), and the TAP is in test mode exactly after TEST_ENTRY (R449). R435, Table
17-1, warm reset: it keeps the dividers (CK_STATUS[3:0]), the Reservoir's bytes and poison, the Rider's SRAM with image and
incident log, its count of trial failures, GL_RIDER_RESTARTS, HS_STATUS.FAILED, GL_LIFECYCLE and GL_FW_KEYS, a halt of the
Rider (R385), and the time input's own record (R196); every other register is at its reset value, GL_BOOT.CAUSE 4, and
headgates, routers, mailboxes, probes and alarms are as State.reset has them. Under cold reset nothing happens: the wider
reset governs. -/
def Obligations.ColdAndWarmResetKeepWhatTheTableKeeps : Prop :=
  (
    ∀ (s : State) (cause : ColdCause), ∃ t, exec (.coldReset cause) s = .next t ∧
      t = { State.reset with
        regs := t.regs
        bd := { State.reset.bd with
          time := s.bd.time, everValid := s.bd.time.valid, ownSec := s.bd.time.sec, ownNs := s.bd.time.ns
          rootLock := if cause = .rootLockFall then false else s.bd.rootLock, supplyWarn := s.bd.supplyWarn }
        tap := { State.reset.tap with testMode := if cause = .testEntry then true else false }
        freeCtr := s.freeCtr, pending := s.pending } ∧
      regsKept [Reg.GL_BOOT] State.reset t ∧
      t.getF Reg.GL_BOOT 4 3 = (match cause with | .pin => 0 | .supplyReset => 1 | .rootLockFall => 2 | .testEntry => 3) ∧
      (∀ i, i < 4 ∨ 7 ≤ i → t.getB Reg.GL_BOOT i = State.reset.getB Reg.GL_BOOT i) ∧
      (∀ o, Memory.read t.rv.mem o = 0)) ∧
  (
    (∀ s : State, s.bd.inColdReset = false → ∃ t, exec .warmReset s = .next t ∧
      t.getF Reg.CK_STATUS 0 4 = s.getF Reg.CK_STATUS 0 4 ∧ (∀ i, 4 ≤ i → t.getB Reg.CK_STATUS i = State.reset.getB Reg.CK_STATUS i) ∧
      t.rv = { State.reset.rv with mem := s.rv.mem, poison := s.rv.poison } ∧
      t.rd.sram = s.rd.sram ∧ t.rd.image = s.rd.image ∧ t.rd.loadArea = s.rd.loadArea ∧ t.rd.circle = s.rd.circle ∧
      t.rd.pinned = s.rd.pinned ∧ t.rd.trials = s.rd.trials ∧ t.bd.everValid = s.bd.everValid ∧
      t.bd.ownSec = s.bd.ownSec ∧ t.bd.ownNs = s.bd.ownNs ∧ t.bd.ownAt = s.bd.ownAt ∧ t.rd.fifo = [] ∧ t.rd.active = none ∧
      t.reg Reg.GL_RIDER_RESTARTS = s.reg Reg.GL_RIDER_RESTARTS ∧ t.reg Reg.GL_LIFECYCLE = s.reg Reg.GL_LIFECYCLE ∧
      t.reg Reg.GL_FW_KEYS = s.reg Reg.GL_FW_KEYS ∧ (∀ k : Sl, t.getB (Reg.HS_STATUS k) 0 = s.getB (Reg.HS_STATUS k) 0) ∧
      t.getB Reg.GL_RIDER_STATUS 1 = s.getB Reg.GL_RIDER_STATUS 1 ∧ t.getF Reg.GL_BOOT 4 3 = 4 ∧ t.bd.inWarmReset = true ∧
      regsKept ([Reg.CK_STATUS, Reg.GL_RIDER_RESTARTS, Reg.GL_LIFECYCLE, Reg.GL_FW_KEYS, Reg.GL_RIDER_STATUS, Reg.GL_BOOT] ++
        (List.range 17).map Reg.HS_STATUS) State.reset t ∧
      t.hg = [] ∧ t.rt = [] ∧ t.mb = [] ∧ t.wires = [] ∧ t.credits = [] ∧ t.pr = State.reset.pr ∧ t.al = State.reset.al ∧
      t.fclk = s.fclk ∧ t.tap = s.tap ∧ t.pending = s.pending) ∧
    (∀ s : State, s.bd.inColdReset = true → exec .warmReset s = .next s))

/-- R439, R443, Table 17-2: leaving cold reset with ROOT_LOCK high samples the fuses into GL_LIFECYCLE (STATE 0 OPEN, 1 SEALED, 2
RETIRED for either other code; FUSES in [3:2]) and GL_FW_KEYS, starts the dividers, and begins step 2 as a cold start; leaving
warm reset keeps the fuses and the dividers and begins step 2 as a warm start (GL_BOOT[7]). CK_TURN_STATUS shows TIME_VALID in
[1] and holdover in [2]. Nothing else changes. The command stays without effect while cold reset finds ROOT_LOCK low. R440,
R442, R447, R449 and Tables 17-3 and 17-9: the self-test's end in step 2. FAIL_COUNT counts the failures of a cold start (at
most 255) and the first gives FAIL_UNIT and FAIL_KIND. In test mode the sequence stops there; in RETIRED it stops (stage 11);
a failure of a Reservoir bank, of the Rider SRAM or of headgates 149 to 151 halts the Rider (stage 10, HALTED, RIDER_EVT in
every mailbox); otherwise the ROM begins mesh bring-up (stage 4) with the failing routers out of service, the failing trace
banks never armed and the failing slices FAILED. The stage numbers 10 and 11 of those stops are as Table 17-9 has them. R439,
R440, steps 5 and 6: after 2 x SILENCE cycles the boot path is written, and the ROM serves mailboxes 0 and 1 (stage 6).
Headgates 149 and 150 admit requests; toward headgate 151 and the Reservoir ports 117 to 124 they hold the decode slot of the
default window, an enabled pair and a grant of the floor allotment of one. A protection slot there that is not locked covers
the same window and gives group 1, theirs, READ and WRITE; a locked one stays (R308). No register below the headgates' blocks
but GL_BOOT changes. -/
def Obligations.StartupStagesFollowTheTable : Prop :=
  (
    (∀ (s : State) (lc : BitVec 2) (rev : BitVec 4) (svn : BitVec 16), s.bd.inColdReset = true → s.bd.rootLock = true →
      s.bd.supplyWarn = false →
      ∃ t, exec (.resetRelease lc rev svn) s = .next t ∧
        t.getF Reg.GL_LIFECYCLE 0 2 = (if lc = 0 then 0 else if lc = 1 then 1 else 2) ∧ t.getF Reg.GL_LIFECYCLE 2 2 = lc.toNat ∧
        t.getF Reg.GL_FW_KEYS 0 4 = rev.toNat ∧ t.getF Reg.GL_FW_KEYS 4 16 = svn.toNat ∧ t.getF Reg.CK_STATUS 0 4 = 0xF ∧
        t.getF Reg.GL_BOOT 0 4 = 2 ∧ t.getB Reg.GL_BOOT 7 = false ∧ t.getB Reg.CK_TURN_STATUS 1 = s.bd.time.valid ∧
        t.getB Reg.CK_TURN_STATUS 2 = (s.bd.everValid && !s.bd.time.valid) ∧
        t.bd = { s.bd with inColdReset := false, inWarmReset := false } ∧ sameExcept [.regs, .bd] s t ∧
        regsKept [Reg.GL_LIFECYCLE, Reg.GL_FW_KEYS, Reg.CK_STATUS, Reg.GL_BOOT, Reg.CK_TURN_STATUS] s t) ∧
    (∀ (s : State) (lc : BitVec 2) (rev : BitVec 4) (svn : BitVec 16), s.bd.inColdReset = false → s.bd.inWarmReset = true →
      s.bd.supplyWarn = false →
      ∃ t, exec (.resetRelease lc rev svn) s = .next t ∧
        t.getF Reg.GL_BOOT 0 4 = 2 ∧ t.getB Reg.GL_BOOT 7 = true ∧ t.getB Reg.CK_TURN_STATUS 1 = s.bd.time.valid ∧
        t.getB Reg.CK_TURN_STATUS 2 = (s.bd.everValid && !s.bd.time.valid) ∧
        t.bd = { s.bd with inWarmReset := false } ∧ sameExcept [.regs, .bd] s t ∧ regsKept [Reg.GL_BOOT, Reg.CK_TURN_STATUS] s t) ∧
    (∀ (s : State) (lc : BitVec 2) (rev : BitVec 4) (svn : BitVec 16), s.bd.inColdReset = true → s.bd.rootLock = false →
      exec (.resetRelease lc rev svn) s = .next s)) ∧
  (
    (∀ (s : State) (fails : List TestFail), s.getF Reg.GL_BOOT 0 4 = 2 → s.bd.inColdReset = false → s.bd.inWarmReset = false →
      s.getB Reg.GL_BOOT 7 = false → s.tap.testMode = false → s.getF Reg.GL_LIFECYCLE 0 2 ≠ 2 → s.getB Reg.GL_RIDER_STATUS 1 = false →
      (∀ f ∈ fails, (∀ n, f ≠ .reservoirBank n) ∧ f ≠ .riderSram ∧ ∀ n : Hg, f = .headgateStore n → n.val < 149 ∨ 151 < n.val) →
      ∃ t, exec (.selfTestDone fails) s = .next t ∧ t.getF Reg.GL_BOOT 0 4 = 4 ∧ t.getF Reg.GL_BOOT 8 8 = min 255 fails.length ∧
        t.bd.testFails = fails ∧
        (∀ i : Rt, .routerBuffers i ∈ fails → i.val ∈ t.rd.outOfService) ∧ (∀ b : Fin 8, .traceBank b ∈ fails → b.val ∈ t.pr.failedBanks) ∧
        (∀ k : Sl, .directory k ∈ fails → t.getB (Reg.HS_STATUS k) 0 = true ∧ (t.hsAt k).failedAt = some s.fclk) ∧
        t.mb = s.mb ∧ t.rv = s.rv ∧ t.fclk = s.fclk) ∧
    (∀ (s : State) (fails : List TestFail), s.getF Reg.GL_BOOT 0 4 = 2 → s.bd.inColdReset = false → s.bd.inWarmReset = false →
      s.getB Reg.GL_BOOT 7 = false → s.tap.testMode = false → s.getF Reg.GL_LIFECYCLE 0 2 ≠ 2 → s.getB Reg.GL_RIDER_STATUS 1 = false →
      (∃ f ∈ fails, (∃ n, f = .reservoirBank n) ∨ f = .riderSram ∨ ∃ n : Hg, f = .headgateStore n ∧ 149 ≤ n.val ∧ n.val ≤ 151) →
      ∃ t, exec (.selfTestDone fails) s = .next t ∧ t.getF Reg.GL_BOOT 0 4 = 10 ∧ t.getB Reg.GL_RIDER_STATUS 1 = true ∧
        t.getF Reg.GL_BOOT 8 8 = min 255 fails.length ∧ (∀ m : Mbx, (t.mbAt m).riderEvt = true) ∧
        sameExcept [.regs, .bd, .rd, .mb] s t ∧ regsKept [Reg.GL_BOOT, Reg.GL_RIDER_STATUS] s t) ∧
    (∀ (s : State) (fails : List TestFail), s.getF Reg.GL_BOOT 0 4 = 2 → s.bd.inColdReset = false → s.bd.inWarmReset = false →
      s.tap.testMode = false → s.getF Reg.GL_LIFECYCLE 0 2 = 2 →
      ∃ t, exec (.selfTestDone fails) s = .next t ∧ t.getF Reg.GL_BOOT 0 4 = 11 ∧ sameExcept [.regs, .bd] s t ∧
        regsKept [Reg.GL_BOOT] s t) ∧
    (∀ (s : State) (fails : List TestFail), s.getF Reg.GL_BOOT 0 4 = 2 → s.bd.inColdReset = false → s.bd.inWarmReset = false →
      s.tap.testMode = true →
      ∃ t, exec (.selfTestDone fails) s = .next t ∧ t.getF Reg.GL_BOOT 0 4 = 2 ∧ sameExcept [.regs, .bd] s t ∧
        regsKept [Reg.GL_BOOT] s t)) ∧
  (
    ∀ s : State, s.getF Reg.GL_BOOT 0 4 = 4 → s.getB Reg.GL_BOOT 7 = false →
      ∃ t, exec .meshBringupDone s = .next t ∧ t.getF Reg.GL_BOOT 0 4 = 6 ∧ t.fclk = s.fclk + 2 * 1024 ∧
        (∀ n ∈ [149, 150], t.getB (Reg.HG_ADMIT n) 0 = true) ∧
        (∀ n : Hg, n.val ≠ 149 → n.val ≠ 150 → t.reg (Reg.HG_ADMIT n) = s.reg (Reg.HG_ADMIT n)) ∧
        (∀ n ∈ [149, 150], ∀ k ∈ [117, 118, 119, 120, 121, 122, 123, 124, 151],
          t.getB (Reg.HG_DEC_SLOT_w0 n k) 63 = true ∧
          t.getF (Reg.HG_DEC_SLOT_w0 n k) 0 48 = (if k = 151 then 0xFF00000000 else 0x1000000000 + (k - 117) * 0x200000) ∧
          (t.reg (Reg.HG_DEC_SLOT_w1 n k)).toNat = (if k = 151 then 0x1000000 else 0x200000) ∧
          t.getF (Reg.HG_ALLOT n k) 0 10 = 1 ∧ t.getB (Reg.HG_ALLOT n k) 36 = true ∧ t.getF (Reg.HG_GRANT k n) 0 10 = 1 ∧
          (s.getB (Reg.HG_PROT_CTRL k) 1 = false → t.reg (Reg.HG_PROT_BASE k) = BitVec.ofNat 64 (t.getF (Reg.HG_DEC_SLOT_w0 n k) 0 48) ∧
            t.reg (Reg.HG_PROT_SIZE k) = t.reg (Reg.HG_DEC_SLOT_w1 n k) ∧
            (t.reg (Reg.HG_PROT_RIGHTS k 1)).toNat = 3 ∧ (t.reg (Reg.HG_PROT_GROUP k n)).toNat = 1) ∧
          (s.getB (Reg.HG_PROT_CTRL k) 1 = true → t.reg (Reg.HG_PROT_BASE k) = s.reg (Reg.HG_PROT_BASE k) ∧
            t.reg (Reg.HG_PROT_SIZE k) = s.reg (Reg.HG_PROT_SIZE k) ∧ t.reg (Reg.HG_PROT_RIGHTS k 1) = s.reg (Reg.HG_PROT_RIGHTS k 1) ∧
            t.reg (Reg.HG_PROT_GROUP k n) = s.reg (Reg.HG_PROT_GROUP k n))) ∧
        sameExcept [.fclk, .regs, .hg] s t ∧ ∀ o, o < 0x200000 → o ≠ Reg.GL_BOOT → t.reg o = s.reg o)

/-- R436, ROUTER_RESET: refused (REFUSED of GL_UNIT_RESET set) unless every port of the router and every port facing it is
disabled, and, by the model's choice (log entry 23), while another unit reset runs; otherwise it clears the router's buffers,
credits and arbiters and RT_CTRL, RT_PORT_STATUS and RT_FAULT, with BUSY for 64 FCLK cycles, and keeps its maps, configuration
and counters. The request's UNIT and KIND 0 stand in GL_UNIT_RESET in both cases. R437, HEADGATE_LOGIC_RESET: refused unless
HG_LEVEE.TGT and ISO_INIT are set and both links disabled (and, by the model's choice, while another unit reset runs, log
entry 23); otherwise, with BUSY for 8192 FCLK cycles, it empties the replay store, the resequencing buffer and Paceline's
staging and buffers, forgets every pair's sequence state, the contexts, tags and locks, zeroes HG_EPOCH.CUR and the credit
counts of HG_ALLOT and HG_GRANT, and fills the weirs; other headgates, and HG_CFG, decode slots and the protection slot, stay.
R436, R437: a unit reset that runs ends at its cycle: BUSY clears and nothing else changes but time, which has reached that
cycle. An end of the other kind of unit changes nothing. R444: when the fuse write has finished, the request is withdrawn, its
busy bit in GL_LIFECYCLE clears and STATE takes the state the fuses written stand for (SEALED for LC_PROG_VAL 01, otherwise
RETIRED); nothing else changes. -/
def Obligations.UnitResetsAndFuseWritesEnd : Prop :=
  (
    (∀ (s : State) (i : Rt), s.bd.unitBusy = none →
      (∀ p : Port, s.enabled (.rt i p) = false ∧ ∀ f, (LEnd.rt i p).far = some f → s.enabled f = false) →
      ∃ t, exec (.routerReset i) s = .next t ∧ t.rtAt i = Router.reset ∧ rtsKept [i.val] s t ∧
        t.reg (Reg.RT_CTRL i) = State.reset.reg (Reg.RT_CTRL i) ∧
        t.reg (Reg.RT_PORT_STATUS i) = State.reset.reg (Reg.RT_PORT_STATUS i) ∧
        t.reg (Reg.RT_FAULT i) = State.reset.reg (Reg.RT_FAULT i) ∧
        t.getF Reg.GL_UNIT_RESET 0 8 = i.val ∧ t.getB Reg.GL_UNIT_RESET 8 = false ∧ t.getB Reg.GL_UNIT_RESET 10 = true ∧
        t.getB Reg.GL_UNIT_RESET 11 = false ∧ t.bd = { s.bd with unitBusy := some (false, i.val, s.fclk + 64) } ∧
        sameExcept [.regs, .rt, .bd] s t ∧ regsKept [Reg.GL_UNIT_RESET, Reg.RT_CTRL i, Reg.RT_PORT_STATUS i, Reg.RT_FAULT i] s t) ∧
    (∀ (s : State) (i : Rt), (s.bd.unitBusy ≠ none ∨ ∃ p : Port, s.enabled (.rt i p) = true) →
      ∃ t, exec (.routerReset i) s = .next t ∧ t.getB Reg.GL_UNIT_RESET 11 = true ∧ t.getF Reg.GL_UNIT_RESET 0 8 = i.val ∧
        t.getB Reg.GL_UNIT_RESET 8 = false ∧ sameExcept [.regs] s t ∧ regsKept [Reg.GL_UNIT_RESET] s t)) ∧
  (
    (∀ (s : State) (n : Hg), s.bd.unitBusy = none → s.getB (Reg.HG_LEVEE n) 0 = true → s.getB (Reg.HG_LEVEE n) 2 = true →
      s.enabled (.hg n 0) = false → s.enabled (.hg n 1) = false →
      ∃ t, exec (.headgateLogicReset n) s = .next t ∧ (t.hgAt n).store = [] ∧ (t.hgAt n).rx = [] ∧ (t.hgAt n).tx = [] ∧
        (t.hgAt n).ctxs = [] ∧ (t.hgAt n).txns = [] ∧ (t.hgAt n).reqs = [] ∧ (t.hgAt n).lock = LockMgr.reset ∧
        (∀ x ∈ (t.hgAt n).chans, x.2.held = [] ∧ x.2.relay = [] ∧ x.2.buffered = 0) ∧
        (t.hgAt n).entries = (s.hgAt n).entries ∧ (t.hgAt n).portLive = (s.hgAt n).portLive ∧
        t.getF (Reg.HG_EPOCH n) 0 4 = 0 ∧
        (∀ k : Hg, t.getF (Reg.HG_ALLOT n k) 20 16 = 0 ∧ t.getF (Reg.HG_ALLOT n k) 0 10 = s.getF (Reg.HG_ALLOT n k) 0 10 ∧
          t.getF (Reg.HG_GRANT n k) 20 16 = 0 ∧ t.getF (Reg.HG_GRANT n k) 0 10 = s.getF (Reg.HG_GRANT n k) 0 10 ∧
          Tab.get (t.hgAt n).taken 0 k = s.getF (Reg.HG_ALLOT n k) 0 10) ∧
        t.reg (Reg.HG_CFG n) = s.reg (Reg.HG_CFG n) ∧
        (∀ k : Hg, t.reg (Reg.HG_DEC_SLOT_w0 n k) = s.reg (Reg.HG_DEC_SLOT_w0 n k)) ∧
        t.reg (Reg.HG_PROT_BASE n) = s.reg (Reg.HG_PROT_BASE n) ∧
        t.getF Reg.GL_UNIT_RESET 0 8 = n.val ∧ t.getB Reg.GL_UNIT_RESET 8 = true ∧ t.getB Reg.GL_UNIT_RESET 10 = true ∧
        t.getB Reg.GL_UNIT_RESET 11 = false ∧ t.bd = { s.bd with unitBusy := some (true, n.val, s.fclk + 8192) } ∧
        sameExcept [.regs, .hg, .bd] s t ∧ hgsKept [n.val] s t ∧ (∀ o, o < 0x200000 → o ≠ Reg.GL_UNIT_RESET → t.reg o = s.reg o)) ∧
    (∀ (s : State) (n : Hg), (s.bd.unitBusy ≠ none ∨ s.getB (Reg.HG_LEVEE n) 0 = false ∨ s.getB (Reg.HG_LEVEE n) 2 = false ∨
        s.enabled (.hg n 0) = true ∨ s.enabled (.hg n 1) = true) →
      ∃ t, exec (.headgateLogicReset n) s = .next t ∧ t.getB Reg.GL_UNIT_RESET 11 = true ∧ t.getF Reg.GL_UNIT_RESET 0 8 = n.val ∧
        t.getB Reg.GL_UNIT_RESET 8 = true ∧ sameExcept [.regs] s t ∧ regsKept [Reg.GL_UNIT_RESET] s t)) ∧
  (
    (∀ (s : State) (u k : Nat), s.bd.unitBusy = some (false, u, k) →
      exec .headgateLogicResetDone s = .next s ∧
      ∃ t, exec .routerResetDone s = .next t ∧ t.fclk = max s.fclk k ∧ t.getB Reg.GL_UNIT_RESET 10 = false ∧
        t.bd = { s.bd with unitBusy := none } ∧ sameExcept [.fclk, .regs, .bd] s t ∧ regsKept [Reg.GL_UNIT_RESET] s t ∧
        ∀ i, i ≠ 10 → t.getB Reg.GL_UNIT_RESET i = s.getB Reg.GL_UNIT_RESET i) ∧
    (∀ (s : State) (u k : Nat), s.bd.unitBusy = some (true, u, k) →
      exec .routerResetDone s = .next s ∧
      ∃ t, exec .headgateLogicResetDone s = .next t ∧ t.fclk = max s.fclk k ∧ t.getB Reg.GL_UNIT_RESET 10 = false ∧
        t.bd = { s.bd with unitBusy := none } ∧ sameExcept [.fclk, .regs, .bd] s t ∧ regsKept [Reg.GL_UNIT_RESET] s t ∧
        ∀ i, i ≠ 10 → t.getB Reg.GL_UNIT_RESET i = s.getB Reg.GL_UNIT_RESET i)) ∧
  (
    ∀ s : State, s.bd.lcProgReq = true →
      ∃ t, exec .lcProgDone s = .next t ∧ t.getF Reg.GL_LIFECYCLE 0 2 = (if s.bd.lcProgVal = 1 then 1 else 2) ∧
        t.getB Reg.GL_LIFECYCLE 4 = false ∧ t.bd = { s.bd with lcProgReq := false } ∧
        sameExcept [.regs, .bd] s t ∧ regsKept [Reg.GL_LIFECYCLE] s t)

/-- R479: a trigger stores nothing. A write of 1 by the Rider is the action (the same command's own effect, with the fields of the
same write stored first), a write of 0 stores at most those fields, and a write by any other writer is refused and counted.
R385, R479: the watchdog kick starts the count again in this cycle, or, halted by debug, leaves it standing at zero; nothing
else changes. R343: writing CLR of HG_SLUICE or CK_MERGE clears the merge counters [11:0] of that register alone. R416: a
snapshot copies every live probe counter into its register and raises SNAP_SEQ by one; the live counters go on. -/
def Obligations.TriggersActOnce : Prop :=
  (
    ∀ (s : State) (n : Hg) (k : Sl) (w : Word), canonical s →
      (bit w 4 = true → exec (.registerWrite .rider (BitVec.ofNat 24 (Reg.HG_EPOCH n)) w 0xFF) s = exec (.epochAdvance n) s) ∧
      (bit w 4 = false → exec (.registerWrite .rider (BitVec.ofNat 24 (Reg.HG_EPOCH n)) w 0xFF) s = .next s) ∧
      (bit w 9 = true → exec (.registerWrite .rider (BitVec.ofNat 24 (Reg.HG_REPLAY_CMD n)) w 0xFF) s =
        exec (.replayCmdGo n (w.extractLsb' 0 8) (bit w 8)) s) ∧
      (bit w 8 = true → ∃ u, exec (.pairResetHold n (w.extractLsb' 0 8) (bit w 10)) s = .next u ∧
        exec (.registerWrite .rider (BitVec.ofNat 24 (Reg.HG_PAIR_RESET n)) w 0xFF) s = exec (.pairResetGo n (w.extractLsb' 0 8)) u) ∧
      (bit w 8 = false → exec (.registerWrite .rider (BitVec.ofNat 24 (Reg.HG_PAIR_RESET n)) w 0xFF) s =
        exec (.pairResetHold n (w.extractLsb' 0 8) (bit w 10)) s) ∧
      (bit w 4 = true → exec (.registerWrite .rider (BitVec.ofNat 24 (Reg.HS_SWEEP k)) w 0xFF) s =
        exec (.hsSweepGo k (w.extractLsb' 0 4)) s) ∧
      (∃ u, exec (.registerWrite .rider (BitVec.ofNat 24 Reg.GL_RIDER_WDOG) (w &&& 0xFFFF) 0xFF) s = .next u ∧
        u.getF Reg.GL_RIDER_WDOG 0 16 = field w 0 16 ∧ sameExcept [.regs] s u ∧ regsKept [Reg.GL_RIDER_WDOG] s u ∧
        (bit w 16 = true →
          exec (.registerWrite .rider (BitVec.ofNat 24 Reg.GL_RIDER_WDOG) w 0xFF) s = exec .watchdogKick u)) ∧
      (∀ (src : Hg) (c : Ctx), ∀ off ∈ [Reg.HG_EPOCH n, Reg.HG_REPLAY_CMD n, Reg.HG_PAIR_RESET n, Reg.HS_SWEEP k, Reg.GL_RIDER_WDOG],
        ∃ t, exec (.registerWrite (.client src c false) (BitVec.ofNat 24 off) w 0xFF) s = .next t ∧
          t.reg off = s.reg off ∧ sameExcept [.regs] s t ∧ regsKept [Reg.GL_FCS_REFUSE, Reg.GL_FCS_PORT] s t)) ∧
  (
    ∀ s : State, ∃ t, exec .watchdogKick s = .next t ∧
      t.rd = { s.rd with wdogAt := if s.rd.debugHalt = true then 0 else s.fclk } ∧ sameExcept [.rd] s t) ∧
  (
    ∀ (s : State) (hg : Option Hg), ∃ t, exec (.mergeClear hg) s = .next t ∧
      (∀ off, off = (match hg with | some n => Reg.HG_SLUICE n | none => Reg.CK_MERGE) →
        t.getF off 0 12 = 0 ∧ (∀ i, 12 ≤ i → t.getB off i = s.getB off i) ∧ sameExcept [.regs] s t ∧ regsKept [off] s t)) ∧
  (
    ∀ s : State, (s.pr.live.map Prod.fst).Nodup → (∀ x ∈ s.pr.live, x.1 < 2480) →
      ∃ t, exec .snapshot s = .next t ∧ (∀ x ∈ s.pr.live, t.reg (snapReg x.1) = x.2.setWidth 64) ∧
        t.getF Reg.PR_STATUS 0 16 = (s.getF Reg.PR_STATUS 0 16 + 1) % 65536 ∧ sameExcept [.regs] s t ∧
        regsKept (Reg.PR_STATUS :: s.pr.live.map (fun x => snapReg x.1)) s t)

/-- R7, R453, R454, a write by the Rider to a register of the Reservoir block or of the probe block's CAM, whose fields have no
action of their own: every enabled byte of an RW, RDR or unlocked RWL field takes the written value, every RW1C bit written
with 1 in an enabled byte clears, every other bit stays, and nothing else changes. A write to an offset without a register
changes nothing at all. R308: while LOCK of a headgate's protection slot is set, no write by the Rider, to no register of the
slot, changes anything. -/
def Obligations.RegisterWritesFollowAccessAndLocks : Prop :=
  (
    (∀ (s : State) (off : BitVec 24) (v : Word) (be : BitVec 8) (r : RegSpec) (k j : Nat), off.toNat % 8 = 0 →
      (0xD0000 ≤ off.toNat ∧ off.toNat < 0xE0000 ∨ 0x42000 ≤ off.toNat ∧ off.toNat < 0x44000) →
      regAt off.toNat = some (r, k, j) →
      ∃ t, exec (.registerWrite .rider off v be) s = .next t ∧ sameExcept [.regs] s t ∧ regsKept [off.toNat] s t ∧
        ∀ i, i < 64 → (t.reg off.toNat).getLsbD i =
          (if be.getLsbD (i / 8) = true ∧ (BitVec.ofNat 64 r.w1c).getLsbD i = true then (s.reg off.toNat).getLsbD i && !v.getLsbD i
           else if be.getLsbD (i / 8) = true ∧ ((BitVec.ofNat 64 r.rw).getLsbD i || (BitVec.ofNat 64 r.rdr).getLsbD i) = true then v.getLsbD i
           else (s.reg off.toNat).getLsbD i)) ∧
    (∀ (s : State) (off : BitVec 24) (v : Word) (be : BitVec 8), off.toNat < 0x800000 →
      (0xC4000 ≤ off.toNat ∧ off.toNat < 0xD0000 ∨ 0xE0000 ≤ off.toNat ∧ off.toNat < 0x100000 ∨
       0x164000 ≤ off.toNat ∧ off.toNat < 0x200000 ∨ 0x480000 ≤ off.toNat) →
      exec (.registerWrite .rider off v be) s = .next s)) ∧
  (
    ∀ (s : State) (n : Hg) (off : BitVec 24) (v : Word) (be : BitVec 8), s.getB (Reg.HG_PROT_CTRL n) 1 = true →
      Reg.HG_PROT_CTRL n / 0x1000 = off.toNat / 0x1000 → exec (.registerWrite .rider off v be) s = .next s)

/-- R8, R456, R457, R461, Table 14-1: outside OPEN a client's write to a register that is not in the part of a mailbox window
bound to it is performed not at all: GL_FCS_REFUSE counts it, GL_FCS_PORT names it, and, where it was posted, headgate 151
raises POSTED_DROP (0x45) for its source; nothing else changes. R9, R463: a read of CK_TIME_SEC returns the time input's
seconds and VALID and latches its nanoseconds into CK_TIME_NS; a read of HS_DIR_ENTRY returns the entry HS_DIR_SEL selects and
changes nothing but the port's answer. R453, R454, R456, R54: the oldest access at headgate 151 that passed its slot is
performed whole, at its offset from the FCS base of headgate 151's own slot (log entry 36). An RD of one aligned word outside
the mailbox words the binding guards (and not CK_TIME_SEC) is answered OK with DONE 8 and the register's value in its lanes,
the lanes outside the range free (log entry 10); a WR of one aligned word that Table 14-1 allows writes its enabled bytes and
is answered OK with DONE 8. With nothing to perform, or with headgate 151 leveed, nothing happens. -/
def Obligations.FcsPortAnswersClients : Prop :=
  (
    ∀ (s : State) (n : Hg) (c : Ctx) (posted : Bool) (off : BitVec 24) (v : Word) (be : BitVec 8), off.toNat % 8 = 0 →
      s.getF Reg.GL_LIFECYCLE 0 2 ≠ 0 → (regAt off.toNat).isSome = true → (off.toNat < 0x20000 ∨ 0x40000 ≤ off.toNat) →
      ∃ t, exec (.registerWrite (.client n c posted) off v be) s = .next t ∧
        (t.reg Reg.GL_FCS_REFUSE).toNat = (min 0xFFFFFFFF ((s.reg Reg.GL_FCS_REFUSE).toNat + 1)) % 2 ^ 64 ∧
        t.getF Reg.GL_FCS_PORT 0 24 = off.toNat ∧ t.getF Reg.GL_FCS_PORT 24 8 = n.val ∧ t.getF Reg.GL_FCS_PORT 32 6 = c.toNat ∧
        t.getB Reg.GL_FCS_PORT 38 = posted ∧ t.getB Reg.GL_FCS_PORT 39 = false ∧ t.getB Reg.GL_FCS_PORT 40 = true ∧
        regsKept [Reg.GL_FCS_REFUSE, Reg.GL_FCS_PORT] s t ∧
        (posted = false → sameExcept [.regs] s t) ∧
        (posted = true → sameExcept [.regs, .al] s t ∧
          t.al = alarmEvent s.al s.fclk 251 0x45 151 (BitVec.ofNat 64 (n.val + c.toNat * 2 ^ 8)))) ∧
  (
    (∀ s : State, ∃ t, exec .timeSecRead s = .next t ∧ t.reg Reg.CK_TIME_NS = s.bd.time.ns.setWidth 64 ∧
      (∃ w, t.fcsRead = some (BitVec.ofNat 24 Reg.CK_TIME_SEC, w) ∧ field w 0 48 = s.bd.time.sec.toNat ∧ bit w 48 = s.bd.time.valid) ∧
      sameExcept [.regs, .fcsRead] s t ∧ regsKept [Reg.CK_TIME_NS] s t) ∧
    (∀ (s : State) (k : Sl), ∃ t, exec (.dirEntryRead k) s = .next t ∧
      t.fcsRead = some (BitVec.ofNat 24 (Reg.HS_DIR_ENTRY k), regRead s (Reg.HS_DIR_ENTRY k)) ∧ sameExcept [.fcsRead] s t)) ∧
  (
    (∀ (s : State) (e : Entry), s.getB (Reg.HG_LEVEE 151) 0 = false →
      (s.hgAt 151).entries.find? (fun e => e.checked && decide (e.phase = .waiting)) = some e →
      e.op = opRD → e.bytes = 7 → e.lo.toNat % 8 = 0 → e.partDenied = false → boundWord (fcsOffset s e.lo.toNat) = false →
      fcsOffset s e.lo.toNat ≠ Reg.CK_TIME_SEC →
      ∃ (d : DBeat) (t : State), exec .fcsAccess s = .next t ∧
        t = settleTarget (answer { s with freeCtr := s.freeCtr + 1 } 151 e.id ocOK 8 [d]) 151 ∧ d.poison = false ∧
        wordOf d.data (e.lo.toNat % 64 / 8) = clientRead s (fcsOffset s e.lo.toNat)) ∧
    (∀ (s : State) (e : Entry) (b : Beat), s.getB (Reg.HG_LEVEE 151) 0 = false →
      (s.hgAt 151).entries.find? (fun e => e.checked && decide (e.phase = .waiting)) = some e →
      e.op = opWR → e.bytes = 7 → e.lo.toNat % 8 = 0 → e.partDenied = false → boundWord (fcsOffset s e.lo.toNat) = false →
      classAllows s (fcsOffset s e.lo.toNat) = true → entryBeats e = [b] → b.poison = false →
      ∃ (u t : State), exec .fcsAccess s = .next t ∧
        exec (.registerWrite .rider (BitVec.ofNat 24 (fcsOffset s e.lo.toNat)) (wordOf b.data (e.lo.toNat % 64 / 8))
          (b.be.extractLsb' (e.lo.toNat % 64) 8)) s = .next u ∧
        t = settleTarget (answer u 151 e.id ocOK 8 []) 151) ∧
    (∀ s : State, s.getB (Reg.HG_LEVEE 151) 0 = true → exec .fcsAccess s = .next s) ∧
    (∀ s : State, s.getB (Reg.HG_LEVEE 151) 0 = false → (∀ e ∈ (s.hgAt 151).entries, e.checked = true → e.phase ≠ .waiting) →
      exec .fcsAccess s = .next s))

/-- R27, R28: headgates 100 to 124 and 151 present no HAI, and headgates 40 to 55 alone present the snoop channels; a command of a
channel a headgate does not have is refused by name, at every other headgate it is carried out. R33, R42, R74, R132, R352: a
request on REQ whose channel may transfer (PORT_LIVE, ACLK, no dead cycle) moves exactly where REQ_READY is high; the headgate
then holds it, with what steps 1 to 3 of R132 found, behind the requests it holds. A request held for a wake sets WAKE_HELD of
its headgate and WAKE_PEND of every domain it is closed toward; otherwise nothing else changes. In the dead cycle after an
abort, with PORT_LIVE low or with ACLK stopped nothing moves. R41, R73, R74: a WDATA beat joins the write in progress, which
ends with the beat that brings WDATA_LAST; an abort withdraws that write, counts in HG_HAI_ABORT and begins a dead cycle of
one ACLK cycle, in which nothing moves; without a write in progress neither changes anything. (The write aborted is of a
request not held for a wake.) -/
def Obligations.RequestsEnterAtTheHai : Prop :=
  (
    ∀ (s : State) (n : Hg),
      (((100 ≤ n.val ∧ n.val ≤ 124) ∨ n.val = 151) →
        (∀ r, exec (.reqTransfer n r) s = .refused .noHai) ∧ (∀ b, exec (.wdataBeat n b) s = .refused .noHai) ∧
        exec (.wdataAbort n) s = .refused .noHai ∧ exec (.acceptance n) s = .refused .noHai ∧
        (∀ c, exec (.fenceComplete n c) s = .refused .noHai) ∧ (∀ k, exec (.rspTransfer n k) s = .refused .noHai) ∧
        exec (.msginTransfer n) s = .refused .noHai ∧ exec (.treqPresent n) s = .refused .noHai ∧
        exec (.twdataTransfer n) s = .refused .noHai ∧ (∀ i o bs, exec (.trspReceived n i o bs) s = .refused .noHai) ∧
        exec (.agentPortLiveFall n) s = .refused .noHai ∧ exec (.agentPortLiveRise n) s = .refused .noHai ∧
        (∀ k, exec (.siphonAbsorb n k) s = .refused .noHai) ∧ exec (.pwrAckRise n) s = .refused .noHai ∧
        exec (.pwrAckFall n) s = .refused .noHai ∧ (∀ l, exec (.aclkEnChange n l) s = .refused .noHai) ∧
        exec (.wakeLimitExpiry n) s = .refused .noHai) ∧
      ((n.val < 40 ∨ 55 < n.val) →
        exec (.snpTransfer n) s = .refused .notCaching ∧
        (∀ o x r m d l, exec (.snprspItem n o x r m d l) s = .refused .notCaching) ∧
        (∀ c g, exec (.cack n c g) s = .refused .notCaching)) ∧
      (¬(((100 ≤ n.val ∧ n.val ≤ 124) ∨ n.val = 151)) →
        ∀ c ∈ [Instr.wdataAbort n, .acceptance n, .msginTransfer n, .treqPresent n, .twdataTransfer n, .agentPortLiveFall n,
               .agentPortLiveRise n, .pwrAckRise n, .pwrAckFall n, .wakeLimitExpiry n], ∃ t, exec c s = .next t) ∧
      (40 ≤ n.val → n.val ≤ 55 → ∃ t, exec (.snpTransfer n) s = .next t)) ∧
  (
    (∀ (s : State) (n : Hg) (r : Req), hasHai n = true → (s.hgAt n).portLive = true → (s.hgAt n).aclkEn = true → inDead s n = false →
      reqReady s n (planReq s n r) = true →
      ∃ t, exec (.reqTransfer n r) s = .next t ∧ (t.hgAt n).reqs = (s.hgAt n).reqs ++ [planReq s n r] ∧
        ((∀ ds, (planReq s n r).verdict ≠ .held ds) → sameExcept [.hg] s t ∧ hgsKept [n.val] s t ∧
          t.hgAt n = { s.hgAt n with reqs := (s.hgAt n).reqs ++ [planReq s n r] }) ∧
        (∀ ds, (planReq s n r).verdict = .held ds → ∀ d ∈ ds,
          t.getB (Reg.HG_DOM_STATUS n) 7 = true ∧ t.getB (Reg.CK_DOM d) 5 = true ∧ (t.hgAt n).wakeHeld = some s.fclk ∧
          (s.getF (Reg.CK_DOM d) 1 3 = 4 → t.getF (Reg.CK_DOM d) 1 3 = 5))) ∧
    (∀ (s : State) (n : Hg) (r : Req), hasHai n = true → (s.hgAt n).portLive = true → (s.hgAt n).aclkEn = true → inDead s n = false →
      reqReady s n (planReq s n r) = false → exec (.reqTransfer n r) s = .next s) ∧
    (∀ (s : State) (n : Hg) (r : Req), hasHai n = true →
      ((s.hgAt n).portLive = false ∨ (s.hgAt n).aclkEn = false ∨ inDead s n = true) → exec (.reqTransfer n r) s = .next s)) ∧
  (
    (∀ (s : State) (n : Hg) (b : Beat) (last : Bool) (qs : List PendReq) (q : PendReq), hasHai n = true → (s.hgAt n).portLive = true →
      (s.hgAt n).aclkEn = true → inDead s n = false → (s.hgAt n).reqs = qs ++ [q] → q.whole = false →
      (∃ t, exec (.wdataBeat n ⟨b, last⟩) s = .next t ∧
        t.hgAt n = { s.hgAt n with reqs := qs ++ [{ q with beats := q.beats ++ [b], whole := last }] } ∧
        sameExcept [.hg] s t ∧ hgsKept [n.val] s t) ∧
      ((∀ ds, q.verdict ≠ .held ds) → ∃ t, exec (.wdataAbort n) s = .next t ∧
        t.hgAt n = { s.hgAt n with reqs := qs, dead := some (s.fclk + aclkCycles (s.hgAt n)) } ∧
        (t.reg (Reg.HG_HAI_ABORT n)).toNat = min 0xFFFFFFFF ((s.reg (Reg.HG_HAI_ABORT n)).toNat + 1) ∧
        sameExcept [.regs, .hg] s t ∧ hgsKept [n.val] s t ∧ regsKept [Reg.HG_HAI_ABORT n] s t)) ∧
    (∀ (s : State) (n : Hg) (b : Beat) (last : Bool) (qs : List PendReq) (q : PendReq), hasHai n = true →
      ((s.hgAt n).reqs = [] ∨ ((s.hgAt n).reqs = qs ++ [q] ∧ q.whole = true)) →
      exec (.wdataBeat n ⟨b, last⟩) s = .next s ∧ exec (.wdataAbort n) s = .next s) ∧
    (∀ (s : State) (n : Hg) (b : Beat) (last : Bool), hasHai n = true → inDead s n = true →
      exec (.wdataBeat n ⟨b, last⟩) s = .next s ∧ exec (.wdataAbort n) s = .next s))

/-- R132 to R138, R349, what steps 1 to 3 find: a lock opcode, an ATOM or a coherent opcode in more than one part is malformed; a
request at a headgate that does not admit or has ISO_INIT set is closed; one with a part toward a closed domain under REFUSE
is closed too, and one whose closed domains all stand under WAKE is held for each of them. The parts carry DENIED where the
pair is not enabled and DECODE_ERROR where no window or no valid map entry takes them. R40, R43 to R48, R76, R150, R345: the
oldest request is accepted once its last beat is there, a malformed one even where its target is closed: ACC names its context
and the context's tag, or, after an agent reset, HG_SOURCE_RESET counts it; the tag goes on modulo 256 (or starts at 0 again
where this was the last a reset context waited for), the request leaves, and the weir falls by the request's cost but not
below -8, or stays at BURST with RATE 0. Other contexts' tags and other headgates stay. With ACLK stopped the request waits,
and WAKE rises. R44, R45: while beats of the oldest request are missing, nothing is accepted. A well-formed request found
closed is refused: ACC with CLOSED and tag 0 (or nothing to see, after an agent reset), HG_CLOSED_CNT and the CLOSED event
count it, and nothing follows. R145, R40, Table 5-2: a request in one part toward a target whose pair is not enabled is
answered in its headgate with DENIED and counted in HG_DECODE_FAULT, no packet being stored; a posted one is dropped instead:
HG_POST_REFUSE counts it too, alarm 0x44 names it with reason 1, and no outcome follows. By log entry 8 the fault is counted
at acceptance. -/
def Obligations.RequestsAreJudgedAndAccepted : Prop :=
  (
    ∀ (s : State) (n : Hg) (r : Req),
      (∀ q, q = planReq s n r → (q.parts.length > 1 ∧ (r.op = opRDLK ∨ r.op = opWRUL ∨ r.op = opUNLK ∨ r.op = opATOM ∨ isCoherent r.op = true) →
          q.verdict = .malformed) ∧
        (q.verdict ≠ .malformed → (s.getB (Reg.HG_ADMIT n) 0 = false ∨ s.getB (Reg.HG_LEVEE n) 2 = true) → q.verdict = .closed) ∧
        (q.verdict ≠ .malformed → (∃ p ∈ q.parts, ∃ t d, p.target = .hg t ∧ closedDom s n t = some d ∧ s.getB (Reg.CK_DOM d) 0 = false) →
          q.verdict = .closed) ∧
        (q.verdict ≠ .malformed → s.getB (Reg.HG_ADMIT n) 0 = true → s.getB (Reg.HG_LEVEE n) 2 = false → s.rd.openPath = none →
          ((∀ p ∈ q.parts, ∀ t, p.target = .hg t → closedDom s n t = none) → q.verdict = .ok) ∧
          ((∃ p ∈ q.parts, ∃ t d, p.target = .hg t ∧ closedDom s n t = some d) →
            (∀ p ∈ q.parts, ∀ t d, p.target = .hg t → closedDom s n t = some d → s.getB (Reg.CK_DOM d) 0 = true) →
            ∃ ds, q.verdict = .held ds ∧ ∀ d, d ∈ ds ↔ ∃ p ∈ q.parts, ∃ t, p.target = .hg t ∧ closedDom s n t = some d)) ∧
        q.beats = [] ∧ q.absorb = false ∧ q.need = reqBeats (normReq r) ∧ q.whole = decide (reqBeats (normReq r) = 0) ∧
        (∀ p ∈ q.parts, ∀ t, p.target = .hg t →
          p.loc = (if t < 160 ∧ s.getB (Reg.HG_ATTACH_k n t) 63 = true then (if s.getB (Reg.HG_ALLOT n t) 36 = true then none else some ocDenied)
                   else some ocDecode)) ∧
        (∀ p ∈ q.parts, (∀ t, p.target ≠ .hg t) → p.loc = some ocDecode))) ∧
  (
    (∀ (s : State) (n : Hg) (q : PendReq) (rest : List PendReq), hasHai n = true → (s.hgAt n).reqs = q :: rest → q.whole = true →
      (q.verdict = .ok ∨ q.verdict = .malformed ∨ (q.verdict = .closed ∧ badForm q = true)) →
      (q.absorb = true ∨ ((s.hgAt n).portLive = true ∧ (s.hgAt n).aclkEn = true)) →
      ∃ t, exec (.acceptance n) s = .next t ∧ (t.hgAt n).reqs = rest ∧ (t.hgAt n).nextId = (s.hgAt n).nextId + 1 ∧
        (∀ c, c ≠ q.req.ctx → (t.hgAt n).ctxAt c = (s.hgAt n).ctxAt c) ∧
        (q.absorb = false → ((t.hgAt n).ctxAt q.req.ctx).tag = ((s.hgAt n).ctxAt q.req.ctx).tag + 1 ∧
          (t.hgAt n).acc = some { ctx := q.req.ctx, tag := ((s.hgAt n).ctxAt q.req.ctx).tag, closed := false } ∧
          t.reg (Reg.HG_SOURCE_RESET n) = s.reg (Reg.HG_SOURCE_RESET n)) ∧
        (q.absorb = true → (((t.hgAt n).ctxAt q.req.ctx).tag = ((s.hgAt n).ctxAt q.req.ctx).tag + 1 ∨
            (((t.hgAt n).ctxAt q.req.ctx).tag = 0 ∧ ((t.hgAt n).ctxAt q.req.ctx).reopening = false ∧
              ((s.hgAt n).ctxAt q.req.ctx).reopening = true ∧ (s.hgAt n).portLive = true)) ∧
          (t.hgAt n).acc = (s.hgAt n).acc ∧
          (t.reg (Reg.HG_SOURCE_RESET n)).toNat = min 0xFFFFFFFF ((s.reg (Reg.HG_SOURCE_RESET n)).toNat + 1)) ∧
        weirLevel t n q.req.ctx.toNat = (if weirRate s n q.req.ctx.toNat = 0 then weirLevel s n q.req.ctx.toNat
          else max (-8) (weirLevel s n q.req.ctx.toNat - weirCost q.req)) ∧
        sameExcept [.regs, .hg, .pr, .al] s t ∧ hgsKept [n.val] s t) ∧
    (∀ (s : State) (n : Hg) (q : PendReq) (rest : List PendReq), hasHai n = true → (s.hgAt n).reqs = q :: rest → q.whole = true →
      (∀ ds, q.verdict ≠ .held ds) → q.absorb = false → (s.hgAt n).portLive = true → (s.hgAt n).aclkEn = false →
      ∃ t, exec (.acceptance n) s = .next t ∧ t.hgAt n = { s.hgAt n with wake := true } ∧ t.getB (Reg.HG_DOM_STATUS n) 5 = true ∧
        sameExcept [.regs, .hg] s t ∧ hgsKept [n.val] s t ∧ regsKept [Reg.HG_DOM_STATUS n] s t)) ∧
  (
    ∀ (s : State) (n : Hg) (q : PendReq) (rest : List PendReq), hasHai n = true → (s.hgAt n).reqs = q :: rest →
      (q.whole = false → exec (.acceptance n) s = .next s) ∧
      (q.whole = true → q.verdict = .closed → badForm q = false →
        (q.absorb = true ∨ ((s.hgAt n).portLive = true ∧ (s.hgAt n).aclkEn = true)) → ∃ t, exec (.acceptance n) s = .next t ∧
        (q.absorb = false → t.hgAt n = { s.hgAt n with
          reqs := rest, acc := some { ctx := q.req.ctx, tag := 0, closed := true } }) ∧
        (t.hgAt n).reqs = rest ∧ (t.hgAt n).txns = (s.hgAt n).txns ∧ (t.hgAt n).store = (s.hgAt n).store ∧
        (q.absorb = true → (t.hgAt n).acc = (s.hgAt n).acc) ∧
        (t.reg (Reg.HG_CLOSED_CNT n)).toNat = min 0xFFFFFFFF ((s.reg (Reg.HG_CLOSED_CNT n)).toNat + 1) ∧
        sameExcept [.regs, .hg, .pr] s t ∧ hgsKept [n.val] s t ∧ regsKept [Reg.HG_CLOSED_CNT n] s t)) ∧
  (
    ∀ (s : State) (n : Hg) (q : PendReq) (rest : List PendReq) (p : Part) (t0 : Nat), hasHai n = true → (s.hgAt n).reqs = q :: rest →
      q.whole = true → q.verdict = .ok → badForm q = false → (q.absorb = true ∨ ((s.hgAt n).portLive = true ∧ (s.hgAt n).aclkEn = true)) →
      q.parts = [p] → p.target = .hg t0 →
      p.loc = some ocDenied → q.req.op ≠ opGDATA → q.req.op ≠ opFENCE → q.req.op ≠ opRDLK → q.req.op ≠ opWRUL → q.req.op ≠ opUNLK →
      ∃ t, exec (.acceptance n) s = .next t ∧ (t.hgAt n).store = (s.hgAt n).store ∧
        (t.reg (Reg.HG_DECODE_FAULT n)).toNat = min 0xFFFFFFFF ((s.reg (Reg.HG_DECODE_FAULT n)).toNat + 1) ∧
        (isPosted q.req.op = false → t.al = s.al ∧ ∃ x, (t.hgAt n).txns = (s.hgAt n).txns ++ [x] ∧ x.req = q.req ∧
          x.tag = ((s.hgAt n).ctxAt q.req.ctx).tag ∧ x.id = (s.hgAt n).nextId ∧ x.complete = true ∧ x.outcome = ocDenied ∧ x.done = 0) ∧
        (isPosted q.req.op = true → (t.hgAt n).txns = (s.hgAt n).txns ∧
          (t.reg (Reg.HG_POST_REFUSE n)).toNat = min 0xFFFFFFFF ((s.reg (Reg.HG_POST_REFUSE n)).toNat + 1) ∧
          t.al = alarmEvent s.al s.fclk (100 + n.val) 0x44 (BitVec.ofNat 8 n.val)
            (BitVec.ofNat 64 (q.req.ctx.toNat + q.req.op.toNat * 2 ^ 6 + 1 * 2 ^ 14))))

/-- R150: every 256 FCLK cycles each of the 64 weirs of a headgate rises by RATE up to BURST; with RATE 0 it stands at BURST.
Nothing else changes. R51: a FENCE completes when no packet of an earlier request of its context stands in the replay store
any more, with outcome OK; until then the command changes nothing. -/
def Obligations.WeirsAndFencesHoldRequests : Prop :=
  (
    ∀ (s : State) (n : Hg), ∃ t, exec (.weirRefill n) s = .next t ∧
      (∀ c, c < 64 → weirLevel t n c = (if weirRate s n c = 0 then (weirBurst s n c : Int)
          else min (weirBurst s n c) (weirLevel s n c + weirRate s n c)) ∧
        weirRate t n c = weirRate s n c ∧ weirBurst t n c = weirBurst s n c) ∧
      sameExcept [.regs] s t ∧ regsKept ((List.range 64).map (Reg.HG_WEIR n)) s t) ∧
  (
    ∀ (s : State) (n : Hg) (c : Ctx) (x : Txn), hasHai n = true →
      (s.hgAt n).txns.find? (fun t => decide (t.req.op = opFENCE) && decide (t.req.ctx = c) && !t.complete) = some x →
      ((∃ p ∈ (s.hgAt n).store, p.kind = .req ∧ p.pkt.hdr.ctx = c ∧ p.txn < x.id) → exec (.fenceComplete n c) s = .next s) ∧
      ((∀ p ∈ (s.hgAt n).store, p.kind = .req → p.pkt.hdr.ctx = c → x.id ≤ p.txn) →
        ∃ t, exec (.fenceComplete n c) s = .next t ∧ (∀ y ∈ (t.hgAt n).txns, y.id = x.id → y.complete = true ∧ y.outcome = ocOK) ∧
          (t.hgAt n).txns.length = (s.hgAt n).txns.length ∧ sameExcept [.hg] s t ∧ hgsKept [n.val] s t))

/-- R48, R50, R53, R69, R140, R190: a beat of a complete response goes out where the order of R50 allows it and the interface
runs: it carries the context, tag, combined outcome, the bytes performed by all parts and the block; the last beat ends the
transaction and frees its pool blocks, an earlier one leaves the next due. Before the first beat the part that came from the
mesh is read from the response pool (log entry 60): an error-free read of data without poison changes nothing, and a part
whose headers are lost leaves the response incomplete and nothing goes out. Where the order does not allow it, or the store
has no room for the CACK that follows, nothing happens; where ACLK alone is stopped, WAKE rises (R81). R75, R76: the siphon
absorbs the outcome of a transaction of a reset agent, once the store has room for the CACK it sends instead of the agent: it
leaves, and HG_SOURCE_RESET counts it; after the last of its context, with PORT_LIVE high again, the context reopens and its
tags restart at 0. -/
def Obligations.ResponsesLeaveInOrderAndSiphonsAbsorb : Prop :=
  (
    ∀ (s : State) (n : Hg) (k : Nat) (err : MemErr) (x : Txn), hasHai n = true → (s.hgAt n).txns[k]? = some x → x.complete = true →
      x.absorb = false →
      ((rspAllowed (s.hgAt n) x = false ∨ cackRoom (s.hgAt n) x = false) → exec (.rspTransfer n ⟨k, err⟩) s = .next s) ∧
      (rspAllowed (s.hgAt n) x = true → cackRoom (s.hgAt n) x = true → (s.hgAt n).portLive = true → (s.hgAt n).aclkEn = true →
        ∃ (y : Txn) (t : State), exec (.rspTransfer n ⟨k, err⟩) s = .next t ∧
          y.req = x.req ∧ y.tag = x.tag ∧ y.id = x.id ∧ y.sent = x.sent ∧
          (0 < x.sent → y = x) ∧ (err = .ok → (∀ p ∈ x.parts, ∀ b ∈ p.data, b.poison = false) → y = x) ∧
          (y.complete = true →
            (t.hgAt n).out = .rsp x.req.ctx x.tag y.outcome y.done y.rspState (y.beat x.sent) (decide (y.beats ≤ x.sent + 1)) ∧
            (y.beats ≤ x.sent + 1 → (∀ u ∈ (t.hgAt n).txns, u.id ≠ x.id) ∧
              (t.hgAt n).poolUsed = (s.hgAt n).poolUsed - sumBy (·.blocks) x.parts) ∧
            (x.sent + 1 < y.beats → { y with sent := x.sent + 1 } ∈ (t.hgAt n).txns)) ∧
          (∀ u ∈ (s.hgAt n).txns, u.id ≠ x.id → u ∈ (t.hgAt n).txns) ∧
          (y.complete = false → (t.hgAt n).out = (s.hgAt n).out ∧ y ∈ (t.hgAt n).txns) ∧
          hgsKept [n.val] s t ∧ sameExcept [.regs, .hg, .al, .pr, .freeCtr] s t ∧ (err = .ok → sameExcept [.regs, .hg] s t)) ∧
      (rspAllowed (s.hgAt n) x = true → cackRoom (s.hgAt n) x = true → (s.hgAt n).portLive = true → (s.hgAt n).aclkEn = false →
        ∃ t, exec (.rspTransfer n ⟨k, err⟩) s = .next t ∧ t.hgAt n = { s.hgAt n with wake := true } ∧ t.getB (Reg.HG_DOM_STATUS n) 5 = true ∧
          sameExcept [.regs, .hg] s t ∧ hgsKept [n.val] s t ∧ regsKept [Reg.HG_DOM_STATUS n] s t)) ∧
  (
    ∀ (s : State) (n : Hg) (k : Nat) (x : Txn), hasHai n = true → (s.hgAt n).txns[k]? = some x → x.complete = true → x.absorb = true →
      cackRoom (s.hgAt n) x = true →
      ∃ t, exec (.siphonAbsorb n k) s = .next t ∧ (∀ u ∈ (t.hgAt n).txns, u.id ≠ x.id) ∧
        (t.reg (Reg.HG_SOURCE_RESET n)).toNat = min 0xFFFFFFFF ((s.reg (Reg.HG_SOURCE_RESET n)).toNat + 1) ∧
        ((s.hgAt n).portLive = true → ((s.hgAt n).ctxAt x.req.ctx).reopening = true →
          (∀ u ∈ (s.hgAt n).txns, u.id ≠ x.id → u.req.ctx = x.req.ctx → u.absorb = false) →
          (∀ q ∈ (s.hgAt n).reqs, q.req.ctx = x.req.ctx → q.absorb = false) →
          ((t.hgAt n).ctxAt x.req.ctx).reopening = false ∧ ((t.hgAt n).ctxAt x.req.ctx).tag = 0) ∧
        sameExcept [.regs, .hg] s t ∧ hgsKept [n.val] s t)

/-- R56, R158, R210: the packet at the front of MSGIN goes to the agent beat by beat. The last beat of a guaranteed packet frees
its buffer in the channel's record; that of a MSG answers its request OK with DONE its length, for which a block of the replay
store must be free (R69, R171). R62, R155, R159, R160, R293, R317: the entry that context order and the lock manager let go is
presented on TREQ under a free ID (which one is a free value, log entry 16): its target timer starts, and an RDLK at a
lock-capable headgate takes the lock for its master with the limit of RV_LOCK_CFG, which does not run where the WRUL or UNLK
of that master has arrived already. A leveed target, a shell, or no entry to let go: nothing happens; an entry whose lock is
lost is answered LOCK_LOST. A limit that has run out revokes the lock before. R62, R64, R158: the next write beat of the
request presented longest ago goes to the agent; the last beat of a WRP frees its entry. R54, R65, R156, R302, R304, R326,
Table 5-1: a response of the agent ends its presented request: an outcome other than OK, POISONED or AGENT_ERROR is counted
and acts as AGENT_ERROR; the owner's WRUL or UNLK releases the lock; the answer carries the outcome with DONE (0 where it is
AGENT_ERROR: log entry 58; DENIED, the data outside the part allowed masked, where protection denied part of it). At a leveed
target it is counted late, and its ID is free again. -/
def Obligations.TargetSideMovesToTheAgent : Prop :=
  (
    ∀ (s : State) (n : Hg) (m : MsgIn) (rest : List MsgIn), hasHai n = true → (s.hgAt n).portLive = true → (s.hgAt n).aclkEn = true →
      (s.hgAt n).msgin = m :: rest →
      (m.sent + 1 < m.data.length → ∃ t, exec (.msginTransfer n) s = .next t ∧
        t.hgAt n = { s.hgAt n with out := .msgin m.src m.tag m.bytes m.gua ((m.data[m.sent]?).getD DBeat.zero) false,
                                   msgin := { m with sent := m.sent + 1 } :: rest } ∧ sameExcept [.hg] s t ∧ hgsKept [n.val] s t) ∧
      (m.data.length ≤ m.sent + 1 → m.entry = none → ∃ t, exec (.msginTransfer n) s = .next t ∧
        (t.hgAt n).out = .msgin m.src m.tag m.bytes m.gua ((m.data[m.sent]?).getD DBeat.zero) true ∧ (t.hgAt n).msgin = rest ∧
        ((t.hgAt n).chanAt m.chanRec).buffered = ((s.hgAt n).chanAt m.chanRec).buffered - 1 ∧
        sameExcept [.hg] s t ∧ hgsKept [n.val] s t) ∧
      (∀ id, m.data.length ≤ m.sent + 1 → m.entry = some id → 0 < openBlocks (s.hgAt n) →
        ∃ u t, exec (.msginTransfer n) s = .next t ∧ t = settleTarget (answer u n id ocOK (m.bytes.toNat + 1) []) n ∧
          u.hgAt n = { s.hgAt n with out := .msgin m.src m.tag m.bytes m.gua ((m.data[m.sent]?).getD DBeat.zero) true, msgin := rest } ∧
          sameExcept [.hg] s u ∧ hgsKept [n.val] s u) ∧
      (∀ id, m.data.length ≤ m.sent + 1 → m.entry = some id → openBlocks (s.hgAt n) = 0 → exec (.msginTransfer n) s = .next s)) ∧
  (
    ∀ (s : State) (n : Hg), hasHai n = true →
      ((s.getB (Reg.HG_LEVEE n) 0 = true ∨ s.getB (Reg.HG_DOM_STATUS n) 2 = true) → exec (.treqPresent n) s = .next s) ∧
      ((s.hgAt n).lock.due s.fclk = true → s.getB (Reg.HG_LEVEE n) 0 = false → s.getB (Reg.HG_DOM_STATUS n) 2 = false →
        exec (.treqPresent n) s = exec (.treqPresent n) (revokeHg s n)) ∧
      ((s.hgAt n).lock.due s.fclk = false → nextEntry? s n = none → exec (.treqPresent n) s = .next s) ∧
      (∀ e j, s.getB (Reg.HG_LEVEE n) 0 = false → s.getB (Reg.HG_DOM_STATUS n) 2 = false → (s.hgAt n).lock.due s.fclk = false →
        nextEntry? s n = some (e, j) →
        (j = .lost → exec (.treqPresent n) s = .next (settleTarget (answer s n e.id ocLockLost 0 []) n)) ∧
        (j ≠ .lost → ¬(e.op = opUNLK ∧ e.pkt.hdr.bytes = 0x1FF) → e.noWrite = false → (s.hgAt n).portLive = true →
          (s.hgAt n).aclkEn = true → freeIds s n ≠ [] →
          ∃ u t, exec (.treqPresent n) s = .next t ∧ t = settleTarget u n ∧
            (∃ id ∈ freeIds s n, (u.hgAt n).out = treqOut e id ∧
              ∀ x ∈ (u.hgAt n).entries, x.id = e.id → x.phase = .presented ∧ x.treqId = some id ∧ x.presentedAt = some s.fclk) ∧
            (¬(e.op = opRDLK ∧ s.getB (Reg.HG_CFG n) 1 = true) → (u.hgAt n).lock = (s.hgAt n).lock) ∧
            (e.op = opRDLK → s.getB (Reg.HG_CFG n) 1 = true →
              (u.hgAt n).lock.owner = some (e.pkt.hdr.src.toNat, e.pkt.hdr.ctx) ∧ (u.hgAt n).lock.broken = false ∧
              ((∀ x ∈ (s.hgAt n).entries, x.op = opWRUL ∨ x.op = opUNLK → x.phase = .waiting →
                  ¬(x.pkt.hdr.src = e.pkt.hdr.src ∧ x.pkt.hdr.ctx = e.pkt.hdr.ctx)) →
                (u.hgAt n).lock.timer = some (s.fclk + max 160 (s.getF Reg.RV_LOCK_CFG 0 16))) ∧
              ((∃ x ∈ (s.hgAt n).entries, (x.op = opWRUL ∨ x.op = opUNLK) ∧ x.phase = .waiting ∧
                  x.pkt.hdr.src = e.pkt.hdr.src ∧ x.pkt.hdr.ctx = e.pkt.hdr.ctx) → (u.hgAt n).lock.timer = none)) ∧
            sameExcept [.hg, .freeCtr] s u ∧ hgsKept [n.val] s u))) ∧
  (
    ∀ (s : State) (n : Hg) (id : Nat) (b : Beat) (bs : List Beat) (rest : List (Nat × List Beat)), hasHai n = true →
      (s.hgAt n).portLive = true → (s.hgAt n).aclkEn = true → (s.hgAt n).twdata = (id, b :: bs) :: rest →
      ∃ u t, exec (.twdataTransfer n) s = .next t ∧ (u.hgAt n).out = .twdata b bs.isEmpty ∧
        (u.hgAt n).twdata = (if bs = [] then rest else (id, bs) :: rest) ∧ sameExcept [.hg] s u ∧ hgsKept [n.val] s u ∧
        (bs ≠ [] → t = u) ∧
        (∀ e, bs = [] → (u.hgAt n).entries.find? (fun e => decide (e.treqId = some id)) = some e →
          t = if e.op = opWRP then settleTarget (freeEntry u n e.id) n else u)) ∧
  (
    (∀ (s : State) (n : Hg) (id : BitVec 9) (oc : BitVec 4) (beats : List DBeat), hasHai n = true → (s.hgAt n).portLive = true →
      (s.hgAt n).aclkEn = true → s.getB (Reg.HG_LEVEE n) 0 = true →
      ∃ t, exec (.trspReceived n id oc beats) s = .next t ∧
        (t.reg (Reg.HG_LEVEE_LATE n)).toNat = min 0xFFFFFFFF ((s.reg (Reg.HG_LEVEE_LATE n)).toNat + 1) ∧
        t.hgAt n = { s.hgAt n with staleIds := (s.hgAt n).staleIds.filter (fun i => decide (i ≠ id.toNat)) } ∧
        sameExcept [.regs, .hg] s t ∧ hgsKept [n.val] s t ∧ regsKept [Reg.HG_LEVEE_LATE n] s t) ∧
    (∀ (s : State) (n : Hg) (id : BitVec 9) (oc : BitVec 4) (beats : List DBeat) (e : Entry), hasHai n = true → (s.hgAt n).portLive = true →
      (s.hgAt n).aclkEn = true → s.getB (Reg.HG_LEVEE n) 0 = false →
      (s.hgAt n).entries.find? (fun e => decide (e.treqId = some id.toNat) && decide (e.phase = .presented)) = some e →
      e.op ≠ opWRP → 1 + rspBeats e.op e.pkt.hdr.addr e.pkt.hdr.bytes ≤ openBlocks (s.hgAt n) →
      ∃ u t, exec (.trspReceived n id oc beats) s = .next t ∧
        t = settleTarget (if e.partDenied = true then answer u n e.id ocDenied (e.bytes.toNat + 1) (maskRead e beats)
          else answer u n e.id (trspOutcome e oc beats)
            (if e.op = opUNLK ∨ trspOutcome e oc beats = ocAgentError then 0 else e.bytes.toNat + 1) beats) n ∧
        (u.hgAt n).lock = (if (e.op = opWRUL ∨ e.op = opUNLK) ∧ (s.hgAt n).lock.owner = some (e.pkt.hdr.src.toNat, e.pkt.hdr.ctx) then
            { owner := none, broken := (s.hgAt n).lock.broken, timer := none } else (s.hgAt n).lock) ∧
        (t.reg (Reg.HG_TRSP_BADOUT n)).toNat = (if oc = ocOK ∨ oc = ocPoisoned ∨ oc = ocAgentError then (s.reg (Reg.HG_TRSP_BADOUT n)).toNat
          else min 0xFFFFFFFF ((s.reg (Reg.HG_TRSP_BADOUT n)).toNat + 1)) ∧
        (¬(oc = ocOK ∨ oc = ocPoisoned) → beats.any (·.poison) = false → (entryBeats e).any (·.poison) = false →
          trspOutcome e oc beats = ocAgentError) ∧
        sameExcept [.regs, .hg] s u ∧ hgsKept [n.val] s u))

/-- R68 to R71, R87, R88, R250: a snoop goes to a caching agent once order lets it and the store has room for its answer, and
stays listed until the item marked last; where the agent takes no part in coherence the headgate answers the snoops; an item
or a CACK that matches nothing is counted in HG_COH_UNMATCHED; a CACK that matches leaves toward the home of its request
unless a remote levee discards it. -/
def Obligations.SnoopChannelsMatchByTransaction : Prop :=
  (∀ (s : State) (n : Hg) (q : SnoopSt), isCaching n = true → (s.hgAt n).portLive = true → (s.hgAt n).aclkEn = true →
    snoopsDead s n = false → nextSnoop (s.hgAt n) = some q → 4 ≤ openBlocks (s.hgAt n) →
    ∃ t, exec (.snpTransfer n) s = .next t ∧
      (t.hgAt n).out = .snp q.pkt.hdr.op (q.pkt.hdr.addr.extractLsb' 6 42) (BitVec.ofNat 16 q.pkt.hdr.txn) (BitVec.ofNat 8 q.pkt.hdr.rqhg) ∧
      (∀ x ∈ (t.hgAt n).snoops, x.arrival = q.arrival → x.presented = true) ∧ sameExcept [.hg] s t ∧ hgsKept [n.val] s t) ∧
  (∀ (s : State) (n : Hg), isCaching n = true →
    (snoopsDead s n = false → (nextSnoop (s.hgAt n) = none ∨ openBlocks (s.hgAt n) < 4) → exec (.snpTransfer n) s = .next s) ∧
    (snoopsDead s n = true → ∃ t, exec (.snpTransfer n) s = .next t ∧
      ((t.hgAt n).snoops = [] ∨ openBlocks (t.hgAt n) = 0) ∧ (∀ x ∈ (t.hgAt n).snoops, x.presented = false) ∧
      (∃ ps, (t.hgAt n).store = (s.hgAt n).store ++ ps ∧ ∀ p ∈ ps, p.pkt.hdr.op = opSNPACK ∨ p.pkt.hdr.op = opCENSUSR) ∧
      sameExcept [.hg] s t ∧ hgsKept [n.val] s t)) ∧
  (∀ (s : State) (n : Hg) (op : BitVec 8) (txn : BitVec 16) (r : Bool) (st : BitVec 2) (d : Line) (last : Bool), isCaching n = true →
    (s.hgAt n).portLive = true → (s.hgAt n).aclkEn = true →
    ((∀ q ∈ (s.hgAt n).snoops, q.presented = true → q.pkt.hdr.txn ≠ txn.toNat) →
      ∃ t, exec (.snprspItem n op txn r st d last) s = .next t ∧
        (t.reg (Reg.HG_COH_UNMATCHED n)).toNat = min 0xFFFFFFFF ((s.reg (Reg.HG_COH_UNMATCHED n)).toNat + 1) ∧
        sameExcept [.regs] s t ∧ regsKept [Reg.HG_COH_UNMATCHED n] s t) ∧
    (∀ q, (s.hgAt n).snoops.find? (fun q => q.presented && decide (q.pkt.hdr.txn = txn.toNat)) = some q →
      ∃ t, exec (.snprspItem n op txn r st d last) s = .next t ∧
        (t.hgAt n).snoops = (if last = true then (s.hgAt n).snoops.filter (fun x => decide (x.arrival ≠ q.arrival)) else (s.hgAt n).snoops) ∧
        (∀ dst, dst = (if r = true then (BitVec.ofNat 8 q.pkt.hdr.rqhg).toNat else q.pkt.hdr.src.toNat) →
          (deadDest s n dst = true → (t.hgAt n).store = (s.hgAt n).store) ∧
          (deadDest s n dst = false → ∃ p, (t.hgAt n).store = (s.hgAt n).store ++ [p] ∧ p.dst = dst ∧ p.waiting = true ∧
            p.pkt.hdr.op = op ∧ p.pkt.hdr.addr = q.pkt.hdr.addr ∧ p.pkt.hdr.txn = txn.toNat ∧
            (p.pkt.data = [] ∨ p.pkt.data = [{ data := d, poison := false }]))) ∧
        sameExcept [.hg] s t ∧ hgsKept [n.val] s t)) ∧
  (∀ (s : State) (n : Hg) (c : Ctx) (g : Tag), isCaching n = true → (s.hgAt n).portLive = true → (s.hgAt n).aclkEn = true →
    ((∀ x ∈ (s.hgAt n).cackWait, ¬(x.1 = c ∧ x.2.1 = g)) →
      ∃ t, exec (.cack n c g) s = .next t ∧
        (t.reg (Reg.HG_COH_UNMATCHED n)).toNat = min 0xFFFFFFFF ((s.reg (Reg.HG_COH_UNMATCHED n)).toNat + 1) ∧
        sameExcept [.regs] s t ∧ regsKept [Reg.HG_COH_UNMATCHED n] s t) ∧
    (∀ home addr rest, (s.hgAt n).cackWait = (c, g, home, addr) :: rest →
      ∃ t, exec (.cack n c g) s = .next t ∧ (t.hgAt n).cackWait = rest ∧
        (deadDest s n (BitVec.ofNat 8 home).toNat = false → ∃ p, (t.hgAt n).store = (s.hgAt n).store ++ [p] ∧ p.pkt.hdr.op = opCACK ∧
          p.dst = (BitVec.ofNat 8 home).toNat ∧ p.pkt.hdr.addr = addr ∧ p.pkt.hdr.ctx = c ∧ p.pkt.hdr.tag = g) ∧
        sameExcept [.hg] s t ∧ hgsKept [n.val] s t))

/-- R66, R75, R77, R161, R211, R346: as PORT_LIVE falls, the agent's incomplete requests are discarded (their beats counted in
HG_HAI_DISCARD), every other request and transaction goes to the siphon, locks held are released, beats, IDs and guaranteed
packets waiting for the agent go, no snoop stays with it (R250), PWR_ACK reads low, and every context in use waits for its
outcomes before it reopens. PORT_LIVE low already: nothing happens. R76, R79, R81, R354: as PORT_LIVE rises, every context
without outcomes to absorb reopens with its tags at 0, the shell stops, PWR_REQ falls but in a quiescing domain, and WAKE
falls where ACLK runs. PORT_LIVE high already: nothing happens. -/
def Obligations.AgentRestartResetsTheInterface : Prop :=
  (
    (∀ (s : State) (n : Hg), hasHai n = true → (s.hgAt n).portLive = false → exec (.agentPortLiveFall n) s = .next s) ∧
    (∀ (s : State) (n : Hg), hasHai n = true → (s.hgAt n).portLive = true →
      ∃ t, exec (.agentPortLiveFall n) s = .next t ∧ (t.hgAt n).portLive = false ∧ (t.hgAt n).liveFellAt = some s.fclk ∧
        (∀ q ∈ (t.hgAt n).reqs, q.absorb = true ∧ q.whole = true) ∧ (∀ x ∈ (t.hgAt n).txns, x.absorb = true) ∧
        (t.hgAt n).twdata = [] ∧ (t.hgAt n).staleIds = [] ∧ (∀ q ∈ (t.hgAt n).snoops, q.presented = false) ∧ (t.hgAt n).cackWait = [] ∧ (t.hgAt n).acc = none ∧
        (t.hgAt n).pwrAck = false ∧ t.getB (Reg.HG_DOM_STATUS n) 4 = false ∧ (∀ m ∈ (t.hgAt n).msgin, m.gua = false ∧ m.sent = 0) ∧
        (∀ c, ((t.hgAt n).ctxAt c).lock = .free ∧
          (((s.hgAt n).ctxAt c ≠ CtxSt.reset ∨ ∃ q ∈ (s.hgAt n).reqs, q.whole = true ∧ q.req.ctx = c) → ((t.hgAt n).ctxAt c).reopening = true)) ∧
        ((∀ q ∈ (s.hgAt n).reqs, ∀ ds, q.verdict = .held ds → ∀ d ∈ ds, d < 32) → (t.reg (Reg.HG_HAI_DISCARD n)).toNat = min 0xFFFFFFFF ((s.reg (Reg.HG_HAI_DISCARD n)).toNat +
          sumBy (fun q => if q.whole = true then 0 else q.beats.length) (s.hgAt n).reqs)) ∧
        sameExcept [.regs, .hg, .wires, .pr, .al] s t ∧ hgsKept [n.val] s t)) ∧
  (
    (∀ (s : State) (n : Hg), hasHai n = true → (s.hgAt n).portLive = true → exec (.agentPortLiveRise n) s = .next s) ∧
    (∀ (s : State) (n : Hg), hasHai n = true → (s.hgAt n).portLive = false →
      ∃ t, exec (.agentPortLiveRise n) s = .next t ∧ (t.hgAt n).portLive = true ∧ t.getB (Reg.HG_DOM_STATUS n) 2 = false ∧
        (∀ c, (∀ x ∈ (s.hgAt n).txns, x.req.ctx = c → x.absorb = false) → (∀ q ∈ (s.hgAt n).reqs, q.req.ctx = c → q.absorb = false) →
          ((t.hgAt n).ctxAt c).tag = 0 ∧ ((t.hgAt n).ctxAt c).reopening = false) ∧
        (∀ c, (∃ x ∈ (s.hgAt n).txns, x.req.ctx = c ∧ x.absorb = true) → (t.hgAt n).ctxAt c = (s.hgAt n).ctxAt c) ∧
        ((s.getB (Reg.CK_HG_DOM n) 5 = false ∨ s.getF (Reg.CK_DOM (s.getF (Reg.CK_HG_DOM n) 0 5)) 1 3 ≠ 3) →
          (t.hgAt n).pwrReq = false ∧ t.getB (Reg.HG_DOM_STATUS n) 3 = false) ∧
        ((s.hgAt n).aclkEn = true → (t.hgAt n).wake = false ∧ t.getB (Reg.HG_DOM_STATUS n) 5 = false) ∧
        sameExcept [.regs, .hg] s t ∧ hgsKept [n.val] s t ∧ regsKept [Reg.HG_DOM_STATUS n] s t))

/-- R37, R78 to R80, R250, R338: PWR_ACK as crossed stands in HG_DOM_STATUS while PORT_LIVE is high, and low it is ignored; from
its rise the headgate answers the snoops, those it holds as its store has room; its fall changes the bit alone. ACLK_EN sets
the gate, taking the divisor of HG_CFG as it opens, and ends WAKE where the agent is live. R351: ACK_LIMIT of a quiescing
domain expires: the sleep is abandoned: time has reached the limit, PWR_REQ falls at every HAI of the domain, every headgate
opens toward it, and the domain is ON. In any other state of the domain nothing happens. R352: a request held for a wake and
not accepted in WAKE_LIMIT is refused: time has reached the limit (of the domains it waits for, the one whose limit comes
first), WAKE_HELD falls, alarm 0x51 names the domain, and the request is closed (once its beats are in, with CLOSED on ACC,
where ACLK runs to carry it, and in HG_CLOSED_CNT). Nothing held: nothing happens. -/
def Obligations.DomainSidebandsAndLimits : Prop :=
  (
    (∀ (s : State) (n : Hg), hasHai n = true → (s.hgAt n).portLive = false →
      exec (.pwrAckRise n) s = .next s ∧ exec (.pwrAckFall n) s = .next s) ∧
    (∀ (s : State) (n : Hg), hasHai n = true → (s.hgAt n).portLive = true →
      ∃ t, exec (.pwrAckRise n) s = .next t ∧ (t.hgAt n).pwrAck = true ∧ t.getB (Reg.HG_DOM_STATUS n) 4 = true ∧
        (∀ i, i ≠ 4 → t.getB (Reg.HG_DOM_STATUS n) i = s.getB (Reg.HG_DOM_STATUS n) i) ∧
        ((t.hgAt n).snoops = [] ∨ openBlocks (t.hgAt n) = 0) ∧ (∀ x ∈ (t.hgAt n).snoops, x.presented = false) ∧
        (∃ ps, (t.hgAt n).store = (s.hgAt n).store ++ ps ∧ ∀ p ∈ ps, p.pkt.hdr.op = opSNPACK ∨ p.pkt.hdr.op = opCENSUSR) ∧
        sameExcept [.regs, .hg] s t ∧ hgsKept [n.val] s t ∧ regsKept [Reg.HG_DOM_STATUS n] s t) ∧
    (∀ (s : State) (n : Hg), hasHai n = true → (s.hgAt n).portLive = true →
      ∃ t, exec (.pwrAckFall n) s = .next t ∧ t.hgAt n = { s.hgAt n with pwrAck := false } ∧
      t.getB (Reg.HG_DOM_STATUS n) 4 = false ∧ (∀ i, i ≠ 4 → t.getB (Reg.HG_DOM_STATUS n) i = s.getB (Reg.HG_DOM_STATUS n) i) ∧
      sameExcept [.regs, .hg] s t ∧ hgsKept [n.val] s t ∧ regsKept [Reg.HG_DOM_STATUS n] s t) ∧
    (∀ (s : State) (n : Hg) (l : Bool), hasHai n = true → ∃ t, exec (.aclkEnChange n l) s = .next t ∧ (t.hgAt n).aclkEn = l ∧
      (t.hgAt n).aclkDivInUse = (if l = true ∧ (s.hgAt n).aclkEn = false then s.getF (Reg.HG_CFG n) 4 3 else (s.hgAt n).aclkDivInUse) ∧
      t.getB (Reg.HG_DOM_STATUS n) 6 = l ∧ (t.hgAt n).wake = (if l = true ∧ (s.hgAt n).portLive = true then false else (s.hgAt n).wake) ∧
      sameExcept [.regs, .hg] s t ∧ hgsKept [n.val] s t ∧ regsKept [Reg.HG_DOM_STATUS n] s t)) ∧
  (
    ∀ (s : State) (d : Dom),
      (s.getF (Reg.CK_DOM d) 1 3 ≠ 3 → exec (.pwrAckTimeout d) s = .next s) ∧
      (s.getF (Reg.CK_DOM d) 1 3 = 3 → ∃ t, exec (.pwrAckTimeout d) s = .next t ∧ t.getF (Reg.CK_DOM d) 1 3 = 0 ∧
        t.fclk = max s.fclk (Tab.get s.bd.domAck 0 d + max 1 (s.getF (Reg.CK_DOM d) 8 10) * 1600) ∧
        (∀ m ∈ domainHgs s d, (t.hgAt m).pwrReq = false ∧ t.getB (Reg.HG_DOM_STATUS m) 3 = false) ∧
        (∀ n : Hg, t.getB (Reg.HG_DOM_CLOSE n) d = false) ∧ sameExcept [.fclk, .regs, .hg, .pr, .al] s t)) ∧
  (
    (∀ (s : State) (n : Hg), hasHai n = true → (s.hgAt n).wakeHeld = none → exec (.wakeLimitExpiry n) s = .next s) ∧
    (∀ (s : State) (n : Hg) (t0 : Nat) (ds : List Nat) (q : PendReq), hasHai n = true → (s.hgAt n).wakeHeld = some t0 →
      (s.hgAt n).reqs = [q] → q.verdict = .held ds → ds ≠ [] → (∀ d ∈ ds, d < 32) → badForm q = false →
      ∃ d ∈ ds, ∃ t, exec (.wakeLimitExpiry n) s = .next t ∧
        (∀ x ∈ ds, max 1 (s.getF (Reg.CK_DOM d) 18 10) ≤ max 1 (s.getF (Reg.CK_DOM x) 18 10)) ∧
        t.fclk = max s.fclk (t0 + max 1 (s.getF (Reg.CK_DOM d) 18 10) * 16000) ∧
        (t.hgAt n).wakeHeld = none ∧ t.getB (Reg.HG_DOM_STATUS n) 7 = false ∧
        t.al = alarmEvent s.al t.fclk (100 + n.val) 0x51 (BitVec.ofNat 8 n.val) (BitVec.ofNat 64 d) ∧
        (q.whole = false → (t.hgAt n).reqs = [{ q with verdict := .closed }] ∧ t.reg (Reg.HG_CLOSED_CNT n) = s.reg (Reg.HG_CLOSED_CNT n)) ∧
        (q.whole = true → (q.absorb = true ∨ ((s.hgAt n).portLive = true ∧ (s.hgAt n).aclkEn = true)) → (t.hgAt n).reqs = [] ∧
          (t.reg (Reg.HG_CLOSED_CNT n)).toNat = min 0xFFFFFFFF ((s.reg (Reg.HG_CLOSED_CNT n)).toNat + 1) ∧
          (q.absorb = false → (t.hgAt n).acc = some { ctx := q.req.ctx, tag := 0, closed := true })) ∧
        (q.whole = true → q.absorb = false → (s.hgAt n).portLive = true → (s.hgAt n).aclkEn = false →
          (t.hgAt n).reqs = [{ q with verdict := .closed }] ∧ (t.hgAt n).wake = true) ∧
        sameExcept [.fclk, .regs, .hg, .pr, .al] s t ∧ hgsKept [n.val] s t))

/-- R101, R144, R151, R166: the first injection of a stored packet that meets every condition: it takes NEXT_TX of its destination
as SEQ, which advances by one modulo 65536, is stamped with the current epoch, takes one credit and its response blocks if it
is a request, and its flits go onto the link in use. Otherwise nothing happens. R182: the commit timer of a pair with
uncommitted packets expires: time has reached it, the stall count rises, a pass is due, the timer restarts and HG_CMT_TIMEOUT
counts; at STALL_LIMIT the pair is marked stalled, HG_E2E_STATUS.STALL is set and alarm 0x48 names destination and OLDEST.
Nothing uncommitted: nothing happens. R181, R183: a pass that is due begins with its cursor at OLDEST and the commit timer
restarted, or waits behind the active one; a Rider notice makes a pass due to the destination named that has uncommitted
packets, or to every such destination. A pass not due: nothing happens. R101, R183 to R185: in a pass with its turn, the
uncommitted packet nearest the cursor is injected again: same SEQ and data, REPLAY set, one more stamp of the current epoch,
HG_REPLAY_PKTS counting it; no credit and no response space is taken. Without an active pass, a link or the turn nothing
happens. -/
def Obligations.InjectionsNumberAndReplayPackets : Prop :=
  (
    (∀ (s : State) (n : Hg) (k : Nat) (err : MemErr), injectNow s n k = false → exec (.partInjection n k err) s = .next s) ∧
    (∀ (s : State) (n : Hg) (k : Nat) (p : StPkt), injectNow s n k = true → (s.hgAt n).store[k]? = some p → p.lost = false →
      p.pkt.hdr.op ≠ opGDATA →
      ∃ t q, exec (.partInjection n k .ok) s = .next t ∧ (t.hgAt n).store = setNth (s.hgAt n).store k q ∧
        q.pkt.hdr.seq = ((s.hgAt n).txAt p.dst).next ∧ q.pkt.hdr.epoch = curEpoch s n ∧ bit q.pkt.hdr.attr 4 = false ∧
        q.pkt.hdr.dnode.toNat = s.getF (Reg.HG_ATTACH_k n p.pkt.hdr.dst.toNat) 0 8 ∧ q.pkt.data = p.pkt.data ∧ q.waiting = false ∧
        q.stamps = p.stamps ++ [curEpoch s n] ∧ q.dst = p.dst ∧ q.kind = p.kind ∧ q.txn = p.txn ∧
        ((t.hgAt n).txAt p.dst).next = ((s.hgAt n).txAt p.dst).next + 1 ∧ (∀ d, d ≠ p.dst → (t.hgAt n).txAt d = (s.hgAt n).txAt d) ∧
        Tab.get (t.hgAt n).taken 0 p.dst = Tab.get (s.hgAt n).taken 0 p.dst + (if p.kind = .req then 1 else 0) ∧
        (t.hgAt n).poolUsed = (s.hgAt n).poolUsed + (if p.kind = .req then rspBlocks p.pkt.hdr.op p.pkt.hdr.addr p.pkt.hdr.bytes else 0) ∧
        (∀ e, e = LEnd.rt (attachOf n (linkInUse s n)).1 (attachOf n (linkInUse s n)).2 →
          t.wire e = s.wire e ++ q.pkt.flits (legA q.pkt.hdr.op) (injectLaport s n q.pkt.hdr) false 0) ∧
        sameExcept [.regs, .hg, .wires, .pr] s t ∧ hgsKept [n.val] s t ∧ regsKept [Reg.HG_WPT_HIT n] s t)) ∧
  (
    ∀ (s : State) (n d : Hg),
      (uncommitted (s.hgAt n) d = [] → exec (.commitTimeout n d) s = .next s) ∧
      (uncommitted (s.hgAt n) d ≠ [] → ∃ t, exec (.commitTimeout n d) s = .next t ∧
        t.fclk = max s.fclk (((s.hgAt n).txAt d).timerAt + max 0x400 (s.getF (Reg.HG_E2E_CFG n) 0 16) *
          (if ((s.hgAt n).txAt d).stalled = true then 2 ^ s.getF (Reg.HG_E2E_CFG n) 32 3 else 1)) ∧
        ((t.hgAt n).txAt d).passDue = true ∧ ((t.hgAt n).txAt d).stalls = min 7 (((s.hgAt n).txAt d).stalls + 1) ∧
        ((t.hgAt n).txAt d).timerAt = t.fclk ∧ ((t.hgAt n).txAt d).oldest = ((s.hgAt n).txAt d).oldest ∧
        (t.reg (Reg.HG_CMT_TIMEOUT n)).toNat = min 0xFFFFFFFF ((s.reg (Reg.HG_CMT_TIMEOUT n)).toNat + 1) ∧
        (max 1 (s.getF (Reg.HG_E2E_CFG n) 29 3) ≤ min 7 (((s.hgAt n).txAt d).stalls + 1) → ((s.hgAt n).txAt d).stalled = false →
          ((t.hgAt n).txAt d).stalled = true ∧ t.getB (Reg.HG_E2E_STATUS n) 4 = true ∧
          t.al = alarmEvent s.al t.fclk (100 + n.val) 0x48 (BitVec.ofNat 8 n.val)
            (BitVec.ofNat 64 (d.val + ((s.hgAt n).txAt d).oldest.toNat * 2 ^ 8))) ∧
        (min 7 (((s.hgAt n).txAt d).stalls + 1) < max 1 (s.getF (Reg.HG_E2E_CFG n) 29 3) →
          ((t.hgAt n).txAt d).stalled = ((s.hgAt n).txAt d).stalled ∧ t.al = s.al) ∧
        sameExcept [.fclk, .regs, .hg, .al] s t ∧ hgsKept [n.val] s t ∧ regsKept [Reg.HG_CMT_TIMEOUT n, Reg.HG_E2E_STATUS n] s t)) ∧
  (
    (∀ (s : State) (n d : Hg),
      (((s.hgAt n).txAt d).passDue = false → exec (.replayPass n d) s = .next s) ∧
      (((s.hgAt n).txAt d).passDue = true → ∃ t, exec (.replayPass n d) s = .next t ∧ ((t.hgAt n).txAt d).passDue = false ∧
        (((s.hgAt n).txAt d).pass = true → ((t.hgAt n).txAt d).pending = true ∧ ((t.hgAt n).txAt d).cursor = ((s.hgAt n).txAt d).cursor) ∧
        (((s.hgAt n).txAt d).pass = false → ((t.hgAt n).txAt d).cursor = ((s.hgAt n).txAt d).oldest ∧ ((t.hgAt n).txAt d).timerAt = s.fclk) ∧
        (∀ e, e ≠ d.val → (t.hgAt n).txAt e = (s.hgAt n).txAt e) ∧ (t.hgAt n).store = (s.hgAt n).store ∧ sameExcept [.hg] s t ∧
        hgsKept [n.val] s t)) ∧
    (∀ (s : State) (n : Hg) (dest : BitVec 8) (all : Bool), ∃ t, exec (.replayCmdGo n dest all) s = .next t ∧
      t.getF (Reg.HG_REPLAY_CMD n) 0 8 = dest.toNat ∧ t.getB (Reg.HG_REPLAY_CMD n) 8 = all ∧
      (∀ d, d < 160 → ((t.hgAt n).txAt d).passDue = (((s.hgAt n).txAt d).passDue ||
        (decide (uncommitted (s.hgAt n) d ≠ []) && (all || decide (d = dest.toNat))))) ∧
      (t.hgAt n).store = (s.hgAt n).store ∧ sameExcept [.regs, .hg] s t ∧ hgsKept [n.val] s t ∧ regsKept [Reg.HG_REPLAY_CMD n] s t)) ∧
  (
    (∀ (s : State) (n d : Hg) (err : MemErr), (((s.hgAt n).txAt d).pass = false ∨ linkUp s n = false ∨
        ((s.hgAt n).passTurn = false ∧ anyInjectable s n = true)) → exec (.replayPacketInjection n d err) s = .next s) ∧
    (∀ (s : State) (n d : Hg) (k : Nat) (p : StPkt), ((s.hgAt n).txAt d).pass = true → linkUp s n = true → (s.hgAt n).passTurn = true →
      nextReplay s n d = some k → (s.hgAt n).store[k]? = some p → p.lost = false → attachValid s n d = true →
      ∃ t q, exec (.replayPacketInjection n d .ok) s = .next t ∧ (t.hgAt n).store = setNth (s.hgAt n).store k q ∧
        q.pkt.hdr.seq = p.pkt.hdr.seq ∧ q.pkt.data = p.pkt.data ∧ bit q.pkt.hdr.attr 4 = true ∧ q.stamps = p.stamps ++ [curEpoch s n] ∧
        (t.reg (Reg.HG_REPLAY_PKTS n)).toNat = min 0xFFFFFFFF ((s.reg (Reg.HG_REPLAY_PKTS n)).toNat + 1) ∧
        (t.hgAt n).taken = (s.hgAt n).taken ∧ (t.hgAt n).poolUsed = (s.hgAt n).poolUsed ∧ (t.hgAt n).passTurn = false ∧
        ((t.hgAt n).txAt d).next = ((s.hgAt n).txAt d).next ∧
        sameExcept [.regs, .hg, .wires, .pr] s t ∧ hgsKept [n.val] s t))

/-- R100, R168, R173, R174, R175, Table 6-2: what a headgate does with the next packet of its receive store. One that fails the
checks is discarded and counted in HG_ECRC_FAIL, and provokes no ENAK where its head failed the hop check (R179). A REQ, RSP
or SNP packet commits where its SEQ is NEXT (which advances, and of which no copy stays held), is held where it lies up to
2047 ahead, and in both cases only where its head was admitted as it arrived; else it is counted in HG_RESEQ_DROP. It is
dropped as a duplicate where it is held already or lies up to 2048 behind, and is a sequence fault with alarm 0x49 otherwise.
A CMT packet waits for its own event. An empty store: nothing happens. R174, R190: the held packet whose SEQ is NEXT commits:
NEXT advances by one and it is held no more, whatever the read of it finds; with both header copies lost it is discarded after
commit, reported in HG_E2E_STATUS, and reaches nobody. Where none is held, nothing happens. -/
def Obligations.ArrivalsAreClassifiedAndCommitted : Prop :=
  (
    (∀ (s : State) (n : Hg) (err : MemErr), nextRx (s.hgAt n) = none → exec (.packetReceived n err) s = .next s) ∧
    (∀ (s : State) (n : Hg) (err : MemErr) (k : Nat) (raw : RawPkt), nextRx (s.hgAt n) = some (k, raw) → pktOk raw.flits raw.vc = false →
      ∃ t, exec (.packetReceived n err) s = .next t ∧
        (t.reg (Reg.HG_ECRC_FAIL n)).toNat = min 0xFFFFFFFF ((s.reg (Reg.HG_ECRC_FAIL n)).toNat + 1) ∧ t.getB (Reg.HG_E2E_STATUS n) 0 = true ∧
        (t.hgAt n).rxPkts = dropNth (s.hgAt n).rxPkts k ∧ (t.hgAt n).entries = (s.hgAt n).entries ∧ (t.hgAt n).txns = (s.hgAt n).txns ∧
        (∀ d, ((t.hgAt n).rxAt d).next = ((s.hgAt n).rxAt d).next) ∧
        (∀ f rest, raw.flits = f :: rest → f.hopOk = false → t.wires = s.wires) ∧ sameExcept [.regs, .hg, .wires, .pr] s t ∧ hgsKept [n.val] s t) ∧
    (∀ (s : State) (n : Hg) (err : MemErr) (k : Nat) (raw : RawPkt) (p : Pkt), nextRx (s.hgAt n) = some (k, raw) →
      pktOk raw.flits raw.vc = true → poisOk raw.flits = true → p = pktOf raw.flits → vnOf p.hdr.op = some 3 →
      ∃ t, exec (.packetReceived n err) s = .next t ∧
        t.hgAt n = { s.hgAt n with rxPkts := dropNth (s.hgAt n).rxPkts k,
                                   cmtIn := if deadDest s n p.hdr.src.toNat = true ∧ p.hdr.chcmt = false then (s.hgAt n).cmtIn else (s.hgAt n).cmtIn ++ [p] } ∧
        sameExcept [.hg] s t ∧ hgsKept [n.val] s t) ∧
    (∀ (s : State) (n : Hg) (k : Nat) (raw : RawPkt) (p : Pkt) (d : Nat), nextRx (s.hgAt n) = some (k, raw) →
      pktOk raw.flits raw.vc = true → poisOk raw.flits = true → p = pktOf raw.flits → vnOf p.hdr.op ≠ some 3 → vnOf p.hdr.op ≠ some 4 →
      d = (p.hdr.seq - ((s.hgAt n).rxAt p.hdr.src.toNat).next).toNat →
      ∃ t, exec (.packetReceived n .ok) s = .next t ∧
        (d = 0 → raw.stored = true → ((t.hgAt n).rxAt p.hdr.src.toNat).next = ((s.hgAt n).rxAt p.hdr.src.toNat).next + 1 ∧
          ((t.hgAt n).rxAt p.hdr.src.toNat).held = ((s.hgAt n).rxAt p.hdr.src.toNat).held.filter (fun q => decide (q.hdr.seq ≠ p.hdr.seq))) ∧
        (d ≤ 2047 → (d = 0 ∨ ∀ q ∈ ((s.hgAt n).rxAt p.hdr.src.toNat).held, q.hdr.seq ≠ p.hdr.seq) → raw.stored = false →
          (t.reg (Reg.HG_RESEQ_DROP n)).toNat = min 0xFFFFFFFF ((s.reg (Reg.HG_RESEQ_DROP n)).toNat + 1) ∧ t.getB (Reg.HG_E2E_STATUS n) 3 = true ∧
          (t.hgAt n).rxAt p.hdr.src.toNat = (s.hgAt n).rxAt p.hdr.src.toNat ∧ sameExcept [.regs, .hg] s t) ∧
        (0 < d → ((t.hgAt n).rxAt p.hdr.src.toNat).next = ((s.hgAt n).rxAt p.hdr.src.toNat).next) ∧
        (0 < d → d ≤ 2047 → (∀ q ∈ ((s.hgAt n).rxAt p.hdr.src.toNat).held, q.hdr.seq ≠ p.hdr.seq) → raw.stored = true →
          ((t.hgAt n).rxAt p.hdr.src.toNat).held = ((s.hgAt n).rxAt p.hdr.src.toNat).held ++ [p] ∧ sameExcept [.hg] s t) ∧
        ((0 < d ∧ d ≤ 2047 ∧ (∃ q ∈ ((s.hgAt n).rxAt p.hdr.src.toNat).held, q.hdr.seq = p.hdr.seq)) ∨ 63488 ≤ d →
          (t.reg (Reg.HG_DUP_DROP n)).toNat = min 0xFFFFFFFF ((s.reg (Reg.HG_DUP_DROP n)).toNat + 1) ∧ (t.hgAt n).entries = (s.hgAt n).entries ∧
          (t.hgAt n).txns = (s.hgAt n).txns) ∧
        (2047 < d → d < 63488 → (t.reg (Reg.HG_SEQ_FAULT n)).toNat = min 0xFFFFFFFF ((s.reg (Reg.HG_SEQ_FAULT n)).toNat + 1) ∧
          t.getB (Reg.HG_E2E_STATUS n) 2 = true ∧
          t.al = alarmEvent s.al s.fclk (100 + n.val) 0x49 (BitVec.ofNat 8 n.val) (BitVec.ofNat 64 (p.hdr.src.toNat + p.hdr.seq.toNat * 2 ^ 21))) ∧
        sameExcept [.regs, .hg, .wires, .pr, .al, .freeCtr] s t ∧ hgsKept [n.val] s t)) ∧
  (
    (∀ (s : State) (n src : Hg) (err : MemErr), (∀ p ∈ ((s.hgAt n).rxAt src).held, p.hdr.seq ≠ ((s.hgAt n).rxAt src).next) →
      exec (.heldPacketCommit n ⟨src, err⟩) s = .next s) ∧
    (∀ (s : State) (n src : Hg) (err : MemErr), (∃ p ∈ ((s.hgAt n).rxAt src).held, p.hdr.seq = ((s.hgAt n).rxAt src).next) →
      ∃ t, exec (.heldPacketCommit n ⟨src, err⟩) s = .next t ∧ ((t.hgAt n).rxAt src).next = ((s.hgAt n).rxAt src).next + 1 ∧
        ((t.hgAt n).rxAt src).held = ((s.hgAt n).rxAt src).held.filter (fun q => decide (q.hdr.seq ≠ ((s.hgAt n).rxAt src).next)) ∧
        (err = .uncorrBothHdr → (t.hgAt n).entries = (s.hgAt n).entries ∧ (t.hgAt n).txns = (s.hgAt n).txns ∧
          (t.hgAt n).homeIn = (s.hgAt n).homeIn ∧ (t.hgAt n).snoops = (s.hgAt n).snoops ∧ t.getB (Reg.HG_E2E_STATUS n) 6 = true) ∧
        sameExcept [.regs, .hg, .wires, .pr, .al, .freeCtr] s t ∧ hgsKept [n.val] s t))

/-- R147, R176: an ECMT, a CRED and its one repetition go when due: time has reached the cycle they are due in, the count of
commits or freed entries starts again, and the pair remembers what it sent. With nothing due, nothing happens. R177, R180,
R182: an ECMT or ENAK from a destination, by its distance from OLDEST: within the U uncommitted packets it commits what it
covers (they leave the replay store, OLDEST advances past them, the stall count clears, the timer restarts), an ENAK that
names one also makes a pass due; up to 1024 behind it is stale; else it is ignored, counted in HG_CMT_INVALID and raises alarm
0x4A. With none in the inbox nothing happens. R147: a CRED sets CTOTAL_SEEN and returns the difference of the totals to the
credits; an excess over what was taken is ignored and flagged in HG_STATUS. -/
def Obligations.CommitAndCreditNoticesReturn : Prop :=
  (
    ∀ (s : State) (n src : Hg),
      (((s.hgAt n).rxAt src).firstAt = none → exec (.ecmtDelayTimeout n src) s = .next s) ∧
      (∀ a, ((s.hgAt n).rxAt src).firstAt = some a → ∃ t, exec (.ecmtDelayTimeout n src) s = .next t ∧
        t.fclk = max s.fclk (a + max 8 (s.getF (Reg.HG_E2E_CFG n) 21 8)) ∧
        (t.hgAt n).rxAt src = { (s.hgAt n).rxAt src with cseqSent := ((s.hgAt n).rxAt src).next - 1, since := 0, firstAt := none, ecmtAt := some t.fclk } ∧
        sameExcept [.fclk, .regs, .hg, .wires, .pr] s t ∧ hgsKept [n.val] s t ∧ regsKept [Reg.HG_WPT_HIT n] s t) ∧
      (((s.hgAt n).rxAt src).freedAt = none → exec (.credDelayTimeout n src) s = .next s) ∧
      (∀ a, ((s.hgAt n).rxAt src).freedAt = some a → ∃ t, exec (.credDelayTimeout n src) s = .next t ∧ t.fclk = max s.fclk (a + 128) ∧
        (t.hgAt n).rxAt src = { (s.hgAt n).rxAt src with freed := 0, freedAt := none, credAt := some t.fclk, credRepeat := false } ∧
        sameExcept [.fclk, .regs, .hg, .wires, .pr] s t ∧ hgsKept [n.val] s t ∧ regsKept [Reg.HG_WPT_HIT n] s t) ∧
      (∀ a, ((s.hgAt n).rxAt src).credAt = some a → ((s.hgAt n).rxAt src).freed = 0 → ((s.hgAt n).rxAt src).credRepeat = false →
        ∃ t, exec (.credKeepaliveTimeout n src) s = .next t ∧ t.fclk = max s.fclk (a + 2048) ∧
        (t.hgAt n).rxAt src = { (s.hgAt n).rxAt src with freedAt := none, credAt := some t.fclk, credRepeat := true } ∧
        sameExcept [.fclk, .regs, .hg, .wires, .pr] s t ∧ hgsKept [n.val] s t ∧ regsKept [Reg.HG_WPT_HIT n] s t) ∧
      ((((s.hgAt n).rxAt src).credAt = none ∨ ((s.hgAt n).rxAt src).freed ≠ 0 ∨ ((s.hgAt n).rxAt src).credRepeat = true) →
        exec (.credKeepaliveTimeout n src) s = .next s)) ∧
  (
    (∀ (s : State) (n : Hg), (s.hgAt n).cmtIn = [] →
      exec (.ecmtReceived n) s = .next s ∧ exec (.enakReceived n) s = .next s ∧ exec (.credReceived n) s = .next s) ∧
    (∀ (s : State) (n : Hg) (p : Pkt) (rest : List Pkt) (d : Nat) (c : Seq), (s.hgAt n).cmtIn = p :: rest → p.hdr.op = opECMT →
      p.hdr.chcmt = false → d = p.hdr.src.toNat → c = BitVec.ofNat 16 p.hdr.txn →
      ∃ t, exec (.ecmtReceived n) s = .next t ∧ (t.hgAt n).cmtIn = rest ∧
        ((c - ((s.hgAt n).txAt d).oldest).toNat < (uncommitted (s.hgAt n) d).length →
          (t.hgAt n).txAt d = { (s.hgAt n).txAt d with oldest := c + 1, stalls := 0, stalled := false, timerAt := s.fclk } ∧
          (∀ q ∈ (t.hgAt n).store, q.dst = d → q.waiting = false → q.kind ≠ .gua →
            (c - ((s.hgAt n).txAt d).oldest).toNat < (q.pkt.hdr.seq - ((s.hgAt n).txAt d).oldest).toNat)) ∧
        ((uncommitted (s.hgAt n) d).length ≤ (c - ((s.hgAt n).txAt d).oldest).toNat → t.hgAt n = { s.hgAt n with cmtIn := rest } ∧
          (64512 ≤ (c - ((s.hgAt n).txAt d).oldest).toNat → sameExcept [.hg] s t) ∧
          ((c - ((s.hgAt n).txAt d).oldest).toNat < 64512 →
            (t.reg (Reg.HG_CMT_INVALID n)).toNat = min 0xFFFFFFFF ((s.reg (Reg.HG_CMT_INVALID n)).toNat + 1) ∧
            t.getB (Reg.HG_E2E_STATUS n) 7 = true ∧
            t.al = alarmEvent s.al s.fclk (100 + n.val) 0x4A (BitVec.ofNat 8 n.val) (BitVec.ofNat 64 (d + c.toNat * 2 ^ 8)))) ∧
        sameExcept [.regs, .hg, .wires, .pr, .al] s t ∧ hgsKept [n.val] s t) ∧
    (∀ (s : State) (n : Hg) (p : Pkt) (rest : List Pkt) (d : Nat) (c : Seq), (s.hgAt n).cmtIn = p :: rest → p.hdr.op = opENAK →
      p.hdr.chcmt = false → d = p.hdr.src.toNat → c = BitVec.ofNat 16 p.hdr.txn →
      ∃ t, exec (.enakReceived n) s = .next t ∧ (t.hgAt n).cmtIn = rest ∧
        ((c - ((s.hgAt n).txAt d).oldest).toNat ≤ (uncommitted (s.hgAt n) d).length →
          ((t.hgAt n).txAt d).oldest = c ∧
          ((c - ((s.hgAt n).txAt d).oldest).toNat < (uncommitted (s.hgAt n) d).length → ((t.hgAt n).txAt d).passDue = true)) ∧
        ((c - ((s.hgAt n).txAt d).oldest).toNat ≤ (uncommitted (s.hgAt n) d).length →
          (t.reg (Reg.HG_ENAK_RX n)).toNat = min 0xFFFFFFFF ((s.reg (Reg.HG_ENAK_RX n)).toNat + 1)) ∧
        sameExcept [.regs, .hg, .wires, .pr, .al] s t ∧ hgsKept [n.val] s t)) ∧
  (
    ∀ (s : State) (n : Hg) (p : Pkt) (rest : List Pkt) (d diff : Nat), (s.hgAt n).cmtIn = p :: rest → p.hdr.op = opCRED →
      d = p.hdr.src.toNat → diff = (p.hdr.txn + 65536 - s.getF (Reg.HG_ALLOT n d) 20 16) % 65536 →
      ∃ t, exec (.credReceived n) s = .next t ∧ t.getF (Reg.HG_ALLOT n d) 20 16 = p.hdr.txn ∧
        t.hgAt n = { s.hgAt n with cmtIn := rest, taken := Tab.set (s.hgAt n).taken d (Tab.get (s.hgAt n).taken 0 d - diff) } ∧
        (Tab.get (s.hgAt n).taken 0 d < diff → t.getB (Reg.HG_STATUS n) 2 = true) ∧
        (diff ≤ Tab.get (s.hgAt n).taken 0 d → t.getB (Reg.HG_STATUS n) 2 = s.getB (Reg.HG_STATUS n) 2) ∧
        t.getF (Reg.HG_ALLOT n d) 0 10 = s.getF (Reg.HG_ALLOT n d) 0 10 ∧
        sameExcept [.regs, .hg] s t ∧ hgsKept [n.val] s t ∧ regsKept [Reg.HG_ALLOT n d, Reg.HG_STATUS n] s t)

/-- R151, R152: the advance of the stamp: CUR becomes the next value modulo 16 and ADV_FAIL clears where nothing counts under that
value, and otherwise it is refused with ADV_FAIL; nothing else changes. The completion of the drain is a condition, and
changes nothing itself. R331, HG_PAIR_RESET: HOLD and PEER are held as written; a GO is refused with FAIL while the pair has
uncommitted packets toward PEER, or where neither its bit of HG_DEAD_DEST nor HOLD with that PEER is set (or, by the model's
choice, where PEER is no headgate, log entry 33); otherwise it zeroes the pair's NEXT_TX, OLDEST and NEXT, CTOTAL and
CTOTAL_SEEN, sets CSEQ_SENT to 0xFFFF and CREDIT to ALLOT, and clears FAIL. -/
def Obligations.EpochsAdvanceAndPairsReset : Prop :=
  (
    ∀ (s : State) (n : Hg), exec (.epochDrainComplete n) s = .next s ∧
      ∃ t, exec (.epochAdvance n) s = .next t ∧ sameExcept [.regs] s t ∧ regsKept [Reg.HG_EPOCH n] s t ∧
        (epochCount (s.hgAt n) (curEpoch s n + 1) = 0 → t.getF (Reg.HG_EPOCH n) 0 4 = (s.getF (Reg.HG_EPOCH n) 0 4 + 1) % 16 ∧
          t.getB (Reg.HG_EPOCH n) 5 = false) ∧
        (epochCount (s.hgAt n) (curEpoch s n + 1) ≠ 0 → t.getF (Reg.HG_EPOCH n) 0 4 = s.getF (Reg.HG_EPOCH n) 0 4 ∧
          t.getB (Reg.HG_EPOCH n) 5 = true)) ∧
  (
    (∀ (s : State) (n : Hg) (peer : BitVec 8) (hold : Bool), ∃ t, exec (.pairResetHold n peer hold) s = .next t ∧
      t.getF (Reg.HG_PAIR_RESET n) 0 8 = peer.toNat ∧ t.getB (Reg.HG_PAIR_RESET n) 10 = hold ∧
      t.getB (Reg.HG_PAIR_RESET n) 9 = s.getB (Reg.HG_PAIR_RESET n) 9 ∧ sameExcept [.regs] s t ∧ regsKept [Reg.HG_PAIR_RESET n] s t) ∧
    (∀ (s : State) (n : Hg) (peer : BitVec 8),
      (160 ≤ peer.toNat ∨ uncommitted (s.hgAt n) peer.toNat ≠ [] ∨ (deadDest s n peer.toNat = false ∧ pairHeld s n peer.toNat = false)) →
      ∃ t, exec (.pairResetGo n peer) s = .next t ∧ t.getB (Reg.HG_PAIR_RESET n) 9 = true ∧ t.getF (Reg.HG_PAIR_RESET n) 0 8 = peer.toNat ∧
        sameExcept [.regs] s t ∧ regsKept [Reg.HG_PAIR_RESET n] s t) ∧
    (∀ (s : State) (n d : Hg), uncommitted (s.hgAt n) d = [] → (deadDest s n d = true ∨ pairHeld s n d = true) →
      ∃ t, exec (.pairResetGo n (BitVec.ofNat 8 d.val)) s = .next t ∧ t.getB (Reg.HG_PAIR_RESET n) 9 = false ∧
        (t.hgAt n).txAt d = PairTx.reset ∧ (t.hgAt n).rxAt d = PairRx.reset ∧ creditOf t n d = s.getF (Reg.HG_ALLOT n d) 0 10 ∧
        t.getF (Reg.HG_ALLOT n d) 20 16 = 0 ∧ t.getF (Reg.HG_GRANT n d) 20 16 = 0 ∧
        (∀ k, k ≠ d.val → (t.hgAt n).txAt k = (s.hgAt n).txAt k ∧ (t.hgAt n).rxAt k = (s.hgAt n).rxAt k) ∧
        sameExcept [.regs, .hg] s t ∧ hgsKept [n.val] s t ∧ regsKept [Reg.HG_PAIR_RESET n, Reg.HG_ALLOT n d, Reg.HG_GRANT n d] s t))

/-- R106, R112, R113, R173: an undamaged packet flit that arrives at a headgate's link gives its credit back and is counted as
ejected; a packet is whole with its last flit and then stands in the receive store, its flits in order, marked with whether
its head was admitted as it arrived. (The head of a packet comes where none is open in its channel, and no other flit does.)
R109, R110, R112, R124, R125: an undamaged head of one flit that arrives at a router input where no packet is open in its
channel and passes the head check (log entry 70 names the faults the manual gives no action for), toward a mesh output that is
enabled, stands at the back of its buffer with that one copy, on leg B from its waypoint on; with every other flit of the
router routed to outputs in service, no other buffer and no register changes. A flit on a disabled port is lost; at a faulty
one it is lost too, and its credit goes back. -/
def Obligations.FlitsArriveAndAreStored : Prop :=
  (
    ∀ (s : State) (n : Hg) (l : Fin 2) (err : MemErr) (f : Flit) (rest asm : List Flit) (i p : Nat),
      attachOf n l = (i, p) → s.wire (.hg n l) = f :: rest → f.vc ≤ 8 → f.hopOk = true → s.enabled (.hg n l) = true → s.faulty (.hg n l) = false →
      asm = Tab.get (s.hgAt n).rxAsm [] (16 * l.val + f.vc) → (f.isHead = true ↔ asm = []) →
      (∀ g, (asm ++ [f]).head? = some g → g.hopOk = true → headFault g = false) →
      ∃ (t : State) (b : Bool), b = (if f.isHead = true then admitHead s n f else !(s.hgAt n).rxDrop.contains (16 * l.val + f.vc)) ∧ exec (.flitArrival (.headgate n l) 0 err) s = .next t ∧ t.wire (.hg n l) = rest ∧
        Tab.get t.credits [] (LEnd.rt i p).key = Tab.get s.credits [] (LEnd.rt i p).key ++ [BitVec.ofNat 4 f.vc] ∧
        Tab.get t.pr.live 0 (ckEj n) = Tab.get s.pr.live 0 (ckEj n) + 1 ∧
        (f.isLast = false → Tab.get (t.hgAt n).rxAsm [] (16 * l.val + f.vc) = asm ++ [f] ∧ (t.hgAt n).rxPkts = (s.hgAt n).rxPkts ∧
          (t.hgAt n).rxDrop.contains (16 * l.val + f.vc) = !b) ∧
        (f.isLast = true → Tab.get (t.hgAt n).rxAsm [] (16 * l.val + f.vc) = [] ∧
          (t.hgAt n).rxPkts = (s.hgAt n).rxPkts ++ [{ flits := asm ++ [f], vc := f.vc, stored := b }]) ∧
        sameExcept [.hg, .wires, .credits, .pr] s t ∧ hgsKept [n.val] s t) ∧
  (
    (∀ (s u : State) (i : Rt) (p : Port) (f : Flit), nextOnWire s (.rt i p) = some (f, u) → f.isControl = false →
      f.vc ≤ 8 → f.hopOk = true → s.enabled (.rt i p) = true → s.faulty (.rt i p) = false → f.kind = 3 → f.mc = false →
      (s.rtAt i).openAt p f.vc = none → headFault f = false → 4 ≤ f.laport → s.enabled (.rt i f.laport) = true →
      s.faulty (.rt i f.laport) = false →
      (∀ q v, ∀ b ∈ (s.rtAt i).buf q v, b.copies ≠ [] ∧ ∀ c ∈ b.copies, s.enabled (.rt i c.1) = true ∧ s.faulty (.rt i c.1) = false) →
      ∃ t, exec (.flitArrival (.router i p) 0 .ok) s = .next t ∧
        (t.rtAt i).buf p f.vc = (s.rtAt i).buf p f.vc ++
          [{ flit := f, copies := [(f.laport, 0)],
             vcOut := if f.hdr.wpv = 1 ∧ nodeOf i = f.hdr.wnode.toNat ∧ f.vc < 8 ∧ f.vc % 2 = 0 then f.vc + 1 else f.vc,
             bad := false, trunc := false }] ∧
        (∀ q w, 9 * q + w ≠ 9 * p.val + f.vc → (t.rtAt i).buf q w = (s.rtAt i).buf q w) ∧
        (∀ o, (t.rtAt i).arb o = (s.rtAt i).arb o ∧ (t.rtAt i).guaArb o = (s.rtAt i).guaArb o ∧ t.link (.rt i o) = s.link (.rt i o)) ∧
        sameExcept [.rt] u t ∧ rtsKept [i.val] s t) ∧
    (∀ (s u : State) (r : Rcv) (f : Flit) (damage : BitVec 576) (err : MemErr), nextOnWire s (rcvEnd r) = some (f, u) → f.isControl = false →
      (u.enabled (rcvEnd r) = false → exec (.flitArrival r damage err) s = .next u) ∧
      (u.enabled (rcvEnd r) = true → u.faulty (rcvEnd r) = true → f.vc ≤ 8 →
        exec (.flitArrival r 0 err) s = .next (returnCredit u (rcvEnd r) f.vc))))

/-- R105, R106, R109, R115, R118: in a cycle of a router output that a guaranteed flit or a heartbeat does not take, the one flit
presented for it leaves (nobody else holds the output): a credit of its channel is spent, it stands on the link with
look-ahead and channel written and a new hop code, its buffer gives its credit back, and it is counted. A disabled or faulty
output sends nothing. R119, R123: a guaranteed flit at the front of one input takes the cycle of its output before any
best-effort flit and any heartbeat, given a credit of channel 8 and nobody holding the output; with no guaranteed flit a
heartbeat due takes it, and stands on the link with the node, the port and the count. -/
def Obligations.OutputsSendInTheirOrder : Prop :=
  (
    (∀ (s : State) (i : Rt) (o : Port), (s.enabled (.rt i o) = false ∨ s.faulty (.rt i o) = true) →
      exec (.outputArbitration i o) s = .next s) ∧
    (∀ (s : State) (i : Rt) (o p : Port) (v : Nat) (b : BufFlit) (rest : List BufFlit) (m : BitVec 16) (e : LEnd),
      s.enabled (.rt i o) = true → s.faulty (.rt i o) = false → (LEnd.rt i o).far = some e → Tab.get (s.rtAt i).hbDue false o = false →
      guaAsk s i o = [] → presents s i p = some (v, o.val) → (∀ q : Port, q ≠ p → ∀ w, presents s i q ≠ some (w, o.val)) →
      ((s.rtAt i).arb o).hold = none → (s.rtAt i).buf p v = b :: rest → b.copies = [(o.val, m)] → b.trunc = false →
      (∀ x ∈ (s.rtAt i).bufs, ∀ y ∈ x.2, y.bad = false) →
      ∃ t, exec (.outputArbitration i o) s = .next t ∧ (t.rtAt i).buf p v = rest ∧
        (t.link (.rt i o)).credits = setNth (s.link (.rt i o)).credits b.vcOut (cell (s.link (.rt i o)).credits b.vcOut - 1) ∧
        t.wire e = s.wire e ++ [(b.flit.rewrite b.vcOut
          (if b.flit.isHead = true ∧ b.flit.mc = false ∧ 4 ≤ o.val then lookahead s i o b.flit.hdr b.vcOut else 0) m).stamp] ∧
        (∀ f, (LEnd.rt i p).far = some f → Tab.get t.credits [] f.key = Tab.get s.credits [] f.key ++ [BitVec.ofNat 4 v]) ∧
        (∀ q w, (q, w) ≠ (p.val, v) → 9 * q + w ≠ 9 * p.val + v → (t.rtAt i).buf q w = (s.rtAt i).buf q w) ∧
        Tab.get t.pr.live 0 (ckFlits i o) = Tab.get s.pr.live 0 (ckFlits i o) + 1 ∧
        sameExcept [.rt, .wires, .credits, .pr] s t ∧ rtsKept [i.val] s t)) ∧
  (
    (∀ (s : State) (i : Rt) (o p : Port) (b : BufFlit) (rest : List BufFlit) (m : BitVec 16) (e : LEnd),
      s.enabled (.rt i o) = true → s.faulty (.rt i o) = false → (LEnd.rt i o).far = some e → guaAsk s i o = [p.val] →
      0 < (s.link (.rt i o)).credit 8 → ((s.rtAt i).guaArb o).hold = none → (s.rtAt i).buf p 8 = b :: rest → b.copies = [(o.val, m)] →
      b.trunc = false → b.vcOut = 8 → (∀ x ∈ (s.rtAt i).bufs, ∀ y ∈ x.2, y.bad = false) →
      ∃ t g, exec (.outputArbitration i o) s = .next t ∧ (t.rtAt i).buf p 8 = rest ∧ t.wire e = s.wire e ++ [g] ∧ g.payload = b.flit.payload ∧
        g.vc = 8 ∧ Tab.get (t.rtAt i).hbDue false o = Tab.get (s.rtAt i).hbDue false o ∧
        (t.link (.rt i o)).credits = setNth (s.link (.rt i o)).credits 8 (cell (s.link (.rt i o)).credits 8 - 1) ∧
        sameExcept [.rt, .wires, .credits, .pr] s t ∧ rtsKept [i.val] s t) ∧
    (∀ (s : State) (i : Rt) (o : Port) (e : LEnd), s.enabled (.rt i o) = true → s.faulty (.rt i o) = false → (LEnd.rt i o).far = some e →
      guaAsk s i o = [] → Tab.get (s.rtAt i).hbDue false o = true → (∀ x ∈ (s.rtAt i).bufs, ∀ y ∈ x.2, y.bad = false) →
      ∃ t, exec (.outputArbitration i o) s = .next t ∧ Tab.get (t.rtAt i).hbDue false o = false ∧
        t.wire e = s.wire e ++ [heartbeatFlit (nodeOf i) o (s.link (.rt i o)).hbSent.toNat] ∧
        (t.link (.rt i o)).hbSent = (s.link (.rt i o)).hbSent + 1 ∧ (t.rtAt i).bufs = (s.rtAt i).bufs ∧
        sameExcept [.rt, .wires, .pr] s t ∧ rtsKept [i.val] s t))

/-- R106, R107: one cycle of the credit signals at a sending end in service: an idle cycle with good parity changes no counter, a
credit with good parity on channel 0 to 8 raises that counter by one, and wrong parity, or a credit on a channel above 8,
declares the link faulty (cause 2: at a router with RT_FAULT[12] too), no counter of it being raised. At an end disabled or
faulty the cycle counts nothing. -/
def Obligations.CreditCycleCountsOrDeclares : Prop :=
  (∀ (s : State) (r : Rcv) (c : BitVec 4) (cs : List (BitVec 4)), s.enabled (rcvEnd r) = true → s.faulty (rcvEnd r) = false →
    Tab.get s.credits [] (rcvEnd r).key = c :: cs → c.toNat ≤ 8 →
    ∃ t, exec (.creditReturn r 0) s = .next t ∧
      t.link (rcvEnd r) = { s.link (rcvEnd r) with
        credits := setNth (s.link (rcvEnd r)).credits c.toNat (cell (s.link (rcvEnd r)).credits c.toNat + 1) } ∧
      Tab.get t.credits [] (rcvEnd r).key = cs ∧ sameExcept [.hg, .rt, .credits] s t) ∧
  (∀ (s : State) (r : Rcv), s.enabled (rcvEnd r) = true → s.faulty (rcvEnd r) = false → Tab.get s.credits [] (rcvEnd r).key = [] →
    ∃ t, exec (.creditReturn r 0) s = .next t ∧ Tab.get t.credits [] (rcvEnd r).key = [] ∧ sameExcept [.credits] s t) ∧
  (∀ (s : State) (i : Rt) (p : Port) (damage : BitVec 6), s.enabled (.rt i p) = true → s.faulty (.rt i p) = false →
    (∀ w, w = creditBits (Tab.get s.credits [] (LEnd.rt i p).key).head? ^^^ damage →
      (bitsOf w 6).length % 2 = 0 ∨ (bit w 5 = true ∧ 8 < field w 1 4)) →
    ∃ t, exec (.creditReturn (.router i p) damage) s = .next t ∧ t.getB (Reg.RT_FAULT i) 12 = true ∧ t.getB (Reg.RT_FAULT i) p = true ∧
      t.getB (Reg.RT_PORT_STATUS i) (8 + p) = true ∧ (t.link (.rt i p)).credits = (s.link (.rt i p)).credits ∧
      t.al = alarmEvent s.al s.fclk i 0x10 (BitVec.ofNat 8 i) (BitVec.ofNat 64 (p + 2 * 2 ^ 3)) ∧ sameExcept [.regs, .rt, .credits, .al] s t ∧
      rtsKept [i.val] s t) ∧
  (∀ (s : State) (n : Hg) (l : Fin 2) (damage : BitVec 6), s.enabled (.hg n l) = true → s.faulty (.hg n l) = false →
    (∀ w, w = creditBits (Tab.get s.credits [] (LEnd.hg n l).key).head? ^^^ damage →
      (bitsOf w 6).length % 2 = 0 ∨ (bit w 5 = true ∧ 8 < field w 1 4)) →
    ∃ t, exec (.creditReturn (.headgate n l) damage) s = .next t ∧ t.getB (Reg.HG_ATTACH n) (2 + l) = true ∧
      (t.link (.hg n l)).credits = (s.link (.hg n l)).credits ∧ sameExcept [.regs, .hg, .wires, .credits, .al] s t ∧ hgsKept [n.val] s t) ∧
  (∀ (s : State) (r : Rcv) (damage : BitVec 6), (s.enabled (rcvEnd r) = false ∨ s.faulty (rcvEnd r) = true) →
    ∃ t, exec (.creditReturn r damage) s = .next t ∧ sameExcept [.credits] s t ∧
      Tab.get t.credits [] (rcvEnd r).key = (Tab.get s.credits [] (rcvEnd r).key).drop 1)

/-- R123, R126: a heartbeat due at a router output is marked for it; at a headgate it stands on the link behind its guaranteed
flits and its earlier heartbeats, carrying the node and local port of the attachment (by the model's choice, log entry 17) and
its count. A correct heartbeat that arrives restarts the silence time and sets the count seen. On an end disabled or faulty
neither happens. R127, R128, Table 16-7: SILENCE cycles without a correct heartbeat, and the fall of the neighbour's
PORT_LIVE, declare the link of an enabled port faulty (causes 0 and 5): RT_PORT_STATUS.FAULTY and RT_FAULT of the port are set
and the router raises LINK_FAULT, time having reached the end of the silence. An end disabled or faulty declares nothing.
R315, R320: a fault on the link in use of a headgate with AUTO set and its other link healthy moves it: USE becomes the other
link, FAILED_OVER is set, HG_FAILOVER_CNT counts, every reservation entry loses VALID, a pass to every destination with
uncommitted packets is due, and alarm 0x40 tells the link, the cause and the move. -/
def Obligations.LinksStayAliveOrAreDeclared : Prop :=
  (
    (∀ (s : State) (r : Rcv), (s.enabled (rcvEnd r) = false ∨ s.faulty (rcvEnd r) = true) → exec (.heartbeatTimer r) s = .next s) ∧
    (∀ (s : State) (i : Rt) (p : Port), s.enabled (.rt i p) = true → s.faulty (.rt i p) = false →
      ∃ t, exec (.heartbeatTimer (.router i p)) s = .next t ∧ Tab.get (t.rtAt i).hbDue false p = true ∧ (t.rtAt i).bufs = (s.rtAt i).bufs ∧
        sameExcept [.rt] s t ∧ rtsKept [i.val] s t) ∧
    (∀ (s : State) (n : Hg) (l : Fin 2) (i p : Nat), s.enabled (.hg n l) = true → s.faulty (.hg n l) = false → attachOf n l = (i, p) →
      ∃ t, exec (.heartbeatTimer (.headgate n l)) s = .next t ∧
        t.wire (.rt i p) = (s.wire (.rt i p)).filter (fun g => decide (g.vc = 8) || g.isControl) ++
          [heartbeatFlit (nodeOf i) p (s.link (.hg n l)).hbSent.toNat] ++
            (s.wire (.rt i p)).filter (fun g => !(decide (g.vc = 8) || g.isControl)) ∧
        (t.link (.hg n l)).hbSent = (s.link (.hg n l)).hbSent + 1 ∧ sameExcept [.hg, .wires] s t ∧ hgsKept [n.val] s t) ∧
    (∀ (s : State) (n : Hg) (l : Fin 2) (i p : Nat) (c : BitVec 16) (rest : List Flit), s.enabled (.hg n l) = true → s.faulty (.hg n l) = false →
      attachOf n l = (i, p) → s.wire (.hg n l) = heartbeatFlit (nodeOf i) p c.toNat :: rest →
      ((s.link (.hg n l)).hbFirst = true ∨ c = (s.link (.hg n l)).hbSeen + 1) →
      ∃ t, exec (.heartbeatReceived (.headgate n l) 0) s = .next t ∧ t.wire (.hg n l) = rest ∧
        t.link (.hg n l) = { s.link (.hg n l) with hbSeen := c, hbFirst := false, hbAt := s.fclk } ∧ sameExcept [.hg, .wires] s t ∧
        hgsKept [n.val] s t)) ∧
  (
    (∀ (s : State) (i : Rt) (p : Port), s.enabled (.rt i p) = true → s.faulty (.rt i p) = false →
      (∃ t, exec (.linkSilenceTimeout (.router i p)) s = .next t ∧
        t.fclk = max s.fclk ((s.link (.rt i p)).hbAt + s.getF (Reg.RT_LINK_CFG i) 0 12) ∧ t.getB (Reg.RT_PORT_STATUS i) (8 + p) = true ∧
        t.getB (Reg.RT_FAULT i) p = true ∧ t.al = alarmEvent s.al t.fclk i 0x10 (BitVec.ofNat 8 i) (BitVec.ofNat 64 p) ∧
        sameExcept [.fclk, .regs, .rt, .credits, .al] s t ∧ rtsKept [i.val] s t) ∧
      (s.live (.rt i p) = true → ∃ t, exec (.linkPortLiveFall (.router i p)) s = .next t ∧ t.live (.rt i p) = false ∧
        t.getB (Reg.RT_PORT_STATUS i) (8 + p) = true ∧ t.getB (Reg.RT_FAULT i) p = true ∧
        t.al = alarmEvent s.al s.fclk i 0x10 (BitVec.ofNat 8 i) (BitVec.ofNat 64 (p + 5 * 2 ^ 3)) ∧ sameExcept [.regs, .rt, .credits, .al] s t ∧
        rtsKept [i.val] s t)) ∧
    (∀ (s : State) (n : Hg) (l : Fin 2), s.enabled (.hg n l) = true → s.faulty (.hg n l) = false →
      (∃ t, exec (.linkSilenceTimeout (.headgate n l)) s = .next t ∧ t.getB (Reg.HG_ATTACH n) (2 + l) = true ∧
        t.fclk = max s.fclk ((s.link (.hg n l)).hbAt + s.getF (Reg.HG_LINK_CFG n) 0 12)) ∧
      (s.live (.hg n l) = true → ∃ t, exec (.linkPortLiveFall (.headgate n l)) s = .next t ∧ t.live (.hg n l) = false ∧
        t.getB (Reg.HG_ATTACH n) (2 + l) = true)) ∧
    (∀ (s : State) (r : Rcv), (s.enabled (rcvEnd r) = false ∨ s.faulty (rcvEnd r) = true) → exec (.linkSilenceTimeout r) s = .next s) ∧
    (∀ (s : State) (r : Rcv), s.live (rcvEnd r) = false → exec (.linkPortLiveFall r) s = .next s)) ∧
  (
    ∀ (s : State) (n : Hg) (l : Fin 2), s.enabled (.hg n l) = true → s.faulty (.hg n l) = false → s.live (.hg n l) = true →
      s.getF (Reg.HG_ATTACH n) 0 1 = l.val → s.getB (Reg.HG_ATTACH n) 1 = true → healthyLink s n (1 - l.val) = true →
      ∃ t, exec (.linkPortLiveFall (.headgate n l)) s = .next t ∧ t.getF (Reg.HG_ATTACH n) 0 1 = 1 - l.val ∧
        t.getB (Reg.HG_ATTACH n) 6 = true ∧ t.getB (Reg.HG_ATTACH n) (2 + l) = true ∧
        (t.reg (Reg.HG_FAILOVER_CNT n)).toNat = min 0xFFFFFFFF ((s.reg (Reg.HG_FAILOVER_CNT n)).toNat + 1) ∧
        (∀ e, e < 256 → t.getB (Reg.HG_PL_ENTRY n e) 63 = false) ∧
        (∀ d : Hg, uncommitted (s.hgAt n) d ≠ [] → ((t.hgAt n).txAt d).passDue = true) ∧
        t.al = alarmEvent s.al s.fclk (100 + n.val) 0x40 (BitVec.ofNat 8 n.val) (BitVec.ofNat 64 (l.val + 5 * 2 + 2 ^ 5)) ∧
        sameExcept [.regs, .hg, .wires, .al] s t ∧ hgsKept [n.val] s t)

/-- R193, R194, R196, R197: with turns enabled and the time once valid, a TCLK cycle whose time has reached the nominal time of a
turn `j` after the last one issued issues one pulse, numbered `j`, the latest boundary passed; the turns skipped are counted,
a pulse less than 10,016 FCLK cycles after the previous one is deferred to that cycle and counted. The time is the input's
while it is valid; in holdover it is the generator's own copy, which goes on by 5 ns each TCLK cycle of 8 FCLK cycles, never
back, until it has reached the time named (the model's reading, log entry 56, as is the K in force in a second). No turn is
issued while disabled, before the time was ever valid, or for a turn not after the last. -/
def Obligations.TurnGeneratorIssuesTheLatestTurn : Prop :=
  (∀ (s : State) (sec : BitVec 48) (ns : BitVec 32) (k j s0 j0 p : Nat), k = turnsPerSecond (s.getF Reg.CK_TURN_CFG 0 18) →
    j * 1000000000 / k ≤ ns.toNat → ns.toNat < (j + 1) * 1000000000 / k → s.bd.time.valid = true →
    s.bd.everValid = true → s.getB Reg.CK_TURN_CFG 18 = true → s.bd.pendingK = none → s.bd.lastTurn = some (s0, j0) → s.bd.lastPulseAt = some p →
    (s0 < sec.toNat ∨ s0 = sec.toNat ∧ j0 < j) →
    ∃ t, exec (.turnPulseIssue sec ns) s = .next t ∧ t.bd.turnOut = some j ∧ t.bd.lastTurn = some (sec.toNat, j) ∧
      t.fclk = max s.fclk (p + 10016) ∧ t.bd.lastPulseAt = some t.fclk ∧ t.bd.ownSec = sec ∧ t.bd.ownNs = ns ∧
      (t.reg Reg.CK_TURN_SKIP).toNat = min 0xFFFFFFFF ((s.reg Reg.CK_TURN_SKIP).toNat +
        (if sec.toNat = s0 then j - j0 - 1 else (k - 1 - j0) + (sec.toNat - s0 - 1) * k + j)) ∧
      (s.fclk < p + 10016 → (t.reg Reg.CK_TURN_LATE).toNat = min 0xFFFFFFFF ((s.reg Reg.CK_TURN_LATE).toNat + 1)) ∧
      (p + 10016 ≤ s.fclk → t.reg Reg.CK_TURN_LATE = s.reg Reg.CK_TURN_LATE) ∧
      t.getF Reg.CK_TURN_STATUS 3 18 = j % 2 ^ 18 ∧ t.getB Reg.CK_TURN_STATUS 2 = s.getB Reg.CK_TURN_STATUS 2 ∧
      sameExcept [.fclk, .regs, .bd] s t ∧ regsKept [Reg.CK_TURN_SKIP, Reg.CK_TURN_LATE, Reg.CK_TURN_STATUS] s t) ∧
  (∀ (s : State) (sec : BitVec 48) (ns : BitVec 32) (ticks now : Nat), s.bd.time.valid = false → s.bd.everValid = true →
    ticks = max ((s.fclk - s.bd.ownAt) / 8)
      ((sec.toNat * 1000000000 + ns.toNat - (s.bd.ownSec.toNat * 1000000000 + s.bd.ownNs.toNat) + 4) / 5) →
    now = s.bd.ownSec.toNat * 1000000000 + s.bd.ownNs.toNat + 5 * ticks → now / 1000000000 < 2 ^ 48 →
    ∃ t, exec (.turnPulseIssue sec ns) s = .next t ∧ t.bd.ownSec.toNat = now / 1000000000 ∧ t.bd.ownNs.toNat = now % 1000000000 ∧
      t.bd.ownAt = s.bd.ownAt + 8 * ticks ∧ sameExcept [.fclk, .regs, .bd] s t ∧
      regsKept [Reg.CK_TURN_SKIP, Reg.CK_TURN_LATE, Reg.CK_TURN_STATUS] s t ∧
      (s.getB Reg.CK_TURN_CFG 18 = false → t.bd.turnOut = s.bd.turnOut ∧ t.bd.lastTurn = s.bd.lastTurn) ∧
      (∀ k j s0 j0 p, s.getB Reg.CK_TURN_CFG 18 = true → k = turnsPerSecond (s.getF Reg.CK_TURN_CFG 0 18) → s.bd.pendingK = none →
        j * 1000000000 / k ≤ now % 1000000000 → now % 1000000000 < (j + 1) * 1000000000 / k →
        s.bd.lastTurn = some (s0, j0) → s.bd.lastPulseAt = some p → (s0 < now / 1000000000 ∨ s0 = now / 1000000000 ∧ j0 < j) →
        t.bd.turnOut = some j ∧ t.bd.lastTurn = some (now / 1000000000, j) ∧ t.bd.lastPulseAt = some t.fclk ∧
        t.fclk = max (max s.fclk (s.bd.ownAt + 8 * ticks)) (p + 10016))) ∧
  (∀ (s : State) (sec : BitVec 48) (ns : BitVec 32),
    (s.bd.everValid = false ∨ (s.bd.time.valid = true ∧ (s.getB Reg.CK_TURN_CFG 18 = false ∨
      (∃ s0 j0, s.bd.lastTurn = some (s0, j0) ∧ (sec.toNat < s0 ∨ sec.toNat = s0 ∧ ns.toNat < (j0 + 1) * 1000000000 / turnK s s0))))) →
    ∃ t, exec (.turnPulseIssue sec ns) s = .next t ∧ t.bd.lastTurn = s.bd.lastTurn ∧ t.bd.turnOut = s.bd.turnOut ∧
      t.bd.lastPulseAt = s.bd.lastPulseAt ∧ sameExcept [.bd] s t) ∧
  (∀ (s : State) (valid : Bool) (sec : BitVec 48) (ns : BitVec 32), ∃ t, exec (.timeValidChange valid sec ns) s = .next t ∧
    t.bd.time.valid = valid ∧ t.getB Reg.CK_TURN_STATUS 1 = valid ∧ t.bd.lastTurn = s.bd.lastTurn ∧ t.bd.turnOut = s.bd.turnOut ∧
    t.bd.everValid = (s.bd.everValid || valid) ∧
    (valid = true → t.bd.time.sec = sec ∧ t.bd.time.ns = ns ∧ t.bd.ownSec = sec ∧ t.bd.ownNs = ns ∧ t.bd.ownAt = s.fclk ∧ t.getB Reg.CK_TURN_STATUS 2 = false) ∧
    (valid = false → t.bd.ownSec = s.bd.ownSec ∧ t.bd.ownNs = s.bd.ownNs ∧ t.bd.ownAt = s.bd.ownAt ∧
      t.getB Reg.CK_TURN_STATUS 2 = (s.getB Reg.CK_TURN_STATUS 2 || s.bd.everValid)) ∧
    sameExcept [.regs, .bd] s t ∧ regsKept [Reg.CK_TURN_STATUS] s t)

/-- R198, R199, R200, R416: the pulse arrives at all 160 headgates in one cycle; each whose parity is good and whose wheel counter
has stopped starts its wheel with the turn number delivered, and every other one starts none, sets TREE_FAULT and raises a
turn-tree alarm, its counter going on if it runs, and the firings of the turn are missed there (kept for the packets they make
late, log entry 74); a snapshot is taken at the turns that PR_CTL names. With no pulse on the way nothing happens. A headgate
without a pulse for 16 nominal turn lengths sets TURN_MISS and raises the same alarm (what the alarm's DETAIL tells apart
follows the register map). -/
def Obligations.TurnTreeStartsEveryWheelAtOnce : Prop :=
  (∀ (s : State) (bad : BitVec 160), s.bd.turnOut = none → exec (.turnPulseArrival bad) s = .next s) ∧
  (∀ (s : State) (bad : BitVec 160) (j : Nat), s.bd.turnOut = some j →
    ∃ t, exec (.turnPulseArrival bad) s = .next t ∧ t.bd.turnOut = none ∧ t.bd.lastTurn = s.bd.lastTurn ∧
      (∀ n : Hg, bad.getLsbD n = false → counterRuns s n = false →
        t.hgAt n = { s.hgAt n with turn := j, pulseAt := some s.fclk, wheelAt := some s.fclk, wheelOff := false, fired := [] } ∧
        wheelRuns t n = true) ∧
      (∀ n : Hg, (bad.getLsbD n = true ∨ counterRuns s n = true) → (t.hgAt n).wheelOff = true ∧ wheelRuns t n = false ∧
        (t.hgAt n).wheelAt = (s.hgAt n).wheelAt ∧ (t.hgAt n).missed = (s.hgAt n).missed ++ turnFirings s n j ∧
        (t.hgAt n).store = (s.hgAt n).store) ∧
      (s.getF Reg.PR_CTL 1 18 = 0 →
        (∀ n : Hg, t.getB (Reg.HG_PL_STATUS n) 1 = (s.getB (Reg.HG_PL_STATUS n) 1 || bad.getLsbD n || counterRuns s n)) ∧
        (∀ o, (∀ n : Hg, o ≠ Reg.HG_PL_STATUS n) → t.reg o = s.reg o)) ∧
      (s.getF Reg.PR_CTL 1 18 ≠ 0 → j % s.getF Reg.PR_CTL 1 18 = 0 → t.getF Reg.PR_STATUS 0 16 = (s.getF Reg.PR_STATUS 0 16 + 1) % 65536) ∧
      ((∀ n : Hg, bad.getLsbD n = false ∧ counterRuns s n = false) → t.al = s.al) ∧
      (∀ n : Hg, bad.getLsbD n = true → (∀ m : Hg, m ≠ n → bad.getLsbD m = false ∧ counterRuns s m = false) →
        t.al = alarmEvent s.al s.fclk (100 + n.val) 0x4E (BitVec.ofNat 8 n.val) (BitVec.ofNat 64 (1 + (if counterRuns s n = true then 2 else 0)))) ∧
      sameExcept [.regs, .hg, .bd, .al] s t) ∧
  (∀ (s : State) (n : Hg), ∃ t, exec (.turnMissTimeout n) s = .next t ∧
    t.fclk = max s.fclk (((s.hgAt n).pulseAt.getD 0) + 16 * 1600000000 / turnsPerSecond (s.getF Reg.CK_TURN_CFG 0 18)) ∧
    t.getB (Reg.HG_PL_STATUS n) 2 = true ∧ t.al = alarmEvent s.al t.fclk (100 + n.val) 0x4E (BitVec.ofNat 8 n.val) 4 ∧
    sameExcept [.fclk, .regs, .al] s t ∧ regsKept [Reg.HG_PL_STATUS n] s t)

/-- R199, R200, R204, R206, R213, R214, R222, Table 7-2: a reservation entry fires once in a turn `j` with `j mod MOD = PHASE`,
while the wheel runs, in wheel cycle START. An ordinary entry injects the oldest staged packet accepted at least four cycles
earlier: its first injection takes the channel's next SEQ and the low eight bits of the turn; a later one keeps both. A packet
that a firing of its channel in a turn without a wheel missed is late (by log entry 74). A relay entry sends the oldest packet
held for relay. With no packet it counts an empty firing. An entry that may not fire: nothing happens. A guaranteed packet
goes onto the link in use ahead of the waiting best-effort flits. -/
def Obligations.EntriesFireInTheirTurns : Prop :=
  (∀ (s : State) (n : Hg) (e : Fin 256), ((s.hgAt n).wheelAt = none ∨ wheelRuns s n = false ∨ e.val ∈ (s.hgAt n).fired ∨
      entFires (s.reg (Reg.HG_PL_ENTRY n e)) (s.hgAt n).turn = false) → exec (.entryFire n e) s = .next s) ∧
  (∀ (s : State) (n : Hg) (e : Fin 256) (t0 : Nat) (w : Word), w = s.reg (Reg.HG_PL_ENTRY n e) → (s.hgAt n).wheelAt = some t0 →
    wheelRuns s n = true → e.val ∉ (s.hgAt n).fired → entFires w (s.hgAt n).turn = true →
    ∃ t, exec (.entryFire n e) s = .next t ∧ t.fclk = max s.fclk (t0 + entStart w) ∧ (t.hgAt n).fired = (s.hgAt n).fired ++ [e.val] ∧
      (entKind w ≠ 2 → srcRec s n (entChan w) = none → (t.reg (Reg.HG_PL_EMPTY n)).toNat = min 0xFFFFFFFF ((s.reg (Reg.HG_PL_EMPTY n)).toNat + 1) ∧
        t.wires = s.wires ∧ (t.hgAt n).store = (s.hgAt n).store) ∧
      (∀ i rec, entKind w = 0 → srcRec s n (entChan w) = some (i, rec) →
        (∀ p ∈ (s.hgAt n).store, p.kind = .gua → p.pkt.hdr.gchan = entChan w → p.waiting = true ∧ t.fclk < p.accAt + 4) →
        (t.reg (Reg.HG_PL_EMPTY n)).toNat = min 0xFFFFFFFF ((s.reg (Reg.HG_PL_EMPTY n)).toNat + 1) ∧ t.wires = s.wires ∧
          (t.hgAt n).store = (s.hgAt n).store) ∧
      (∀ i rec k p, entKind w = 0 → entMc w = false → srcRec s n (entChan w) = some (i, rec) → recRelayed rec = false → entDsel w ≠ 255 →
        (s.hgAt n).store.findIdx? (fun q => decide (q.kind = .gua) && decide (q.pkt.hdr.gchan = entChan w) && q.waiting &&
          decide (q.accAt + 4 ≤ t.fclk)) = some k → (s.hgAt n).store[k]? = some p →
        ∃ q, (t.hgAt n).store = setNth (s.hgAt n).store k q ∧ q.waiting = false ∧ q.pkt.hdr.seq = ((s.hgAt n).chanAt i).seq ∧
          q.pkt.hdr.xinfo = BitVec.ofNat 32 (entChan w * 2 ^ 20 + (s.hgAt n).turn % 256 * 2 ^ 12) ∧ q.pkt.data = p.pkt.data ∧ q.pend = 1 ∧
          q.owners = [entDsel w] ∧ bit q.pkt.hdr.attr 4 = false ∧
          (t.hgAt n).chanAt i = { (s.hgAt n).chanAt i with seq := ((s.hgAt n).chanAt i).seq + 1 } ∧
          ((takeMissed (s.hgAt n).missed false (entChan w) (p.accAt + 4)).1 = true →
            t.lateGua.contains (entChan w, ((s.hgAt n).chanAt i).seq.toNat) = true) ∧
          (linkUp s n = true → (s.hgAt n).injBusyUntil ≤ t.fclk → attachValid s n (entDsel w) = true →
            t.wire (LEnd.rt (attachOf n (linkInUse s n)).1 (attachOf n (linkInUse s n)).2) =
              (s.wire (LEnd.rt (attachOf n (linkInUse s n)).1 (attachOf n (linkInUse s n)).2)).filter (fun f => decide (f.vc = 8)) ++
                guaFlits s n w 1 q.pkt ++
              (s.wire (LEnd.rt (attachOf n (linkInUse s n)).1 (attachOf n (linkInUse s n)).2)).filter (fun f => decide (f.vc ≠ 8)) ∧
            t.al = s.al ∧ (t.hgAt n).injBusyUntil = t.fclk + (guaFlits s n w 1 q.pkt).length)) ∧
      (∀ i rec since p rest, entKind w = 2 → recOf s n (entChan w) = some (i, rec) → ((s.hgAt n).chanAt i).relay = (since, p) :: rest →
        (t.hgAt n).chanAt i = { (s.hgAt n).chanAt i with relay := rest }) ∧
      sameExcept [.fclk, .regs, .hg, .wires, .pr, .al, .lateGua] s t ∧ hgsKept [n.val] s t ∧
      regsKept [Reg.HG_PL_EMPTY n, Reg.HG_PL_COLL n, Reg.HG_PL_STATUS n, Reg.HG_WPT_HIT n] s t)

/-- R208 to R212, R222, R480, Table 7-3: what a headgate does with the next guaranteed packet. Of a channel it keeps no record of:
discarded and counted in HG_DUP_DROP. In order with room: committed, NEXT advances and, at a destination with a live agent,
the packet waits to be presented. Ahead: held once. Behind, or held already: a duplicate, counted. Out of window: counted,
flagged and an alarm naming the channel. In order with no room: counted in DROP and flagged DBUF_OVER. At wheel cycle 9215
every channel with packets committed in the wheel is answered. -/
def Obligations.GuaranteedPacketsCommitInOrder : Prop :=
  (∀ (s : State) (n : Hg), (s.hgAt n).gdataIn = [] → exec (.gdataArrival n) s = .next s) ∧
  (∀ (s : State) (n : Hg) (p : Pkt) (rest : List Pkt), (s.hgAt n).gdataIn = p :: rest → recOf s n p.hdr.gchan = none →
    ∃ t, exec (.gdataArrival n) s = .next t ∧ t.hgAt n = { s.hgAt n with gdataIn := rest } ∧
      (t.reg (Reg.HG_DUP_DROP n)).toNat = min 0xFFFFFFFF ((s.reg (Reg.HG_DUP_DROP n)).toNat + 1) ∧
      sameExcept [.regs, .hg] s t ∧ hgsKept [n.val] s t ∧ regsKept [Reg.HG_DUP_DROP n] s t) ∧
  (∀ (s : State) (n : Hg) (p : Pkt) (rest : List Pkt) (i : Nat) (rec : Word) (c : ChanSt) (d : Nat), (s.hgAt n).gdataIn = p :: rest →
    recOf s n p.hdr.gchan = some (i, rec) → i ∈ (dbufPlan s n).1 → c = (s.hgAt n).chanAt i → d = (p.hdr.seq - c.seq).toNat →
    ∃ t, exec (.gdataArrival n) s = .next t ∧ (t.hgAt n).gdataIn = rest ∧
      (d = 0 → c.held = [] → chanRoom s n i rec false = true → recDst rec = true → recRelay rec = false → guaDiscards s n = false →
        ((t.hgAt n).chanAt i).seq = c.seq + 1 ∧ ((t.hgAt n).chanAt i).buffered = c.buffered + 1 ∧ ((t.hgAt n).chanAt i).drop = c.drop ∧
        ∃ m, (t.hgAt n).msgin = (s.hgAt n).msgin ++ [m] ∧ m.src = p.hdr.src ∧ m.tag.toNat = p.hdr.gchan ∧ m.gua = true ∧ m.data = p.data) ∧
      (d = 0 → c.held = [] → recDst rec = true → recRelay rec = false → guaDiscards s n = true →
        ((t.hgAt n).chanAt i).seq = c.seq + 1 ∧ ((t.hgAt n).chanAt i).drop = min (c.drop + 1) 65535 ∧ (t.hgAt n).msgin = (s.hgAt n).msgin) ∧
      (d = 0 → chanRoom s n i rec (guaDiscards s n) = false → (t.hgAt n).chanAt i = { c with drop := min (c.drop + 1) 65535 } ∧
        t.getB (Reg.HG_PL_STATUS n) 3 = true) ∧
      (0 < d → d ≤ 255 → (∀ q ∈ c.held, q.hdr.seq ≠ p.hdr.seq) → chanRoom s n i rec false = true →
        (t.hgAt n).chanAt i = { c with held := c.held ++ [p] } ∧ sameExcept [.hg] s t) ∧
      ((0 < d ∧ d ≤ 255 ∧ (∃ q ∈ c.held, q.hdr.seq = p.hdr.seq)) ∨ (65280 ≤ d ∧ (recRelay rec = false ∨ p.hdr.replay = false)) →
        (t.reg (Reg.HG_DUP_DROP n)).toNat = min 0xFFFFFFFF ((s.reg (Reg.HG_DUP_DROP n)).toNat + 1) ∧ ((t.hgAt n).chanAt i).seq = c.seq ∧
        ((t.hgAt n).chanAt i).held = c.held ∧ (t.hgAt n).msgin = (s.hgAt n).msgin) ∧
      (255 < d → d < 65280 → (t.reg (Reg.HG_SEQ_FAULT n)).toNat = min 0xFFFFFFFF ((s.reg (Reg.HG_SEQ_FAULT n)).toNat + 1) ∧
        t.getB (Reg.HG_PL_STATUS n) 4 = true ∧ (t.hgAt n).chanAt i = c ∧
        t.al = alarmEvent s.al s.fclk (100 + n.val) 0x49 (BitVec.ofNat 8 n.val)
          (BitVec.ofNat 64 (p.hdr.src.toNat + 2 ^ 8 + p.hdr.gchan * 2 ^ 9 + p.hdr.seq.toNat * 2 ^ 21))) ∧
      sameExcept [.regs, .hg, .wires, .pr, .al] s t ∧ hgsKept [n.val] s t) ∧
  (∀ (s : State) (n : Hg), (s.hgAt n).wheelAt = none → exec (.wheelEnd n) s = .next s) ∧
  (∀ (s : State) (n : Hg) (t0 : Nat), (s.hgAt n).wheelAt = some t0 →
    ∃ t, exec (.wheelEnd n) s = .next t ∧ t.fclk = max s.fclk (t0 + 9215) ∧
      (∀ r ∈ chanRecs s n, recDst r.2 = true → ((s.hgAt n).chanAt r.1).commitTurn = true →
        ((t.hgAt n).chanAt r.1).commitTurn = false ∧ ((t.hgAt n).chanAt r.1).ecmtAt = some t.fclk) ∧
      (∀ i, ((s.hgAt n).chanAt i).commitTurn = false → (t.hgAt n).chanAt i = (s.hgAt n).chanAt i) ∧
      sameExcept [.fclk, .regs, .hg, .wires, .pr] s t ∧ hgsKept [n.val] s t ∧ regsKept [Reg.HG_WPT_HIT n] s t)

/-- R213, R214, R222: a channel commit at the source. A channel ECMT clears the bits of its sender in the pending sets of the
channel's packets up to CSEQ, and a packet with no bit left is freed; a channel ENAK does the same for the packets before NSEQ
and makes the packet it names due again for the sender. A commit of a channel the headgate does not source only leaves the
inbox; with none in the inbox nothing happens. -/
def Obligations.ChannelCommitsFreeStagedPackets : Prop :=
  (∀ (s : State) (n : Hg), (s.hgAt n).cmtIn = [] → exec (.channelCommitReceived n) s = .next s) ∧
  (∀ (s : State) (n : Hg) (p : Pkt) (rest : List Pkt), (s.hgAt n).cmtIn = p :: rest → p.hdr.op = opECMT → p.hdr.chcmt = true →
    ∃ t, exec (.channelCommitReceived n) s = .next t ∧ (t.hgAt n).cmtIn = rest ∧
      (srcRec s n p.hdr.cchan = none → t.hgAt n = { s.hgAt n with cmtIn := rest } ∧ sameExcept [.hg] s t) ∧
      (srcRec s n p.hdr.cchan ≠ none →
        (∀ q ∈ (s.hgAt n).store, q.kind = .gua → q.pkt.hdr.gchan = p.hdr.cchan → q.waiting = false → q.owners = [p.hdr.src.toNat] → q.pend = 1 →
          (BitVec.ofNat 16 p.hdr.txn - q.pkt.hdr.seq).toNat < 32768 → q ∉ (t.hgAt n).store) ∧
        (∀ q ∈ (s.hgAt n).store, (q.kind ≠ .gua ∨ q.pkt.hdr.gchan ≠ p.hdr.cchan ∨ q.waiting = true ∨
          (q.pend ≠ 0 ∧ 32768 ≤ (BitVec.ofNat 16 p.hdr.txn - q.pkt.hdr.seq).toNat)) → q ∈ (t.hgAt n).store) ∧
        (∀ q ∈ (t.hgAt n).store, q.kind = .gua → q.pkt.hdr.gchan = p.hdr.cchan → q.waiting = false → q.pend ≠ 0)) ∧
      sameExcept [.hg, .lateGua] s t ∧ hgsKept [n.val] s t) ∧
  (∀ (s : State) (n : Hg) (p : Pkt) (rest : List Pkt) (i : Nat) (rec : Word), (s.hgAt n).cmtIn = p :: rest → p.hdr.op = opENAK → p.hdr.chcmt = true →
    (∀ q ∈ rest, q.hdr.op ≠ opECMT) → srcRec s n p.hdr.cchan = some (i, rec) →
    ∃ t, exec (.channelCommitReceived n) s = .next t ∧ (t.hgAt n).cmtIn = rest ∧
      (t.reg (Reg.HG_ENAK_RX n)).toNat = min 0xFFFFFFFF ((s.reg (Reg.HG_ENAK_RX n)).toNat + 1) ∧
      (recRelayed rec = false → ∀ q ∈ (s.hgAt n).store, q.kind = .gua → q.pkt.hdr.gchan = p.hdr.cchan → q.waiting = false →
        q.owners = [p.hdr.src.toNat] → q.pend = 1 →
        (q.pkt.hdr.seq = BitVec.ofNat 16 p.hdr.txn → { q with due := q.due ||| 1 } ∈ (t.hgAt n).store) ∧
        (0 < (BitVec.ofNat 16 p.hdr.txn - q.pkt.hdr.seq).toNat → (BitVec.ofNat 16 p.hdr.txn - q.pkt.hdr.seq).toNat < 32768 →
          q ∉ (t.hgAt n).store)) ∧
      sameExcept [.regs, .hg, .lateGua] s t ∧ hgsKept [n.val] s t ∧ regsKept [Reg.HG_ENAK_RX n] s t)

/-- R239, R257, R274, R276: an active slice with a free transaction slot, fewer than 240 in use and a waiting, checked request
whose line is not busy grants one such request: the lowest free slot opens for it with its GEN one use further and waits for
the directory lookup, and the request is inside. With no request waiting, the oldest line of the census walk takes the slot. A
slice that does not serve, or a spare before the end of a hand-over with no line of the walk, grants nothing. -/
def Obligations.HomeSliceGrantsAWaitingRequest : Prop :=
  (∀ (s : State) (k : Sl), takenOver s k = false → sliceServes s k = false → exec (.homeRequestGrant k) s = .next s) ∧
  (∀ (s : State) (k : Sl), takenOver s k = false → handingOver s k = true → (s.hsAt k).walk = [] → exec (.homeRequestGrant k) s = .next s) ∧
  (∀ (s : State) (k : Sl) (j l : Nat) (mask : BitVec 16) (rest : List (Nat × BitVec 16)), takenOver s k = false → sliceServes s k = true →
    (s.hsAt k).used < 240 → (s.hsAt k).freeSlot = some j → (s.hsAt k).walk = (l, mask) :: rest → (s.hgAt (homeHg k)).entries = [] →
    ∃ t sl, exec (.homeRequestGrant k) s = .next t ∧ (t.hsAt k).walk = rest ∧ (t.hsAt k).slot j = some sl ∧ sl.kind = .walk ∧ sl.line = l ∧
      sl.wait = .lookup ∧ sl.todo = [.census mask, .censusAlloc, .censusRec] ∧ (∀ i, i ≠ j → (t.hsAt k).slot i = (s.hsAt k).slot i) ∧
      (t.hsAt k).dir = (s.hsAt k).dir ∧ sameExcept [.hs] s t ∧ hssKept [k.val] s t) ∧
  (∀ (s : State) (k : Sl) (j : Nat), takenOver s k = false → sliceServes s k = true → (s.hsAt k).used < 240 → (s.hsAt k).freeSlot = some j →
    handingOver s k = false → (s.hsAt k).walk = [] →
    (∃ e ∈ (s.hgAt (homeHg k)).entries, e.phase = .waiting ∧ e.checked = true ∧
      (s.hsAt k).busy (lineNo s (homeHg k) e.lo.toNat) = false) →
    ∃ t e sl, exec (.homeRequestGrant k) s = .next t ∧ e ∈ (s.hgAt (homeHg k)).entries ∧ e.phase = .waiting ∧ e.checked = true ∧
      (s.hsAt k).busy (lineNo s (homeHg k) e.lo.toNat) = false ∧
      (t.hsAt k).slot j = some sl ∧ sl.kind = .request e.id ∧ sl.pkt = e.pkt ∧ sl.line = lineNo s (homeHg k) e.lo.toNat ∧ sl.wait = .lookup ∧
      sl.gen = Tab.get (s.hsAt k).gens 0 j + 1 ∧ (∀ i, i ≠ j → (t.hsAt k).slot i = (s.hsAt k).slot i) ∧ (t.hsAt k).dir = (s.hsAt k).dir ∧
      (∀ x ∈ (t.hgAt (homeHg k)).entries, x.id = e.id → x.phase = .inside) ∧
      sameExcept [.hg, .hs] s t ∧ hgsKept [homeHg k] s t ∧ hssKept [k.val] s t)

/-- R253, R256, R258, R263, R271, R272, Table 8-2: a directory lookup lets its slot go on (the set of an uncorrectable word: its
entries are given up). A plain read of a line no entry tracks reads memory and records nothing; RDS of such a line first takes
a free way, recorded DF for the requester and most recent. The fourth uncorrectable directory word within 2^20 cycles marks
its set unbuilt, raises an alarm and fails the slice. A slot that waits for no lookup, or a slice that has failed: nothing
happens. -/
def Obligations.LookupStartsTheFlowOfItsLine : Prop :=
  (∀ (s : State) (k : Sl) (i : Fin 256) (err : MemErr), (hsFailed s k = true ∨ (s.hsAt k).slot i = none ∨
      ∃ sl, (s.hsAt k).slot i = some sl ∧ sl.wait ≠ .lookup) → exec (.directoryLookupDone k i err) s = .next s) ∧
  (∀ (s : State) (k : Sl) (i : Fin 256) (sl : Slot) (id d : Nat), hsFailed s k = false → (s.hsAt k).slot i = some sl → sl.wait = .lookup →
    sl.kind = .request id → sl.todo = [.flow] → (s.hsAt k).wayOf sl.line = none → unbuilt s k (setOf sl.line) = false →
    memRoom s (homeHg k) opRD = true →
    (blockTarget s (homeHg k) (decSlots s (homeHg k)) (2 ^ 35 + 64 * sl.line)).1 = .hg d →
    localOutcome s (homeHg k) { target := .hg d, lo := BitVec.ofNat 48 (2 ^ 35 + 64 * sl.line), bytes := 63, loc := none } = none →
    deadDest s (homeHg k) d = false →
    (sl.pkt.hdr.op = opRD → ∃ t q, exec (.directoryLookupDone k i .ok) s = .next t ∧
      (t.hsAt k).slot i = some { sl with todo := [.rdMem, .nextLine], wait := .memory, memOut := true } ∧ (t.hsAt k).dir = (s.hsAt k).dir ∧
      (t.hgAt (homeHg k)).store = (s.hgAt (homeHg k)).store ++ [q] ∧ q.pkt.hdr.op = opRD ∧ q.pkt.hdr.tag = BitVec.ofNat 8 i ∧
      q.pkt.hdr.addr = BitVec.ofNat 48 (2 ^ 35 + 64 * sl.line) ∧ q.dst = d ∧ q.kind = .req ∧ q.waiting = true ∧
      sameExcept [.hg, .hs] s t ∧ hgsKept [homeHg k] s t ∧ hssKept [k.val] s t) ∧
    (∀ r v, sl.pkt.hdr.op = opRDS → agentOf sl.pkt.hdr.src.toNat = some r → (s.hsAt k).freeWay (setOf sl.line) = some v →
      ∃ t q, exec (.directoryLookupDone k i .ok) s = .next t ∧
      (t.hsAt k).entry (setOf sl.line) v =
        { valid := true, tag := BitVec.ofNat 14 (tagOf sl.line), st := 2, ovf := false, ptrs := [r], lru := 0 } ∧
      (∀ w, w ≠ v → w < 20 → ((t.hsAt k).entry (setOf sl.line) w).ptrs = ((s.hsAt k).entry (setOf sl.line) w).ptrs ∧
        ((t.hsAt k).entry (setOf sl.line) w).st = ((s.hsAt k).entry (setOf sl.line) w).st) ∧
      (∃ sl', (t.hsAt k).slot i = some sl' ∧ sl'.wait = .memory ∧ sl'.memOut = true ∧
        sl'.todo = [.rdMem, .record (.df r [] false), .resv, .reply opDATAF ocOK 2, .cack true]) ∧
      (t.hgAt (homeHg k)).store = (s.hgAt (homeHg k)).store ++ [q] ∧ q.pkt.hdr.op = opRD ∧ q.dst = d ∧
      sameExcept [.hg, .hs] s t ∧ hgsKept [homeHg k] s t ∧ hssKept [k.val] s t)) ∧
  (∀ (s : State) (k : Sl) (i : Fin 256) (b : Nat) (sl : Slot), hsFailed s k = false → (s.hsAt k).slot i = some sl → sl.wait = .lookup →
    3 ≤ ((s.hsAt k).uncorrAt.filter (fun c => decide (s.fclk < c + 2 ^ 20))).length →
    ∃ t, exec (.directoryLookupDone k i (.uncorrData b)) s = .next t ∧ hsFailed t k = true ∧ (t.hsAt k).failedAt = some s.fclk ∧
      (t.reg (Reg.HS_DIR_UNCORR k)).toNat = min 0xFFFFFFFF ((s.reg (Reg.HS_DIR_UNCORR k)).toNat + 1) ∧ t.getB (Reg.HS_STATUS k) 4 = true ∧
      t.getB (Reg.HS_STATUS k) 5 = true ∧ (∀ w, w < 20 →
        (s.hsAt k).pinned (lineFrom (servedSlice s k) (setOf sl.line) ((s.hsAt k).entry (setOf sl.line) w).tag.toNat) = false →
        ((t.hsAt k).entry (setOf sl.line) w).valid = false) ∧ unbuilt t k (setOf sl.line) = true ∧ (t.hsAt k).slots = (s.hsAt k).slots ∧
      t.al = alarmEvent (alarmEvent s.al s.fclk (260 + k.val) 0x82 (BitVec.ofNat 8 k) (BitVec.ofNat 64 (setOf sl.line + b % 20 * 2 ^ 11)))
        s.fclk (260 + k.val) 0x81 (BitVec.ofNat 8 k) 1 ∧
      sameExcept [.regs, .hs, .al] s t ∧ hssKept [k.val] s t ∧
      regsKept [Reg.HS_UNBUILT k (setOf sl.line / 64), Reg.HS_DIR_UNCORR k, Reg.HS_STATUS k] s t)

/-- R232, R241, R244, R247, R257, R262, R263: what a home's slot does when what it waits for comes. Blocks for a CACK: it reserves
one and waits for the CACK. A snoop reply that matches no awaited one is counted stale; one of several answers its cache only;
the last of a round of invalidations lets the flow read memory. The CACK ends the transaction, returns its blocks and, for a
grant, starts the hold time. The end of a memory write lets the flow record the line and reserve. Otherwise nothing happens. -/
def Obligations.HomeSlotsGoOnWhenAnswered : Prop :=
  (∀ (s : State) (k : Sl) (i : Fin 256), (hsFailed s k = true ∨ (s.hsAt k).slot i = none ∨
      ∃ sl, (s.hsAt k).slot i = some sl ∧ sl.wait ≠ .blocks) → exec (.homeStepReserved k i) s = .next s) ∧
  (∀ (s : State) (k : Sl) (i : Fin 256) (sl : Slot) (g : Bool) (rest : List HAct), hsFailed s k = false → (s.hsAt k).slot i = some sl →
    sl.wait = .blocks → sl.todo = .resv :: .cack g :: rest → sl.cackIn = false →
    ∃ t, exec (.homeStepReserved k i) s = .next t ∧
      (1 ≤ poolFree s (homeHg k) →
        (t.hsAt k).slot i = some { sl with todo := .cack g :: rest, wait := .cack, timer := some (sl.timer.getD s.fclk), blocks := sl.blocks + 1 } ∧
        t.hgAt (homeHg k) = { s.hgAt (homeHg k) with poolUsed := (s.hgAt (homeHg k)).poolUsed + 1 }) ∧
      (poolFree s (homeHg k) < 1 → (t.hsAt k).slot i = some sl ∧ t.hgAt (homeHg k) = s.hgAt (homeHg k)) ∧
      (∀ j, j ≠ i.val → (t.hsAt k).slot j = (s.hsAt k).slot j) ∧ (t.hsAt k).dir = (s.hsAt k).dir ∧
      sameExcept [.hg, .hs] s t ∧ hgsKept [homeHg k] s t ∧ hssKept [k.val] s t) ∧
  (∀ (s : State) (k : Sl), (s.hgAt (homeHg k)).homeIn = [] →
    exec (.snoopReplyReceived k) s = .next s ∧ exec (.cackAtHome k) s = .next s ∧ exec (.memoryAccessDone k) s = .next s) ∧
  (∀ (s : State) (k : Sl) (p : Pkt) (rest : List Pkt), (s.hgAt (homeHg k)).homeIn = p :: rest → isReply p = true → takenOver s k = false →
    (∀ sl a, (s.hsAt k).slot (p.hdr.txn % 256) = some sl → agentOf p.hdr.src.toNat = some a →
      sl.gen.toNat ≠ p.hdr.txn / 256 ∨ sl.wait ≠ .replies ∨ bit sl.awaited a.toNat = false) →
    ∃ t, exec (.snoopReplyReceived k) s = .next t ∧ t.hgAt (homeHg k) = { s.hgAt (homeHg k) with homeIn := rest } ∧
      (t.reg (Reg.HS_STALE_RPL k)).toNat = min 0xFFFFFFFF ((s.reg (Reg.HS_STALE_RPL k)).toNat + 1) ∧
      sameExcept [.regs, .hg] s t ∧ hgsKept [homeHg k] s t ∧ regsKept [Reg.HS_STALE_RPL k] s t) ∧
  (∀ (s : State) (k : Sl) (p : Pkt) (rest : List Pkt) (sl : Slot) (a : BitVec 4), (s.hgAt (homeHg k)).homeIn = p :: rest → isReply p = true →
    hsFailed s k = false → (s.hsAt k).slot (p.hdr.txn % 256) = some sl → agentOf p.hdr.src.toNat = some a → sl.gen.toNat = p.hdr.txn / 256 →
    sl.wait = .replies → bit sl.awaited a.toNat = true → p.hdr.op = opSNPACK →
    (∀ mask todo, sl.todo = .round opINV mask false :: todo →
      (without sl.awaited a ≠ 0 → ∃ t, exec (.snoopReplyReceived k) s = .next t ∧
        (t.hsAt k).slot (p.hdr.txn % 256) = some { sl with awaited := without sl.awaited a, blocks := sl.blocks - 2 } ∧
        t.hgAt (homeHg k) = { s.hgAt (homeHg k) with homeIn := rest, poolUsed := (s.hgAt (homeHg k)).poolUsed - 2 } ∧
        sameExcept [.hg, .hs] s t ∧ hgsKept [homeHg k] s t ∧ hssKept [k.val] s t) ∧
      (∀ d more, without sl.awaited a = 0 → todo = .wrSnp :: .rdMem :: more → sl.snpData = none → sl.ownerDead = false →
        memRoom (s.updHg (homeHg k) (fun h => { h with homeIn := rest, poolUsed := h.poolUsed - 2 })) (homeHg k) opRD = true →
        (blockTarget s (homeHg k) (decSlots s (homeHg k)) (2 ^ 35 + 64 * sl.line)).1 = .hg d →
        localOutcome s (homeHg k) { target := .hg d, lo := BitVec.ofNat 48 (2 ^ 35 + 64 * sl.line), bytes := 63, loc := none } = none →
        deadDest s (homeHg k) d = false →
        ∃ t, exec (.snoopReplyReceived k) s = .next t ∧
          (t.hsAt k).slot (p.hdr.txn % 256) = some { sl with awaited := 0, blocks := sl.blocks - 2, timer := none, gave := true,
                                                             todo := .rdMem :: more, wait := .memory, memOut := true } ∧
          (t.hsAt k).dir = (s.hsAt k).dir ∧ sameExcept [.hg, .hs] s t ∧ hgsKept [homeHg k] s t ∧ hssKept [k.val] s t))) ∧
  (∀ (s : State) (k : Sl) (p : Pkt) (rest : List Pkt) (i : Nat) (sl : Slot) (a : BitVec 4), (s.hgAt (homeHg k)).homeIn = p :: rest →
    isCack p = true → hsFailed s k = false → (s.hsAt k).slots.find? (fun e => cackFor p e.2) = some (i, sl) → (s.hsAt k).slot i = some sl →
    sl.wait = .cack → sl.freed = true → agentOf sl.pkt.hdr.src.toNat = some a → (s.hgAt (homeHg k)).entries = [] →
    (s.hsAt k).lineQueue = [] → (s.hsAt k).resq = [] →
    ∃ t, exec (.cackAtHome k) s = .next t ∧ (t.hsAt k).slot i = none ∧ (∀ j, j ≠ i → (t.hsAt k).slot j = (s.hsAt k).slot j) ∧
      t.hgAt (homeHg k) = { s.hgAt (homeHg k) with homeIn := rest, poolUsed := (s.hgAt (homeHg k)).poolUsed - sl.blocks } ∧
      (.cack true ∈ sl.todo → (sl.line, a, s.fclk + max 16 (s.getF (Reg.HS_COH_CFG k) 0 8)) ∈ (t.hsAt k).holds) ∧
      (.cack true ∉ sl.todo → (t.hsAt k).holds = (s.hsAt k).holds) ∧ (t.hsAt k).dir = (s.hsAt k).dir ∧
      sameExcept [.hg, .hs] s t ∧ hgsKept [homeHg k] s t ∧ hssKept [k.val] s t) ∧
  (∀ (s : State) (k : Sl) (p : Pkt) (rest : List Pkt) (sl : Slot) (r o : BitVec 4) (v : Nat), (s.hgAt (homeHg k)).homeIn = p :: rest →
    isReply p = false → isCack p = false → hsFailed s k = false → (s.hsAt k).slot p.hdr.tag.toNat = some sl → sl.memOut = true →
    deliveredOutcome p.hdr.outcome p.data = ocOK → sl.todo = [.wrSnp, .record (.df r [o] false), .resv, .cack true] → sl.cackIn = false →
    (s.hsAt k).wayOf sl.line = some v → p.hdr.op = opCMP → 1 ≤ poolFree s (homeHg k) →
    ∃ t, exec (.memoryAccessDone k) s = .next t ∧
      (t.hsAt k).slot p.hdr.tag.toNat = some { sl with memOut := false, todo := [.cack true], wait := .cack, timer := some (sl.timer.getD s.fclk),
                                                       blocks := sl.blocks + 1 } ∧
      (t.hsAt k).entry (setOf sl.line) v = { (s.hsAt k).entry (setOf sl.line) v with st := 2, ptrs := [r, o], ovf := false } ∧
      (t.hgAt (homeHg k)).homeIn = rest ∧
      (t.hgAt (homeHg k)).poolUsed = (s.hgAt (homeHg k)).poolUsed - rspBlocks opWR p.hdr.addr p.hdr.bytes + 1 ∧
      sameExcept [.hg, .hs] s t ∧ hgsKept [homeHg k] s t ∧ hssKept [k.val] s t)

/-- R247, R267, R268, R272, Table 9-4: the timers and failures of a slice. The end of a hold time sends the snoop it kept back and
starts its timer; a home timeout for a CACK marks its requester dead, counts, raises an alarm and ends the transaction; a
slice that fails stops, is flagged and raises an alarm naming why; its watchdog fails it two home timeouts after the last
grant. What is not due does nothing. -/
def Obligations.HomeTimersAndSliceFailure : Prop :=
  (∀ (s : State) (k : Sl) (i : Fin 256), (hsFailed s k = true ∨ (s.hsAt k).slot i = none ∨
      ∃ sl, (s.hsAt k).slot i = some sl ∧ sl.wait ≠ .hold) → exec (.holdTimeExpiry k i) s = .next s) ∧
  (∀ (s : State) (k : Sl) (i : Fin 256) (sl : Slot) (op : BitVec 8) (a : BitVec 4) (owner : Bool) (rest : List HAct), hsFailed s k = false →
    (s.hsAt k).slot i = some sl → sl.wait = .hold → sl.todo = .fwd op a owner :: rest → (op = opFWDS ∨ op = opFWDO) → deadMask s k = 0 →
    2 ≤ poolFree s (homeHg k) → 1 ≤ openBlocks (s.hgAt (homeHg k)) → deadDest s (homeHg k) (40 + a.toNat) = false →
    ∃ t q, exec (.holdTimeExpiry k i) s = .next t ∧ s.fclk ≤ t.fclk ∧ (∀ h ∈ (s.hsAt k).holds, h.1 = sl.line → h.2.2 ≤ t.fclk) ∧
      (t.hsAt k).slot i = some { sl with awaited := maskOf [a], blocks := sl.blocks + 2, wait := .replies, timer := some t.fclk } ∧
      (t.hgAt (homeHg k)).store = (s.hgAt (homeHg k)).store ++ [q] ∧ q.pkt.hdr.op = op ∧ q.pkt.hdr.dst.toNat = 40 + a.toNat ∧ q.kind = .snp ∧
      q.pkt.hdr.txn = sl.gen.toNat * 256 + i.val ∧ q.pkt.hdr.addr = lineAddr s (homeHg k) sl.line ∧
      (t.hgAt (homeHg k)).poolUsed = (s.hgAt (homeHg k)).poolUsed + 2 ∧ (t.hsAt k).dir = (s.hsAt k).dir ∧
      sameExcept [.fclk, .hg, .hs] s t ∧ hgsKept [homeHg k] s t ∧ hssKept [k.val] s t) ∧
  (∀ (s : State) (k : Sl) (i : Fin 256), (hsFailed s k = true ∨ (s.hsAt k).slot i = none ∨
      ∃ sl, (s.hsAt k).slot i = some sl ∧ (sl.timer = none ∨ sl.wait ≠ .replies ∧ sl.wait ≠ .cack)) → exec (.homeTimeout k i) s = .next s) ∧
  (∀ (s : State) (k : Sl) (i : Fin 256) (sl : Slot) (a : BitVec 4) (t0 : Nat), hsFailed s k = false → (s.hsAt k).slot i = some sl →
    sl.wait = .cack → sl.timer = some t0 → sl.freed = true → agentOf sl.pkt.hdr.src.toNat = some a → (s.hgAt (homeHg k)).entries = [] →
    (s.hsAt k).lineQueue = [] → (s.hsAt k).resq = [] →
    ∃ t, exec (.homeTimeout k i) s = .next t ∧ t.fclk = max s.fclk (t0 + 64 * max 25 (s.getF (Reg.HS_TMO_CFG k) 0 12)) ∧
      deadMask t k = deadMask s k ||| maskOf [a] ∧ t.getB (Reg.HS_STATUS k) 3 = true ∧
      (t.reg (Reg.HS_TMO_CNT k)).toNat = min 0xFFFFFFFF ((s.reg (Reg.HS_TMO_CNT k)).toNat + 1) ∧ (t.hsAt k).slot i = none ∧
      (∀ j, j ≠ i.val → (t.hsAt k).slot j = (s.hsAt k).slot j) ∧ (t.hsAt k).dir = (s.hsAt k).dir ∧
      t.al = alarmEvent s.al t.fclk (260 + k.val) 0x80 (BitVec.ofNat 8 k) (BitVec.ofNat 64 (sl.line + (maskOf [a]).toNat * 2 ^ 29)) ∧
      sameExcept [.fclk, .regs, .hg, .hs, .al] s t ∧ hgsKept [homeHg k] s t ∧ hssKept [k.val] s t ∧
      regsKept [Reg.HS_DEAD_MASK k, Reg.HS_TMO_CNT k, Reg.HS_STATUS k] s t) ∧
  (∀ (s : State) (k : Sl) (why : SliceFail),
    (hsFailed s k = true → exec (.sliceFailure k why) s = .next s ∧ exec (.sliceWatchdogExpiry k) s = .next s) ∧
    (hsFailed s k = false → ∃ t, exec (.sliceFailure k why) s = .next t ∧ hsFailed t k = true ∧ (t.hsAt k).failedAt = some s.fclk ∧
      (t.hsAt k).slots = (s.hsAt k).slots ∧ (t.hsAt k).dir = (s.hsAt k).dir ∧
      t.getB (Reg.HS_STATUS k) 5 = (s.getB (Reg.HS_STATUS k) 5 || decide (why ≠ .watchdog)) ∧
      t.al = alarmEvent s.al s.fclk (260 + k.val) 0x81 (BitVec.ofNat 8 k)
        (match why with | .selfCheck => 0 | .dirLimit => 1 | .watchdog => 2) ∧
      sameExcept [.regs, .hs, .al] s t ∧ hssKept [k.val] s t ∧ regsKept [Reg.HS_STATUS k] s t)) ∧
  (∀ (s : State) (k : Sl), ((s.hgAt (homeHg k)).entries = [] ∨ s.getB (Reg.HS_CFG k) 0 = false) → exec (.sliceWatchdogExpiry k) s = .next s) ∧
  (∀ (s : State) (k : Sl) (e : Entry) (rest : List Entry), (s.hgAt (homeHg k)).entries = e :: rest → s.getB (Reg.HS_CFG k) 0 = true →
    hsFailed s k = false → ∃ t, exec (.sliceWatchdogExpiry k) s = .next t ∧ hsFailed t k = true ∧
      t.fclk = max s.fclk (max (s.hsAt k).lastGrant e.arrivedAt + 128 * max 25 (s.getF (Reg.HS_TMO_CFG k) 0 12)) ∧
      t.al = alarmEvent s.al t.fclk (260 + k.val) 0x81 (BitVec.ofNat 8 k) 2 ∧
      sameExcept [.fclk, .regs, .hs, .al] s t ∧ hssKept [k.val] s t ∧ regsKept [Reg.HS_STATUS k] s t)

/-- R270, R274, R275, R276: the sweep, the hand-over and the census walk. A sweep begins at set 0 for its agent; a visited set
loses the agent from an unpinned shared line and keeps a pinned line for later; after the last, with nothing left over, the
agent leaves HS_DEAD_MASK. The spare serves the hand-over records in order and its end lets direct requests in. The walk takes
the failed slice's sets in order and ends after the last. Otherwise nothing happens. -/
def Obligations.SweepHandoverAndCensusWalk : Prop :=
  (∀ (s : State) (k : Sl) (a : BitVec 4), ∃ t, exec (.hsSweepGo k a) s = .next t ∧ t.getF (Reg.HS_SWEEP k) 0 4 = a.toNat ∧
    t.getB (Reg.HS_SWEEP k) 5 = true ∧ t.hsAt k = { s.hsAt k with sweeping := some a, sweepSet := 0, sweepPend := [] } ∧
    sameExcept [.regs, .hs] s t ∧ hssKept [k.val] s t ∧ regsKept [Reg.HS_SWEEP k] s t) ∧
  (∀ (s : State) (k : Sl), (hsFailed s k = true ∨ (s.hsAt k).sweeping = none) → exec (.sweepSetVisit k) s = .next s) ∧
  (∀ (s : State) (k : Sl) (a : BitVec 4) (w : Nat) (e : DirEntry), hsFailed s k = false → (s.hsAt k).sweeping = some a →
    (s.hsAt k).sweepSet < 2047 → w < 20 → e = (s.hsAt k).entry (s.hsAt k).sweepSet w → e.valid = true → e.st = 1 →
    (∀ u, u < 20 → u ≠ w → ((s.hsAt k).entry (s.hsAt k).sweepSet u).valid = false) →
    ∃ t, exec (.sweepSetVisit k) s = .next t ∧ (t.hsAt k).sweepSet = (s.hsAt k).sweepSet + 1 ∧ (t.hsAt k).sweeping = some a ∧
      (t.hsAt k).slots = (s.hsAt k).slots ∧ sameExcept [.hs] s t ∧ hssKept [k.val] s t ∧
      ((s.hsAt k).pinned (lineFrom (servedSlice s k) (s.hsAt k).sweepSet e.tag.toNat) = true →
        (t.hsAt k).sweepPend = (s.hsAt k).sweepPend ++ [lineFrom (servedSlice s k) (s.hsAt k).sweepSet e.tag.toNat] ∧
        (t.hsAt k).dir = (s.hsAt k).dir) ∧
      ((s.hsAt k).pinned (lineFrom (servedSlice s k) (s.hsAt k).sweepSet e.tag.toNat) = false → (t.hsAt k).sweepPend = (s.hsAt k).sweepPend ∧
      (((t.hsAt k).entry (s.hsAt k).sweepSet w).valid = true → a ∉ ((t.hsAt k).entry (s.hsAt k).sweepSet w).ptrs) ∧
      (e.ptrs = [a] → ((t.hsAt k).entry (s.hsAt k).sweepSet w).valid = false) ∧
      (a ∉ e.ptrs → (t.hsAt k).entry (s.hsAt k).sweepSet w = e))) ∧
  (∀ (s : State) (k : Sl) (a : BitVec 4), hsFailed s k = false → (s.hsAt k).sweeping = some a → (s.hsAt k).sweepSet = 2048 →
    (s.hsAt k).sweepPend = [] → (∀ x ∈ (s.hsAt k).slots, x.2.kind ≠ .sweep) →
    ∃ t, exec (.sweepSetVisit k) s = .next t ∧ (t.hsAt k).sweeping = none ∧ t.getB (Reg.HS_SWEEP k) 5 = false ∧
      deadMask t k = without (deadMask s k) a ∧ (t.hsAt k).dir = (s.hsAt k).dir ∧
      sameExcept [.regs, .hs] s t ∧ hssKept [k.val] s t ∧ regsKept [Reg.HS_DEAD_MASK k, Reg.HS_SWEEP k] s t) ∧
  (∀ (s : State), (s.hsAt 16).handover = [] → exec .handoverRecord s = .next s) ∧
  (∀ (s : State) (rest : List Handover), (s.hsAt 16).handover = .finish :: rest → ∃ t, exec .handoverRecord s = .next t ∧
    t.hsAt 16 = { s.hsAt 16 with handover := rest } ∧ t.getB (Reg.HS_STATUS 16) 1 = false ∧
    sameExcept [.regs, .hs] s t ∧ hssKept [16] s t ∧ regsKept [Reg.HS_STATUS 16] s t) ∧
  (∀ (s : State) (p : Pkt) (l j : Nat) (grant : Bool) (rest : List Handover), (s.hsAt 16).handover = .cackWait p l grant :: rest → (s.hsAt 16).freeSlot = some j →
    hsFailed s 16 = false → (s.hsAt 16).used < 240 → ∃ t sl, exec .handoverRecord s = .next t ∧ (t.hsAt 16).handover = rest ∧
    (t.hsAt 16).slot j = some sl ∧ sl.kind = .taken none ∧ sl.pkt = p ∧ sl.line = l ∧ sl.wait = .cack ∧ sl.timer = some s.fclk ∧ sl.todo = [.cack grant] ∧
    (∀ i, i ≠ j → (t.hsAt 16).slot i = (s.hsAt 16).slot i) ∧ sameExcept [.hs] s t ∧ hssKept [16] s t) ∧
  (∀ (s : State) (id : Option Nat) (p : Pkt) (lo : Addr) (bytes : BitVec 9) (den : Bool) (j : Nat) (rest : List Handover),
    (s.hsAt 16).handover = .work id p lo bytes den :: rest → (s.hsAt 16).freeSlot = some j → hsFailed s 16 = false → (s.hsAt 16).used < 240 →
    ∃ t sl, exec .handoverRecord s = .next t ∧ (t.hsAt 16).handover = rest ∧ (t.hsAt 16).slot j = some sl ∧ sl.kind = .taken id ∧ sl.pkt = p ∧
    (t.hsAt 16).lineQueue = (s.hsAt 16).lineQueue ++
      (if (s.hsAt 16).busy (lineNo s 116 lo.toNat) = true then [(lineNo s 116 lo.toNat, .slot j)] else []) ∧
    sl.line = lineNo s 116 lo.toNat ∧ sl.wait = (if (s.hsAt 16).busy (lineNo s 116 lo.toNat) = true then .line else .lookup) ∧
    (∀ i, i ≠ j → (t.hsAt 16).slot i = (s.hsAt 16).slot i) ∧ sameExcept [.hs] s t ∧ hssKept [16] s t) ∧
  (∀ (s : State) (readable : Bool), (s.getB (Reg.HS_STATUS 16) 2 = false ∨ hsFailed s 16 = true) → exec (.censusWalkSet readable) s = .next s) ∧
  (∀ (s : State) (set : Nat), s.getB (Reg.HS_STATUS 16) 2 = true → hsFailed s 16 = false → set = s.getF (Reg.HS_CENSUS 16) 0 11 →
    (∃ t, exec (.censusWalkSet false) s = .next t ∧ t.getF (Reg.HS_CENSUS 16) 0 11 = (set + 1) % 2048 ∧
      t.getF (Reg.HS_CENSUS 16) 12 12 = (s.getF (Reg.HS_CENSUS 16) 12 12 + 1) % 4096 ∧
      t.getB (Reg.HS_STATUS 16) 2 = decide (set ≠ 2047) ∧ (set = 2047 → t.getB (Reg.HS_CENSUS 16) 11 = true) ∧
      sameExcept [.regs] s t ∧ regsKept [Reg.HS_CENSUS 16, Reg.HS_STATUS 16] s t) ∧
    (∀ w e, w < 20 → e = (s.hsAt (servedSlice s 16)).entry set w → e.valid = true →
      (∀ u, u < 20 → u ≠ w → ((s.hsAt (servedSlice s 16)).entry set u).valid = false) →
      (s.hsAt 16).wayOf (lineFrom (servedSlice s 16) set e.tag.toNat) = none →
      ∃ t, exec (.censusWalkSet true) s = .next t ∧ unbuilt t 16 set = false ∧
        t.hsAt 16 = (s.hsAt 16).walkLine (lineFrom (servedSlice s 16) set e.tag.toNat) e.holders ∧
        sameExcept [.regs, .hs] s t ∧ hssKept [16] s t ∧ regsKept [Reg.HS_CENSUS 16, Reg.HS_STATUS 16, Reg.HS_UNBUILT 16 (set / 64)] s t) ∧
    ((∀ w, w < 20 → ((s.hsAt (servedSlice s 16)).entry set w).valid = false) →
      ∃ t, exec (.censusWalkSet true) s = .next t ∧ t.getF (Reg.HS_CENSUS 16) 0 11 = (set + 1) % 2048 ∧ unbuilt t 16 set = false ∧
      t.getB (Reg.HS_STATUS 16) 2 = decide (set ≠ 2047) ∧
      sameExcept [.regs] s t ∧ regsKept [Reg.HS_CENSUS 16, Reg.HS_STATUS 16, Reg.HS_UNBUILT 16 (set / 64)] s t))

/-- R282 to R285, R290, R292, R293, Table 5-1: a Reservoir port sends its next chunk to the manager of its bank. Where no lock
stands before it, its beats join the bank's queue, in address order, and an RDLK takes the lock for its master until the lock
limit; an ordinary access of another master than the owner is held, and counts. The bank's arbiter grants one waiting beat in
a cycle in which it is not busy. With nothing waiting at the managers: under the levee, with nothing to send, or where the
port's next chunk is another, nothing happens. -/
def Obligations.ReservoirChunksGoToTheirBanks : Prop :=
  (∀ (s : State) (p : Fin 8) (k : Nat), banksQuiet s → (s.getB (Reg.HG_LEVEE (117 + p)) 0 = true ∨ nextChunk s p = none ∨
      ∃ e c, nextChunk s p = some (e, c) ∧ c ≠ k) → exec (.reservoirChunkSend p k) s = .next s) ∧
  (∀ (s : State) (p : Fin 8) (e : Entry) (b : Nat), s.getB (Reg.HG_LEVEE (117 + p)) 0 = false → (s.hgAt (117 + p)).entries = [e] →
    e.phase = .waiting → e.checked = true → e.noWrite = false → e.chunks = [] → (∀ q : Fin 8, q ≠ p → portEntries s q = []) →
    e.lo.toNat / 256 = (e.lo.toNat + e.bytes.toNat) / 256 → b = bankOf (e.lo.toNat % 2 ^ 24) → (s.bankAt b).queue = [] →
    (e.lo.toNat + e.bytes.toNat) / 64 - e.lo.toNat / 64 + 1 ≤ 4 →
    ((e.op = opRD ∨ e.op = opWR) → e.pkt.hdr.locked = false → (∀ c : Bank, c.val ≠ b → (s.bankAt c).lock.owner = none) →
      (∃ o, (s.bankAt b).lock.owner = some o ∧ o ≠ e.master) → (s.bankAt b).lock.due s.fclk = false →
      ∃ t, exec (.reservoirChunkSend p 0) s = .next t ∧ t.rv.banks = s.rv.banks ∧ t.rv.mem = s.rv.mem ∧
      (∃ x, (t.hgAt (117 + p)).entries = [x] ∧ x.phase = .inside ∧ x.id = e.id ∧ x.pkt = e.pkt ∧ x.chunks.map (fun c => (c.held, c.passed, c.sent)) = [(true, false, false)]) ∧
      (t.reg Reg.RV_LOCK_WAIT).toNat = min 0xFFFFFFFF ((s.reg Reg.RV_LOCK_WAIT).toNat + 1) ∧
      sameExcept [.regs, .hg, .rv] s t ∧ hgsKept [117 + p.val] s t ∧ regsKept [Reg.RV_LOCK_WAIT] s t) ∧
    ((∀ c : Bank, (s.bankAt c).lock.owner = none) → ((e.op = opRD ∨ e.op = opWR) ∧ e.pkt.hdr.locked = false) ∨ e.op = opRDLK →
      ∃ t, exec (.reservoirChunkSend p 0) s = .next t ∧
      (t.bankAt b).queue.map (fun x => (x.port, x.entry, x.op, x.line)) =
        (List.range ((e.lo.toNat + e.bytes.toNat) / 64 - e.lo.toNat / 64 + 1)).map (fun i => (p.val, e.id, e.op, (e.lo.toNat / 64 + i) % 2 ^ 18)) ∧
      (∃ x, (t.hgAt (117 + p)).entries = [x] ∧ x.phase = .inside ∧ x.id = e.id ∧ x.pkt = e.pkt ∧ x.chunks.map (·.sent) = [true]) ∧
      (e.op = opRDLK → (t.bankAt b).lock = { owner := some e.master, broken := false, timer := some (s.fclk + max 160 (s.getF Reg.RV_LOCK_CFG 0 16)) } ∧
        (t.reg Reg.RV_LOCK_GRANT).toNat = min 0xFFFFFFFF ((s.reg Reg.RV_LOCK_GRANT).toNat + 1)) ∧
      (e.op ≠ opRDLK → (t.bankAt b).lock = (s.bankAt b).lock ∧ t.regs = s.regs) ∧
      (t.bankAt b).granted = (s.bankAt b).granted ∧ t.rv.mem = s.rv.mem ∧
      sameExcept [.regs, .hg, .rv] s t ∧ hgsKept [117 + p.val] s t ∧ banksKept [b] s t ∧ regsKept [Reg.RV_LOCK_GRANT] s t)) ∧
  (∀ (s : State) (b : Bank), banksQuiet s → 0 < (s.bankAt b).busy → ∃ t, exec (.bankArbitration b) s = .next t ∧ (t.bankAt b).busy = (s.bankAt b).busy - 1 ∧
    (t.bankAt b).queue = (s.bankAt b).queue ∧ (t.bankAt b).granted = (s.bankAt b).granted ∧ sameExcept [.rv] s t ∧ banksKept [b.val] s t) ∧
  (∀ (s : State) (b : Bank), banksQuiet s → (s.bankAt b).busy = 0 → (s.bankAt b).arb.hold = none → (∃ x ∈ (s.bankAt b).queue, x.port < 8) →
    ∃ t p x q, exec (.bankArbitration b) s = .next t ∧ takeBeat (s.bankAt b).queue p = some (x, q) ∧ (t.bankAt b).queue = q ∧
      (t.bankAt b).granted = (s.bankAt b).granted ++ [x] ∧ (t.bankAt b).arb.park = p ∧ (t.bankAt b).lock = (s.bankAt b).lock ∧ t.rv.mem = s.rv.mem ∧
      sameExcept [.hg, .rv] s t ∧ hgsKept [117 + x.port] s t ∧ banksKept [b.val] s t)

/-- R286 to R289: a bank performs its oldest granted beat. A write stores exactly its enabled bytes; an atomic stores its result
in its own bytes and counts; a read stores nothing and returns the beat, or, where its word is uncorrectable, poisoned data
with an alarm. The scrub goes on by one beat of its bank and stores no other data. With nothing granted, or scrubbing off,
nothing happens. -/
def Obligations.BankBeatsReadAndWriteTheArray : Prop :=
  (∀ (s : State) (b : Bank) (err : MemErr), banksQuiet s → (s.bankAt b).granted = [] → exec (.bankBeatPerform b err) s = .next s) ∧
  (∀ (s : State) (b : Bank) (err : MemErr) (x : BankBeat) (rest : List BankBeat), (s.bankAt b).granted = x :: rest →
    (x.op = opWR ∨ x.op = opWRP ∨ x.op = opWRUL) → ∃ t, exec (.bankBeatPerform b err) s = .next t ∧
      (t.bankAt b).granted = rest ∧
      (∀ o, Memory.read t.rv.mem o = if o / 64 = x.line ∧ x.beat.be.getLsbD (o % 64) = true then byteOf x.beat.data (o % 64) else Memory.read s.rv.mem o) ∧
      (∀ l, l ≠ x.line → (l ∈ t.rv.poison ↔ l ∈ s.rv.poison)) ∧ (x.beat.poison = true → x.line ∈ t.rv.poison) ∧
      (x.beat.be = laneMask 0 63 → x.beat.poison = false → x.line ∉ t.rv.poison) ∧
      (wholeWords x.beat.be = true → (t.bankAt b).busy = (s.bankAt b).busy ∧ t.reg Reg.RV_RMW = s.reg Reg.RV_RMW) ∧
      (wholeWords x.beat.be = false → (t.bankAt b).busy = (s.bankAt b).busy + 1 ∧
        (t.reg Reg.RV_RMW).toNat = min 0xFFFFFFFF ((s.reg Reg.RV_RMW).toNat + 1)) ∧
      sameExcept [.regs, .hg, .rv, .wires, .pr, .al, .freeCtr] s t) ∧
  (∀ (s : State) (b : Bank) (x : BankBeat) (rest : List BankBeat) (w : Option Line) (old : Line), (s.bankAt b).granted = x :: rest → x.op = opATOM →
    x.line ∉ s.rv.poison → x.beat.poison = false → atomLine x.aop x.size x.lane (Memory.line s.rv.mem x.line) x.beat.data = (w, old) →
    ∃ t, exec (.bankBeatPerform b .ok) s = .next t ∧ (t.reg Reg.RV_ATOM).toNat = min 0xFFFFFFFF ((s.reg Reg.RV_ATOM).toNat + 1) ∧
      (∀ o, Memory.read t.rv.mem o = match w with
        | some l => if o / 64 = x.line ∧ (laneMask x.lane (x.lane + x.size - 1)).getLsbD (o % 64) = true then byteOf l (o % 64) else Memory.read s.rv.mem o
        | none => Memory.read s.rv.mem o) ∧
      (t.bankAt b).busy = (s.bankAt b).busy + 2 ∧ sameExcept [.regs, .hg, .rv, .wires, .pr, .al, .freeCtr] s t) ∧
  (∀ (s : State) (b : Bank) (x : BankBeat) (rest : List BankBeat) (c : Chunk), banksQuiet s → (s.bankAt b).granted = x :: rest → x.op = opRD →
    chunkAt s x.port x.entry x.chunk = some c → c.performed + 1 < c.beats → c.outcome = none →
    (∃ t, exec (.bankBeatPerform b .ok) s = .next t ∧ t.rv.mem = s.rv.mem ∧ t.rv.poison = s.rv.poison ∧ (t.bankAt b).granted = rest ∧
      (∃ c', chunkAt t x.port x.entry x.chunk = some c' ∧ c'.performed = c.performed + 1 ∧
        c'.data = c.data ++ [{ data := Memory.line s.rv.mem x.line, poison := s.rv.poison.contains x.line }]) ∧
      sameExcept [.hg, .rv] s t ∧ hgsKept [117 + x.port] s t ∧ banksKept [b.val] s t) ∧
    (∃ t, exec (.bankBeatPerform b .uncorrHdr) s = .next t ∧ t.rv.mem = s.rv.mem ∧ t.getB Reg.RV_STATUS 1 = true ∧
      (∃ c' d, chunkAt t x.port x.entry x.chunk = some c' ∧ c'.data = c.data ++ [d] ∧ d.poison = true) ∧
      (t.reg Reg.RV_SRAM_UNCORR).toNat = min 0xFFFFFFFF ((s.reg Reg.RV_SRAM_UNCORR).toNat + 1) ∧
      t.al = alarmEvent s.al s.fclk 277 0xC0 (BitVec.ofNat 8 b) (BitVec.ofNat 64 (x.line / 128 + (x.line % 4) * 2 ^ 11)) ∧
      sameExcept [.regs, .hg, .rv, .al, .freeCtr] s t ∧ hgsKept [117 + x.port] s t)) ∧
  (∀ (s : State) (b : Bank) (err : MemErr), s.getB Reg.RV_SCRUB_CFG 16 = false → exec (.bankScrub b err) s = .next s) ∧
  (∀ (s : State) (b : Bank) (err : MemErr), s.getB Reg.RV_SCRUB_CFG 16 = true → ∃ t, exec (.bankScrub b err) s = .next t ∧
    (t.bankAt b).scrubPos = ((s.bankAt b).scrubPos + 1) % 8192 ∧ (t.bankAt b).queue = (s.bankAt b).queue ∧ t.rv.mem = s.rv.mem ∧
    t.rv.poison = s.rv.poison ∧ (err = .corrected → t.getB Reg.RV_STATUS 0 = true) ∧
    ((s.bankAt b).scrubPos = 8191 → b = 0 → (t.reg Reg.RV_SCRUB_PASS).toNat = min 0xFFFFFFFF ((s.reg Reg.RV_SCRUB_PASS).toNat + 1)) ∧
    sameExcept [.regs, .rv, .al] s t ∧ banksKept [b.val] s t ∧
    regsKept [Reg.RV_SRAM_CORR, Reg.RV_SRAM_UNCORR, Reg.RV_STATUS, Reg.RV_SCRUB_PASS] s t)

/-- R292, R293, R159: the lock limit timer of a lock manager that holds a lock revokes it: time has reached its end, the lock is
released with BROKEN set, RV_LOCK_REVOKE counts and an alarm names the manager and the owner. A bank's manager then goes on as
on a release: the one RDLK queued there takes the lock, with BROKEN as the revoked lock left it. A manager with no owner or no
timer: nothing happens. -/
def Obligations.LockLimitRevokesTheLock : Prop :=
  (∀ (s : State) (a : LockAt), ((s.lockMgr a).owner = none ∨ (s.lockMgr a).timer = none) → exec (.lockLimitTimeout a) s = .next s) ∧
  (∀ (s : State) (b : Bank) (src : Nat) (c : Ctx) (t0 : Nat) (p : Nat) (e : Entry) (x : Chunk), (s.bankAt b).lock.owner = some (src, c) →
    (s.bankAt b).lock.timer = some t0 → reachedChunks s = [(p, e, 0, x)] → e.op = opRDLK → e.noWrite = false → x.lo = e.lo → x.passed = false → x.sent = false →
    x.outcome = none → x.bank = b.val → (∀ k : Bank, k ≠ b → (s.bankAt k).lock.owner = none) →
    ∃ t, exec (.lockLimitTimeout (.bank b)) s = .next t ∧ t.fclk = max s.fclk t0 ∧ (t.bankAt b).lock =
        { owner := some e.master, broken := false, timer := some (max s.fclk t0 + max 160 (s.getF Reg.RV_LOCK_CFG 0 16)) } ∧
      (∀ k : Bank, k ≠ b → (t.bankAt k).lock = (s.bankAt k).lock) ∧ (∃ y, entryAt (t.hgAt (117 + p)) e.id = some y ∧ y.broken = true) ∧ t.rv.mem = s.rv.mem ∧
      (t.reg Reg.RV_LOCK_REVOKE).toNat = min 0xFFFFFFFF ((s.reg Reg.RV_LOCK_REVOKE).toNat + 1) ∧
      (t.reg Reg.RV_LOCK_GRANT).toNat = min 0xFFFFFFFF ((s.reg Reg.RV_LOCK_GRANT).toNat + 1) ∧
      sameExcept [.fclk, .regs, .hg, .rv, .al] s t ∧ hgsKept [117 + p] s t) ∧
  (∀ (s : State) (a : LockAt) (src : Nat) (c : Ctx) (t0 : Nat), (s.lockMgr a).owner = some (src, c) → (s.lockMgr a).timer = some t0 →
    (∀ b : Bank, a = .bank b → (∀ k : Bank, k ≠ b → (s.bankAt k).lock.due (max s.fclk t0) = false) ∧
      ∀ y ∈ reachedChunks s, y.2.2.2.sent = true ∧ y.2.2.2.passed = true) →
    ∃ t, exec (.lockLimitTimeout a) s = .next t ∧ t.fclk = max s.fclk t0 ∧ t.lockMgr a = { owner := none, broken := true, timer := none } ∧
      (∀ x, x ≠ a → t.lockMgr x = s.lockMgr x) ∧ t.getB Reg.RV_STATUS 2 = true ∧
      (t.reg Reg.RV_LOCK_REVOKE).toNat = min 0xFFFFFFFF ((s.reg Reg.RV_LOCK_REVOKE).toNat + 1) ∧
      t.al = (match a with
        | .headgate n => alarmEvent s.al t.fclk (100 + n.val) 0x52 (BitVec.ofNat 8 n) (BitVec.ofNat 64 (src + c.toNat * 2 ^ 8))
        | .bank b => alarmEvent s.al t.fclk 277 0xC1 (BitVec.ofNat 8 b) (BitVec.ofNat 64 (src + c.toNat * 2 ^ 8))) ∧
      t.rv.mem = s.rv.mem ∧ sameExcept [.fclk, .regs, .hg, .rv, .al] s t ∧ regsKept [Reg.RV_LOCK_REVOKE, Reg.RV_STATUS] s t)

/-- R317, R326, Table 16-7: the target timer of a presented request, or that of PORT_LIVE low with requests waiting, reaches its
limit, once: EXPIRED and the TREQ_ID are recorded, the event is counted and an alarm raised; with HG_LEVEE.AUTO the levee is
set. Setting the levee returns presented requests to the siphon, releases the lock with BROKEN, answers the agent's snoops
while there is room, drops its messages and raises one alarm; set already, nothing happens. The siphon answers the waiting
request with TARGET_DEAD and frees its entry. -/
def Obligations.TargetTimeoutAndLevee : Prop :=
  (∀ (s : State) (n : Hg) (id : Option (BitVec 9)), hasHai n = false → exec (.targetTimeout n id) s = .next s) ∧
  (∀ (s : State) (n : Hg) (id : Option (BitVec 9)), targetTimer (s.hgAt n) id = none → exec (.targetTimeout n id) s = .next s) ∧
  (∀ (s : State) (n : Hg) (i : BitVec 9) (e : Entry) (t0 : Nat), hasHai n = true → s.getB (Reg.HG_LEVEE n) 1 = false →
    (s.hgAt n).entries.find? (fun x => decide (x.treqId = some i.toNat) && decide (x.phase = .presented)) = some e → e.presentedAt = some t0 →
    ∃ t, exec (.targetTimeout n (some i)) s = .next t ∧ t.fclk = max s.fclk (t0 + 64 * max 25 (s.getF (Reg.HG_TGT_TMO n) 0 12)) ∧
      t.getB (Reg.HG_TGT_TMO n) 12 = true ∧ t.getF (Reg.HG_TGT_TMO n) 13 9 = i.toNat ∧ t.getF (Reg.HG_TGT_TMO n) 0 12 = s.getF (Reg.HG_TGT_TMO n) 0 12 ∧
      (t.reg (Reg.HG_TGT_TMO_CNT n)).toNat = min 0xFFFFFFFF ((s.reg (Reg.HG_TGT_TMO_CNT n)).toNat + 1) ∧
      t.al = alarmEvent s.al t.fclk (100 + n.val) 0x47 (BitVec.ofNat 8 n.val) (BitVec.ofNat 64 i.toNat) ∧
      targetTimer (t.hgAt n) (some i) = none ∧ (t.hgAt n).entries.map (·.id) = (s.hgAt n).entries.map (·.id) ∧
      sameExcept [.fclk, .regs, .hg, .al] s t ∧ hgsKept [n.val] s t ∧ regsKept [Reg.HG_TGT_TMO n, Reg.HG_TGT_TMO_CNT n] s t) ∧
  (∀ (s : State) (n : Hg), hasHai n = true → (s.hgAt n).portLive = true → exec (.targetTimeout n none) s = .next s) ∧
  (∀ (s : State) (n : Hg) (t0 : Nat), hasHai n = true → (s.hgAt n).portLive = false → (s.hgAt n).liveFellAt = some t0 →
    (∃ e ∈ (s.hgAt n).entries, e.phase = .waiting ∨ e.phase = .message) →
    ∃ t, exec (.targetTimeout n none) s = .next t ∧ t.getB (Reg.HG_TGT_TMO n) 12 = true ∧ (t.hgAt n).liveFellAt = none ∧
      t.fclk = max s.fclk (t0 + 64 * max 25 (s.getF (Reg.HG_TGT_TMO n) 0 12)) ∧
      t.getB (Reg.HG_LEVEE n) 0 = (s.getB (Reg.HG_LEVEE n) 0 || s.getB (Reg.HG_LEVEE n) 1)) ∧
  (∀ (s : State) (n : Hg),
    (s.getB (Reg.HG_LEVEE n) 0 = true → exec (.leveeTgtSet n) s = .next s) ∧
    (s.getB (Reg.HG_LEVEE n) 0 = false → ∃ t, exec (.leveeTgtSet n) s = .next t ∧ t.getB (Reg.HG_LEVEE n) 0 = true ∧
      t.getB (Reg.HG_LEVEE n) 3 = !(s.hgAt n).entries.isEmpty ∧ (t.hgAt n).entries.map (·.id) = (s.hgAt n).entries.map (·.id) ∧
      (∀ e ∈ (t.hgAt n).entries, e.phase ≠ .presented ∧ e.phase ≠ .message) ∧ (t.hgAt n).lock.owner = none ∧
      ((s.hgAt n).lock.owner ≠ none → (t.hgAt n).lock.broken = true) ∧ (t.hgAt n).msgin = [] ∧
      (∀ q ∈ (t.hgAt n).snoops, q.presented = false) ∧
      ((s.hgAt n).snoops.length ≤ freeBlocks (s.hgAt n) - (s.hgAt n).cackWait.length → (t.hgAt n).snoops = []) ∧
      t.al = alarmEvent s.al s.fclk (100 + n.val) 0x4F (BitVec.ofNat 8 n.val) 0 ∧
      sameExcept [.regs, .hg, .al] s t ∧ hgsKept [n.val] s t ∧ regsKept [Reg.HG_LEVEE n] s t)) ∧
  (∀ (s : State) (n : Hg), s.getB (Reg.HG_LEVEE n) 0 = false → exec (.siphonAnswer n) s = .next s) ∧
  (∀ (s : State) (n : Hg) (e : Entry), s.getB (Reg.HG_LEVEE n) 0 = true → (s.hgAt n).entries = [e] → (s.hgAt n).overAllot = [] → e.phase ≠ .answer →
    ∃ t, exec (.siphonAnswer n) s = .next t ∧ sameExcept [.regs, .hg, .wires, .pr, .al] s t ∧ hgsKept [n.val] s t ∧
      (e.op ≠ opWRP → 1 ≤ openBlocks (s.hgAt n) → deadDest s n e.pkt.hdr.src.toNat = false →
        (t.hgAt n).entries = [] ∧ t.getB (Reg.HG_LEVEE n) 3 = false ∧
        (t.reg (Reg.HG_SIPHON_TD n)).toNat = min 0xFFFFFFFF ((s.reg (Reg.HG_SIPHON_TD n)).toNat + 1) ∧
        ∃ q, (t.hgAt n).store = (s.hgAt n).store ++ [q] ∧ q.kind = .rsp ∧ q.pkt.hdr.outcome = ocDead ∧ q.pkt.hdr.done = 0 ∧
          q.pkt.hdr.dst = e.pkt.hdr.src ∧ q.pkt.hdr.ctx = e.pkt.hdr.ctx ∧ q.pkt.hdr.tag = e.pkt.hdr.tag) ∧
      (e.op = opWRP → (t.hgAt n).entries = [] ∧ (t.hgAt n).store = (s.hgAt n).store ∧
        (t.reg (Reg.HG_SIPHON_POST n)).toNat = min 0xFFFFFFFF ((s.reg (Reg.HG_SIPHON_POST n)).toNat + 1)))

/-- R328, R329, R75: the isolation of an initiator makes its headgate act as though PORT_LIVE had fallen: beats not accepted are
discarded and counted and every open outcome is absorbed. A remote levee gives TARGET_DEAD to every part to the dead
destination whose outcome is out, frees its packets and clears the pair's sending state. Set already, nothing happens. -/
def Obligations.IsolationClosesInitiatorAndPairs : Prop :=
  (∀ (s : State) (n : Hg),
    (s.getB (Reg.HG_LEVEE n) 2 = true → exec (.isoInitSet n) s = .next s) ∧
    (s.getB (Reg.HG_LEVEE n) 2 = false → ∃ t, exec (.isoInitSet n) s = .next t ∧ t.getB (Reg.HG_LEVEE n) 2 = true ∧
      (∀ q ∈ (t.hgAt n).reqs, q.absorb = true ∧ q.whole = true) ∧ (∀ x ∈ (t.hgAt n).txns, x.absorb = true) ∧
      (t.hgAt n).cackWait = [] ∧ (t.hgAt n).acc = none ∧ (t.hgAt n).portLive = (s.hgAt n).portLive ∧
      ((∀ q ∈ (s.hgAt n).reqs, ∀ d, q.verdict ≠ .held d) → (t.reg (Reg.HG_HAI_DISCARD n)).toNat = min 0xFFFFFFFF ((s.reg (Reg.HG_HAI_DISCARD n)).toNat +
        sumBy (fun q => if q.whole then 0 else q.beats.length) (s.hgAt n).reqs)) ∧
      sameExcept [.regs, .hg, .wires, .pr] s t ∧ hgsKept [n.val] s t)) ∧
  (∀ (s : State) (n d : Hg), deadDest s n d = true → exec (.remoteLeveeSet n d) s = .next s) ∧
  (∀ (s : State) (n d : Hg), deadDest s n d = false → isHome n = false → (s.hgAt n).entries = [] → (s.hgAt n).overAllot = [] →
    ∃ t, exec (.remoteLeveeSet n d) s = .next t ∧ deadDest t n d = true ∧
      (∀ x ∈ (t.hgAt n).txns, ∀ p ∈ x.parts, p.target = d.val → p.outcome ≠ none) ∧
      (t.hgAt n).txns.map (·.id) = (s.hgAt n).txns.map (·.id) ∧
      (∀ p ∈ (t.hgAt n).store, p.dst = d.val → p.kind = .gua) ∧
      (∀ p ∈ (s.hgAt n).store, (p.dst ≠ d.val ∨ p.kind = .gua) → p ∈ (t.hgAt n).store) ∧ (t.hgAt n).txAt d = PairTx.reset ∧
      (∀ x, x ≠ d.val → (t.hgAt n).txAt x = (s.hgAt n).txAt x) ∧ (t.hgAt n).chans = (s.hgAt n).chans ∧
      (t.reg (Reg.HG_SIPHON_TD n)).toNat = min 0xFFFFFFFF ((s.reg (Reg.HG_SIPHON_TD n)).toNat +
        sumBy (fun x => (x.parts.filter (fun p => decide (p.target = d.val) && p.outcome.isNone)).length) (s.hgAt n).txns) ∧
      sameExcept [.regs, .hg] s t ∧ hgsKept [n.val] s t ∧ regsKept [Reg.HG_DEAD_DEST n (d / 64), Reg.HG_SIPHON_TD n] s t)

/-- R105, R126, R127, R320, R325, R403: a write of HG_ATTACH.USE that moves a headgate to its other attachment takes effect: it
clears VALID of its reservation entries, demotes the channels it sources and makes a pass to every destination with
uncommitted packets due. A write of a port enable sets the enable of that port and of no other: enabling restarts its link
with full credits and, by the model's choice (log entry 65), its silence time, and raises PORT_LIVE at the far end; disabling
lowers it there, which declares a live and enabled far end faulty. A clear of a disabled port takes away its faulty state, its
credits in flight and its link's flits. A write that changes nothing, or clears an enabled port, changes nothing. -/
def Obligations.AttachmentAndPortWrites : Prop :=
  (∀ (s : State) (n : Hg) (use : Bool), ∃ t, exec (.attachUseWrite n use) s = .next t ∧ t.getF (Reg.HG_ATTACH n) 0 1 = use.toNat ∧
    (s.getF (Reg.HG_ATTACH n) 0 1 = use.toNat → t = s) ∧
    (s.getF (Reg.HG_ATTACH n) 0 1 ≠ use.toNat → (∀ e, e < 256 → t.getB (Reg.HG_PL_ENTRY n e) 63 = false) ∧
      (∀ r ∈ chanRecs s n, recSrc r.2 = true → ((t.hgAt n).chanAt r.1).demoted = true) ∧
      (∀ d : Hg, uncommitted (s.hgAt n) d ≠ [] → ((t.hgAt n).txAt d).passDue = true)) ∧
    t.reg (Reg.HG_FAILOVER_CNT n) = s.reg (Reg.HG_FAILOVER_CNT n) ∧ (t.hgAt n).store = (s.hgAt n).store ∧
    sameExcept [.regs, .hg] s t ∧ hgsKept [n.val] s t) ∧
  (∀ (s : State) (r : Rcv) (b : Bool), ∃ t, exec (.portEnWrite r b) s = .next t ∧ t.enabled (rcvEnd r) = b ∧
    (∀ x : Rcv, x ≠ r → t.enabled (rcvEnd x) = s.enabled (rcvEnd x)) ∧
    (s.enabled (rcvEnd r) = b ∨ (rcvEnd r).far = none → (∀ x : Rcv, t.live (rcvEnd x) = s.live (rcvEnd x)) ∧ sameExcept [.regs] s t) ∧
    (∀ f : Rcv, s.enabled (rcvEnd r) = false → b = true → (rcvEnd r).far = some (rcvEnd f) →
      t.link (rcvEnd r) = { LinkEnd.reset with hbAt := s.fclk } ∧ t.live (rcvEnd f) = true ∧ (t.link (rcvEnd f)).hbFirst = true ∧
      sameExcept [.regs, .hg, .rt] s t) ∧
    (∀ f : Rcv, s.enabled (rcvEnd r) = true → b = false → (rcvEnd r).far = some (rcvEnd f) → t.live (rcvEnd f) = false ∧
      (s.live (rcvEnd f) = true → s.enabled (rcvEnd f) = true → t.faulty (rcvEnd f) = true)) ∧
    sameExcept [.regs, .hg, .rt, .wires, .credits, .al] s t) ∧
  (∀ (s : State) (r : Rcv), ∃ t, exec (.portClear r) s = .next t ∧ (s.enabled (rcvEnd r) = true → t = s) ∧
    (s.enabled (rcvEnd r) = false → t.faulty (rcvEnd r) = false ∧ t.wire (rcvEnd r) = [] ∧ Tab.get t.credits [] (rcvEnd r).key = [] ∧
      t.link (rcvEnd r) = { LinkEnd.reset with hbAt := s.fclk }) ∧
    (∀ x : Rcv, x ≠ r → t.faulty (rcvEnd x) = s.faulty (rcvEnd x) ∧ t.wire (rcvEnd x) = s.wire (rcvEnd x) ∧ t.link (rcvEnd x) = s.link (rcvEnd x)) ∧
    sameExcept [.regs, .hg, .rt, .wires, .credits] s t)

/-- R418 to R422, Table 16-4: a head observed at a point of a bank that exactly one probe matches is a hit of that probe: its
whole record is reserved where the bank's queue and the probe's buffer have room, with the record block and the head's payload
(no payload where the packet is secret), RSEQ rises and the buffer's free count falls; without room it is dropped and counted.
A later flit of a packet under capture adds its payload. A head that no probe matches, or an empty list: no record. The probe
has no trigger. R423, R424: the trace output takes one whole record at a time, of a probe whose weir lets it leave while the
global weir is above zero, and leaves its blocks free; the funnel takes beat after beat, the fourth of a block counting the
block; each level rises by its RATE up to its burst. With nothing that may leave, or no beat, nothing happens. -/
def Obligations.TraceRecordsAreCapturedAndDrained : Prop :=
  (
    (∀ (s : State) (b : Fin 8), Tab.get s.pr.obs [] b = [] → exec (.traceCapture b) s = .next s) ∧
    (∀ (s : State) (b : Fin 8) (o : Obs) (p blocks : Nat), Tab.get s.pr.obs [] b = [o] → camHead o.flit = true → matchesOf s b [o] = [(p, o)] →
      s.getB (Reg.PR_PRB_CTL p) 26 = false →
      blocks = (if traceMasked s o.flit.hdr = true then 0 else min (s.getF (Reg.PR_PRB_CTL p) 12 4) o.flit.flits) →
      ∃ t, exec (.traceCapture b) s = .next t ∧ Tab.get t.pr.obs [] b = [] ∧
        (t.reg (Reg.PR_PRB_HITS p)).toNat = min 0xFFFFFFFF ((s.reg (Reg.PR_PRB_HITS p)).toNat + 1) ∧
        t.getF (Reg.PR_PRB_STAT p) 0 16 = (s.getF (Reg.PR_PRB_STAT p) 0 16 + 1) % 65536 ∧
        (queuedBlocks s (p / 4) + blocks + 1 ≤ 16 → blocks + 1 ≤ s.getF (Reg.PR_PRB_STAT p) 16 10 →
          t.pr.bufs = s.pr.bufs ++ [TraceRec.mk p (recordBlock p (s.getF (Reg.PR_PRB_STAT p) 0 16) blocks (4 * (p % 4)) (traceMasked s o.flit.hdr) false o ::
            (if blocks = 0 then [] else [o.flit.payload]))] ∧
          t.getF (Reg.PR_PRB_STAT p) 16 10 = s.getF (Reg.PR_PRB_STAT p) 16 10 - (blocks + 1) ∧
          t.reg (Reg.PR_PRB_DROP p) = s.reg (Reg.PR_PRB_DROP p)) ∧
        ((16 < queuedBlocks s (p / 4) + blocks + 1 ∨ s.getF (Reg.PR_PRB_STAT p) 16 10 < blocks + 1) → t.pr.bufs = s.pr.bufs ∧
          (t.reg (Reg.PR_PRB_DROP p)).toNat = min 0xFFFFFFFF ((s.reg (Reg.PR_PRB_DROP p)).toNat + 1) ∧ t.getB (Reg.PR_PRB_STAT p) 39 = true) ∧
        sameExcept [.regs, .pr] s t ∧ regsKept [Reg.PR_PRB_HITS p, Reg.PR_PRB_STAT p, Reg.PR_PRB_DROP p, Reg.PR_BANK (p / 4)] s t) ∧
    (∀ (s : State) (b : Fin 8) (o : Obs), Tab.get s.pr.obs [] b = [o] → camHead o.flit = true → matchesOf s b [o] = [] →
      ∃ t, exec (.traceCapture b) s = .next t ∧ Tab.get t.pr.obs [] b = [] ∧ t.pr.bufs = s.pr.bufs ∧ sameExcept [.pr] s t) ∧
    (∀ (s : State) (b : Fin 8) (o : Obs) (r : TraceRec) (h : Line) (more : List Line), Tab.get s.pr.obs [] b = [o] → camHead o.flit = false →
      o.flit.isControl = false → o.flit.isLast = false → s.pr.bufs = [r] → r.blocks = h :: more → r.probe / 4 = b.val →
      r.follows o.atHg o.where_ o.port = true → field h 250 4 = o.flit.vc →
      ∃ t, exec (.traceCapture b) s = .next t ∧ t.pr.bufs = [{ r with blocks := r.blocks ++ [o.flit.payload] }] ∧ sameExcept [.pr] s t)) ∧
  (
    (∀ (s : State), (s.pr.out ≠ [] ∨ s.pr.globalLevel ≤ 0 ∨ s.pr.bufs = []) → exec .traceRecordDrain s = .next s) ∧
    (∀ (s : State) (r : TraceRec), s.pr.out = [] → 0 < s.pr.globalLevel → s.pr.bufs = [r] → r.probe < 32 → r.whole = true →
      (probeRate s r.probe = 0 ∨ 0 < probeLevel s r.probe) →
      ∃ t, exec .traceRecordDrain s = .next t ∧ t.pr.bufs = [] ∧ t.pr.out = recordBeats r ∧ t.pr.rr = r.probe ∧
        t.pr.globalLevel = max (-10) (s.pr.globalLevel - r.blocks.length) ∧
        t.getF (Reg.PR_PRB_STAT r.probe) 16 10 = (s.getF (Reg.PR_PRB_STAT r.probe) 16 10 + r.blocks.length) % 1024 ∧
        (probeRate s r.probe = 0 → probeLevel t r.probe = probeLevel s r.probe) ∧
        (probeRate s r.probe ≠ 0 → probeLevel t r.probe = max (-10) (probeLevel s r.probe - r.blocks.length)) ∧
        sameExcept [.regs, .pr] s t ∧ regsKept [Reg.PR_PRB_STAT r.probe] s t) ∧
    (∀ (s : State) (r : TraceRec), s.pr.bufs = [r] → (r.whole = false ∨ 0 < probeRate s r.probe ∧ probeLevel s r.probe ≤ 0) →
      exec .traceRecordDrain s = .next s) ∧
    (∀ (s : State), s.pr.out = [] → exec .traceBeat s = .next s) ∧
    (∀ (s : State) (x : Nat × BitVec 128 × Bool) (rest : List (Nat × BitVec 128 × Bool)), s.pr.out = x :: rest →
      ∃ t, exec .traceBeat s = .next t ∧ t.pr = { s.pr with out := rest, lastOut := some x } ∧
        (rest.length % 4 = 0 → (t.reg Reg.PR_TRACE_OUT).toNat = min 0xFFFFFFFF ((s.reg Reg.PR_TRACE_OUT).toNat + 1)) ∧
        (rest.length % 4 ≠ 0 → t.reg Reg.PR_TRACE_OUT = s.reg Reg.PR_TRACE_OUT) ∧ sameExcept [.regs, .pr] s t ∧ regsKept [Reg.PR_TRACE_OUT] s t) ∧
    (∀ (s : State), ∃ t, exec .traceWeirRefill s = .next t ∧
      t.pr.globalLevel = min (traceBurst s : Int) (s.pr.globalLevel + ((max 1 (min 32 (s.getF Reg.PR_TRACE_WEIR 0 6)) : Nat) : Int)) ∧
      (∀ p, p < 32 → probeLevel t p = min 64 (probeLevel s p + probeRate s p) ∧ t.getF (Reg.PR_PRB_STAT p) 0 26 = s.getF (Reg.PR_PRB_STAT p) 0 26) ∧
      t.pr = { s.pr with globalLevel := t.pr.globalLevel } ∧ sameExcept [.regs, .pr] s t))

/-- R426, R428, R429, R314, Table 16-6: a record goes from its station onto the ring; the Rider's station counts and copies the
first record without COPIED while its FIFO has room; the station a refused post names adds the record's COUNT to
HG_POST_REFUSE once; a copied record that comes back to its station is removed. A self-check raises an alarm with its table.
With no such record nothing happens. -/
def Obligations.AlarmRecordsTravelTheRing : Prop :=
  (∀ (s : State) (st : Fin 280), (∀ r ∈ s.al.waiting, r.station ≠ st.val) → exec (.alarmRingEntry st) s = .next s) ∧
  (∀ (s : State) (st : Fin 280) (r : RingRec), s.al.waiting.find? (fun x => decide (x.station = st.val)) = some r →
    ∃ t, exec (.alarmRingEntry st) s = .next t ∧ t.al.ring = s.al.ring ++ [r] ∧ (∀ x, x ∈ t.al.waiting ↔ x ∈ s.al.waiting ∧ x.id ≠ r.id) ∧
      t.al.tokens = s.al.tokens ∧ t.al.states.map (·.count) = s.al.states.map (·.count) ∧ sameExcept [.al] s t) ∧
  (∀ (s : State), ((∀ r ∈ s.al.ring, r.alarm.copied = true) ∨ 1024 ≤ s.rd.fifo.length) → exec .alarmCopy s = .next s) ∧
  (∀ (s : State) (r : RingRec), s.al.ring.find? (fun x => !x.alarm.copied) = some r → s.rd.fifo.length < 1024 →
    ∃ t, exec .alarmCopy s = .next t ∧ t.rd.fifo = s.rd.fifo ++ [{ r.alarm with copied := true }] ∧
      (r.alarm.typ, r.alarm.source) ∈ t.rd.awaiting ∧
      (t.reg Reg.PR_ALARM_RX).toNat = min 0xFFFFFFFF ((s.reg Reg.PR_ALARM_RX).toNat + 1) ∧
      (∀ x ∈ t.al.ring, x.id = r.id → x.alarm = { r.alarm with copied := true }) ∧ t.al.ring.map (·.id) = s.al.ring.map (·.id) ∧
      t.al.waiting = s.al.waiting ∧ sameExcept [.regs, .al, .rd] s t ∧ regsKept [Reg.PR_ALARM_RX] s t) ∧
  (∀ (s : State) (n : Hg), (∀ r ∈ s.al.ring, namesRequester r n = false) → exec (.alarmStationPass n) s = .next s) ∧
  (∀ (s : State) (n : Hg) (r : RingRec), s.al.ring.find? (fun x => namesRequester x n) = some r →
    ∃ t, exec (.alarmStationPass n) s = .next t ∧
      (t.reg (Reg.HG_POST_REFUSE n)).toNat = min 0xFFFFFFFF ((s.reg (Reg.HG_POST_REFUSE n)).toNat + r.alarm.count.toNat) ∧
      (∀ x ∈ t.al.ring, x.id = r.id → x.passed = true) ∧ t.al.ring.map (·.alarm) = s.al.ring.map (·.alarm) ∧
      sameExcept [.regs, .al] s t ∧ regsKept [Reg.HG_POST_REFUSE n] s t) ∧
  (∀ (s : State) (st : Fin 280), (∀ r ∈ s.al.ring, r.station ≠ st.val) → exec (.alarmRecordReturn st) s = .next s) ∧
  (∀ (s : State) (st : Fin 280) (r : RingRec),
    s.al.ring.find? (fun x => decide (x.station = st.val) && (x.alarm.copied || decide (1024 ≤ s.rd.fifo.length))) = some r → r.alarm.typ ≠ 0x45 →
    ∃ t, exec (.alarmRecordReturn st) s = .next t ∧
      (r.alarm.copied = true → (∀ x, x ∈ t.al.ring ↔ x ∈ s.al.ring ∧ x.id ≠ r.id) ∧
        (∀ c ∈ t.al.states, c.recId = r.id → c.place = .returned ∨ c.place = .none)) ∧
      (r.alarm.copied = false → ∃ x, t.al.ring = s.al.ring.filter (fun y => decide (y.id ≠ r.id)) ++ [x] ∧ x.alarm = { r.alarm with recirc := true } ∧
        t.al.states = s.al.states) ∧ t.al.waiting = s.al.waiting ∧ sameExcept [.al] s t) ∧
  (∀ (s : State) (n : Hg) (table : BitVec 8), ∃ t, exec (.headgateSelfCheck n table) s = .next t ∧
    t.al = alarmEvent s.al s.fclk (100 + n.val) 0x53 (BitVec.ofNat 8 n) (BitVec.ofNat 64 table.toNat) ∧ sameExcept [.al] s t)

/-- R427, R430, R431: an acknowledgement token at a station acts on the state it names whose last record has returned: with
nothing counted the state is IDLE again, and counted events go out as one summary record with their number and the last
event's time and detail. An open incident closes 1 ms after its last record once no recovery from a fault runs (a wake that
runs holds no incident open). With no incident, or while a recovery runs, nothing happens. -/
def Obligations.AcknowledgementAndIncidentClose : Prop :=
  (∀ (s : State) (st : Fin 280), tokenFor s st = none → ∃ t, exec (.alarmAckToken st) s = .next t ∧
    t.al = { s.al with tokens := liveTokens s.al } ∧ sameExcept [.al] s t) ∧
  (∀ (s : State) (st : Fin 280) (i : Nat) (k : Token) (c : Coalesce), tokenFor s st = some (i, k) → s.al.states = [c] → c.station = st.val →
    k.names c = true → c.place = .returned →
    ∃ t, exec (.alarmAckToken st) s = .next t ∧ t.al.states = [] ∧ t.al.tokens = [] ∧ t.al.ring = s.al.ring ∧
      (c.count = 0 → t.al.waiting = s.al.waiting) ∧
      (c.count ≠ 0 → ∃ r, t.al.waiting = s.al.waiting ++ [r] ∧ r.station = c.station ∧ r.alarm.typ = c.typ ∧ r.alarm.source = c.source ∧
        r.alarm.summary = true ∧ r.alarm.count = BitVec.ofNat 32 c.count ∧ r.alarm.time = BitVec.ofNat 48 c.time ∧ r.alarm.detail = c.detail) ∧
      sameExcept [.al] s t) ∧
  (∀ (s : State) (st : Fin 280) (i : Nat) (k : Token) (c : Coalesce), tokenFor s st = some (i, k) → s.al.states = [c] → c.place ≠ .returned →
    ∃ t, exec (.alarmAckToken st) s = .next t ∧ t.al.states = [c] ∧ t.al.waiting = s.al.waiting ∧ t.al.ring = s.al.ring ∧ sameExcept [.al] s t) ∧
  (∀ (s : State), (s.rd.incidentOpen = false ∨ recovers s = true) → exec .incidentClose s = .next s) ∧
  (∀ (s : State), s.rd.incidentOpen = true → recovers s = false → ∃ t, exec .incidentClose s = .next t ∧
    t.fclk = max s.fclk (s.rd.lastRecordAt + 1600000) ∧ t.rd = { s.rd with incidentOpen := false } ∧ sameExcept [.fclk, .rd] s t)

/-- R392, R395, R397, R406, R409 to R412 (Tables 15-3 to 15-15): the commands that end with their first step are answered at once
with their settings made. PARAM_SET writes its field in every instance named; WEIR_SET the rate and burst of one context or of
all, where a level above the new burst falls to it, and at RATE 0 stands at it; PACELINE_SET the link cap; DOMAIN_SET the
members and timers; PROBE_ARM entry, point and budget, with the probe's weir at 64; PROBE_DISARM gives up a record in capture;
ALARM_ACK sends a token; HOLD_SET takes the release time and the hold; MAILBOX_BIND binds; LEVEE_SET in its AUTO and remote
forms sets AUTO and every remote levee. -/
def Obligations.SettingsCommandsTakeEffectAtOnce : Prop :=
  (∀ (s : State) (m : Mbx) (c : Running) (r : ParamRow) (is : List Nat), commandReady 0x0102 s m c →
    paramRow (cf c.words 1 0 8) = some r → paramInsts r (cf c.words 1 8 8) = some is →
    (cf c.words 1 0 8 = 0x0B → ∀ i ∈ is, poolStays s (cw c.words 2).toNat i = true) →
    ∃ t, exec .paramSet s = .next t ∧ answeredWith m c 0 1 [] s t ∧
      (∀ i ∈ is, ∀ k, k < (match cf c.words 1 0 8 with | 5 => 35 | 6 => 30 | 9 => 17 | _ => r.len) →
        bit (t.reg (r.off i)) k = bit (cw c.words 2) k) ∧
      t.rd = servedRd m { s.rd with disturbed := false } ∧ sameExcept [.regs, .rd, .mb] s t ∧
      regsKept (Reg.GL_RIDER_STATUS :: is.map r.off) s t) ∧
  (∀ (s : State) (m : Mbx) (c : Running), commandReady 0x0102 s m c → cf c.words 1 0 8 = 0x0C →
    ∃ t, exec .paramSet s = .next t ∧ answeredWith m c 0 1 [] s t ∧
      t.rd = servedRd m { s.rd with disturbed := false, shortestFirst := decide ((cw c.words 2).toNat = 1) } ∧
      sameExcept [.regs, .rd, .mb] s t ∧ regsKept [Reg.GL_RIDER_STATUS] s t) ∧
  (∀ (s : State) (m : Mbx) (c : Running) (h : Hg), commandReady 0x0302 s m c → cf c.words 1 0 8 = h.val →
    ∃ t, exec .weirSet s = .next t ∧ answeredWith m c 0 1 [] s t ∧
      (∀ k : Ctx, (cb c.words 1 14 = true ∨ k.toNat = cf c.words 1 8 6) →
        t.getF (Reg.HG_WEIR h k.toNat) 0 8 = cf c.words 1 15 8 ∧ t.getF (Reg.HG_WEIR h k.toNat) 8 12 = cf c.words 1 23 12 ∧
        weirLevel t h k.toNat = (if cf c.words 1 15 8 = 0 then ((max 1 (cf c.words 1 23 12) : Nat) : Int)
          else min (weirLevel s h k.toNat) (max 1 (cf c.words 1 23 12) : Nat))) ∧
      (∀ k : Ctx, cb c.words 1 14 = false → k.toNat ≠ cf c.words 1 8 6 →
        t.reg (Reg.HG_WEIR h k.toNat) = s.reg (Reg.HG_WEIR h k.toNat)) ∧
      sameExcept [.regs, .rd, .mb] s t ∧ regsKept (Reg.GL_RIDER_STATUS :: (List.range 64).map (Reg.HG_WEIR h)) s t) ∧
  (∀ (s : State) (m : Mbx) (c : Running), commandReady 0x0203 s m c → cb c.words 1 18 = false → cb c.words 1 26 = true →
    capHolds s (cf c.words 1 19 7) = true →
    ∃ t, exec .pacelineSet s = .next t ∧ answeredWith m c 0 1 [] s t ∧
      t.rd = servedRd m { s.rd with disturbed := false, cap := cf c.words 1 19 7 } ∧
      sameExcept [.regs, .rd, .mb] s t ∧ regsKept [Reg.GL_RIDER_STATUS] s t) ∧
  (∀ (s : State) (m : Mbx) (c : Running), commandReady 0x0203 s m c → cb c.words 1 18 = true → cb c.words 1 26 = false →
    s.bd.everValid = true → s.rd.chans = [] →
    ∃ t, exec .pacelineSet s = .next t ∧ t.getF Reg.CK_TURN_CFG 0 18 = cf c.words 1 0 18 ∧ t.getB Reg.CK_TURN_CFG 18 = true ∧
      (condHolds s (.secondAfter s.bd.ownSec.toNat) = true → answeredWith m c 0 1 [] s t) ∧
      (condHolds s (.secondAfter s.bd.ownSec.toNat) = false → t.rd.active = some m.val ∧ (t.mbAt m).rsp = (s.mbAt m).rsp) ∧
      regsKept [Reg.GL_RIDER_STATUS, Reg.CK_TURN_CFG] s t) ∧
  (∀ (s : State) (m : Mbx) (c : Running), commandReady 0x0603 s m c → domState s (cf c.words 1 0 5) = 0 →
    (∀ n, n < 160 → joins c.words n = true → hasHai n = true ∧ ∀ x, domainOf s n = some x → domState s x = 0) →
    ∃ t, exec .domainSet s = .next t ∧ answeredWith m c 0 1 [] s t ∧
      (∀ n : Hg, hasHai n = true → domainOf t n =
        if joins c.words n then some (cf c.words 1 0 5)
        else if domainOf s n = some (cf c.words 1 0 5) then none else domainOf s n) ∧
      t.getB (Reg.CK_DOM (cf c.words 1 0 5)) 0 = cb c.words 1 5 ∧ t.getF (Reg.CK_DOM (cf c.words 1 0 5)) 8 10 = cf c.words 1 6 10 ∧
      t.getF (Reg.CK_DOM (cf c.words 1 0 5)) 18 10 = cf c.words 1 16 10 ∧ sameExcept [.regs, .rd, .mb] s t ∧
      regsKept (Reg.GL_RIDER_STATUS :: Reg.CK_DOM (cf c.words 1 0 5) ::
        ((List.range 160).map Reg.CK_HG_DOM ++ (List.range 160).map Reg.HG_DOM_STATUS)) s t) ∧
  (∀ (s : State) (m : Mbx) (c : Running), commandReady 0x0801 s m c → s.getB (Reg.PR_PRB_CTL (cf c.words 1 0 5)) 63 = false →
    cf c.words 1 0 5 / 4 ∉ s.pr.failedBanks →
    ∃ t, exec .probeArm s = .next t ∧ answeredWith m c 0 1 [] s t ∧
      t.getB (Reg.PR_PRB_CTL (cf c.words 1 0 5)) 63 = true ∧ t.getF (Reg.PR_PRB_CTL (cf c.words 1 0 5)) 0 8 = cf c.words 1 5 8 ∧
      t.getB (Reg.PR_PRB_CTL (cf c.words 1 0 5)) 8 = cb c.words 1 13 ∧ t.getF (Reg.PR_PRB_CTL (cf c.words 1 0 5)) 9 3 = cf c.words 1 14 3 ∧
      t.getF (Reg.PR_PRB_CTL (cf c.words 1 0 5)) 12 4 = cf c.words 1 17 4 ∧
      t.getF (Reg.PR_PRB_CTL (cf c.words 1 0 5)) 16 2 = (if cw c.words 5 = 0 then 0 else 1) ∧
      t.getF (Reg.PR_PRB_CTL (cf c.words 1 0 5)) 18 8 = cf c.words 1 21 8 ∧
      t.reg (Reg.PR_CAM_MATCH (4 * cf c.words 1 0 5)) = cw c.words 2 ∧ t.reg (Reg.PR_CAM_MASK (4 * cf c.words 1 0 5)) = cw c.words 4 ∧
      (cw c.words 5 ≠ 0 → t.reg (Reg.PR_CAM_MATCH (4 * cf c.words 1 0 5 + 1)) = cw c.words 3 ∧
        t.reg (Reg.PR_CAM_MASK (4 * cf c.words 1 0 5 + 1)) = cw c.words 5) ∧
      t.getF (Reg.PR_PRB_STAT (cf c.words 1 0 5)) 26 13 = 64 ∧ t.getB (Reg.PR_PRB_STAT (cf c.words 1 0 5)) 39 = false ∧
      cf c.words 1 0 5 ∉ t.pr.trigDone ∧ sameExcept [.regs, .pr, .rd, .mb] s t) ∧
  (∀ (s : State) (m : Mbx) (c : Running), commandReady 0x0802 s m c → s.getB (Reg.PR_PRB_CTL (cf c.words 1 0 5)) 63 = true →
    ∃ t, exec .probeDisarm s = .next t ∧ answeredWith m c 0 1 [] s t ∧ t.getB (Reg.PR_PRB_CTL (cf c.words 1 0 5)) 63 = false ∧
      (∀ r, r ∈ t.pr.bufs ↔ r ∈ s.pr.bufs ∧ (r.probe ≠ cf c.words 1 0 5 ∨ r.whole = true)) ∧
      sameExcept [.regs, .pr, .rd, .mb] s t ∧ regsKept [Reg.GL_RIDER_STATUS, Reg.PR_PRB_CTL (cf c.words 1 0 5)] s t) ∧
  (∀ (s : State) (m : Mbx) (c : Running), commandReady 0x0803 s m c →
    ∃ t, exec .alarmAck s = .next t ∧ answeredWith m c 0 1 [] s t ∧
      t.al = { s.al with tokens := s.al.tokens ++ [{ typ := BitVec.ofNat 8 (cf c.words 1 8 8), source := BitVec.ofNat 8 (cf c.words 1 0 8)
                                                     all := cb c.words 1 16, seen := [] }] } ∧
      (∀ x, x ∈ t.rd.awaiting ↔ x ∈ s.rd.awaiting ∧ cb c.words 1 16 = false ∧
        x ≠ (BitVec.ofNat 8 (cf c.words 1 8 8), BitVec.ofNat 8 (cf c.words 1 0 8))) ∧
      sameExcept [.regs, .al, .rd, .mb] s t ∧ regsKept [Reg.GL_RIDER_STATUS] s t) ∧
  (∀ (s : State) (m : Mbx) (c : Running), commandReady 0x0901 s m c →
    ∃ t, exec .holdSet s = .next t ∧ answeredWith m c 0 1 [] s t ∧
      t.getF Reg.CK_HOLD_CFG 0 10 = (if cb c.words 1 12 then cf c.words 1 2 10 else s.getF Reg.CK_HOLD_CFG 0 10) ∧
      t.bd.cmdHold = (if cb c.words 1 1 then cb c.words 1 0 else s.bd.cmdHold) ∧
      (cb c.words 1 1 = true → t.getB Reg.CK_STATUS 5 = (s.bd.supplyHold || cb c.words 1 0)) ∧
      (cb c.words 1 1 = false → sameExcept [.regs, .rd, .mb] s t) ∧ sameExcept [.regs, .hg, .bd, .al, .rd, .mb] s t) ∧
  (∀ (s : State) (m : Mbx) (c : Running), commandReady 0x0A01 s m c →
    (cf c.words 1 0 5 = m.val ∨ (s.mbAt (cf c.words 1 0 5)).cur = none) → (s.mbAt (cf c.words 1 0 5)).queue = [] →
    (s.mbAt (cf c.words 1 0 5)).rsp = [] →
    (∃ j, j < 32 ∧ if j = cf c.words 1 0 5 then cb c.words 1 23 = true ∧ cb c.words 1 25 = true
      else s.getB (Reg.MB_BIND j) 15 = true ∧ s.getB (Reg.MB_BIND j) 17 = true) →
    ∃ t, exec .mailboxBind s = .next t ∧ answeredWith m c 0 1 [] s t ∧
      t.getF (Reg.MB_BIND (cf c.words 1 0 5)) 0 8 = cf c.words 1 8 8 ∧ t.getF (Reg.MB_BIND (cf c.words 1 0 5)) 8 6 = cf c.words 1 16 6 ∧
      t.getF (Reg.MB_BIND (cf c.words 1 0 5)) 14 4 = cf c.words 1 22 4 ∧ sameExcept [.regs, .rd, .mb] s t ∧
      regsKept [Reg.GL_RIDER_STATUS, Reg.MB_BIND (cf c.words 1 0 5)] s t) ∧
  (∀ (s : State) (m : Mbx) (c : Running) (h : Hg), commandReady 0x0701 s m c → cf c.words 1 0 8 = h.val → cb c.words 1 11 = true →
    ∃ t, exec .leveeSet s = .next t ∧ answeredWith m c 0 1 [] s t ∧ t.getB (Reg.HG_LEVEE h) 1 = cb c.words 1 10 ∧
      sameExcept [.regs, .rd, .mb] s t ∧ regsKept [Reg.GL_RIDER_STATUS, Reg.HG_LEVEE h] s t) ∧
  (∀ (s : State) (m : Mbx) (c : Running) (h : Hg), commandReady 0x0701 s m c → cf c.words 1 0 8 = h.val → cb c.words 1 11 = false →
    cb c.words 1 8 = true → (∃ n : Hg, n ≠ h ∧ deadDest s n h = false) →
    ∃ t, exec .leveeSet s = .next t ∧ answeredWith m c 0 1 [] s t ∧ (∀ n : Hg, n ≠ h → deadDest t n h = true) ∧
      (∀ n : Hg, ∀ d : Hg, d ≠ h → deadDest t n d = deadDest s n d))

/-- R378, R393, R394, R396, R398 to R404, R407, R408, R413, R414: a command of several steps begins with its first, and stands at
the boundary after it with the steps that remain. Each step that remains is carried out by RIDER_COMMAND_RESUME. LEVEE_CLEAR,
ROUTE_RESTORE of what serves and a remote levee still set have nothing to do in their first step. -/
def Obligations.StepCommandsBeginWithTheirFirstStep : Prop :=
  (∀ (s : State) (m : Mbx) (c : Running), commandReady 0x0201 s m c → (planOpen s m c.words c.prog.ran).code = 0 →
    ∃ t x, exec .channelOpen s = .next t ∧ standsAfter m c 1 ((planOpen s m c.words c.prog.ran).prog.acts.tail) s t ∧
      t.rd.chans = s.rd.chans.filter (fun y => decide (y.chan ≠ cf c.words 1 0 12)) ++ [x] ∧ x.chan = cf c.words 1 0 12 ∧
      x.src = cf c.words 1 12 8 ∧ x.flits = cf c.words 1 20 4 ∧ x.modulus = kNow s / cf c.words 1 32 18 ∧ x.dests = destBytes c.words ∧
      x.deadline = cf c.words 2 0 14 ∧ x.stage = cf c.words 1 24 4 ∧ x.dbuf = cf c.words 1 28 4 ∧ sameExcept [.rd, .mb, .freeCtr] s t) ∧
  (∀ (s : State) (m : Mbx) (c : Running) (x : Chan), commandReady 0x0202 s m c →
    s.rd.chans.find? (fun y => decide (y.chan = cf c.words 1 0 12)) = some x → (∀ e ∈ x.entries, e.hg < 160 ∧ e.e < 256) →
    ∃ t, exec .channelClose s = .next t ∧
      standsAfter m c 1 ([wrAll (Reg.HG_PL_CHAN x.src (recNo s x.src x.chan)) 0, RAct.discard x.src x.chan true, RAct.stepDone, RAct.nextTurn, RAct.nextTurn] ++
        x.others.map (fun h => wrAll (Reg.HG_PL_CHAN h (recNo s h x.chan)) 0) ++
        [RAct.stepDone, wrField (Reg.HG_PL_STAGE x.src) 0 10 (s.getF (Reg.HG_PL_STAGE x.src) 0 10 - x.blocks), RAct.forget x.chan, RAct.stepDone]) s t ∧
      (∀ e ∈ x.entries, entKind e.v ≤ 2 → t.getB (Reg.HG_PL_ENTRY e.hg e.e) 63 = false) ∧
      (∀ i w, srcRec s x.src x.chan = some (i, w) → ((t.hgAt x.src).chanAt i).demoted = true) ∧ hgsKept [x.src] s t ∧
      regsKept (x.entries.map (fun e => Reg.HG_PL_ENTRY e.hg e.e)) s t ∧ sameExcept [.regs, .hg, .rd, .mb] s t) ∧
  (∀ (s : State) (m : Mbx) (c : Running) (n d : Hg), commandReady 0x0301 s m c → cf c.words 1 0 8 = n.val → cf c.words 1 8 8 = d.val →
    (∀ x ∈ s.rd.owed, ¬(x.1 = n.val ∧ x.2.1 = d.val)) → 0 < cf c.words 1 16 10 → grantOf s n d ≤ cf c.words 1 16 10 →
    grantsAt s d - grantOf s n d + cf c.words 1 16 10 ≤ storeSize s d →
    ∃ t, exec .allotSet s = .next t ∧ grantOf t n d = cf c.words 1 16 10 ∧
      standsAfter m c 1 ([allotAct n d (cf c.words 1 16 10) true, RAct.stepDone] ++ stampDrain n ++ [RAct.stepDone]) s t) ∧
  (∀ (s : State) (m : Mbx) (c : Running) (n d : Hg), commandReady 0x0301 s m c → cf c.words 1 0 8 = n.val → cf c.words 1 8 8 = d.val →
    (∀ x ∈ s.rd.owed, ¬(x.1 = n.val ∧ x.2.1 = d.val)) → (cf c.words 1 16 10 < grantOf s n d ∨ cf c.words 1 16 10 = 0) →
    ∃ t, exec .allotSet s = .next t ∧ t.getF (Reg.HG_ALLOT n d) 0 10 = cf c.words 1 16 10 ∧
      t.getB (Reg.HG_ALLOT n d) 36 = decide (0 < cf c.words 1 16 10) ∧ grantOf t n d = grantOf s n d ∧
      standsAfter m c 1 ([RAct.wait (.inUseAtMost d n (cf c.words 1 16 10)), RAct.stepDone, grantAct n d (cf c.words 1 16 10), RAct.stepDone] ++
        stampDrain n ++ [RAct.stepDone]) s t ∧ sameExcept [.regs, .hg, .rd, .mb] s t ∧ regsKept [Reg.HG_ALLOT n d] s t) ∧
  (∀ (s : State) (m : Mbx) (c : Running) (h d : Hg), commandReady 0x0401 s m c → cf c.words 1 0 8 = h.val → cf c.words 1 8 8 = d.val → d.val ≠ 116 →
    (cb c.words 1 17 = false ∨ d.val < 100 ∨ 116 < d.val) →
    (cb c.words 1 16 = true → windowOk s h d [d.val] (cb c.words 1 17) (cf c.words 2 0 48) (cf c.words 3 0 48) = true ∧
      overlaps s h [d.val] (cb c.words 1 17) (cf c.words 2 0 48) (cf c.words 3 0 48) = false) →
    ∃ t, exec .decodeSet s = .next t ∧
      decSlot t h d = (if cb c.words 1 16 then some { slot := d, base := cf c.words 2 0 48, size := cf c.words 3 0 48, ilv := cb c.words 1 17 } else none) ∧
      (epochCount (s.hgAt h) (curEpoch s h + 1) = 0 → standsAfter m c 1 [RAct.wait (.drained [h.val] true), RAct.stepDone] s t ∧
        curEpoch t h = curEpoch s h + 1) ∧
      (epochCount (s.hgAt h) (curEpoch s h + 1) ≠ 0 → curEpoch t h = curEpoch s h ∧ t.rd.active = some m.val) ∧
      sameExcept [.regs, .hg, .rd, .mb] s t) ∧
  (∀ (s : State) (m : Mbx) (c : Running) (d : Hg), commandReady 0x0402 s m c → cf c.words 1 0 8 = d.val → (planRegion s m c.words c.prog.ran).code = 0 →
    cb c.words 1 14 = false → s.getB (Reg.HG_PROT_CTRL d) 1 = false →
    ∃ t, exec .regionSet s = .next t ∧ (∃ rest, standsAfter m c 1 rest s t) ∧
      t.getB (Reg.HG_PROT_CTRL d) 0 = (s.getB (Reg.HG_PROT_CTRL d) 0 || (cb c.words 1 12 && cb c.words 1 11)) ∧
      (cb c.words 1 12 = true → cb c.words 1 11 = true → s.getB (Reg.HG_PROT_CTRL d) 0 = false →
        t.getB (Reg.PR_SECRET_MAP (d.val / 64)) (d.val % 64) = true) ∧
      sameExcept [.regs, .hg, .rd, .mb] s t ∧ regsKept [Reg.HG_PROT_CTRL d, Reg.PR_SECRET_MAP (d.val / 64)] s t) ∧
  (∀ (s : State) (m : Mbx) (c : Running), commandReady 0x0501 s m c → derailCode s (elemOf c.words) = 0 → s.rd.chans = [] →
    ∃ t, exec .routeDetour s = .next t ∧
      standsAfter m c 1 ([RAct.expand (.moveOff (elemOf c.words)), RAct.stepDone, RAct.expand (.routes true true), RAct.stepDone] ++
        takeOutActs (elemOf c.words) ++ [RAct.stepDone]) s t ∧
      t.rd = { s.rd with disturbed := false, inHand := s.rd.inHand.filter (fun k => decide (k ≠ elemOf c.words)) ++ [elemOf c.words] } ∧
      sameExcept [.rd, .mb, .freeCtr] s t) ∧
  (∀ (s : State) (m : Mbx) (c : Running) (i : Nat), commandReady 0x0503 s m c → nodeIdx (cf c.words 1 0 8) = some i → derailCode s i = 0 →
    s.rd.chans = [] →
    ∃ t, exec .routerSet s = .next t ∧
      standsAfter m c 1 ([RAct.expand (.moveOff i), RAct.stepDone, RAct.expand (.routes true true), RAct.stepDone] ++
        (if cb c.words 1 15 then [wrField (Reg.RT_ARB_CFG i) 0 7 (cf c.words 1 8 7)] else []) ++
        (if cb c.words 2 32 then [wrField (Reg.RT_LINK_CFG i) 0 32 (cf c.words 2 0 32)] else []) ++ [RAct.stepDone] ++ railActs i ++ [RAct.stepDone]) s t ∧
      t.rd = { s.rd with disturbed := false, inHand := s.rd.inHand.filter (fun k => decide (k ≠ i)) ++ [i] } ∧
      sameExcept [.rd, .mb, .freeCtr] s t) ∧
  (∀ (s : State) (m : Mbx) (c : Running), commandReady 0x0502 s m c → (elemOf c.words < 1000 → routerServes s (elemOf c.words) = true) →
    ∃ t, exec .routeRestore s = .next t ∧
      standsAfter m c 1 ((portsToRestore s (elemOf c.words)).map (fun x => RAct.expand (.tryLink (1000 + 8 * x.1 + x.2))) ++ [RAct.stepDone] ++
        railActs (elemOf c.words) ++ [RAct.stepDone]) s t ∧ t.rd = { s.rd with disturbed := false } ∧ sameExcept [.rd, .mb] s t) ∧
  (∀ (s : State) (m : Mbx) (c : Running) (h : Hg), commandReady 0x0504 s m c → cf c.words 1 0 8 = h.val →
    linkInUse s h ≠ b2n (cb c.words 1 8) → healthyLink s h (b2n (cb c.words 1 8)) = true →
    ∃ t, exec .attachMove s = .next t ∧ linkInUse t h = b2n (cb c.words 1 8) ∧
      standsAfter m c 1 [RAct.expand (.attach h true), RAct.stepDone, RAct.expand (.placeAt h), RAct.stepDone] s t ∧
      sameExcept [.regs, .hg, .rd, .mb] s t) ∧
  (∀ (s : State) (m : Mbx) (c : Running), commandReady 0x0601 s m c → domState s (cf c.words 1 0 5) = 0 → domainHgs s (cf c.words 1 0 5) ≠ [] →
    ∃ t, exec .domainSleep s = .next t ∧ domState t (cf c.words 1 0 5) = 1 ∧
      (∀ n : Hg, t.getB (Reg.HG_DOM_CLOSE n) (cf c.words 1 0 5) = true ∧
        ∀ d, d ≠ cf c.words 1 0 5 → t.getB (Reg.HG_DOM_CLOSE n) d = s.getB (Reg.HG_DOM_CLOSE n) d) ∧
      standsAfter m c 1 (RAct.domState (cf c.words 1 0 5) 2 :: stampAll ++ [RAct.wait (.idle (cf c.words 1 0 5)), RAct.stepDone,
        RAct.domState (cf c.words 1 0 5) 3, RAct.quiesce (cf c.words 1 0 5), RAct.wait (.acked (cf c.words 1 0 5)), RAct.stepDone,
        RAct.domState (cf c.words 1 0 5) 4, RAct.stepDone]) s t ∧ sameExcept [.regs, .rd, .mb] s t) ∧
  (∀ (s : State) (m : Mbx) (c : Running), commandReady 0x0602 s m c → (domState s (cf c.words 1 0 5) = 4 ∨ domState s (cf c.words 1 0 5) = 5) →
    ∃ t, exec .domainWake s = .next t ∧ domState t (cf c.words 1 0 5) = 5 ∧
      (∀ n : Hg, n.val ∈ domainHgs s (cf c.words 1 0 5) → haiAwake s n = false → (t.hgAt n).wake = true) ∧
      standsAfter m c 1 ([RAct.wait (.awake (cf c.words 1 0 5) (s.fclk + 16000 * s.getF (Reg.CK_DOM (cf c.words 1 0 5)) 18 10)),
        RAct.expand (.notLive (cf c.words 1 0 5)), RAct.stepDone] ++ closeBits (cf c.words 1 0 5) false ++
        [RAct.domState (cf c.words 1 0 5) 0, RAct.stepDone]) s t ∧ sameExcept [.regs, .hg, .rd, .mb] s t) ∧
  (∀ (s : State) (m : Mbx) (c : Running) (h : Hg), commandReady 0x0701 s m c → cf c.words 1 0 8 = h.val → cb c.words 1 11 = false →
    cb c.words 1 8 = false → s.getB (Reg.HG_LEVEE h) 0 = false →
    ∃ t, exec .leveeSet s = .next t ∧ (∀ a, agentOf h = some a → ∀ k, k < 17 → t.getB (Reg.HS_DEAD_MASK k) a.toNat = true) ∧
      (agentOf h = none → sameExcept [.rd, .mb] s t) ∧
      standsAfter m c 1 ([wrBit (Reg.HG_LEVEE h) 0 true] ++ (if cb c.words 1 9 then [wrBit (Reg.HG_LEVEE h) 2 true] else []) ++
        [RAct.stepDone, RAct.wait (.siphoned h), RAct.stepDone]) s t) ∧
  (∀ (s : State) (m : Mbx) (c : Running) (h : Hg), commandReady 0x0702 s m c → cf c.words 1 0 8 = h.val → cb c.words 1 8 = false →
    agentOf h = none → s.getB (Reg.HG_LEVEE h) 0 = true → s.getB (Reg.HG_LEVEE h) 3 = false → cycledSince s h = true →
    ∃ t, exec .leveeClear s = .next t ∧ sameExcept [.rd, .mb] s t ∧
      standsAfter m c 1 [wrBit (Reg.HG_LEVEE h) 0 false, wrBit (Reg.HG_LEVEE h) 2 false, RAct.stepDone] s t) ∧
  (∀ (s : State) (m : Mbx) (c : Running) (h : Hg), commandReady 0x0702 s m c → cf c.words 1 0 8 = h.val → cb c.words 1 8 = true →
    (∃ n : Hg, n ≠ h ∧ deadDest s n h = true) →
    ∃ t, exec .leveeClear s = .next t ∧ (∀ n : Hg, n ≠ h → deadDest t n h = true) ∧
      standsAfter m c 1 ((othersOf h).flatMap (pairResetActs h) ++ [RAct.stepDone] ++ (othersOf h).map (remoteAct h false) ++ [RAct.stepDone]) s t) ∧
  (∀ (s : State) (m : Mbx) (c : Running), commandReady 0x0A02 s m c →
    ∃ t, exec .imageLoad s = .next t ∧
      t.rd = { s.rd with disturbed := false
                         loadArea := (List.range (cw c.words 2).toNat).map (fun i => Memory.read s.rv.mem ((cw c.words 1).toNat + i)) } ∧
      stage t = (if stage s = 6 then 7 else stage s) ∧
      standsAfter m c 1 [RAct.checkImage (cb c.words 3 0), RAct.stepDone, RAct.restart] s t ∧
      sameExcept [.regs, .rd, .mb] s t ∧ regsKept [Reg.GL_BOOT] s t) ∧
  (∀ (s : State) (m : Mbx) (c : Running), commandReady 0x0A03 s m c → lifeState s = 0 → cw c.words 1 = 0x4C414553 →
    s.getB Reg.GL_RIDER_STATUS 2 = false →
    ∃ t, exec .lifecycleSeal s = .next t ∧ t.bd = { s.bd with lcProgReq := true, lcProgVal := 1 } ∧ t.getB Reg.GL_LIFECYCLE 4 = true ∧
      standsAfter m c 1 [RAct.wait .fuseDone, RAct.stepDone, RAct.stepDone] s t ∧ sameExcept [.regs, .bd, .rd, .mb] s t ∧
      regsKept [Reg.GL_LIFECYCLE] s t) ∧
  (∀ (s : State) (m : Mbx) (c : Running), commandReady 0x0A04 s m c → lifeState s ≠ 2 → cw c.words 1 = 0x455249544552 →
    ∃ t, exec .lifecycleRetire s = .next t ∧ (∀ n : Hg, t.getB (Reg.HG_ADMIT n) 0 = false) ∧
      standsAfter m c 1 (stampAll ++ [RAct.wait .allDone, RAct.stepDone, RAct.zeroStores, RAct.stepDone, RAct.lcProg 2, RAct.wait .fuseDone, RAct.stepDone,
        RAct.openPath (s.getF (Reg.MB_BIND m) 0 8), RAct.stepDone]) s t ∧
      sameExcept [.regs, .rd, .mb] s t ∧ regsKept ((List.range 160).map Reg.HG_ADMIT) s t)

/-- R371, R373, R387, R388, Table 14-9: the command at the head of a mailbox starts where the Rider serves the mailbox, no command
of it runs and fewer than 64 of its responses wait: one of class S only in its turn, with none running and no recovery from a
fault; one of class Q at a boundary. What the ROM alone does not accept is answered 03, an unknown code 01, a reserved bit or
a field out of range 02, one the mailbox or lifecycle does not permit 03; any other shows as running. -/
def Obligations.CommandsStartInTurnAndAreScreened : Prop :=
  (∀ (s : State) (m : Mbx), ((s.mbAt m).queue = [] ∨ serves s m = false ∨ (s.mbAt m).cur ≠ none ∨ 64 ≤ (s.mbAt m).rsp.length) →
    exec (.commandStart m) s = .next s) ∧
  (∀ (s : State) (m : Mbx) (w : List Word) (rest : List (List Word)), (s.mbAt m).queue = w :: rest → classS w = true →
    (s.rd.active ≠ none ∨ recovers s = true ∨ nextChange s ≠ some m.val) → exec (.commandStart m) s = .next s) ∧
  (∀ (s : State) (m : Mbx) (w : List Word) (rest : List (List Word)) (a : Mbx) (c : Running), (s.mbAt m).queue = w :: rest → classS w = false →
    s.rd.active = some a.val → (s.mbAt a).cur = some c → c.planned = true → c.prog.atStep = false → exec (.commandStart m) s = .next s) ∧
  (∀ (s : State) (m : Mbx) (w : List Word) (rest : List (List Word)), (s.mbAt m).queue = w :: rest → serves s m = true → (s.mbAt m).cur = none →
    (s.mbAt m).rsp.length < 64 → classS w = true → s.rd.active = none → recovers s = false →
    (∀ k, k < 32 → k ≠ m.val → (s.mbAt k).queue = []) →
    ∃ t, exec (.commandStart m) s = .next t ∧ (t.mbAt m).queue = rest ∧ t.rd.served = m.val ∧ mbsKept [m.val] s t ∧
      (screen s m w = 0 → t.rd.active = some m.val ∧ (t.mbAt m).cur = some { words := w, planned := false, rerun := false, prog := Prog.start [] } ∧
        (t.mbAt m).rsp = (s.mbAt m).rsp ∧ sameExcept [.rd, .mb] s t) ∧
      (screen s m w ≠ 0 → t.rd.active = none ∧ (t.mbAt m).cur = none ∧
        (t.mbAt m).rsp = (s.mbAt m).rsp ++ [rspOf (rspWord (cw w 0) (screen s m w) 0 false) []] ∧ sameExcept [.regs, .rd, .mb] s t ∧
        regsKept [Reg.GL_RIDER_STATUS] s t)) ∧
  (∀ (s : State) (m : Mbx) (w : List Word) (rest : List (List Word)), (s.mbAt m).queue = w :: rest → serves s m = true → (s.mbAt m).cur = none →
    (s.mbAt m).rsp.length < 64 → classS w = false → s.rd.active = none →
    ∃ t, exec (.commandStart m) s = .next t ∧ (t.mbAt m).queue = rest ∧ t.rd = s.rd ∧ mbsKept [m.val] s t ∧
      (screen s m w = 0 → (t.mbAt m).cur = some { words := w, planned := false, rerun := false, prog := Prog.start [] } ∧
        (t.mbAt m).rsp = (s.mbAt m).rsp ∧ sameExcept [.mb] s t) ∧
      (screen s m w ≠ 0 → (t.mbAt m).cur = none ∧
        (t.mbAt m).rsp = (s.mbAt m).rsp ++ [rspOf (rspWord (cw w 0) (screen s m w) 0 false) []] ∧ sameExcept [.regs, .mb] s t)) ∧
  (∀ (s : State) (m : Nat) (w : List Word), stage s ≠ 9 → codeOf w ≠ 0x0A02 → screen s m w = 3) ∧
  (∀ (s : State) (m : Nat) (w : List Word), stage s = 9 → (∀ k ∈ [0x0101, 0x0102, 0x0201, 0x0202, 0x0203, 0x0301, 0x0302, 0x0401, 0x0402, 0x0501, 0x0502, 0x0503,
    0x0504, 0x0601, 0x0602, 0x0603, 0x0701, 0x0702, 0x0801, 0x0802, 0x0803, 0x0804, 0x0901, 0x0A01, 0x0A02, 0x0A03, 0x0A04], codeOf w ≠ k) → screen s m w = 1) ∧
  (∀ (s : State) (m : Nat) (w : List Word), stage s = 9 → field (cw w 0) 32 32 ≠ 0 → (usedBits w).isSome = true → screen s m w = 2) ∧
  (∀ (s : State) (m : Nat) (w : List Word), stage s = 9 → (∃ k, k ∈ [0x0302, 0x0402, 0x0504, 0x0701, 0x0702] ∧ codeOf w = k) → 160 ≤ cf w 1 0 8 → screen s m w = 2) ∧
  (∀ (s : State) (m : Nat) (w : List Word), stage s = 9 → screen s m w = 0 →
    (s.getB (Reg.MB_BIND m) 16 = true → codeOf w = 0x0101 ∨ codeOf w = 0x0804) ∧
    (0x0A01 ≤ codeOf w → s.getB (Reg.MB_BIND m) 17 = true) ∧
    (s.getF Reg.GL_LIFECYCLE 0 2 = 2 → codeOf w = 0x0101 ∨ codeOf w = 0x0804 ∨ codeOf w = 0x0803))

/-- R391, R410, Tables 15-3 and 15-14: a query is answered at once with DONE and its results, and changes nothing else; FABRIC,
ALLOT, HEADGATE, DECODE and SLICE read the registers as they stand. LOG_READ gives the record of an index with the number held
in word 0, zeros where there is none. -/
def Obligations.QueriesAreAnsweredFromTheState : Prop :=
  (∀ (s : State) (m : Mbx), ((s.mbAt m).cur = none ∨ riderWorks s = false) →
    exec (.queryState m) s = .next s ∧ exec (.logRead m) s = .next s) ∧
  (∀ (s : State) (m : Mbx) (c : Running), (s.mbAt m).cur = some c → codeOf c.words = 0x0101 → riderWorks s = true →
    ∃ t, exec (.queryState m) s = .next t ∧ (t.mbAt m).cur = none ∧
      (∃ ws, (t.mbAt m).rsp = (s.mbAt m).rsp ++ [rspOf (rspWord (cw c.words 0) 0 0 c.rerun) ws] ∧
        (cf c.words 1 0 8 = 0 → ws.take 3 = queryFabric s) ∧
        (cf c.words 1 0 8 = 2 → ws.take 2 = [regRead s (Reg.HG_ALLOT (cf c.words 1 8 8) (cf c.words 1 16 8)),
          regRead s (Reg.HG_GRANT (cf c.words 1 16 8) (cf c.words 1 8 8))]) ∧
        (cf c.words 1 0 8 = 5 → ws.take 5 = [regRead s (Reg.HG_ATTACH (cf c.words 1 8 8)), regRead s (Reg.HG_LEVEE (cf c.words 1 8 8)),
          regRead s (Reg.HG_EPOCH (cf c.words 1 8 8)), regRead s (Reg.HG_REPLAY_STATUS (cf c.words 1 8 8)),
          regRead s (Reg.HG_DOM_STATUS (cf c.words 1 8 8))]) ∧
        (cf c.words 1 0 8 = 7 → ws.take 2 = [regRead s (Reg.HG_DEC_SLOT_w0 (cf c.words 1 8 8) (cf c.words 1 16 8)),
          regRead s (Reg.HG_DEC_SLOT_w1 (cf c.words 1 8 8) (cf c.words 1 16 8))]) ∧
        (cf c.words 1 0 8 = 9 → ws.take 4 = [regRead s (Reg.HS_STATUS (cf c.words 1 8 5)), regRead s (Reg.HS_CENSUS (cf c.words 1 8 5)),
          regRead s (Reg.HS_CFG (cf c.words 1 8 5)), regRead s (Reg.HS_DEAD_MASK (cf c.words 1 8 5))])) ∧
      t.rd = s.rd ∧ mbsKept [m.val] s t ∧ sameExcept [.regs, .mb] s t ∧ regsKept [Reg.GL_RIDER_STATUS] s t) ∧
  (∀ (s : State) (m : Mbx) (c : Running), (s.mbAt m).cur = some c → codeOf c.words = 0x0804 → riderWorks s = true →
    ∃ t, exec (.logRead m) s = .next t ∧ (t.mbAt m).cur = none ∧
      (∃ w0, (t.mbAt m).rsp = (s.mbAt m).rsp ++ [rspOf w0 (match logAt s.rd (cf c.words 1 0 8) with | some x => logWords x | none => [])] ∧
        field w0 0 32 = field (cw c.words 0) 0 32 ∧ field w0 32 16 = 0 ∧ field w0 56 8 = (s.rd.pinned.length + s.rd.circle.length) % 256) ∧
      t.rd = s.rd ∧ mbsKept [m.val] s t ∧ sameExcept [.regs, .mb] s t ∧ regsKept [Reg.GL_RIDER_STATUS] s t)

/-- Table 15-2 and R392 to R414: a command whose preconditions do not hold is answered at once with its code and STEP 0, and
nothing else changes: no turn time 20, a rate that does not divide K 21, no capacity for a channel 22, a channel closed
already or open 24, no right 25, entries short 28, windows that overlap 30 or do not fit 31, a locked slot 32, a link that
cannot take over 38, a headgate without route 39, a domain in another state 40, a levee as asked 48, a probe armed or not 50,
a mailbox busy 58, a lifecycle step not open 60. -/
def Obligations.RefusedCommandsChangeNothing : Prop :=
  ∀ (s : State) (m : Mbx) (c : Running) (code : Nat) (i : Instr) (e : Nat),
    commandReady code s m c → c.prog.ran = false → c.prog.ownLock = false →
    ((i = .channelOpen ∧ code = 0x0201 ∧ s.bd.everValid = false ∧ e = 0x20) ∨
     (i = .channelOpen ∧ code = 0x0201 ∧ s.bd.everValid = true ∧ cf c.words 1 32 18 = 0 ∧ e = 0x21) ∨
     (i = .channelOpen ∧ code = 0x0201 ∧ s.bd.everValid = true ∧ 0 < cf c.words 1 32 18 ∧ 255 < kNow s / cf c.words 1 32 18 ∧ e = 0x21) ∨
     (i = .channelClose ∧ code = 0x0202 ∧ (∀ x ∈ s.rd.chans, x.chan ≠ cf c.words 1 0 12) ∧ e = 0x24) ∨
     (i = .pacelineSet ∧ code = 0x0203 ∧ cb c.words 1 18 = true ∧ s.bd.everValid = false ∧ e = 0x20) ∨
     (i = .pacelineSet ∧ code = 0x0203 ∧ cb c.words 1 18 = true ∧ s.bd.everValid = true ∧ s.rd.chans ≠ [] ∧ e = 0x24) ∨
     (i = .allotSet ∧ code = 0x0301 ∧ 0 < cf c.words 1 16 10 ∧ grantOf s (cf c.words 1 0 8) (cf c.words 1 8 8) ≤ cf c.words 1 16 10 ∧
       storeSize s (cf c.words 1 8 8) < grantsAt s (cf c.words 1 8 8) - grantOf s (cf c.words 1 0 8) (cf c.words 1 8 8) + cf c.words 1 16 10 ∧ e = 0x28) ∨
     (i = .decodeSet ∧ code = 0x0401 ∧ cf c.words 1 8 8 = 116 ∧ e = 0x04) ∨
     (i = .decodeSet ∧ code = 0x0401 ∧ cf c.words 1 0 8 < 160 ∧ cf c.words 1 8 8 < 100 ∧ cb c.words 1 16 = true ∧ cf c.words 2 0 48 % 64 ≠ 0 ∧ e = 0x31) ∨
     (i = .regionSet ∧ code = 0x0402 ∧ s.getB (Reg.HG_PROT_CTRL (cf c.words 1 0 8)) 1 = true ∧ e = 0x32) ∨
     (i = .routeDetour ∧ code = 0x0501 ∧ derailCode s (elemOf c.words) ≠ 0 ∧ e = derailCode s (elemOf c.words)) ∨
     (i = .routerSet ∧ code = 0x0503 ∧ derailCode s ((nodeIdx (cf c.words 1 0 8)).getD 0) ≠ 0 ∧ e = derailCode s ((nodeIdx (cf c.words 1 0 8)).getD 0)) ∨
     (i = .attachMove ∧ code = 0x0504 ∧ linkInUse s (cf c.words 1 0 8) = b2n (cb c.words 1 8) ∧ e = 0x04) ∨
     (i = .attachMove ∧ code = 0x0504 ∧ linkInUse s (cf c.words 1 0 8) ≠ b2n (cb c.words 1 8) ∧
       healthyLink s (cf c.words 1 0 8) (b2n (cb c.words 1 8)) = false ∧ e = 0x38) ∨
     (i = .domainSleep ∧ code = 0x0601 ∧ (domState s (cf c.words 1 0 5) ≠ 0 ∨ domainHgs s (cf c.words 1 0 5) = []) ∧ e = 0x40) ∨
     (i = .domainWake ∧ code = 0x0602 ∧ domState s (cf c.words 1 0 5) ≠ 4 ∧ domState s (cf c.words 1 0 5) ≠ 5 ∧ e = 0x40) ∨
     (i = .domainSet ∧ code = 0x0603 ∧ domState s (cf c.words 1 0 5) ≠ 0 ∧ e = 0x40) ∨
     (i = .leveeSet ∧ code = 0x0701 ∧ cb c.words 1 11 = false ∧ cb c.words 1 8 = false ∧ cb c.words 1 9 = false ∧
       s.getB (Reg.HG_LEVEE (cf c.words 1 0 8)) 0 = true ∧ e = 0x48) ∨
     (i = .leveeClear ∧ code = 0x0702 ∧ cb c.words 1 8 = false ∧
       (s.getB (Reg.HG_LEVEE (cf c.words 1 0 8)) 0 = false ∨ s.getB (Reg.HG_LEVEE (cf c.words 1 0 8)) 3 = true ∨ cycledSince s (cf c.words 1 0 8) = false) ∧ e = 0x48) ∨
     (i = .probeArm ∧ code = 0x0801 ∧ s.getB (Reg.PR_PRB_CTL (cf c.words 1 0 5)) 63 = true ∧ e = 0x50) ∨
     (i = .probeDisarm ∧ code = 0x0802 ∧ s.getB (Reg.PR_PRB_CTL (cf c.words 1 0 5)) 63 = false ∧ e = 0x50) ∨
     (i = .mailboxBind ∧ code = 0x0A01 ∧ (s.mbAt (cf c.words 1 0 5)).queue ≠ [] ∧ e = 0x58) ∨
     (i = .lifecycleSeal ∧ code = 0x0A03 ∧ (lifeState s ≠ 0 ∨ cw c.words 1 ≠ 0x4C414553 ∨ s.getB Reg.GL_RIDER_STATUS 2 = true) ∧ e = 0x60) ∨
     (i = .lifecycleRetire ∧ code = 0x0A04 ∧ (lifeState s = 2 ∨ cw c.words 1 ≠ 0x455249544552) ∧ e = 0x60)) →
    ∃ t, exec i s = .next t ∧ answeredWith m c e 0 [] s t ∧ t.rd = servedRd m s.rd ∧ sameExcept [.regs, .rd, .mb] s t ∧
      regsKept [Reg.GL_RIDER_STATUS] s t

/-- R374, R351, R396, R404: RIDER_COMMAND_RESUME goes on with the Rider's work. A command at a boundary carries out the writes of
its next step and stands at the next boundary, or is answered with its last; a wait that is not met keeps it. Recoveries from
faults come first, and a recovery with nothing left ends; a hardware wake whose agents are not awake holds nothing up (by log
entry 77). A command whose preconditions no longer hold after a recovery ends with ABANDONED (05) and the steps completed, and
a sleep that a wake request reverses with reason 1. With nothing to do nothing changes; owed grants are lowered when nothing
runs. -/
def Obligations.RiderGoesOnStepByStep : Prop :=
  (∀ (s : State), riderWorks s = false → exec .riderCommandResume s = .next s) ∧
  (∀ (s : State), s.rd.active = none → hardwareWake s = none → s.rd.recoveries = [] → s.rd.owed = [] → exec .riderCommandResume s = .next s) ∧
  (∀ (s : State) (n d : Hg) (v : Nat), riderWorks s = true → s.rd.active = none →
    hardwareWake s = none → (∀ r ∈ s.rd.recoveries, r.isFault = false ∧ recoveryRuns s r = false) → s.rd.owed = [(n.val, d.val, v)] → v < 1024 →
    ∃ t, exec .riderCommandResume s = .next t ∧ t.rd.owed = [] ∧ grantOf t n d = v) ∧
  (∀ (s : State) (m : Mbx) (c : Running) (ws : List (Nat × Word × Word)) (rest : List RAct), riderWorks s = true → s.rd.active = some m.val →
    (s.mbAt m).cur = some c → c.planned = true → c.prog.atStep = true → codeOf c.words ≠ 0x0601 → s.rd.disturbed = false →
    hardwareWake s = none → (∀ r ∈ s.rd.recoveries, r.isFault = false ∧ recoveryRuns s r = false) →
    (∀ x ∈ ws, 0x80000 ≤ x.1 ∧ x.1 < 0x100000) → ws.length < 100000 → c.prog.acts = ws.map (fun x => .wr x.1 x.2.1 x.2.2) ++ .stepDone :: rest →
    ∃ t, exec .riderCommandResume s = .next t ∧
      (∀ o, o ≠ Reg.GL_RIDER_STATUS → t.reg o = (ws.foldl (fun u x => regWrite u x.1 x.2.1 x.2.2) s).reg o) ∧
      sameExcept [.regs, .rd, .mb] (ws.foldl (fun u x => regWrite u x.1 x.2.1 x.2.2) s) t ∧
      (rest ≠ [] → standsAfter m c (c.prog.step + 1) rest s t) ∧
      (rest = [] → answeredWith m c c.prog.compl.toNat (c.prog.step + 1) c.prog.results s t)) ∧
  (∀ (s : State) (m : Mbx) (c : Running) (w : Cond) (rest : List RAct), riderWorks s = true → s.rd.active = some m.val → (s.mbAt m).cur = some c →
    c.planned = true → c.prog.atStep = false → codeOf c.words ≠ 0x0601 →
    hardwareWake s = none → (∀ r ∈ s.rd.recoveries, r.isFault = false ∧ recoveryRuns s r = false) → c.prog.acts = .wait w :: rest →
    condHolds s w = false → w.timer = none → exec .riderCommandResume s = .next s) ∧
  (∀ (s : State) (m : Mbx) (c : Running), riderWorks s = true → s.rd.active = some m.val → (s.mbAt m).cur = some c →
    c.planned = true → c.prog.atStep = true → codeOf c.words = 0x0504 → s.rd.disturbed = true →
    hardwareWake s = none → (∀ r ∈ s.rd.recoveries, r.isFault = false ∧ recoveryRuns s r = false) →
    healthyLink s (cf c.words 1 0 8) (b2n (cb c.words 1 8)) = false →
    ∃ t, exec .riderCommandResume s = .next t ∧ answeredWith m c 0x05 c.prog.step c.prog.results s t ∧
      t.rd = servedRd m { s.rd with disturbed := false } ∧ sameExcept [.regs, .rd, .mb] s t) ∧
  (∀ (s : State) (m : Mbx) (c : Running), riderWorks s = true → s.rd.active = some m.val → (s.mbAt m).cur = some c → c.planned = true →
    codeOf c.words = 0x0601 → domState s (cf c.words 1 0 5) ≠ 0 → domState s (cf c.words 1 0 5) < 4 → s.getB (Reg.CK_DOM (cf c.words 1 0 5)) 5 = true →
    ∃ t rs, exec .riderCommandResume s = .next t ∧ answeredWith m c 0x05 c.prog.step rs s t ∧
      rs = setNth c.prog.results 0 (((c.prog.results[0]?).getD 0) ||| 1) ∧ domState t (cf c.words 1 0 5) = 0 ∧
      (∀ n : Hg, t.getB (Reg.HG_DOM_CLOSE n) (cf c.words 1 0 5) = false)) ∧
  (∀ (s : State) (r : Recovery) (rest : List Recovery), riderWorks s = true → s.rd.active = none → hardwareWake s = none → s.rd.recoveries = r :: rest → r.prog.acts = [] →
    ∃ t, exec .riderCommandResume s = .next t ∧ (∀ x, x ∈ t.rd.recoveries ↔ x ∈ s.rd.recoveries ∧ x.kind ≠ r.kind) ∧ sameExcept [.rd] s t) ∧
  (∀ (s : State) (m : Mbx) (c : Running) (r : Recovery) (w : Cond) (as : List RAct), riderWorks s = true → s.rd.active = some m.val → (s.mbAt m).cur = some c →
    c.planned = true → c.prog.atStep = true → codeOf c.words ≠ 0x0601 → hardwareWake s = none → r.isFault = true → s.rd.recoveries = [r] → r.prog.acts = .wait w :: as → condHolds s w = false → w.timer = none →
    exec .riderCommandResume s = .next s)

/-- R316, R430, R431, Table 12-2: the oldest record of the Rider's FIFO is logged and answered. A link-fault is collected, and the
first opens a window of SILENCE; a timeout of a target, a headgate without links or with a bad table, a slice that failed,
colliding identities and lost caches queue their recovery; a stall of a reachable pair whose target is not timed out is
counted and acknowledged; any other type waits for ALARM_ACK. At the end of the window a router all of whose ports were
declared is taken as failed, and every other link declared has its recovery. -/
def Obligations.AlarmsAreLoggedAndAnswered : Prop :=
  (∀ (s : State), (s.rd.fifo = [] ∨ firmwareWorks s = false) → exec .riderAlarmHandling s = .next s) ∧
  (∀ (s : State) (a : AlarmRec) (rest : List AlarmRec), s.rd.fifo = a :: rest → firmwareWorks s = true →
    ∃ t, exec .riderAlarmHandling s = .next t ∧ t.rd.fifo = rest ∧ t.rd.lseq = s.rd.lseq + 1 ∧ t.rd.incidentOpen = true ∧
      t.rd.lastRecordAt = s.fclk ∧ t.rd.incident = s.rd.incident + (if s.rd.incidentOpen then 0 else 1) ∧ sameExcept [.rd, .al] s t ∧
      (a.typ.toNat ∉ [0x10, 0x40, 0x13, 0x4D, 0x41, 0x53, 0x47, 0x48, 0x80, 0x81] →
        t.rd.recoveries = s.rd.recoveries ∧ t.rd.awaiting = s.rd.awaiting ∧ t.al = s.al) ∧
      (a.typ = 0x47 → ∃ r ∈ t.rd.recoveries, r.kind = .target [a.source.toNat] a.typ a.source) ∧
      (a.typ = 0x41 ∨ a.typ = 0x53 → ∃ r ∈ t.rd.recoveries, r.kind = .headgate a.source.toNat a.typ) ∧
      (a.typ = 0x81 → ∃ r ∈ t.rd.recoveries, r.kind = .slice a.source.toNat) ∧
      (a.typ = 0x80 → ∃ r ∈ t.rd.recoveries, r.kind = .target (namedCaches a) a.typ a.source) ∧
      (a.typ = 0x13 → ∃ r ∈ t.rd.recoveries, r.kind = .collision (8 * a.source.toNat + field a.detail 0 3) a.typ a.source) ∧
      (a.typ = 0x4D → ∃ r ∈ t.rd.recoveries, r.kind = .collision (1000 + a.source.toNat) a.typ a.source) ∧
      (a.typ = 0x48 → pairReachable s a.source.toNat (field a.detail 0 8) = true → s.getB (Reg.HG_TGT_TMO (field a.detail 0 8)) 12 = false →
        t.rd.stallsIgnored = s.rd.stallsIgnored + 1 ∧ t.rd.recoveries = s.rd.recoveries ∧
        t.al.tokens = s.al.tokens ++ [{ typ := a.typ, source := a.source, all := false, seen := [] }]) ∧
      (a.typ = 0x48 → pairReachable s a.source.toNat (field a.detail 0 8) = false →
        ∃ r ∈ t.rd.recoveries, r.kind = .pair a.source.toNat (field a.detail 0 8)) ∧
      (a.typ = 0x10 ∨ a.typ = 0x40 → linkKnown s (linkNamed a).1 (linkNamed a).2 = false →
        (linkCause a ≠ 5 ∨ linkAside s (linkNamed a).1 (linkNamed a).2 = false) →
        t.rd.linkAlarms = s.rd.linkAlarms ++ [a] ∧ t.rd.recoveries = s.rd.recoveries ∧ t.al = s.al ∧
        (s.rd.window = none → t.rd.window = some (s.fclk + silenceOf s (.rt (linkNamed a).1 (linkNamed a).2))) ∧
        (s.rd.window ≠ none → t.rd.window = s.rd.window))) ∧
  (∀ (s : State), (s.rd.window = none ∨ firmwareWorks s = false) → exec .alarmCollectionWindowEnd s = .next s) ∧
  (∀ (s : State) (w : Nat), s.rd.window = some w → firmwareWorks s = true →
    ∃ t, exec .alarmCollectionWindowEnd s = .next t ∧ t.fclk = max s.fclk w ∧ t.rd.window = none ∧ t.rd.linkAlarms = [] ∧
      (∀ r ∈ s.rd.recoveries, r ∈ t.rd.recoveries) ∧
      (∀ i, i ∈ (s.rd.linkAlarms.filterMap declaredPort).map (·.1) → judgedFailed s (s.rd.linkAlarms.filterMap declaredPort) i = true →
        i ∈ t.rd.failed ∧ ∃ r ∈ t.rd.recoveries, r.kind = .router i) ∧
      ((∀ i, judgedFailed s (s.rd.linkAlarms.filterMap declaredPort) i = false) → t.rd.failed = s.rd.failed.eraseDups ∧
        ∀ a ∈ s.rd.linkAlarms, (∃ r ∈ t.rd.recoveries, r.kind = linkRecovery a) ∧ ∀ k ∈ faultKeys a, k ∈ t.rd.faulty) ∧
      sameExcept [.fclk, .rd] s t)

/-- R333, R379 to R385, R479: a watchdog expiry, a lockstep mismatch and an uncorrectable SRAM error restart the Rider with causes
1, 2 and 3: UP falls, every mailbox has RIDER_EVT and GL_RIDER_RESTARTS counts; the last loses the log. The third restart
before within one second halts it for good. RIDER_RESTART starts a valid image: the header's values, the event, every running
command to be run again, the IMAGE_LOAD that started it answered. An image that fails its check halts a running fabric's
Rider, and before the first image the ROM waits. -/
def Obligations.RiderRestartsFromItsImage : Prop :=
  (∀ (s : State), s.rd.debugHalt = true → exec .riderWatchdogExpiry s = .next s ∧ exec .lockstepMismatch s = .next s) ∧
  (∀ (s : State), (riderHalted s = true ∨ underReset s = true) → exec .lockstepMismatch s = .next s ∧ exec .riderSramUncorrectable s = .next s) ∧
  (∀ (s : State) (i : Instr) (k : Nat), ((i = .lockstepMismatch ∧ k = 2 ∧ s.rd.debugHalt = false) ∨ (i = .riderSramUncorrectable ∧ k = 3)) →
    riderHalted s = false → underReset s = false → (recentRestarts s).length < 3 →
    ∃ t, exec i s = .next t ∧ t.getF Reg.GL_RIDER_STATUS 3 3 = k ∧ riderUp t = false ∧ riderHalted t = false ∧
      (t.reg Reg.GL_RIDER_RESTARTS).toNat = min 0xFFFFFFFF ((s.reg Reg.GL_RIDER_RESTARTS).toNat + 1) ∧
      t.rd.restarting = true ∧ t.rd.restartsAt = recentRestarts s ++ [s.fclk] ∧ t.rd.window = none ∧ t.rd.linkAlarms = [] ∧ t.rd.active = s.rd.active ∧
      (k = 3 → t.rd.pinned = [] ∧ t.rd.circle = []) ∧ (k = 2 → t.rd.pinned = s.rd.pinned ∧ t.rd.circle = s.rd.circle) ∧
      (∀ m : Mbx, t.mbAt m = { s.mbAt m with riderEvt := true }) ∧ sameExcept [.regs, .rd, .mb] s t ∧
      regsKept [Reg.GL_RIDER_STATUS, Reg.GL_RIDER_RESTARTS] s t) ∧
  (∀ (s : State), riderHalted s = false → underReset s = false → s.rd.debugHalt = false → 3 ≤ (recentRestarts s).length →
    ∃ t, exec .lockstepMismatch s = .next t ∧ riderHalted t = true ∧ riderUp t = false ∧ stage t = 10 ∧ t.getF Reg.GL_RIDER_STATUS 3 3 = 2 ∧
      t.rd.active = none ∧ t.rd.recoveries = [] ∧ t.rd.restarting = false ∧ (∀ m : Mbx, t.mbAt m = { s.mbAt m with riderEvt := true }) ∧
      sameExcept [.regs, .rd, .mb] s t ∧ regsKept [Reg.GL_RIDER_STATUS, Reg.GL_BOOT] s t) ∧
  (∀ (s : State), riderHalted s = false → underReset s = false → s.rd.debugHalt = false → s.rd.restartsAt = [] →
    ∃ t, exec .riderWatchdogExpiry s = .next t ∧ t.fclk = max s.fclk (s.rd.wdogAt + 1600 * max 100 (s.getF Reg.GL_RIDER_WDOG 0 16)) ∧
      t.rd.wdogAt = t.fclk ∧ t.getF Reg.GL_RIDER_STATUS 3 3 = 1 ∧ riderUp t = false ∧ t.rd.restarting = true ∧ sameExcept [.fclk, .regs, .rd, .mb] s t) ∧
  (∀ (s : State), (s.rd.restarting = false ∨ riderHalted s = true ∨ s.rd.debugHalt = true ∨ underReset s = true) → exec .riderRestart s = .next s) ∧
  (∀ (s : State), s.rd.restarting = true → riderHalted s = false → s.rd.debugHalt = false → underReset s = false →
    (if s.rd.loadPending then s.rd.loadArea else s.rd.image) ≠ [] →
    startOk s (if s.rd.loadPending then s.rd.loadArea else s.rd.image) (if s.rd.loadPending then s.rd.unsigned else s.getB Reg.GL_RIDER_STATUS 2) = true →
    ∃ t, exec .riderRestart s = .next t ∧ stage t = 9 ∧ t.rd.restarting = false ∧ t.rd.loadPending = false ∧ t.rd.wdogAt = s.fclk ∧
      t.rd.image = (if s.rd.loadPending then s.rd.loadArea else s.rd.image) ∧
      t.rd.release = BitVec.ofNat 16 (imgVersion t.rd.image) ∧ t.rd.svn = BitVec.ofNat 16 (imgVersion t.rd.image / 2 ^ 16) ∧
      t.getF Reg.GL_RIDER_STATUS 6 2 = imgKey t.rd.image % 4 ∧
      (∀ m : Mbx, (s.rd.loadPending = false ∨ s.rd.active ≠ some m.val) → (t.mbAt m).cur =
        (s.mbAt m).cur.map (fun c => { c with
          planned := false, rerun := true, prog := { Prog.start [] with ran := c.planned || c.prog.ran, ownLock := c.prog.ownLock } })) ∧
      (∀ (m : Mbx) (c : Running), s.rd.loadPending = true → s.rd.active = some m.val → (s.mbAt m).cur = some c → (t.mbAt m).cur = none ∧
        (t.mbAt m).rsp = (s.mbAt m).rsp ++ [rspOf (rspWord (cw c.words 0) c.prog.compl.toNat 3 c.rerun) c.prog.results])) ∧
  (∀ (s : State), s.rd.restarting = true → riderHalted s = false → s.rd.debugHalt = false → underReset s = false → stage s ≠ 9 →
    s.rd.loadPending = false → s.rd.image = [] →
    ∃ t, exec .riderRestart s = .next t ∧ stage t = 6 ∧ t.rd.restarting = false ∧ riderHalted t = false ∧ sameExcept [.regs, .rd, .mb] s t ∧
      regsKept [Reg.GL_BOOT] s t) ∧
  (∀ (s : State), s.rd.restarting = true → riderHalted s = false → s.rd.debugHalt = false → underReset s = false → stage s = 9 →
    s.rd.loadPending = false → digestOk s.rd.image = false →
    ∃ t, exec .riderRestart s = .next t ∧ stage t = 10 ∧ riderHalted t = true ∧ riderUp t = false ∧ t.getF Reg.GL_RIDER_STATUS 3 3 = 5 ∧
      t.rd.active = none ∧ t.rd.recoveries = [] ∧ sameExcept [.regs, .rd, .mb] s t ∧ regsKept [Reg.GL_RIDER_STATUS, Reg.GL_BOOT] s t)

/-- A step takes the command at the front of the queue and runs it with the queue's rest. With nothing waiting the block idles:
one FCLK cycle passes, or none under cold reset, where the dividers stand (the model's choice, log entry 1). -/
def Obligations.StepRunsTheFrontCommand : Prop :=
  (∀ (s : State) (c : Instr) (rest : List Instr), s.pending = c :: rest → step s = exec c { s with pending := rest }) ∧
  (∀ (s : State), s.pending = [] → ∃ t, step s = .next t ∧ t.fclk = s.fclk + (if s.bd.inColdReset then 0 else 1) ∧ sameExcept [.fclk] s t)

/-- At reset nothing waits, both sparse stores are in canonical form, and every register reads its reset value (the fuse fields by
log entry 3), no byte of the Reservoir is listed (log entry 20), and the block stands under cold reset. -/
def Obligations.ResetStateIsCanonical : Prop :=
  canonical State.reset ∧ State.reset.pending = [] ∧ (∀ o, State.reset.reg o = regReset o) ∧ State.reset.rv.mem = [] ∧
  State.reset.bd.inColdReset = true

/-- Every step keeps the canonical form: no register stands in the sparse store with its reset value and no byte with what an
unlisted byte reads as, both in rising order, so that equal registers and equal memories are equal data. -/
def Obligations.EveryStepKeepsTheCanonicalForm : Prop :=
  ∀ (s t : State), canonical s → step s = .next t → canonical t

/-- Every command leaves the pieces of the state it does not work on as they were, the queue among them, and every register below
the lowest block of the fabric control space it works on (R452). -/
def Obligations.EveryCommandKeepsWhatItDoesNotTouch : Prop :=
  ∀ (c : Instr) (s t : State), exec c s = .next t → sameExcept (touches c) s t ∧ belowKept (regFloor c) s t ∧ t.pending = s.pending

/-- Table 3-3: the 192 bits of a header hold its fields without loss, and every pattern of 192 bits is the header of its fields. -/
def Obligations.HeaderBitsAndFieldsAgree : Prop :=
  (∀ h : Header, Header.decode h.encode = h) ∧ (∀ w : HdrBits, (Header.decode w).encode = w)

/-- R15 and R16: the register block of headgate n is at FCS offset 0x200000 + n × 0x4000, and an offset in it is found there; its
primary attachment is on port L0 of router (n mod 10, n div 10) for n below 100, else on port L1 of router ((n - 100) mod 10,
2 + (n - 100) div 10), whose index is n - 80. -/
def Obligations.HeadgateBlocksAndPrimaryAttachments : Prop :=
  (∀ n : Hg, Reg.HG_ID n = 0x200000 + n.val * 0x4000 ∧ ∀ lo, lo < 0x4000 → fcsLocate (0x200000 + n.val * 0x4000 + lo) = (.headgate, n.val, lo)) ∧
  (∀ n : Hg, n.val < 100 → attachOf n 0 = (10 * (n.val / 10) + n.val % 10, 0)) ∧
  (∀ n : Hg, 100 ≤ n.val → attachOf n 0 = (10 * (2 + (n.val - 100) / 10) + (n.val - 100) % 10, 1) ∧ (attachOf n 0).1 = n.val - 80)
end

