-- ==== Sys2Proof/Laws/Tab.lean ====
section
/-! SUPPORT. Sparse tables: reads after writes, and that every operation keeps the keys rising and the canonical form. -/

namespace Sys2Proof.Machine

variable {α : Type}

/-- A key reads as what was written last. -/
@[simp] theorem Tab.get_set_same (t : Tab α) (d v : α) (k : Nat) : Tab.get (Tab.set t k v) d k = v := by
  induction t with
  | nil => simp [Tab.set, Tab.get]
  | cons e rest ih =>
    obtain ⟨k', v'⟩ := e
    unfold Tab.set
    split
    · simp [Tab.get]
    · split
      · simp [Tab.get]
      · rename_i h1 h2
        simp [Tab.get, ih, Ne.symm h2]

/-- A write leaves every other key as it was. -/
theorem Tab.get_set_other (t : Tab α) (d v : α) (k j : Nat) (hne : j ≠ k) :
    Tab.get (Tab.set t k v) d j = Tab.get t d j := by
  induction t with
  | nil => simp [Tab.set, Tab.get, Ne.symm hne]
  | cons e rest ih =>
    obtain ⟨k', v'⟩ := e
    unfold Tab.set
    split
    · simp [Tab.get, Ne.symm hne]
    · split
      · rename_i h1 h2
        subst h2
        simp [Tab.get, Ne.symm hne]
      · simp only [Tab.get, ih]

/-- An erased key reads as unlisted. -/
@[simp] theorem Tab.get_erase_same (t : Tab α) (d : α) (k : Nat) : Tab.get (Tab.erase t k) d k = d := by
  induction t with
  | nil => rfl
  | cons e rest ih =>
    obtain ⟨k', v'⟩ := e
    unfold Tab.erase at ih ⊢
    by_cases h : k' = k
    · simp [h, ih]
    · simp [h, Tab.get, ih]

/-- An erasure leaves every other key as it was. -/
theorem Tab.get_erase_other (t : Tab α) (d : α) (k j : Nat) (hne : j ≠ k) :
    Tab.get (Tab.erase t k) d j = Tab.get t d j := by
  induction t with
  | nil => rfl
  | cons e rest ih =>
    obtain ⟨k', v'⟩ := e
    unfold Tab.erase at ih ⊢
    by_cases h : k' = k
    · subst h; simp [Tab.get, ih, Ne.symm hne]
    · simp [h, Tab.get, ih]

/-- A canonical write reads back. -/
theorem Tab.get_put_same [DecidableEq α] (d : Nat → α) (t : Tab α) (k : Nat) (v : α) :
    Tab.get (Tab.put d t k v) (d k) k = v := by
  unfold Tab.put
  split
  · rename_i h; simp [h]
  · simp

/-- A canonical write leaves every other key as it was. -/
theorem Tab.get_put_other [DecidableEq α] (d : Nat → α) (t : Tab α) (k : Nat) (v e : α) (j : Nat) (hne : j ≠ k) :
    Tab.get (Tab.put d t k v) e j = Tab.get t e j := by
  unfold Tab.put
  split
  · exact Tab.get_erase_other _ _ _ _ hne
  · exact Tab.get_set_other _ _ _ _ _ hne

/-- Keys rise exactly where they rise pairwise. -/
theorem Tab.sorted_iff (t : Tab α) : Tab.sorted t = true ↔ t.Pairwise (fun a b => a.1 < b.1) := by
  induction t with
  | nil => simp [Tab.sorted]
  | cons a rest ih =>
    cases rest with
    | nil => simp [Tab.sorted]
    | cons b rest =>
      simp only [Tab.sorted, Bool.and_eq_true, decide_eq_true_eq, ih]
      rw [List.pairwise_cons (a := a)]
      constructor
      · rintro ⟨hab, hp⟩
        refine ⟨fun x hx => ?_, hp⟩
        rcases List.mem_cons.mp hx with rfl | hx
        · exact hab
        · exact Nat.lt_trans hab ((List.pairwise_cons.mp hp).1 x hx)
      · rintro ⟨hall, hp⟩
        exact ⟨hall b (by simp), hp⟩

/-- An erasure keeps the keys rising. -/
theorem Tab.sorted_erase (t : Tab α) (k : Nat) (h : Tab.sorted t = true) : Tab.sorted (Tab.erase t k) = true := by
  rw [Tab.sorted_iff] at h ⊢
  exact List.Pairwise.filter _ h

/-- What a write lists is what it wrote or what was listed. -/
theorem Tab.mem_set (t : Tab α) (k : Nat) (v : α) (e : Nat × α) (he : e ∈ Tab.set t k v) : e = (k, v) ∨ e ∈ t := by
  induction t with
  | nil => simpa [Tab.set] using he
  | cons a rest ih =>
    obtain ⟨k', v'⟩ := a
    unfold Tab.set at he
    split at he
    · simpa using he
    · split at he
      · rcases List.mem_cons.mp he with rfl | he
        · exact .inl rfl
        · exact .inr (List.mem_cons_of_mem _ he)
      · rcases List.mem_cons.mp he with rfl | he
        · exact .inr (List.mem_cons_self ..)
        · exact (ih he).imp id (List.mem_cons_of_mem _)

/-- A write keeps the keys rising. -/
theorem Tab.sorted_set (t : Tab α) (k : Nat) (v : α) (h : Tab.sorted t = true) : Tab.sorted (Tab.set t k v) = true := by
  rw [Tab.sorted_iff] at h ⊢
  induction t with
  | nil => simp [Tab.set]
  | cons a rest ih =>
    obtain ⟨k', v'⟩ := a
    rw [List.pairwise_cons] at h
    unfold Tab.set
    split
    · rename_i hlt
      refine List.pairwise_cons.mpr ⟨fun x hx => ?_, List.pairwise_cons.mpr h⟩
      rcases List.mem_cons.mp hx with rfl | hx
      · exact hlt
      · exact Nat.lt_trans hlt (h.1 x hx)
    · split
      · rename_i heq
        subst heq
        exact List.pairwise_cons.mpr ⟨fun x hx => h.1 x hx, h.2⟩
      · rename_i h1 h2
        refine List.pairwise_cons.mpr ⟨fun x hx => ?_, ih h.2⟩
        rcases Tab.mem_set _ _ _ _ hx with rfl | hx
        · show k' < k; omega
        · exact h.1 x hx

/-- A canonical write keeps the canonical form. -/
theorem Tab.wf_put [DecidableEq α] (d : Nat → α) (t : Tab α) (k : Nat) (v : α) (h : Tab.wf d t = true) :
    Tab.wf d (Tab.put d t k v) = true := by
  unfold Tab.wf at h ⊢
  rw [Bool.and_eq_true] at h ⊢
  obtain ⟨hs, ha⟩ := h
  rw [List.all_eq_true] at ha ⊢
  unfold Tab.put
  split
  · refine ⟨Tab.sorted_erase _ _ hs, fun e he => ha e ?_⟩
    exact (List.mem_filter.mp he).1
  · rename_i hv
    refine ⟨Tab.sorted_set _ _ _ hs, fun e he => ?_⟩
    rcases Tab.mem_set _ _ _ _ he with rfl | he
    · simpa using hv
    · exact ha e he

/-- A key below every listed key reads as unlisted. -/
theorem Tab.get_of_lt_all (t : Tab α) (d : α) (k : Nat) (h : ∀ e ∈ t, k < e.1) : Tab.get t d k = d := by
  induction t with
  | nil => rfl
  | cons a rest ih =>
    have h1 := h a (by simp)
    simp only [Tab.get]
    rw [if_neg (by omega)]
    exact ih (fun e he => h e (by simp [he]))

end Sys2Proof.Machine
end

