-- ==== Sys2Proof/Laws/Memory.lean ====
section
/-! SUPPORT. The Reservoir's array: what a byte reads as after a write, and that every operation keeps the canonical form. -/

namespace Sys2Proof.Machine

/-- A byte reads as what was written last. -/
@[simp] theorem Memory.read_write_same (m : List Host.Cell) (o : Nat) (b : Byte) : Memory.read (Memory.write m o b) o = b :=
  Tab.get_put_same Memory.unwritten m o b

/-- A write leaves every other byte as it was. -/
theorem Memory.read_write_other (m : List Host.Cell) (o j : Nat) (b : Byte) (h : j ≠ o) :
    Memory.read (Memory.write m o b) j = Memory.read m j :=
  Tab.get_put_other Memory.unwritten m o b (Memory.unwritten j) j h

/-- A write keeps the canonical form. -/
@[simp] theorem Memory.wf_write (m : List Host.Cell) (o : Nat) (b : Byte) (h : Memory.wf m) : Memory.wf (Memory.write m o b) :=
  Tab.wf_put Memory.unwritten m o b h

/-- The memory after the bytes of the first `n` lanes. -/
theorem Memory.wf_lanes (m : List Host.Cell) (l n : Nat) (d : Line) (be : BitVec 64) (h : Memory.wf m) :
    Memory.wf ((List.range n).foldl (fun m k => if be.getLsbD k then Memory.write m (64 * l + k) (byteOf d k) else m) m) := by
  induction n with
  | zero => exact h
  | succ n ih =>
    rw [List.range_succ, List.foldl_append]
    simp only [List.foldl_cons, List.foldl_nil]
    split
    · exact Memory.wf_write _ _ _ ih
    · exact ih

/-- A beat written keeps the canonical form. -/
@[simp] theorem Memory.wf_writeLine (m : List Host.Cell) (l : Nat) (d : Line) (be : BitVec 64) (h : Memory.wf m) :
    Memory.wf (Memory.writeLine m l d be) := Memory.wf_lanes m l 64 d be h

/-- What a byte reads as after the bytes of the first `n` lanes. -/
theorem Memory.read_lanes (m : List Host.Cell) (l n o : Nat) (d : Line) (be : BitVec 64) :
    Memory.read ((List.range n).foldl (fun m k => if be.getLsbD k then Memory.write m (64 * l + k) (byteOf d k) else m) m) o =
      if 64 * l ≤ o ∧ o < 64 * l + n ∧ be.getLsbD (o - 64 * l) = true then byteOf d (o - 64 * l) else Memory.read m o := by
  induction n with
  | zero => simp; omega
  | succ n ih =>
    rw [List.range_succ, List.foldl_append]
    simp only [List.foldl_cons, List.foldl_nil]
    by_cases ho : o = 64 * l + n
    · subst ho
      simp only [Nat.add_sub_cancel_left, Nat.le_add_right, true_and, Nat.lt_add_one, ← Nat.add_assoc] at ih ⊢
      split
      · simp
      · rw [ih]; simp
    · have h1 : (o < 64 * l + (n + 1)) ↔ (o < 64 * l + n) := by omega
      simp only [h1]
      split
      · rw [Memory.read_write_other _ _ _ _ ho, ih]
      · exact ih

/-- The enabled bytes of the beat read as the beat's, every other byte as before. -/
theorem Memory.read_writeLine (m : List Host.Cell) (l o : Nat) (d : Line) (be : BitVec 64) :
    Memory.read (Memory.writeLine m l d be) o =
      if 64 * l ≤ o ∧ o < 64 * l + 64 ∧ be.getLsbD (o - 64 * l) = true then byteOf d (o - 64 * l) else Memory.read m o :=
  Memory.read_lanes m l 64 o d be

/-- A write to a beat leaves every byte outside the beat. -/
theorem Memory.read_writeLine_outside (m : List Host.Cell) (l o : Nat) (d : Line) (be : BitVec 64)
    (h : o < 64 * l ∨ 64 * l + 64 ≤ o) : Memory.read (Memory.writeLine m l d be) o = Memory.read m o := by
  rw [Memory.read_writeLine, if_neg (by omega)]

/-- The empty memory is canonical. -/
@[simp] theorem Memory.wf_nil : Memory.wf [] := rfl

end Sys2Proof.Machine
end

