-- ==== Sys2Proof/Laws/State.lean ====
section
/-! SUPPORT. One lemma for each field and each update of State, and the reads after writes of its parts. -/

namespace Sys2Proof.Machine

/-! ### setHg -/

@[simp] theorem State.setHg_fclk (s : State) (n : Nat) (h : Headgate) : (s.setHg n h).fclk = s.fclk := rfl
@[simp] theorem State.setHg_regs (s : State) (n : Nat) (h : Headgate) : (s.setHg n h).regs = s.regs := rfl
@[simp] theorem State.setHg_rt (s : State) (n : Nat) (h : Headgate) : (s.setHg n h).rt = s.rt := rfl
@[simp] theorem State.setHg_hs (s : State) (n : Nat) (h : Headgate) : (s.setHg n h).hs = s.hs := rfl
@[simp] theorem State.setHg_rv (s : State) (n : Nat) (h : Headgate) : (s.setHg n h).rv = s.rv := rfl
@[simp] theorem State.setHg_wires (s : State) (n : Nat) (h : Headgate) : (s.setHg n h).wires = s.wires := rfl
@[simp] theorem State.setHg_credits (s : State) (n : Nat) (h : Headgate) : (s.setHg n h).credits = s.credits := rfl
@[simp] theorem State.setHg_bd (s : State) (n : Nat) (h : Headgate) : (s.setHg n h).bd = s.bd := rfl
@[simp] theorem State.setHg_pr (s : State) (n : Nat) (h : Headgate) : (s.setHg n h).pr = s.pr := rfl
@[simp] theorem State.setHg_al (s : State) (n : Nat) (h : Headgate) : (s.setHg n h).al = s.al := rfl
@[simp] theorem State.setHg_rd (s : State) (n : Nat) (h : Headgate) : (s.setHg n h).rd = s.rd := rfl
@[simp] theorem State.setHg_mb (s : State) (n : Nat) (h : Headgate) : (s.setHg n h).mb = s.mb := rfl
@[simp] theorem State.setHg_tap (s : State) (n : Nat) (h : Headgate) : (s.setHg n h).tap = s.tap := rfl
@[simp] theorem State.setHg_fcsRead (s : State) (n : Nat) (h : Headgate) : (s.setHg n h).fcsRead = s.fcsRead := rfl
@[simp] theorem State.setHg_lateGua (s : State) (n : Nat) (h : Headgate) : (s.setHg n h).lateGua = s.lateGua := rfl
@[simp] theorem State.setHg_freeCtr (s : State) (n : Nat) (h : Headgate) : (s.setHg n h).freeCtr = s.freeCtr := rfl
@[simp] theorem State.setHg_pending (s : State) (n : Nat) (h : Headgate) : (s.setHg n h).pending = s.pending := rfl

/-! ### setRt -/

@[simp] theorem State.setRt_fclk (s : State) (i : Nat) (r : Router) : (s.setRt i r).fclk = s.fclk := rfl
@[simp] theorem State.setRt_regs (s : State) (i : Nat) (r : Router) : (s.setRt i r).regs = s.regs := rfl
@[simp] theorem State.setRt_hg (s : State) (i : Nat) (r : Router) : (s.setRt i r).hg = s.hg := rfl
@[simp] theorem State.setRt_hs (s : State) (i : Nat) (r : Router) : (s.setRt i r).hs = s.hs := rfl
@[simp] theorem State.setRt_rv (s : State) (i : Nat) (r : Router) : (s.setRt i r).rv = s.rv := rfl
@[simp] theorem State.setRt_wires (s : State) (i : Nat) (r : Router) : (s.setRt i r).wires = s.wires := rfl
@[simp] theorem State.setRt_credits (s : State) (i : Nat) (r : Router) : (s.setRt i r).credits = s.credits := rfl
@[simp] theorem State.setRt_bd (s : State) (i : Nat) (r : Router) : (s.setRt i r).bd = s.bd := rfl
@[simp] theorem State.setRt_pr (s : State) (i : Nat) (r : Router) : (s.setRt i r).pr = s.pr := rfl
@[simp] theorem State.setRt_al (s : State) (i : Nat) (r : Router) : (s.setRt i r).al = s.al := rfl
@[simp] theorem State.setRt_rd (s : State) (i : Nat) (r : Router) : (s.setRt i r).rd = s.rd := rfl
@[simp] theorem State.setRt_mb (s : State) (i : Nat) (r : Router) : (s.setRt i r).mb = s.mb := rfl
@[simp] theorem State.setRt_tap (s : State) (i : Nat) (r : Router) : (s.setRt i r).tap = s.tap := rfl
@[simp] theorem State.setRt_fcsRead (s : State) (i : Nat) (r : Router) : (s.setRt i r).fcsRead = s.fcsRead := rfl
@[simp] theorem State.setRt_lateGua (s : State) (i : Nat) (r : Router) : (s.setRt i r).lateGua = s.lateGua := rfl
@[simp] theorem State.setRt_freeCtr (s : State) (i : Nat) (r : Router) : (s.setRt i r).freeCtr = s.freeCtr := rfl
@[simp] theorem State.setRt_pending (s : State) (i : Nat) (r : Router) : (s.setRt i r).pending = s.pending := rfl

/-! ### setHs -/

@[simp] theorem State.setHs_fclk (s : State) (k : Nat) (x : Slice) : (s.setHs k x).fclk = s.fclk := rfl
@[simp] theorem State.setHs_regs (s : State) (k : Nat) (x : Slice) : (s.setHs k x).regs = s.regs := rfl
@[simp] theorem State.setHs_hg (s : State) (k : Nat) (x : Slice) : (s.setHs k x).hg = s.hg := rfl
@[simp] theorem State.setHs_rt (s : State) (k : Nat) (x : Slice) : (s.setHs k x).rt = s.rt := rfl
@[simp] theorem State.setHs_rv (s : State) (k : Nat) (x : Slice) : (s.setHs k x).rv = s.rv := rfl
@[simp] theorem State.setHs_wires (s : State) (k : Nat) (x : Slice) : (s.setHs k x).wires = s.wires := rfl
@[simp] theorem State.setHs_credits (s : State) (k : Nat) (x : Slice) : (s.setHs k x).credits = s.credits := rfl
@[simp] theorem State.setHs_bd (s : State) (k : Nat) (x : Slice) : (s.setHs k x).bd = s.bd := rfl
@[simp] theorem State.setHs_pr (s : State) (k : Nat) (x : Slice) : (s.setHs k x).pr = s.pr := rfl
@[simp] theorem State.setHs_al (s : State) (k : Nat) (x : Slice) : (s.setHs k x).al = s.al := rfl
@[simp] theorem State.setHs_rd (s : State) (k : Nat) (x : Slice) : (s.setHs k x).rd = s.rd := rfl
@[simp] theorem State.setHs_mb (s : State) (k : Nat) (x : Slice) : (s.setHs k x).mb = s.mb := rfl
@[simp] theorem State.setHs_tap (s : State) (k : Nat) (x : Slice) : (s.setHs k x).tap = s.tap := rfl
@[simp] theorem State.setHs_fcsRead (s : State) (k : Nat) (x : Slice) : (s.setHs k x).fcsRead = s.fcsRead := rfl
@[simp] theorem State.setHs_lateGua (s : State) (k : Nat) (x : Slice) : (s.setHs k x).lateGua = s.lateGua := rfl
@[simp] theorem State.setHs_freeCtr (s : State) (k : Nat) (x : Slice) : (s.setHs k x).freeCtr = s.freeCtr := rfl
@[simp] theorem State.setHs_pending (s : State) (k : Nat) (x : Slice) : (s.setHs k x).pending = s.pending := rfl

/-! ### setMb -/

@[simp] theorem State.setMb_fclk (s : State) (m : Nat) (x : Mailbox) : (s.setMb m x).fclk = s.fclk := rfl
@[simp] theorem State.setMb_regs (s : State) (m : Nat) (x : Mailbox) : (s.setMb m x).regs = s.regs := rfl
@[simp] theorem State.setMb_hg (s : State) (m : Nat) (x : Mailbox) : (s.setMb m x).hg = s.hg := rfl
@[simp] theorem State.setMb_rt (s : State) (m : Nat) (x : Mailbox) : (s.setMb m x).rt = s.rt := rfl
@[simp] theorem State.setMb_hs (s : State) (m : Nat) (x : Mailbox) : (s.setMb m x).hs = s.hs := rfl
@[simp] theorem State.setMb_rv (s : State) (m : Nat) (x : Mailbox) : (s.setMb m x).rv = s.rv := rfl
@[simp] theorem State.setMb_wires (s : State) (m : Nat) (x : Mailbox) : (s.setMb m x).wires = s.wires := rfl
@[simp] theorem State.setMb_credits (s : State) (m : Nat) (x : Mailbox) : (s.setMb m x).credits = s.credits := rfl
@[simp] theorem State.setMb_bd (s : State) (m : Nat) (x : Mailbox) : (s.setMb m x).bd = s.bd := rfl
@[simp] theorem State.setMb_pr (s : State) (m : Nat) (x : Mailbox) : (s.setMb m x).pr = s.pr := rfl
@[simp] theorem State.setMb_al (s : State) (m : Nat) (x : Mailbox) : (s.setMb m x).al = s.al := rfl
@[simp] theorem State.setMb_rd (s : State) (m : Nat) (x : Mailbox) : (s.setMb m x).rd = s.rd := rfl
@[simp] theorem State.setMb_tap (s : State) (m : Nat) (x : Mailbox) : (s.setMb m x).tap = s.tap := rfl
@[simp] theorem State.setMb_fcsRead (s : State) (m : Nat) (x : Mailbox) : (s.setMb m x).fcsRead = s.fcsRead := rfl
@[simp] theorem State.setMb_lateGua (s : State) (m : Nat) (x : Mailbox) : (s.setMb m x).lateGua = s.lateGua := rfl
@[simp] theorem State.setMb_freeCtr (s : State) (m : Nat) (x : Mailbox) : (s.setMb m x).freeCtr = s.freeCtr := rfl
@[simp] theorem State.setMb_pending (s : State) (m : Nat) (x : Mailbox) : (s.setMb m x).pending = s.pending := rfl

/-! ### setBank -/

@[simp] theorem State.setBank_fclk (s : State) (b : Nat) (x : BankSt) : (s.setBank b x).fclk = s.fclk := rfl
@[simp] theorem State.setBank_regs (s : State) (b : Nat) (x : BankSt) : (s.setBank b x).regs = s.regs := rfl
@[simp] theorem State.setBank_hg (s : State) (b : Nat) (x : BankSt) : (s.setBank b x).hg = s.hg := rfl
@[simp] theorem State.setBank_rt (s : State) (b : Nat) (x : BankSt) : (s.setBank b x).rt = s.rt := rfl
@[simp] theorem State.setBank_hs (s : State) (b : Nat) (x : BankSt) : (s.setBank b x).hs = s.hs := rfl
@[simp] theorem State.setBank_wires (s : State) (b : Nat) (x : BankSt) : (s.setBank b x).wires = s.wires := rfl
@[simp] theorem State.setBank_credits (s : State) (b : Nat) (x : BankSt) : (s.setBank b x).credits = s.credits := rfl
@[simp] theorem State.setBank_bd (s : State) (b : Nat) (x : BankSt) : (s.setBank b x).bd = s.bd := rfl
@[simp] theorem State.setBank_pr (s : State) (b : Nat) (x : BankSt) : (s.setBank b x).pr = s.pr := rfl
@[simp] theorem State.setBank_al (s : State) (b : Nat) (x : BankSt) : (s.setBank b x).al = s.al := rfl
@[simp] theorem State.setBank_rd (s : State) (b : Nat) (x : BankSt) : (s.setBank b x).rd = s.rd := rfl
@[simp] theorem State.setBank_mb (s : State) (b : Nat) (x : BankSt) : (s.setBank b x).mb = s.mb := rfl
@[simp] theorem State.setBank_tap (s : State) (b : Nat) (x : BankSt) : (s.setBank b x).tap = s.tap := rfl
@[simp] theorem State.setBank_fcsRead (s : State) (b : Nat) (x : BankSt) : (s.setBank b x).fcsRead = s.fcsRead := rfl
@[simp] theorem State.setBank_lateGua (s : State) (b : Nat) (x : BankSt) : (s.setBank b x).lateGua = s.lateGua := rfl
@[simp] theorem State.setBank_freeCtr (s : State) (b : Nat) (x : BankSt) : (s.setBank b x).freeCtr = s.freeCtr := rfl
@[simp] theorem State.setBank_pending (s : State) (b : Nat) (x : BankSt) : (s.setBank b x).pending = s.pending := rfl

/-! ### setReg -/

@[simp] theorem State.setReg_fclk (s : State) (off : Nat) (v : Word) : (s.setReg off v).fclk = s.fclk := rfl
@[simp] theorem State.setReg_hg (s : State) (off : Nat) (v : Word) : (s.setReg off v).hg = s.hg := rfl
@[simp] theorem State.setReg_rt (s : State) (off : Nat) (v : Word) : (s.setReg off v).rt = s.rt := rfl
@[simp] theorem State.setReg_hs (s : State) (off : Nat) (v : Word) : (s.setReg off v).hs = s.hs := rfl
@[simp] theorem State.setReg_rv (s : State) (off : Nat) (v : Word) : (s.setReg off v).rv = s.rv := rfl
@[simp] theorem State.setReg_wires (s : State) (off : Nat) (v : Word) : (s.setReg off v).wires = s.wires := rfl
@[simp] theorem State.setReg_credits (s : State) (off : Nat) (v : Word) : (s.setReg off v).credits = s.credits := rfl
@[simp] theorem State.setReg_bd (s : State) (off : Nat) (v : Word) : (s.setReg off v).bd = s.bd := rfl
@[simp] theorem State.setReg_pr (s : State) (off : Nat) (v : Word) : (s.setReg off v).pr = s.pr := rfl
@[simp] theorem State.setReg_al (s : State) (off : Nat) (v : Word) : (s.setReg off v).al = s.al := rfl
@[simp] theorem State.setReg_rd (s : State) (off : Nat) (v : Word) : (s.setReg off v).rd = s.rd := rfl
@[simp] theorem State.setReg_mb (s : State) (off : Nat) (v : Word) : (s.setReg off v).mb = s.mb := rfl
@[simp] theorem State.setReg_tap (s : State) (off : Nat) (v : Word) : (s.setReg off v).tap = s.tap := rfl
@[simp] theorem State.setReg_fcsRead (s : State) (off : Nat) (v : Word) : (s.setReg off v).fcsRead = s.fcsRead := rfl
@[simp] theorem State.setReg_lateGua (s : State) (off : Nat) (v : Word) : (s.setReg off v).lateGua = s.lateGua := rfl
@[simp] theorem State.setReg_freeCtr (s : State) (off : Nat) (v : Word) : (s.setReg off v).freeCtr = s.freeCtr := rfl
@[simp] theorem State.setReg_pending (s : State) (off : Nat) (v : Word) : (s.setReg off v).pending = s.pending := rfl

/-! ### draw -/

@[simp] theorem State.draw_fclk (s : State) : (s.draw.2).fclk = s.fclk := rfl
@[simp] theorem State.draw_regs (s : State) : (s.draw.2).regs = s.regs := rfl
@[simp] theorem State.draw_hg (s : State) : (s.draw.2).hg = s.hg := rfl
@[simp] theorem State.draw_rt (s : State) : (s.draw.2).rt = s.rt := rfl
@[simp] theorem State.draw_hs (s : State) : (s.draw.2).hs = s.hs := rfl
@[simp] theorem State.draw_rv (s : State) : (s.draw.2).rv = s.rv := rfl
@[simp] theorem State.draw_wires (s : State) : (s.draw.2).wires = s.wires := rfl
@[simp] theorem State.draw_credits (s : State) : (s.draw.2).credits = s.credits := rfl
@[simp] theorem State.draw_bd (s : State) : (s.draw.2).bd = s.bd := rfl
@[simp] theorem State.draw_pr (s : State) : (s.draw.2).pr = s.pr := rfl
@[simp] theorem State.draw_al (s : State) : (s.draw.2).al = s.al := rfl
@[simp] theorem State.draw_rd (s : State) : (s.draw.2).rd = s.rd := rfl
@[simp] theorem State.draw_mb (s : State) : (s.draw.2).mb = s.mb := rfl
@[simp] theorem State.draw_tap (s : State) : (s.draw.2).tap = s.tap := rfl
@[simp] theorem State.draw_fcsRead (s : State) : (s.draw.2).fcsRead = s.fcsRead := rfl
@[simp] theorem State.draw_lateGua (s : State) : (s.draw.2).lateGua = s.lateGua := rfl
@[simp] theorem State.draw_pending (s : State) : (s.draw.2).pending = s.pending := rfl

/-! ### advanceTo -/

@[simp] theorem State.advanceTo_regs (s : State) (t : Nat) : (s.advanceTo t).regs = s.regs := rfl
@[simp] theorem State.advanceTo_hg (s : State) (t : Nat) : (s.advanceTo t).hg = s.hg := rfl
@[simp] theorem State.advanceTo_rt (s : State) (t : Nat) : (s.advanceTo t).rt = s.rt := rfl
@[simp] theorem State.advanceTo_hs (s : State) (t : Nat) : (s.advanceTo t).hs = s.hs := rfl
@[simp] theorem State.advanceTo_rv (s : State) (t : Nat) : (s.advanceTo t).rv = s.rv := rfl
@[simp] theorem State.advanceTo_wires (s : State) (t : Nat) : (s.advanceTo t).wires = s.wires := rfl
@[simp] theorem State.advanceTo_credits (s : State) (t : Nat) : (s.advanceTo t).credits = s.credits := rfl
@[simp] theorem State.advanceTo_bd (s : State) (t : Nat) : (s.advanceTo t).bd = s.bd := rfl
@[simp] theorem State.advanceTo_pr (s : State) (t : Nat) : (s.advanceTo t).pr = s.pr := rfl
@[simp] theorem State.advanceTo_al (s : State) (t : Nat) : (s.advanceTo t).al = s.al := rfl
@[simp] theorem State.advanceTo_rd (s : State) (t : Nat) : (s.advanceTo t).rd = s.rd := rfl
@[simp] theorem State.advanceTo_mb (s : State) (t : Nat) : (s.advanceTo t).mb = s.mb := rfl
@[simp] theorem State.advanceTo_tap (s : State) (t : Nat) : (s.advanceTo t).tap = s.tap := rfl
@[simp] theorem State.advanceTo_fcsRead (s : State) (t : Nat) : (s.advanceTo t).fcsRead = s.fcsRead := rfl
@[simp] theorem State.advanceTo_lateGua (s : State) (t : Nat) : (s.advanceTo t).lateGua = s.lateGua := rfl
@[simp] theorem State.advanceTo_freeCtr (s : State) (t : Nat) : (s.advanceTo t).freeCtr = s.freeCtr := rfl
@[simp] theorem State.advanceTo_pending (s : State) (t : Nat) : (s.advanceTo t).pending = s.pending := rfl

/-! ### alarm -/

@[simp] theorem State.alarm_fclk (s : State) (station : Nat) (typ : BitVec 8) (src detail : Nat) : (s.alarm station typ src detail).fclk = s.fclk := rfl
@[simp] theorem State.alarm_regs (s : State) (station : Nat) (typ : BitVec 8) (src detail : Nat) : (s.alarm station typ src detail).regs = s.regs := rfl
@[simp] theorem State.alarm_hg (s : State) (station : Nat) (typ : BitVec 8) (src detail : Nat) : (s.alarm station typ src detail).hg = s.hg := rfl
@[simp] theorem State.alarm_rt (s : State) (station : Nat) (typ : BitVec 8) (src detail : Nat) : (s.alarm station typ src detail).rt = s.rt := rfl
@[simp] theorem State.alarm_hs (s : State) (station : Nat) (typ : BitVec 8) (src detail : Nat) : (s.alarm station typ src detail).hs = s.hs := rfl
@[simp] theorem State.alarm_rv (s : State) (station : Nat) (typ : BitVec 8) (src detail : Nat) : (s.alarm station typ src detail).rv = s.rv := rfl
@[simp] theorem State.alarm_wires (s : State) (station : Nat) (typ : BitVec 8) (src detail : Nat) : (s.alarm station typ src detail).wires = s.wires := rfl
@[simp] theorem State.alarm_credits (s : State) (station : Nat) (typ : BitVec 8) (src detail : Nat) : (s.alarm station typ src detail).credits = s.credits := rfl
@[simp] theorem State.alarm_bd (s : State) (station : Nat) (typ : BitVec 8) (src detail : Nat) : (s.alarm station typ src detail).bd = s.bd := rfl
@[simp] theorem State.alarm_pr (s : State) (station : Nat) (typ : BitVec 8) (src detail : Nat) : (s.alarm station typ src detail).pr = s.pr := rfl
@[simp] theorem State.alarm_rd (s : State) (station : Nat) (typ : BitVec 8) (src detail : Nat) : (s.alarm station typ src detail).rd = s.rd := rfl
@[simp] theorem State.alarm_mb (s : State) (station : Nat) (typ : BitVec 8) (src detail : Nat) : (s.alarm station typ src detail).mb = s.mb := rfl
@[simp] theorem State.alarm_tap (s : State) (station : Nat) (typ : BitVec 8) (src detail : Nat) : (s.alarm station typ src detail).tap = s.tap := rfl
@[simp] theorem State.alarm_fcsRead (s : State) (station : Nat) (typ : BitVec 8) (src detail : Nat) : (s.alarm station typ src detail).fcsRead = s.fcsRead := rfl
@[simp] theorem State.alarm_lateGua (s : State) (station : Nat) (typ : BitVec 8) (src detail : Nat) : (s.alarm station typ src detail).lateGua = s.lateGua := rfl
@[simp] theorem State.alarm_freeCtr (s : State) (station : Nat) (typ : BitVec 8) (src detail : Nat) : (s.alarm station typ src detail).freeCtr = s.freeCtr := rfl
@[simp] theorem State.alarm_pending (s : State) (station : Nat) (typ : BitVec 8) (src detail : Nat) : (s.alarm station typ src detail).pending = s.pending := rfl

/-! ### count -/

@[simp] theorem State.count_fclk (s : State) (key k : Nat) : (s.count key k).fclk = s.fclk := rfl
@[simp] theorem State.count_regs (s : State) (key k : Nat) : (s.count key k).regs = s.regs := rfl
@[simp] theorem State.count_hg (s : State) (key k : Nat) : (s.count key k).hg = s.hg := rfl
@[simp] theorem State.count_rt (s : State) (key k : Nat) : (s.count key k).rt = s.rt := rfl
@[simp] theorem State.count_hs (s : State) (key k : Nat) : (s.count key k).hs = s.hs := rfl
@[simp] theorem State.count_rv (s : State) (key k : Nat) : (s.count key k).rv = s.rv := rfl
@[simp] theorem State.count_wires (s : State) (key k : Nat) : (s.count key k).wires = s.wires := rfl
@[simp] theorem State.count_credits (s : State) (key k : Nat) : (s.count key k).credits = s.credits := rfl
@[simp] theorem State.count_bd (s : State) (key k : Nat) : (s.count key k).bd = s.bd := rfl
@[simp] theorem State.count_al (s : State) (key k : Nat) : (s.count key k).al = s.al := rfl
@[simp] theorem State.count_rd (s : State) (key k : Nat) : (s.count key k).rd = s.rd := rfl
@[simp] theorem State.count_mb (s : State) (key k : Nat) : (s.count key k).mb = s.mb := rfl
@[simp] theorem State.count_tap (s : State) (key k : Nat) : (s.count key k).tap = s.tap := rfl
@[simp] theorem State.count_fcsRead (s : State) (key k : Nat) : (s.count key k).fcsRead = s.fcsRead := rfl
@[simp] theorem State.count_lateGua (s : State) (key k : Nat) : (s.count key k).lateGua = s.lateGua := rfl
@[simp] theorem State.count_freeCtr (s : State) (key k : Nat) : (s.count key k).freeCtr = s.freeCtr := rfl
@[simp] theorem State.count_pending (s : State) (key k : Nat) : (s.count key k).pending = s.pending := rfl

/-! ### observe -/

@[simp] theorem State.observe_fclk (s : State) (atHg : Bool) (wher port : Nat) (f : Flit) : (s.observe atHg wher port f).fclk = s.fclk := rfl
@[simp] theorem State.observe_regs (s : State) (atHg : Bool) (wher port : Nat) (f : Flit) : (s.observe atHg wher port f).regs = s.regs := rfl
@[simp] theorem State.observe_hg (s : State) (atHg : Bool) (wher port : Nat) (f : Flit) : (s.observe atHg wher port f).hg = s.hg := rfl
@[simp] theorem State.observe_rt (s : State) (atHg : Bool) (wher port : Nat) (f : Flit) : (s.observe atHg wher port f).rt = s.rt := rfl
@[simp] theorem State.observe_hs (s : State) (atHg : Bool) (wher port : Nat) (f : Flit) : (s.observe atHg wher port f).hs = s.hs := rfl
@[simp] theorem State.observe_rv (s : State) (atHg : Bool) (wher port : Nat) (f : Flit) : (s.observe atHg wher port f).rv = s.rv := rfl
@[simp] theorem State.observe_wires (s : State) (atHg : Bool) (wher port : Nat) (f : Flit) : (s.observe atHg wher port f).wires = s.wires := rfl
@[simp] theorem State.observe_credits (s : State) (atHg : Bool) (wher port : Nat) (f : Flit) : (s.observe atHg wher port f).credits = s.credits := rfl
@[simp] theorem State.observe_bd (s : State) (atHg : Bool) (wher port : Nat) (f : Flit) : (s.observe atHg wher port f).bd = s.bd := rfl
@[simp] theorem State.observe_al (s : State) (atHg : Bool) (wher port : Nat) (f : Flit) : (s.observe atHg wher port f).al = s.al := rfl
@[simp] theorem State.observe_rd (s : State) (atHg : Bool) (wher port : Nat) (f : Flit) : (s.observe atHg wher port f).rd = s.rd := rfl
@[simp] theorem State.observe_mb (s : State) (atHg : Bool) (wher port : Nat) (f : Flit) : (s.observe atHg wher port f).mb = s.mb := rfl
@[simp] theorem State.observe_tap (s : State) (atHg : Bool) (wher port : Nat) (f : Flit) : (s.observe atHg wher port f).tap = s.tap := rfl
@[simp] theorem State.observe_fcsRead (s : State) (atHg : Bool) (wher port : Nat) (f : Flit) : (s.observe atHg wher port f).fcsRead = s.fcsRead := rfl
@[simp] theorem State.observe_lateGua (s : State) (atHg : Bool) (wher port : Nat) (f : Flit) : (s.observe atHg wher port f).lateGua = s.lateGua := rfl
@[simp] theorem State.observe_freeCtr (s : State) (atHg : Bool) (wher port : Nat) (f : Flit) : (s.observe atHg wher port f).freeCtr = s.freeCtr := rfl
@[simp] theorem State.observe_pending (s : State) (atHg : Bool) (wher port : Nat) (f : Flit) : (s.observe atHg wher port f).pending = s.pending := rfl

/-! ### setWire -/

@[simp] theorem State.setWire_fclk (s : State) (e : LEnd) (fs : List Flit) : (s.setWire e fs).fclk = s.fclk := rfl
@[simp] theorem State.setWire_regs (s : State) (e : LEnd) (fs : List Flit) : (s.setWire e fs).regs = s.regs := rfl
@[simp] theorem State.setWire_hg (s : State) (e : LEnd) (fs : List Flit) : (s.setWire e fs).hg = s.hg := rfl
@[simp] theorem State.setWire_rt (s : State) (e : LEnd) (fs : List Flit) : (s.setWire e fs).rt = s.rt := rfl
@[simp] theorem State.setWire_hs (s : State) (e : LEnd) (fs : List Flit) : (s.setWire e fs).hs = s.hs := rfl
@[simp] theorem State.setWire_rv (s : State) (e : LEnd) (fs : List Flit) : (s.setWire e fs).rv = s.rv := rfl
@[simp] theorem State.setWire_credits (s : State) (e : LEnd) (fs : List Flit) : (s.setWire e fs).credits = s.credits := rfl
@[simp] theorem State.setWire_bd (s : State) (e : LEnd) (fs : List Flit) : (s.setWire e fs).bd = s.bd := rfl
@[simp] theorem State.setWire_pr (s : State) (e : LEnd) (fs : List Flit) : (s.setWire e fs).pr = s.pr := rfl
@[simp] theorem State.setWire_al (s : State) (e : LEnd) (fs : List Flit) : (s.setWire e fs).al = s.al := rfl
@[simp] theorem State.setWire_rd (s : State) (e : LEnd) (fs : List Flit) : (s.setWire e fs).rd = s.rd := rfl
@[simp] theorem State.setWire_mb (s : State) (e : LEnd) (fs : List Flit) : (s.setWire e fs).mb = s.mb := rfl
@[simp] theorem State.setWire_tap (s : State) (e : LEnd) (fs : List Flit) : (s.setWire e fs).tap = s.tap := rfl
@[simp] theorem State.setWire_fcsRead (s : State) (e : LEnd) (fs : List Flit) : (s.setWire e fs).fcsRead = s.fcsRead := rfl
@[simp] theorem State.setWire_lateGua (s : State) (e : LEnd) (fs : List Flit) : (s.setWire e fs).lateGua = s.lateGua := rfl
@[simp] theorem State.setWire_freeCtr (s : State) (e : LEnd) (fs : List Flit) : (s.setWire e fs).freeCtr = s.freeCtr := rfl
@[simp] theorem State.setWire_pending (s : State) (e : LEnd) (fs : List Flit) : (s.setWire e fs).pending = s.pending := rfl

/-! ### pushCredit -/

@[simp] theorem State.pushCredit_fclk (s : State) (e : LEnd) (v : Nat) : (s.pushCredit e v).fclk = s.fclk := rfl
@[simp] theorem State.pushCredit_regs (s : State) (e : LEnd) (v : Nat) : (s.pushCredit e v).regs = s.regs := rfl
@[simp] theorem State.pushCredit_hg (s : State) (e : LEnd) (v : Nat) : (s.pushCredit e v).hg = s.hg := rfl
@[simp] theorem State.pushCredit_rt (s : State) (e : LEnd) (v : Nat) : (s.pushCredit e v).rt = s.rt := rfl
@[simp] theorem State.pushCredit_hs (s : State) (e : LEnd) (v : Nat) : (s.pushCredit e v).hs = s.hs := rfl
@[simp] theorem State.pushCredit_rv (s : State) (e : LEnd) (v : Nat) : (s.pushCredit e v).rv = s.rv := rfl
@[simp] theorem State.pushCredit_wires (s : State) (e : LEnd) (v : Nat) : (s.pushCredit e v).wires = s.wires := rfl
@[simp] theorem State.pushCredit_bd (s : State) (e : LEnd) (v : Nat) : (s.pushCredit e v).bd = s.bd := rfl
@[simp] theorem State.pushCredit_pr (s : State) (e : LEnd) (v : Nat) : (s.pushCredit e v).pr = s.pr := rfl
@[simp] theorem State.pushCredit_al (s : State) (e : LEnd) (v : Nat) : (s.pushCredit e v).al = s.al := rfl
@[simp] theorem State.pushCredit_rd (s : State) (e : LEnd) (v : Nat) : (s.pushCredit e v).rd = s.rd := rfl
@[simp] theorem State.pushCredit_mb (s : State) (e : LEnd) (v : Nat) : (s.pushCredit e v).mb = s.mb := rfl
@[simp] theorem State.pushCredit_tap (s : State) (e : LEnd) (v : Nat) : (s.pushCredit e v).tap = s.tap := rfl
@[simp] theorem State.pushCredit_fcsRead (s : State) (e : LEnd) (v : Nat) : (s.pushCredit e v).fcsRead = s.fcsRead := rfl
@[simp] theorem State.pushCredit_lateGua (s : State) (e : LEnd) (v : Nat) : (s.pushCredit e v).lateGua = s.lateGua := rfl
@[simp] theorem State.pushCredit_freeCtr (s : State) (e : LEnd) (v : Nat) : (s.pushCredit e v).freeCtr = s.freeCtr := rfl
@[simp] theorem State.pushCredit_pending (s : State) (e : LEnd) (v : Nat) : (s.pushCredit e v).pending = s.pending := rfl

/-! ### setCredits -/

@[simp] theorem State.setCredits_fclk (s : State) (y : Tab (List (BitVec 4))) : (s.setCredits y).fclk = s.fclk := rfl
@[simp] theorem State.setCredits_regs (s : State) (y : Tab (List (BitVec 4))) : (s.setCredits y).regs = s.regs := rfl
@[simp] theorem State.setCredits_hg (s : State) (y : Tab (List (BitVec 4))) : (s.setCredits y).hg = s.hg := rfl
@[simp] theorem State.setCredits_rt (s : State) (y : Tab (List (BitVec 4))) : (s.setCredits y).rt = s.rt := rfl
@[simp] theorem State.setCredits_hs (s : State) (y : Tab (List (BitVec 4))) : (s.setCredits y).hs = s.hs := rfl
@[simp] theorem State.setCredits_rv (s : State) (y : Tab (List (BitVec 4))) : (s.setCredits y).rv = s.rv := rfl
@[simp] theorem State.setCredits_wires (s : State) (y : Tab (List (BitVec 4))) : (s.setCredits y).wires = s.wires := rfl
@[simp] theorem State.setCredits_bd (s : State) (y : Tab (List (BitVec 4))) : (s.setCredits y).bd = s.bd := rfl
@[simp] theorem State.setCredits_pr (s : State) (y : Tab (List (BitVec 4))) : (s.setCredits y).pr = s.pr := rfl
@[simp] theorem State.setCredits_al (s : State) (y : Tab (List (BitVec 4))) : (s.setCredits y).al = s.al := rfl
@[simp] theorem State.setCredits_rd (s : State) (y : Tab (List (BitVec 4))) : (s.setCredits y).rd = s.rd := rfl
@[simp] theorem State.setCredits_mb (s : State) (y : Tab (List (BitVec 4))) : (s.setCredits y).mb = s.mb := rfl
@[simp] theorem State.setCredits_tap (s : State) (y : Tab (List (BitVec 4))) : (s.setCredits y).tap = s.tap := rfl
@[simp] theorem State.setCredits_fcsRead (s : State) (y : Tab (List (BitVec 4))) : (s.setCredits y).fcsRead = s.fcsRead := rfl
@[simp] theorem State.setCredits_lateGua (s : State) (y : Tab (List (BitVec 4))) : (s.setCredits y).lateGua = s.lateGua := rfl
@[simp] theorem State.setCredits_freeCtr (s : State) (y : Tab (List (BitVec 4))) : (s.setCredits y).freeCtr = s.freeCtr := rfl
@[simp] theorem State.setCredits_pending (s : State) (y : Tab (List (BitVec 4))) : (s.setCredits y).pending = s.pending := rfl

/-! ### setBd -/

@[simp] theorem State.setBd_fclk (s : State) (y : Boundary) : (s.setBd y).fclk = s.fclk := rfl
@[simp] theorem State.setBd_regs (s : State) (y : Boundary) : (s.setBd y).regs = s.regs := rfl
@[simp] theorem State.setBd_hg (s : State) (y : Boundary) : (s.setBd y).hg = s.hg := rfl
@[simp] theorem State.setBd_rt (s : State) (y : Boundary) : (s.setBd y).rt = s.rt := rfl
@[simp] theorem State.setBd_hs (s : State) (y : Boundary) : (s.setBd y).hs = s.hs := rfl
@[simp] theorem State.setBd_rv (s : State) (y : Boundary) : (s.setBd y).rv = s.rv := rfl
@[simp] theorem State.setBd_wires (s : State) (y : Boundary) : (s.setBd y).wires = s.wires := rfl
@[simp] theorem State.setBd_credits (s : State) (y : Boundary) : (s.setBd y).credits = s.credits := rfl
@[simp] theorem State.setBd_pr (s : State) (y : Boundary) : (s.setBd y).pr = s.pr := rfl
@[simp] theorem State.setBd_al (s : State) (y : Boundary) : (s.setBd y).al = s.al := rfl
@[simp] theorem State.setBd_rd (s : State) (y : Boundary) : (s.setBd y).rd = s.rd := rfl
@[simp] theorem State.setBd_mb (s : State) (y : Boundary) : (s.setBd y).mb = s.mb := rfl
@[simp] theorem State.setBd_tap (s : State) (y : Boundary) : (s.setBd y).tap = s.tap := rfl
@[simp] theorem State.setBd_fcsRead (s : State) (y : Boundary) : (s.setBd y).fcsRead = s.fcsRead := rfl
@[simp] theorem State.setBd_lateGua (s : State) (y : Boundary) : (s.setBd y).lateGua = s.lateGua := rfl
@[simp] theorem State.setBd_freeCtr (s : State) (y : Boundary) : (s.setBd y).freeCtr = s.freeCtr := rfl
@[simp] theorem State.setBd_pending (s : State) (y : Boundary) : (s.setBd y).pending = s.pending := rfl

/-! ### setPr -/

@[simp] theorem State.setPr_fclk (s : State) (y : Probes) : (s.setPr y).fclk = s.fclk := rfl
@[simp] theorem State.setPr_regs (s : State) (y : Probes) : (s.setPr y).regs = s.regs := rfl
@[simp] theorem State.setPr_hg (s : State) (y : Probes) : (s.setPr y).hg = s.hg := rfl
@[simp] theorem State.setPr_rt (s : State) (y : Probes) : (s.setPr y).rt = s.rt := rfl
@[simp] theorem State.setPr_hs (s : State) (y : Probes) : (s.setPr y).hs = s.hs := rfl
@[simp] theorem State.setPr_rv (s : State) (y : Probes) : (s.setPr y).rv = s.rv := rfl
@[simp] theorem State.setPr_wires (s : State) (y : Probes) : (s.setPr y).wires = s.wires := rfl
@[simp] theorem State.setPr_credits (s : State) (y : Probes) : (s.setPr y).credits = s.credits := rfl
@[simp] theorem State.setPr_bd (s : State) (y : Probes) : (s.setPr y).bd = s.bd := rfl
@[simp] theorem State.setPr_al (s : State) (y : Probes) : (s.setPr y).al = s.al := rfl
@[simp] theorem State.setPr_rd (s : State) (y : Probes) : (s.setPr y).rd = s.rd := rfl
@[simp] theorem State.setPr_mb (s : State) (y : Probes) : (s.setPr y).mb = s.mb := rfl
@[simp] theorem State.setPr_tap (s : State) (y : Probes) : (s.setPr y).tap = s.tap := rfl
@[simp] theorem State.setPr_fcsRead (s : State) (y : Probes) : (s.setPr y).fcsRead = s.fcsRead := rfl
@[simp] theorem State.setPr_lateGua (s : State) (y : Probes) : (s.setPr y).lateGua = s.lateGua := rfl
@[simp] theorem State.setPr_freeCtr (s : State) (y : Probes) : (s.setPr y).freeCtr = s.freeCtr := rfl
@[simp] theorem State.setPr_pending (s : State) (y : Probes) : (s.setPr y).pending = s.pending := rfl

/-! ### setAl -/

@[simp] theorem State.setAl_fclk (s : State) (y : Alarms) : (s.setAl y).fclk = s.fclk := rfl
@[simp] theorem State.setAl_regs (s : State) (y : Alarms) : (s.setAl y).regs = s.regs := rfl
@[simp] theorem State.setAl_hg (s : State) (y : Alarms) : (s.setAl y).hg = s.hg := rfl
@[simp] theorem State.setAl_rt (s : State) (y : Alarms) : (s.setAl y).rt = s.rt := rfl
@[simp] theorem State.setAl_hs (s : State) (y : Alarms) : (s.setAl y).hs = s.hs := rfl
@[simp] theorem State.setAl_rv (s : State) (y : Alarms) : (s.setAl y).rv = s.rv := rfl
@[simp] theorem State.setAl_wires (s : State) (y : Alarms) : (s.setAl y).wires = s.wires := rfl
@[simp] theorem State.setAl_credits (s : State) (y : Alarms) : (s.setAl y).credits = s.credits := rfl
@[simp] theorem State.setAl_bd (s : State) (y : Alarms) : (s.setAl y).bd = s.bd := rfl
@[simp] theorem State.setAl_pr (s : State) (y : Alarms) : (s.setAl y).pr = s.pr := rfl
@[simp] theorem State.setAl_rd (s : State) (y : Alarms) : (s.setAl y).rd = s.rd := rfl
@[simp] theorem State.setAl_mb (s : State) (y : Alarms) : (s.setAl y).mb = s.mb := rfl
@[simp] theorem State.setAl_tap (s : State) (y : Alarms) : (s.setAl y).tap = s.tap := rfl
@[simp] theorem State.setAl_fcsRead (s : State) (y : Alarms) : (s.setAl y).fcsRead = s.fcsRead := rfl
@[simp] theorem State.setAl_lateGua (s : State) (y : Alarms) : (s.setAl y).lateGua = s.lateGua := rfl
@[simp] theorem State.setAl_freeCtr (s : State) (y : Alarms) : (s.setAl y).freeCtr = s.freeCtr := rfl
@[simp] theorem State.setAl_pending (s : State) (y : Alarms) : (s.setAl y).pending = s.pending := rfl

/-! ### setRd -/

@[simp] theorem State.setRd_fclk (s : State) (y : Rider) : (s.setRd y).fclk = s.fclk := rfl
@[simp] theorem State.setRd_regs (s : State) (y : Rider) : (s.setRd y).regs = s.regs := rfl
@[simp] theorem State.setRd_hg (s : State) (y : Rider) : (s.setRd y).hg = s.hg := rfl
@[simp] theorem State.setRd_rt (s : State) (y : Rider) : (s.setRd y).rt = s.rt := rfl
@[simp] theorem State.setRd_hs (s : State) (y : Rider) : (s.setRd y).hs = s.hs := rfl
@[simp] theorem State.setRd_rv (s : State) (y : Rider) : (s.setRd y).rv = s.rv := rfl
@[simp] theorem State.setRd_wires (s : State) (y : Rider) : (s.setRd y).wires = s.wires := rfl
@[simp] theorem State.setRd_credits (s : State) (y : Rider) : (s.setRd y).credits = s.credits := rfl
@[simp] theorem State.setRd_bd (s : State) (y : Rider) : (s.setRd y).bd = s.bd := rfl
@[simp] theorem State.setRd_pr (s : State) (y : Rider) : (s.setRd y).pr = s.pr := rfl
@[simp] theorem State.setRd_al (s : State) (y : Rider) : (s.setRd y).al = s.al := rfl
@[simp] theorem State.setRd_mb (s : State) (y : Rider) : (s.setRd y).mb = s.mb := rfl
@[simp] theorem State.setRd_tap (s : State) (y : Rider) : (s.setRd y).tap = s.tap := rfl
@[simp] theorem State.setRd_fcsRead (s : State) (y : Rider) : (s.setRd y).fcsRead = s.fcsRead := rfl
@[simp] theorem State.setRd_lateGua (s : State) (y : Rider) : (s.setRd y).lateGua = s.lateGua := rfl
@[simp] theorem State.setRd_freeCtr (s : State) (y : Rider) : (s.setRd y).freeCtr = s.freeCtr := rfl
@[simp] theorem State.setRd_pending (s : State) (y : Rider) : (s.setRd y).pending = s.pending := rfl

/-! ### setRv -/

@[simp] theorem State.setRv_fclk (s : State) (y : Reservoir) : (s.setRv y).fclk = s.fclk := rfl
@[simp] theorem State.setRv_regs (s : State) (y : Reservoir) : (s.setRv y).regs = s.regs := rfl
@[simp] theorem State.setRv_hg (s : State) (y : Reservoir) : (s.setRv y).hg = s.hg := rfl
@[simp] theorem State.setRv_rt (s : State) (y : Reservoir) : (s.setRv y).rt = s.rt := rfl
@[simp] theorem State.setRv_hs (s : State) (y : Reservoir) : (s.setRv y).hs = s.hs := rfl
@[simp] theorem State.setRv_wires (s : State) (y : Reservoir) : (s.setRv y).wires = s.wires := rfl
@[simp] theorem State.setRv_credits (s : State) (y : Reservoir) : (s.setRv y).credits = s.credits := rfl
@[simp] theorem State.setRv_bd (s : State) (y : Reservoir) : (s.setRv y).bd = s.bd := rfl
@[simp] theorem State.setRv_pr (s : State) (y : Reservoir) : (s.setRv y).pr = s.pr := rfl
@[simp] theorem State.setRv_al (s : State) (y : Reservoir) : (s.setRv y).al = s.al := rfl
@[simp] theorem State.setRv_rd (s : State) (y : Reservoir) : (s.setRv y).rd = s.rd := rfl
@[simp] theorem State.setRv_mb (s : State) (y : Reservoir) : (s.setRv y).mb = s.mb := rfl
@[simp] theorem State.setRv_tap (s : State) (y : Reservoir) : (s.setRv y).tap = s.tap := rfl
@[simp] theorem State.setRv_fcsRead (s : State) (y : Reservoir) : (s.setRv y).fcsRead = s.fcsRead := rfl
@[simp] theorem State.setRv_lateGua (s : State) (y : Reservoir) : (s.setRv y).lateGua = s.lateGua := rfl
@[simp] theorem State.setRv_freeCtr (s : State) (y : Reservoir) : (s.setRv y).freeCtr = s.freeCtr := rfl
@[simp] theorem State.setRv_pending (s : State) (y : Reservoir) : (s.setRv y).pending = s.pending := rfl

/-! ### setTap -/

@[simp] theorem State.setTap_fclk (s : State) (y : Tap) : (s.setTap y).fclk = s.fclk := rfl
@[simp] theorem State.setTap_regs (s : State) (y : Tap) : (s.setTap y).regs = s.regs := rfl
@[simp] theorem State.setTap_hg (s : State) (y : Tap) : (s.setTap y).hg = s.hg := rfl
@[simp] theorem State.setTap_rt (s : State) (y : Tap) : (s.setTap y).rt = s.rt := rfl
@[simp] theorem State.setTap_hs (s : State) (y : Tap) : (s.setTap y).hs = s.hs := rfl
@[simp] theorem State.setTap_rv (s : State) (y : Tap) : (s.setTap y).rv = s.rv := rfl
@[simp] theorem State.setTap_wires (s : State) (y : Tap) : (s.setTap y).wires = s.wires := rfl
@[simp] theorem State.setTap_credits (s : State) (y : Tap) : (s.setTap y).credits = s.credits := rfl
@[simp] theorem State.setTap_bd (s : State) (y : Tap) : (s.setTap y).bd = s.bd := rfl
@[simp] theorem State.setTap_pr (s : State) (y : Tap) : (s.setTap y).pr = s.pr := rfl
@[simp] theorem State.setTap_al (s : State) (y : Tap) : (s.setTap y).al = s.al := rfl
@[simp] theorem State.setTap_rd (s : State) (y : Tap) : (s.setTap y).rd = s.rd := rfl
@[simp] theorem State.setTap_mb (s : State) (y : Tap) : (s.setTap y).mb = s.mb := rfl
@[simp] theorem State.setTap_fcsRead (s : State) (y : Tap) : (s.setTap y).fcsRead = s.fcsRead := rfl
@[simp] theorem State.setTap_lateGua (s : State) (y : Tap) : (s.setTap y).lateGua = s.lateGua := rfl
@[simp] theorem State.setTap_freeCtr (s : State) (y : Tap) : (s.setTap y).freeCtr = s.freeCtr := rfl
@[simp] theorem State.setTap_pending (s : State) (y : Tap) : (s.setTap y).pending = s.pending := rfl

/-! ### setFcsRead -/

@[simp] theorem State.setFcsRead_fclk (s : State) (y : Option (BitVec 24 × Word)) : (s.setFcsRead y).fclk = s.fclk := rfl
@[simp] theorem State.setFcsRead_regs (s : State) (y : Option (BitVec 24 × Word)) : (s.setFcsRead y).regs = s.regs := rfl
@[simp] theorem State.setFcsRead_hg (s : State) (y : Option (BitVec 24 × Word)) : (s.setFcsRead y).hg = s.hg := rfl
@[simp] theorem State.setFcsRead_rt (s : State) (y : Option (BitVec 24 × Word)) : (s.setFcsRead y).rt = s.rt := rfl
@[simp] theorem State.setFcsRead_hs (s : State) (y : Option (BitVec 24 × Word)) : (s.setFcsRead y).hs = s.hs := rfl
@[simp] theorem State.setFcsRead_rv (s : State) (y : Option (BitVec 24 × Word)) : (s.setFcsRead y).rv = s.rv := rfl
@[simp] theorem State.setFcsRead_wires (s : State) (y : Option (BitVec 24 × Word)) : (s.setFcsRead y).wires = s.wires := rfl
@[simp] theorem State.setFcsRead_credits (s : State) (y : Option (BitVec 24 × Word)) : (s.setFcsRead y).credits = s.credits := rfl
@[simp] theorem State.setFcsRead_bd (s : State) (y : Option (BitVec 24 × Word)) : (s.setFcsRead y).bd = s.bd := rfl
@[simp] theorem State.setFcsRead_pr (s : State) (y : Option (BitVec 24 × Word)) : (s.setFcsRead y).pr = s.pr := rfl
@[simp] theorem State.setFcsRead_al (s : State) (y : Option (BitVec 24 × Word)) : (s.setFcsRead y).al = s.al := rfl
@[simp] theorem State.setFcsRead_rd (s : State) (y : Option (BitVec 24 × Word)) : (s.setFcsRead y).rd = s.rd := rfl
@[simp] theorem State.setFcsRead_mb (s : State) (y : Option (BitVec 24 × Word)) : (s.setFcsRead y).mb = s.mb := rfl
@[simp] theorem State.setFcsRead_tap (s : State) (y : Option (BitVec 24 × Word)) : (s.setFcsRead y).tap = s.tap := rfl
@[simp] theorem State.setFcsRead_lateGua (s : State) (y : Option (BitVec 24 × Word)) : (s.setFcsRead y).lateGua = s.lateGua := rfl
@[simp] theorem State.setFcsRead_freeCtr (s : State) (y : Option (BitVec 24 × Word)) : (s.setFcsRead y).freeCtr = s.freeCtr := rfl
@[simp] theorem State.setFcsRead_pending (s : State) (y : Option (BitVec 24 × Word)) : (s.setFcsRead y).pending = s.pending := rfl

/-! ### setLateGua -/

@[simp] theorem State.setLateGua_fclk (s : State) (y : List (Nat × Nat)) : (s.setLateGua y).fclk = s.fclk := rfl
@[simp] theorem State.setLateGua_regs (s : State) (y : List (Nat × Nat)) : (s.setLateGua y).regs = s.regs := rfl
@[simp] theorem State.setLateGua_hg (s : State) (y : List (Nat × Nat)) : (s.setLateGua y).hg = s.hg := rfl
@[simp] theorem State.setLateGua_rt (s : State) (y : List (Nat × Nat)) : (s.setLateGua y).rt = s.rt := rfl
@[simp] theorem State.setLateGua_hs (s : State) (y : List (Nat × Nat)) : (s.setLateGua y).hs = s.hs := rfl
@[simp] theorem State.setLateGua_rv (s : State) (y : List (Nat × Nat)) : (s.setLateGua y).rv = s.rv := rfl
@[simp] theorem State.setLateGua_wires (s : State) (y : List (Nat × Nat)) : (s.setLateGua y).wires = s.wires := rfl
@[simp] theorem State.setLateGua_credits (s : State) (y : List (Nat × Nat)) : (s.setLateGua y).credits = s.credits := rfl
@[simp] theorem State.setLateGua_bd (s : State) (y : List (Nat × Nat)) : (s.setLateGua y).bd = s.bd := rfl
@[simp] theorem State.setLateGua_pr (s : State) (y : List (Nat × Nat)) : (s.setLateGua y).pr = s.pr := rfl
@[simp] theorem State.setLateGua_al (s : State) (y : List (Nat × Nat)) : (s.setLateGua y).al = s.al := rfl
@[simp] theorem State.setLateGua_rd (s : State) (y : List (Nat × Nat)) : (s.setLateGua y).rd = s.rd := rfl
@[simp] theorem State.setLateGua_mb (s : State) (y : List (Nat × Nat)) : (s.setLateGua y).mb = s.mb := rfl
@[simp] theorem State.setLateGua_tap (s : State) (y : List (Nat × Nat)) : (s.setLateGua y).tap = s.tap := rfl
@[simp] theorem State.setLateGua_fcsRead (s : State) (y : List (Nat × Nat)) : (s.setLateGua y).fcsRead = s.fcsRead := rfl
@[simp] theorem State.setLateGua_freeCtr (s : State) (y : List (Nat × Nat)) : (s.setLateGua y).freeCtr = s.freeCtr := rfl
@[simp] theorem State.setLateGua_pending (s : State) (y : List (Nat × Nat)) : (s.setLateGua y).pending = s.pending := rfl

/-! ### setFreeCtr -/

@[simp] theorem State.setFreeCtr_fclk (s : State) (y : Nat) : (s.setFreeCtr y).fclk = s.fclk := rfl
@[simp] theorem State.setFreeCtr_regs (s : State) (y : Nat) : (s.setFreeCtr y).regs = s.regs := rfl
@[simp] theorem State.setFreeCtr_hg (s : State) (y : Nat) : (s.setFreeCtr y).hg = s.hg := rfl
@[simp] theorem State.setFreeCtr_rt (s : State) (y : Nat) : (s.setFreeCtr y).rt = s.rt := rfl
@[simp] theorem State.setFreeCtr_hs (s : State) (y : Nat) : (s.setFreeCtr y).hs = s.hs := rfl
@[simp] theorem State.setFreeCtr_rv (s : State) (y : Nat) : (s.setFreeCtr y).rv = s.rv := rfl
@[simp] theorem State.setFreeCtr_wires (s : State) (y : Nat) : (s.setFreeCtr y).wires = s.wires := rfl
@[simp] theorem State.setFreeCtr_credits (s : State) (y : Nat) : (s.setFreeCtr y).credits = s.credits := rfl
@[simp] theorem State.setFreeCtr_bd (s : State) (y : Nat) : (s.setFreeCtr y).bd = s.bd := rfl
@[simp] theorem State.setFreeCtr_pr (s : State) (y : Nat) : (s.setFreeCtr y).pr = s.pr := rfl
@[simp] theorem State.setFreeCtr_al (s : State) (y : Nat) : (s.setFreeCtr y).al = s.al := rfl
@[simp] theorem State.setFreeCtr_rd (s : State) (y : Nat) : (s.setFreeCtr y).rd = s.rd := rfl
@[simp] theorem State.setFreeCtr_mb (s : State) (y : Nat) : (s.setFreeCtr y).mb = s.mb := rfl
@[simp] theorem State.setFreeCtr_tap (s : State) (y : Nat) : (s.setFreeCtr y).tap = s.tap := rfl
@[simp] theorem State.setFreeCtr_fcsRead (s : State) (y : Nat) : (s.setFreeCtr y).fcsRead = s.fcsRead := rfl
@[simp] theorem State.setFreeCtr_lateGua (s : State) (y : Nat) : (s.setFreeCtr y).lateGua = s.lateGua := rfl
@[simp] theorem State.setFreeCtr_pending (s : State) (y : Nat) : (s.setFreeCtr y).pending = s.pending := rfl

/-! ### Pieces replaced whole -/

@[simp] theorem State.setCredits_credits (s : State) (y : Tab (List (BitVec 4))) : (s.setCredits y).credits = y := rfl
@[simp] theorem State.setBd_bd (s : State) (y : Boundary) : (s.setBd y).bd = y := rfl
@[simp] theorem State.setPr_pr (s : State) (y : Probes) : (s.setPr y).pr = y := rfl
@[simp] theorem State.setAl_al (s : State) (y : Alarms) : (s.setAl y).al = y := rfl
@[simp] theorem State.setRd_rd (s : State) (y : Rider) : (s.setRd y).rd = y := rfl
@[simp] theorem State.setRv_rv (s : State) (y : Reservoir) : (s.setRv y).rv = y := rfl
@[simp] theorem State.setTap_tap (s : State) (y : Tap) : (s.setTap y).tap = y := rfl
@[simp] theorem State.setFcsRead_fcsRead (s : State) (y : Option (BitVec 24 × Word)) : (s.setFcsRead y).fcsRead = y := rfl
@[simp] theorem State.setLateGua_lateGua (s : State) (y : List (Nat × Nat)) : (s.setLateGua y).lateGua = y := rfl
@[simp] theorem State.setFreeCtr_freeCtr (s : State) (y : Nat) : (s.setFreeCtr y).freeCtr = y := rfl
@[simp] theorem State.advanceTo_fclk (s : State) (t : Nat) : (s.advanceTo t).fclk = max s.fclk t := rfl

/-! ### Derived updates -/

@[simp] theorem State.updHg_eq (s : State) (n : Nat) (f : Headgate → Headgate) : s.updHg n f = s.setHg n (f (s.hgAt n)) := rfl
@[simp] theorem State.updRt_eq (s : State) (i : Nat) (f : Router → Router) : s.updRt i f = s.setRt i (f (s.rtAt i)) := rfl
@[simp] theorem State.updHs_eq (s : State) (k : Nat) (f : Slice → Slice) : s.updHs k f = s.setHs k (f (s.hsAt k)) := rfl
@[simp] theorem State.updMb_eq (s : State) (m : Nat) (f : Mailbox → Mailbox) : s.updMb m f = s.setMb m (f (s.mbAt m)) := rfl
@[simp] theorem State.pushWire_eq (s : State) (e : LEnd) (fs : List Flit) : s.pushWire e fs = s.setWire e (s.wire e ++ fs) := rfl
@[simp] theorem State.hgAlarm_eq (s : State) (n : Nat) (typ : BitVec 8) (d : Nat) :
    s.hgAlarm n typ d = s.alarm (stHg n) typ n d := rfl
@[simp] theorem State.setF_eq (s : State) (off lo len v : Nat) :
    s.setF off lo len v = s.setReg off (setField (s.reg off) lo len v) := rfl
@[simp] theorem State.setB_eq (s : State) (off i : Nat) (b : Bool) :
    s.setB off i b = s.setReg off (setBit (s.reg off) i b) := rfl
@[simp] theorem State.bump_eq (s : State) (off k : Nat) :
    s.bump off k = s.setReg off (BitVec.ofNat 64 (satAdd 32 (s.reg off).toNat k)) := rfl

/-! ### Reads after writes -/

@[simp] theorem State.hgAt_setHg_same (s : State) (n : Nat) (h : Headgate) : (s.setHg n h).hgAt n = h :=
  Tab.get_set_same _ _ _ _
theorem State.hgAt_setHg_other (s : State) (n m : Nat) (h : Headgate) (hne : m ≠ n) : (s.setHg n h).hgAt m = s.hgAt m :=
  Tab.get_set_other _ _ _ _ _ hne
@[simp] theorem State.rtAt_setRt_same (s : State) (i : Nat) (r : Router) : (s.setRt i r).rtAt i = r :=
  Tab.get_set_same _ _ _ _
theorem State.rtAt_setRt_other (s : State) (i j : Nat) (r : Router) (hne : j ≠ i) : (s.setRt i r).rtAt j = s.rtAt j :=
  Tab.get_set_other _ _ _ _ _ hne
@[simp] theorem State.hsAt_setHs_same (s : State) (k : Nat) (x : Slice) : (s.setHs k x).hsAt k = x :=
  Tab.get_set_same _ _ _ _
theorem State.hsAt_setHs_other (s : State) (k j : Nat) (x : Slice) (hne : j ≠ k) : (s.setHs k x).hsAt j = s.hsAt j :=
  Tab.get_set_other _ _ _ _ _ hne
@[simp] theorem State.mbAt_setMb_same (s : State) (m : Nat) (x : Mailbox) : (s.setMb m x).mbAt m = x :=
  Tab.get_set_same _ _ _ _
theorem State.mbAt_setMb_other (s : State) (m j : Nat) (x : Mailbox) (hne : j ≠ m) : (s.setMb m x).mbAt j = s.mbAt j :=
  Tab.get_set_other _ _ _ _ _ hne
@[simp] theorem State.bankAt_setBank_same (s : State) (b : Nat) (x : BankSt) : (s.setBank b x).bankAt b = x :=
  Tab.get_set_same _ _ _ _
theorem State.bankAt_setBank_other (s : State) (b c : Nat) (x : BankSt) (hne : c ≠ b) : (s.setBank b x).bankAt c = s.bankAt c :=
  Tab.get_set_other _ _ _ _ _ hne
@[simp] theorem State.wire_setWire_same (s : State) (e : LEnd) (fs : List Flit) : (s.setWire e fs).wire e = fs :=
  Tab.get_set_same _ _ _ _

/-- A register reads as what was written last. -/
@[simp] theorem State.reg_setReg_same (s : State) (off : Nat) (v : Word) : (s.setReg off v).reg off = v :=
  Tab.get_put_same _ _ _ _
/-- A register write leaves every other register as it was. -/
theorem State.reg_setReg_other (s : State) (off o : Nat) (v : Word) (hne : o ≠ off) : (s.setReg off v).reg o = s.reg o :=
  Tab.get_put_other _ _ _ _ _ _ hne


/-! ### Parts through other updates -/

@[simp] theorem State.rtAt_setHg (s : State) (n : Nat) (h : Headgate) (x' : Nat) : (s.setHg n h).rtAt x' = s.rtAt x' := rfl
@[simp] theorem State.hsAt_setHg (s : State) (n : Nat) (h : Headgate) (x' : Nat) : (s.setHg n h).hsAt x' = s.hsAt x' := rfl
@[simp] theorem State.mbAt_setHg (s : State) (n : Nat) (h : Headgate) (x' : Nat) : (s.setHg n h).mbAt x' = s.mbAt x' := rfl
@[simp] theorem State.bankAt_setHg (s : State) (n : Nat) (h : Headgate) (x' : Nat) : (s.setHg n h).bankAt x' = s.bankAt x' := rfl
@[simp] theorem State.reg_setHg (s : State) (n : Nat) (h : Headgate) (x' : Nat) : (s.setHg n h).reg x' = s.reg x' := rfl
@[simp] theorem State.wire_setHg (s : State) (n : Nat) (h : Headgate) (e' : LEnd) : (s.setHg n h).wire e' = s.wire e' := rfl
@[simp] theorem State.hgAt_setRt (s : State) (i : Nat) (r : Router) (x' : Nat) : (s.setRt i r).hgAt x' = s.hgAt x' := rfl
@[simp] theorem State.hsAt_setRt (s : State) (i : Nat) (r : Router) (x' : Nat) : (s.setRt i r).hsAt x' = s.hsAt x' := rfl
@[simp] theorem State.mbAt_setRt (s : State) (i : Nat) (r : Router) (x' : Nat) : (s.setRt i r).mbAt x' = s.mbAt x' := rfl
@[simp] theorem State.bankAt_setRt (s : State) (i : Nat) (r : Router) (x' : Nat) : (s.setRt i r).bankAt x' = s.bankAt x' := rfl
@[simp] theorem State.reg_setRt (s : State) (i : Nat) (r : Router) (x' : Nat) : (s.setRt i r).reg x' = s.reg x' := rfl
@[simp] theorem State.wire_setRt (s : State) (i : Nat) (r : Router) (e' : LEnd) : (s.setRt i r).wire e' = s.wire e' := rfl
@[simp] theorem State.hgAt_setHs (s : State) (k : Nat) (x : Slice) (x' : Nat) : (s.setHs k x).hgAt x' = s.hgAt x' := rfl
@[simp] theorem State.rtAt_setHs (s : State) (k : Nat) (x : Slice) (x' : Nat) : (s.setHs k x).rtAt x' = s.rtAt x' := rfl
@[simp] theorem State.mbAt_setHs (s : State) (k : Nat) (x : Slice) (x' : Nat) : (s.setHs k x).mbAt x' = s.mbAt x' := rfl
@[simp] theorem State.bankAt_setHs (s : State) (k : Nat) (x : Slice) (x' : Nat) : (s.setHs k x).bankAt x' = s.bankAt x' := rfl
@[simp] theorem State.reg_setHs (s : State) (k : Nat) (x : Slice) (x' : Nat) : (s.setHs k x).reg x' = s.reg x' := rfl
@[simp] theorem State.wire_setHs (s : State) (k : Nat) (x : Slice) (e' : LEnd) : (s.setHs k x).wire e' = s.wire e' := rfl
@[simp] theorem State.hgAt_setMb (s : State) (m : Nat) (x : Mailbox) (x' : Nat) : (s.setMb m x).hgAt x' = s.hgAt x' := rfl
@[simp] theorem State.rtAt_setMb (s : State) (m : Nat) (x : Mailbox) (x' : Nat) : (s.setMb m x).rtAt x' = s.rtAt x' := rfl
@[simp] theorem State.hsAt_setMb (s : State) (m : Nat) (x : Mailbox) (x' : Nat) : (s.setMb m x).hsAt x' = s.hsAt x' := rfl
@[simp] theorem State.bankAt_setMb (s : State) (m : Nat) (x : Mailbox) (x' : Nat) : (s.setMb m x).bankAt x' = s.bankAt x' := rfl
@[simp] theorem State.reg_setMb (s : State) (m : Nat) (x : Mailbox) (x' : Nat) : (s.setMb m x).reg x' = s.reg x' := rfl
@[simp] theorem State.wire_setMb (s : State) (m : Nat) (x : Mailbox) (e' : LEnd) : (s.setMb m x).wire e' = s.wire e' := rfl
@[simp] theorem State.hgAt_setBank (s : State) (b : Nat) (x : BankSt) (x' : Nat) : (s.setBank b x).hgAt x' = s.hgAt x' := rfl
@[simp] theorem State.rtAt_setBank (s : State) (b : Nat) (x : BankSt) (x' : Nat) : (s.setBank b x).rtAt x' = s.rtAt x' := rfl
@[simp] theorem State.hsAt_setBank (s : State) (b : Nat) (x : BankSt) (x' : Nat) : (s.setBank b x).hsAt x' = s.hsAt x' := rfl
@[simp] theorem State.mbAt_setBank (s : State) (b : Nat) (x : BankSt) (x' : Nat) : (s.setBank b x).mbAt x' = s.mbAt x' := rfl
@[simp] theorem State.reg_setBank (s : State) (b : Nat) (x : BankSt) (x' : Nat) : (s.setBank b x).reg x' = s.reg x' := rfl
@[simp] theorem State.wire_setBank (s : State) (b : Nat) (x : BankSt) (e' : LEnd) : (s.setBank b x).wire e' = s.wire e' := rfl
@[simp] theorem State.hgAt_setReg (s : State) (off : Nat) (v : Word) (x' : Nat) : (s.setReg off v).hgAt x' = s.hgAt x' := rfl
@[simp] theorem State.rtAt_setReg (s : State) (off : Nat) (v : Word) (x' : Nat) : (s.setReg off v).rtAt x' = s.rtAt x' := rfl
@[simp] theorem State.hsAt_setReg (s : State) (off : Nat) (v : Word) (x' : Nat) : (s.setReg off v).hsAt x' = s.hsAt x' := rfl
@[simp] theorem State.mbAt_setReg (s : State) (off : Nat) (v : Word) (x' : Nat) : (s.setReg off v).mbAt x' = s.mbAt x' := rfl
@[simp] theorem State.bankAt_setReg (s : State) (off : Nat) (v : Word) (x' : Nat) : (s.setReg off v).bankAt x' = s.bankAt x' := rfl
@[simp] theorem State.wire_setReg (s : State) (off : Nat) (v : Word) (e' : LEnd) : (s.setReg off v).wire e' = s.wire e' := rfl
@[simp] theorem State.hgAt_draw (s : State) (x' : Nat) : (s.draw.2).hgAt x' = s.hgAt x' := rfl
@[simp] theorem State.rtAt_draw (s : State) (x' : Nat) : (s.draw.2).rtAt x' = s.rtAt x' := rfl
@[simp] theorem State.hsAt_draw (s : State) (x' : Nat) : (s.draw.2).hsAt x' = s.hsAt x' := rfl
@[simp] theorem State.mbAt_draw (s : State) (x' : Nat) : (s.draw.2).mbAt x' = s.mbAt x' := rfl
@[simp] theorem State.bankAt_draw (s : State) (x' : Nat) : (s.draw.2).bankAt x' = s.bankAt x' := rfl
@[simp] theorem State.reg_draw (s : State) (x' : Nat) : (s.draw.2).reg x' = s.reg x' := rfl
@[simp] theorem State.wire_draw (s : State) (e' : LEnd) : (s.draw.2).wire e' = s.wire e' := rfl
@[simp] theorem State.hgAt_advanceTo (s : State) (t : Nat) (x' : Nat) : (s.advanceTo t).hgAt x' = s.hgAt x' := rfl
@[simp] theorem State.rtAt_advanceTo (s : State) (t : Nat) (x' : Nat) : (s.advanceTo t).rtAt x' = s.rtAt x' := rfl
@[simp] theorem State.hsAt_advanceTo (s : State) (t : Nat) (x' : Nat) : (s.advanceTo t).hsAt x' = s.hsAt x' := rfl
@[simp] theorem State.mbAt_advanceTo (s : State) (t : Nat) (x' : Nat) : (s.advanceTo t).mbAt x' = s.mbAt x' := rfl
@[simp] theorem State.bankAt_advanceTo (s : State) (t : Nat) (x' : Nat) : (s.advanceTo t).bankAt x' = s.bankAt x' := rfl
@[simp] theorem State.reg_advanceTo (s : State) (t : Nat) (x' : Nat) : (s.advanceTo t).reg x' = s.reg x' := rfl
@[simp] theorem State.wire_advanceTo (s : State) (t : Nat) (e' : LEnd) : (s.advanceTo t).wire e' = s.wire e' := rfl
@[simp] theorem State.hgAt_alarm (s : State) (station : Nat) (typ : BitVec 8) (src detail : Nat) (x' : Nat) : (s.alarm station typ src detail).hgAt x' = s.hgAt x' := rfl
@[simp] theorem State.rtAt_alarm (s : State) (station : Nat) (typ : BitVec 8) (src detail : Nat) (x' : Nat) : (s.alarm station typ src detail).rtAt x' = s.rtAt x' := rfl
@[simp] theorem State.hsAt_alarm (s : State) (station : Nat) (typ : BitVec 8) (src detail : Nat) (x' : Nat) : (s.alarm station typ src detail).hsAt x' = s.hsAt x' := rfl
@[simp] theorem State.mbAt_alarm (s : State) (station : Nat) (typ : BitVec 8) (src detail : Nat) (x' : Nat) : (s.alarm station typ src detail).mbAt x' = s.mbAt x' := rfl
@[simp] theorem State.bankAt_alarm (s : State) (station : Nat) (typ : BitVec 8) (src detail : Nat) (x' : Nat) : (s.alarm station typ src detail).bankAt x' = s.bankAt x' := rfl
@[simp] theorem State.reg_alarm (s : State) (station : Nat) (typ : BitVec 8) (src detail : Nat) (x' : Nat) : (s.alarm station typ src detail).reg x' = s.reg x' := rfl
@[simp] theorem State.wire_alarm (s : State) (station : Nat) (typ : BitVec 8) (src detail : Nat) (e' : LEnd) : (s.alarm station typ src detail).wire e' = s.wire e' := rfl
@[simp] theorem State.hgAt_count (s : State) (key k : Nat) (x' : Nat) : (s.count key k).hgAt x' = s.hgAt x' := rfl
@[simp] theorem State.rtAt_count (s : State) (key k : Nat) (x' : Nat) : (s.count key k).rtAt x' = s.rtAt x' := rfl
@[simp] theorem State.hsAt_count (s : State) (key k : Nat) (x' : Nat) : (s.count key k).hsAt x' = s.hsAt x' := rfl
@[simp] theorem State.mbAt_count (s : State) (key k : Nat) (x' : Nat) : (s.count key k).mbAt x' = s.mbAt x' := rfl
@[simp] theorem State.bankAt_count (s : State) (key k : Nat) (x' : Nat) : (s.count key k).bankAt x' = s.bankAt x' := rfl
@[simp] theorem State.reg_count (s : State) (key k : Nat) (x' : Nat) : (s.count key k).reg x' = s.reg x' := rfl
@[simp] theorem State.wire_count (s : State) (key k : Nat) (e' : LEnd) : (s.count key k).wire e' = s.wire e' := rfl
@[simp] theorem State.hgAt_observe (s : State) (atHg : Bool) (wher port : Nat) (f : Flit) (x' : Nat) : (s.observe atHg wher port f).hgAt x' = s.hgAt x' := rfl
@[simp] theorem State.rtAt_observe (s : State) (atHg : Bool) (wher port : Nat) (f : Flit) (x' : Nat) : (s.observe atHg wher port f).rtAt x' = s.rtAt x' := rfl
@[simp] theorem State.hsAt_observe (s : State) (atHg : Bool) (wher port : Nat) (f : Flit) (x' : Nat) : (s.observe atHg wher port f).hsAt x' = s.hsAt x' := rfl
@[simp] theorem State.mbAt_observe (s : State) (atHg : Bool) (wher port : Nat) (f : Flit) (x' : Nat) : (s.observe atHg wher port f).mbAt x' = s.mbAt x' := rfl
@[simp] theorem State.bankAt_observe (s : State) (atHg : Bool) (wher port : Nat) (f : Flit) (x' : Nat) : (s.observe atHg wher port f).bankAt x' = s.bankAt x' := rfl
@[simp] theorem State.reg_observe (s : State) (atHg : Bool) (wher port : Nat) (f : Flit) (x' : Nat) : (s.observe atHg wher port f).reg x' = s.reg x' := rfl
@[simp] theorem State.wire_observe (s : State) (atHg : Bool) (wher port : Nat) (f : Flit) (e' : LEnd) : (s.observe atHg wher port f).wire e' = s.wire e' := rfl
@[simp] theorem State.hgAt_setWire (s : State) (e : LEnd) (fs : List Flit) (x' : Nat) : (s.setWire e fs).hgAt x' = s.hgAt x' := rfl
@[simp] theorem State.rtAt_setWire (s : State) (e : LEnd) (fs : List Flit) (x' : Nat) : (s.setWire e fs).rtAt x' = s.rtAt x' := rfl
@[simp] theorem State.hsAt_setWire (s : State) (e : LEnd) (fs : List Flit) (x' : Nat) : (s.setWire e fs).hsAt x' = s.hsAt x' := rfl
@[simp] theorem State.mbAt_setWire (s : State) (e : LEnd) (fs : List Flit) (x' : Nat) : (s.setWire e fs).mbAt x' = s.mbAt x' := rfl
@[simp] theorem State.bankAt_setWire (s : State) (e : LEnd) (fs : List Flit) (x' : Nat) : (s.setWire e fs).bankAt x' = s.bankAt x' := rfl
@[simp] theorem State.reg_setWire (s : State) (e : LEnd) (fs : List Flit) (x' : Nat) : (s.setWire e fs).reg x' = s.reg x' := rfl
@[simp] theorem State.hgAt_pushCredit (s : State) (e : LEnd) (v : Nat) (x' : Nat) : (s.pushCredit e v).hgAt x' = s.hgAt x' := rfl
@[simp] theorem State.rtAt_pushCredit (s : State) (e : LEnd) (v : Nat) (x' : Nat) : (s.pushCredit e v).rtAt x' = s.rtAt x' := rfl
@[simp] theorem State.hsAt_pushCredit (s : State) (e : LEnd) (v : Nat) (x' : Nat) : (s.pushCredit e v).hsAt x' = s.hsAt x' := rfl
@[simp] theorem State.mbAt_pushCredit (s : State) (e : LEnd) (v : Nat) (x' : Nat) : (s.pushCredit e v).mbAt x' = s.mbAt x' := rfl
@[simp] theorem State.bankAt_pushCredit (s : State) (e : LEnd) (v : Nat) (x' : Nat) : (s.pushCredit e v).bankAt x' = s.bankAt x' := rfl
@[simp] theorem State.reg_pushCredit (s : State) (e : LEnd) (v : Nat) (x' : Nat) : (s.pushCredit e v).reg x' = s.reg x' := rfl
@[simp] theorem State.wire_pushCredit (s : State) (e : LEnd) (v : Nat) (e' : LEnd) : (s.pushCredit e v).wire e' = s.wire e' := rfl
@[simp] theorem State.hgAt_setCredits (s : State) (y : Tab (List (BitVec 4))) (x' : Nat) : (s.setCredits y).hgAt x' = s.hgAt x' := rfl
@[simp] theorem State.rtAt_setCredits (s : State) (y : Tab (List (BitVec 4))) (x' : Nat) : (s.setCredits y).rtAt x' = s.rtAt x' := rfl
@[simp] theorem State.hsAt_setCredits (s : State) (y : Tab (List (BitVec 4))) (x' : Nat) : (s.setCredits y).hsAt x' = s.hsAt x' := rfl
@[simp] theorem State.mbAt_setCredits (s : State) (y : Tab (List (BitVec 4))) (x' : Nat) : (s.setCredits y).mbAt x' = s.mbAt x' := rfl
@[simp] theorem State.bankAt_setCredits (s : State) (y : Tab (List (BitVec 4))) (x' : Nat) : (s.setCredits y).bankAt x' = s.bankAt x' := rfl
@[simp] theorem State.reg_setCredits (s : State) (y : Tab (List (BitVec 4))) (x' : Nat) : (s.setCredits y).reg x' = s.reg x' := rfl
@[simp] theorem State.wire_setCredits (s : State) (y : Tab (List (BitVec 4))) (e' : LEnd) : (s.setCredits y).wire e' = s.wire e' := rfl
@[simp] theorem State.hgAt_setBd (s : State) (y : Boundary) (x' : Nat) : (s.setBd y).hgAt x' = s.hgAt x' := rfl
@[simp] theorem State.rtAt_setBd (s : State) (y : Boundary) (x' : Nat) : (s.setBd y).rtAt x' = s.rtAt x' := rfl
@[simp] theorem State.hsAt_setBd (s : State) (y : Boundary) (x' : Nat) : (s.setBd y).hsAt x' = s.hsAt x' := rfl
@[simp] theorem State.mbAt_setBd (s : State) (y : Boundary) (x' : Nat) : (s.setBd y).mbAt x' = s.mbAt x' := rfl
@[simp] theorem State.bankAt_setBd (s : State) (y : Boundary) (x' : Nat) : (s.setBd y).bankAt x' = s.bankAt x' := rfl
@[simp] theorem State.reg_setBd (s : State) (y : Boundary) (x' : Nat) : (s.setBd y).reg x' = s.reg x' := rfl
@[simp] theorem State.wire_setBd (s : State) (y : Boundary) (e' : LEnd) : (s.setBd y).wire e' = s.wire e' := rfl
@[simp] theorem State.hgAt_setPr (s : State) (y : Probes) (x' : Nat) : (s.setPr y).hgAt x' = s.hgAt x' := rfl
@[simp] theorem State.rtAt_setPr (s : State) (y : Probes) (x' : Nat) : (s.setPr y).rtAt x' = s.rtAt x' := rfl
@[simp] theorem State.hsAt_setPr (s : State) (y : Probes) (x' : Nat) : (s.setPr y).hsAt x' = s.hsAt x' := rfl
@[simp] theorem State.mbAt_setPr (s : State) (y : Probes) (x' : Nat) : (s.setPr y).mbAt x' = s.mbAt x' := rfl
@[simp] theorem State.bankAt_setPr (s : State) (y : Probes) (x' : Nat) : (s.setPr y).bankAt x' = s.bankAt x' := rfl
@[simp] theorem State.reg_setPr (s : State) (y : Probes) (x' : Nat) : (s.setPr y).reg x' = s.reg x' := rfl
@[simp] theorem State.wire_setPr (s : State) (y : Probes) (e' : LEnd) : (s.setPr y).wire e' = s.wire e' := rfl
@[simp] theorem State.hgAt_setAl (s : State) (y : Alarms) (x' : Nat) : (s.setAl y).hgAt x' = s.hgAt x' := rfl
@[simp] theorem State.rtAt_setAl (s : State) (y : Alarms) (x' : Nat) : (s.setAl y).rtAt x' = s.rtAt x' := rfl
@[simp] theorem State.hsAt_setAl (s : State) (y : Alarms) (x' : Nat) : (s.setAl y).hsAt x' = s.hsAt x' := rfl
@[simp] theorem State.mbAt_setAl (s : State) (y : Alarms) (x' : Nat) : (s.setAl y).mbAt x' = s.mbAt x' := rfl
@[simp] theorem State.bankAt_setAl (s : State) (y : Alarms) (x' : Nat) : (s.setAl y).bankAt x' = s.bankAt x' := rfl
@[simp] theorem State.reg_setAl (s : State) (y : Alarms) (x' : Nat) : (s.setAl y).reg x' = s.reg x' := rfl
@[simp] theorem State.wire_setAl (s : State) (y : Alarms) (e' : LEnd) : (s.setAl y).wire e' = s.wire e' := rfl
@[simp] theorem State.hgAt_setRd (s : State) (y : Rider) (x' : Nat) : (s.setRd y).hgAt x' = s.hgAt x' := rfl
@[simp] theorem State.rtAt_setRd (s : State) (y : Rider) (x' : Nat) : (s.setRd y).rtAt x' = s.rtAt x' := rfl
@[simp] theorem State.hsAt_setRd (s : State) (y : Rider) (x' : Nat) : (s.setRd y).hsAt x' = s.hsAt x' := rfl
@[simp] theorem State.mbAt_setRd (s : State) (y : Rider) (x' : Nat) : (s.setRd y).mbAt x' = s.mbAt x' := rfl
@[simp] theorem State.bankAt_setRd (s : State) (y : Rider) (x' : Nat) : (s.setRd y).bankAt x' = s.bankAt x' := rfl
@[simp] theorem State.reg_setRd (s : State) (y : Rider) (x' : Nat) : (s.setRd y).reg x' = s.reg x' := rfl
@[simp] theorem State.wire_setRd (s : State) (y : Rider) (e' : LEnd) : (s.setRd y).wire e' = s.wire e' := rfl
@[simp] theorem State.hgAt_setRv (s : State) (y : Reservoir) (x' : Nat) : (s.setRv y).hgAt x' = s.hgAt x' := rfl
@[simp] theorem State.rtAt_setRv (s : State) (y : Reservoir) (x' : Nat) : (s.setRv y).rtAt x' = s.rtAt x' := rfl
@[simp] theorem State.hsAt_setRv (s : State) (y : Reservoir) (x' : Nat) : (s.setRv y).hsAt x' = s.hsAt x' := rfl
@[simp] theorem State.mbAt_setRv (s : State) (y : Reservoir) (x' : Nat) : (s.setRv y).mbAt x' = s.mbAt x' := rfl
@[simp] theorem State.reg_setRv (s : State) (y : Reservoir) (x' : Nat) : (s.setRv y).reg x' = s.reg x' := rfl
@[simp] theorem State.wire_setRv (s : State) (y : Reservoir) (e' : LEnd) : (s.setRv y).wire e' = s.wire e' := rfl
@[simp] theorem State.hgAt_setTap (s : State) (y : Tap) (x' : Nat) : (s.setTap y).hgAt x' = s.hgAt x' := rfl
@[simp] theorem State.rtAt_setTap (s : State) (y : Tap) (x' : Nat) : (s.setTap y).rtAt x' = s.rtAt x' := rfl
@[simp] theorem State.hsAt_setTap (s : State) (y : Tap) (x' : Nat) : (s.setTap y).hsAt x' = s.hsAt x' := rfl
@[simp] theorem State.mbAt_setTap (s : State) (y : Tap) (x' : Nat) : (s.setTap y).mbAt x' = s.mbAt x' := rfl
@[simp] theorem State.bankAt_setTap (s : State) (y : Tap) (x' : Nat) : (s.setTap y).bankAt x' = s.bankAt x' := rfl
@[simp] theorem State.reg_setTap (s : State) (y : Tap) (x' : Nat) : (s.setTap y).reg x' = s.reg x' := rfl
@[simp] theorem State.wire_setTap (s : State) (y : Tap) (e' : LEnd) : (s.setTap y).wire e' = s.wire e' := rfl
@[simp] theorem State.hgAt_setFcsRead (s : State) (y : Option (BitVec 24 × Word)) (x' : Nat) : (s.setFcsRead y).hgAt x' = s.hgAt x' := rfl
@[simp] theorem State.rtAt_setFcsRead (s : State) (y : Option (BitVec 24 × Word)) (x' : Nat) : (s.setFcsRead y).rtAt x' = s.rtAt x' := rfl
@[simp] theorem State.hsAt_setFcsRead (s : State) (y : Option (BitVec 24 × Word)) (x' : Nat) : (s.setFcsRead y).hsAt x' = s.hsAt x' := rfl
@[simp] theorem State.mbAt_setFcsRead (s : State) (y : Option (BitVec 24 × Word)) (x' : Nat) : (s.setFcsRead y).mbAt x' = s.mbAt x' := rfl
@[simp] theorem State.bankAt_setFcsRead (s : State) (y : Option (BitVec 24 × Word)) (x' : Nat) : (s.setFcsRead y).bankAt x' = s.bankAt x' := rfl
@[simp] theorem State.reg_setFcsRead (s : State) (y : Option (BitVec 24 × Word)) (x' : Nat) : (s.setFcsRead y).reg x' = s.reg x' := rfl
@[simp] theorem State.wire_setFcsRead (s : State) (y : Option (BitVec 24 × Word)) (e' : LEnd) : (s.setFcsRead y).wire e' = s.wire e' := rfl
@[simp] theorem State.hgAt_setLateGua (s : State) (y : List (Nat × Nat)) (x' : Nat) : (s.setLateGua y).hgAt x' = s.hgAt x' := rfl
@[simp] theorem State.rtAt_setLateGua (s : State) (y : List (Nat × Nat)) (x' : Nat) : (s.setLateGua y).rtAt x' = s.rtAt x' := rfl
@[simp] theorem State.hsAt_setLateGua (s : State) (y : List (Nat × Nat)) (x' : Nat) : (s.setLateGua y).hsAt x' = s.hsAt x' := rfl
@[simp] theorem State.mbAt_setLateGua (s : State) (y : List (Nat × Nat)) (x' : Nat) : (s.setLateGua y).mbAt x' = s.mbAt x' := rfl
@[simp] theorem State.bankAt_setLateGua (s : State) (y : List (Nat × Nat)) (x' : Nat) : (s.setLateGua y).bankAt x' = s.bankAt x' := rfl
@[simp] theorem State.reg_setLateGua (s : State) (y : List (Nat × Nat)) (x' : Nat) : (s.setLateGua y).reg x' = s.reg x' := rfl
@[simp] theorem State.wire_setLateGua (s : State) (y : List (Nat × Nat)) (e' : LEnd) : (s.setLateGua y).wire e' = s.wire e' := rfl
@[simp] theorem State.hgAt_setFreeCtr (s : State) (y : Nat) (x' : Nat) : (s.setFreeCtr y).hgAt x' = s.hgAt x' := rfl
@[simp] theorem State.rtAt_setFreeCtr (s : State) (y : Nat) (x' : Nat) : (s.setFreeCtr y).rtAt x' = s.rtAt x' := rfl
@[simp] theorem State.hsAt_setFreeCtr (s : State) (y : Nat) (x' : Nat) : (s.setFreeCtr y).hsAt x' = s.hsAt x' := rfl
@[simp] theorem State.mbAt_setFreeCtr (s : State) (y : Nat) (x' : Nat) : (s.setFreeCtr y).mbAt x' = s.mbAt x' := rfl
@[simp] theorem State.bankAt_setFreeCtr (s : State) (y : Nat) (x' : Nat) : (s.setFreeCtr y).bankAt x' = s.bankAt x' := rfl
@[simp] theorem State.reg_setFreeCtr (s : State) (y : Nat) (x' : Nat) : (s.setFreeCtr y).reg x' = s.reg x' := rfl
@[simp] theorem State.wire_setFreeCtr (s : State) (y : Nat) (e' : LEnd) : (s.setFreeCtr y).wire e' = s.wire e' := rfl

end Sys2Proof.Machine
end

