-- ==== Sys2Proof/Laws/Frame.lean ====
section
/-! SUPPORT. `sameExcept` and `canonical` through updates, branches and loops: an operation that changes only listed pieces does
not matter for the others, and every update keeps the canonical form. -/

namespace Sys2Proof.Machine

theorem sameExcept_refl (ps : List Piece) (s : State) : sameExcept ps s s := by intro p _; cases p <;> rfl

/-- A change within the listed pieces does not matter. -/
theorem sameExcept_iff {ps : List Piece} {x y : State} (h : sameExcept ps x y) (s : State) :
    sameExcept ps s y ↔ sameExcept ps s x := by
  constructor
  · intro h1 p hp
    have := h p hp; have := h1 p hp
    cases p <;> simp_all [Piece.same]
  · intro h1 p hp
    have := h p hp; have := h1 p hp
    cases p <;> simp_all [Piece.same]

theorem sameExcept_mono {ps qs : List Piece} {s t : State} (h : sameExcept ps s t) (hs : ps ⊆ qs) : sameExcept qs s t :=
  fun p hp => h p (fun hm => hp (hs hm))

theorem sameExcept_trans {ps : List Piece} {s t u : State} (h : sameExcept ps s t) (h' : sameExcept ps t u) : sameExcept ps s u :=
  (sameExcept_iff h' s).mpr h

/-- The same for a longer list, in the form the simplifier uses. -/
theorem sameExcept_through {ps qs : List Piece} {x y : State} (h : sameExcept ps x y) (hs : ps.all (qs.contains ·) = true)
    (s : State) : sameExcept qs s y ↔ sameExcept qs s x :=
  sameExcept_iff (sameExcept_mono h (by intro p hp; simpa using (List.all_eq_true.mp hs p hp))) s

@[simp] theorem sameExcept_self (ps : List Piece) (s : State) : sameExcept ps s s ↔ True := iff_true_intro (sameExcept_refl ps s)

/-! ### Branches and loops -/

@[simp ↓] theorem sameExcept_ite (ps : List Piece) (s : State) (c : Prop) [Decidable c] (a b : State) :
    sameExcept ps s (if c then a else b) ↔ (c → sameExcept ps s a) ∧ (¬c → sameExcept ps s b) := by
  split <;> simp_all
@[simp ↓] theorem sameExcept_ite1 {α : Type} (ps : List Piece) (s : State) (c : Prop) [Decidable c] (a b : State × α) :
    sameExcept ps s (if c then a else b).1 ↔ (c → sameExcept ps s a.1) ∧ (¬c → sameExcept ps s b.1) := by
  split <;> simp_all
@[simp ↓] theorem sameExcept_ite2 {α : Type} (ps : List Piece) (s : State) (c : Prop) [Decidable c] (a b : α × State) :
    sameExcept ps s (if c then a else b).2 ↔ (c → sameExcept ps s a.2) ∧ (¬c → sameExcept ps s b.2) := by
  split <;> simp_all

theorem sameExcept_foldl {α : Type} (ps : List Piece) (l : List α) (g : State → α → State)
    (h : ∀ t x, sameExcept ps t (g t x)) (s t : State) : sameExcept ps s (l.foldl g t) ↔ sameExcept ps s t := by
  induction l generalizing t with
  | nil => rfl
  | cons x xs ih => rw [List.foldl_cons, ih]; exact sameExcept_iff (h t x) s
theorem sameExcept_foldl2 {α β : Type} (ps : List Piece) (l : List α) (g : β × State → α → β × State)
    (h : ∀ t x, sameExcept ps t.2 (g t x).2) (s : State) (t : β × State) :
    sameExcept ps s (l.foldl g t).2 ↔ sameExcept ps s t.2 := by
  induction l generalizing t with
  | nil => rfl
  | cons x xs ih => rw [List.foldl_cons, ih]; exact sameExcept_iff (h t x) s
theorem sameExcept_foldl1 {α β : Type} (ps : List Piece) (l : List α) (g : State × β → α → State × β)
    (h : ∀ t x, sameExcept ps t.1 (g t x).1) (s : State) (t : State × β) :
    sameExcept ps s (l.foldl g t).1 ↔ sameExcept ps s t.1 := by
  induction l generalizing t with
  | nil => rfl
  | cons x xs ih => rw [List.foldl_cons, ih]; exact sameExcept_iff (h t x) s
theorem sameExcept_forEach {α : Type} (ps : List Piece) (l : List α) (g : α → State → State)
    (h : ∀ t x, sameExcept ps t (g x t)) (s t : State) : sameExcept ps s (forEach l g t) ↔ sameExcept ps s t :=
  sameExcept_foldl ps l _ h s t
theorem sameExcept_forRange (ps : List Piece) (n : Nat) (g : Nat → State → State)
    (h : ∀ t x, sameExcept ps t (g x t)) (s t : State) : sameExcept ps s (forRange n g t) ↔ sameExcept ps s t :=
  sameExcept_foldl ps _ _ h s t

/-! ### Updates -/

@[simp ↓] theorem sameExcept_setHg (ps : List Piece) (hp : ps.contains .hg = true) (s x : State) (n : Nat) (h : Headgate) :
    sameExcept ps s (x.setHg n h) ↔ sameExcept ps s x :=
  sameExcept_through (ps := [.hg]) (by intro p hp; cases p <;> first | rfl | (simp at hp)) (by simpa using hp) s
@[simp ↓] theorem sameExcept_setRt (ps : List Piece) (hp : ps.contains .rt = true) (s x : State) (i : Nat) (r : Router) :
    sameExcept ps s (x.setRt i r) ↔ sameExcept ps s x :=
  sameExcept_through (ps := [.rt]) (by intro p hp; cases p <;> first | rfl | (simp at hp)) (by simpa using hp) s
@[simp ↓] theorem sameExcept_setHs (ps : List Piece) (hp : ps.contains .hs = true) (s x : State) (k : Nat) (y : Slice) :
    sameExcept ps s (x.setHs k y) ↔ sameExcept ps s x :=
  sameExcept_through (ps := [.hs]) (by intro p hp; cases p <;> first | rfl | (simp at hp)) (by simpa using hp) s
@[simp ↓] theorem sameExcept_setMb (ps : List Piece) (hp : ps.contains .mb = true) (s x : State) (m : Nat) (y : Mailbox) :
    sameExcept ps s (x.setMb m y) ↔ sameExcept ps s x :=
  sameExcept_through (ps := [.mb]) (by intro p hp; cases p <;> first | rfl | (simp at hp)) (by simpa using hp) s
@[simp ↓] theorem sameExcept_setBank (ps : List Piece) (hp : ps.contains .rv = true) (s x : State) (b : Nat) (y : BankSt) :
    sameExcept ps s (x.setBank b y) ↔ sameExcept ps s x :=
  sameExcept_through (ps := [.rv]) (by intro p hp; cases p <;> first | rfl | (simp at hp)) (by simpa using hp) s
@[simp ↓] theorem sameExcept_setReg (ps : List Piece) (hp : ps.contains .regs = true) (s x : State) (off : Nat) (v : Word) :
    sameExcept ps s (x.setReg off v) ↔ sameExcept ps s x :=
  sameExcept_through (ps := [.regs]) (by intro p hp; cases p <;> first | rfl | (simp at hp)) (by simpa using hp) s
@[simp ↓] theorem sameExcept_draw (ps : List Piece) (hp : ps.contains .freeCtr = true) (s x : State) :
    sameExcept ps s (x.draw.2) ↔ sameExcept ps s x :=
  sameExcept_through (ps := [.freeCtr]) (by intro p hp; cases p <;> first | rfl | (simp at hp)) (by simpa using hp) s
@[simp ↓] theorem sameExcept_advanceTo (ps : List Piece) (hp : ps.contains .fclk = true) (s x : State) (t : Nat) :
    sameExcept ps s (x.advanceTo t) ↔ sameExcept ps s x :=
  sameExcept_through (ps := [.fclk]) (by intro p hp; cases p <;> first | rfl | (simp at hp)) (by simpa using hp) s
@[simp ↓] theorem sameExcept_alarm (ps : List Piece) (hp : ps.contains .al = true) (s x : State) (station : Nat) (typ : BitVec 8) (src detail : Nat) :
    sameExcept ps s (x.alarm station typ src detail) ↔ sameExcept ps s x :=
  sameExcept_through (ps := [.al]) (by intro p hp; cases p <;> first | rfl | (simp at hp)) (by simpa using hp) s
@[simp ↓] theorem sameExcept_count (ps : List Piece) (hp : ps.contains .pr = true) (s x : State) (key k : Nat) :
    sameExcept ps s (x.count key k) ↔ sameExcept ps s x :=
  sameExcept_through (ps := [.pr]) (by intro p hp; cases p <;> first | rfl | (simp at hp)) (by simpa using hp) s
@[simp ↓] theorem sameExcept_observe (ps : List Piece) (hp : ps.contains .pr = true) (s x : State) (atHg : Bool) (wher port : Nat) (f : Flit) :
    sameExcept ps s (x.observe atHg wher port f) ↔ sameExcept ps s x :=
  sameExcept_through (ps := [.pr]) (by intro p hp; cases p <;> first | rfl | (simp at hp)) (by simpa using hp) s
@[simp ↓] theorem sameExcept_setWire (ps : List Piece) (hp : ps.contains .wires = true) (s x : State) (e : LEnd) (fs : List Flit) :
    sameExcept ps s (x.setWire e fs) ↔ sameExcept ps s x :=
  sameExcept_through (ps := [.wires]) (by intro p hp; cases p <;> first | rfl | (simp at hp)) (by simpa using hp) s
@[simp ↓] theorem sameExcept_pushCredit (ps : List Piece) (hp : ps.contains .credits = true) (s x : State) (e : LEnd) (v : Nat) :
    sameExcept ps s (x.pushCredit e v) ↔ sameExcept ps s x :=
  sameExcept_through (ps := [.credits]) (by intro p hp; cases p <;> first | rfl | (simp at hp)) (by simpa using hp) s
@[simp ↓] theorem sameExcept_setCredits (ps : List Piece) (hp : ps.contains .credits = true) (s x : State) (y : Tab (List (BitVec 4))) :
    sameExcept ps s (x.setCredits y) ↔ sameExcept ps s x :=
  sameExcept_through (ps := [.credits]) (by intro p hp; cases p <;> first | rfl | (simp at hp)) (by simpa using hp) s
@[simp ↓] theorem sameExcept_setBd (ps : List Piece) (hp : ps.contains .bd = true) (s x : State) (y : Boundary) :
    sameExcept ps s (x.setBd y) ↔ sameExcept ps s x :=
  sameExcept_through (ps := [.bd]) (by intro p hp; cases p <;> first | rfl | (simp at hp)) (by simpa using hp) s
@[simp ↓] theorem sameExcept_setPr (ps : List Piece) (hp : ps.contains .pr = true) (s x : State) (y : Probes) :
    sameExcept ps s (x.setPr y) ↔ sameExcept ps s x :=
  sameExcept_through (ps := [.pr]) (by intro p hp; cases p <;> first | rfl | (simp at hp)) (by simpa using hp) s
@[simp ↓] theorem sameExcept_setAl (ps : List Piece) (hp : ps.contains .al = true) (s x : State) (y : Alarms) :
    sameExcept ps s (x.setAl y) ↔ sameExcept ps s x :=
  sameExcept_through (ps := [.al]) (by intro p hp; cases p <;> first | rfl | (simp at hp)) (by simpa using hp) s
@[simp ↓] theorem sameExcept_setRd (ps : List Piece) (hp : ps.contains .rd = true) (s x : State) (y : Rider) :
    sameExcept ps s (x.setRd y) ↔ sameExcept ps s x :=
  sameExcept_through (ps := [.rd]) (by intro p hp; cases p <;> first | rfl | (simp at hp)) (by simpa using hp) s
@[simp ↓] theorem sameExcept_setRv (ps : List Piece) (hp : ps.contains .rv = true) (s x : State) (y : Reservoir) :
    sameExcept ps s (x.setRv y) ↔ sameExcept ps s x :=
  sameExcept_through (ps := [.rv]) (by intro p hp; cases p <;> first | rfl | (simp at hp)) (by simpa using hp) s
@[simp ↓] theorem sameExcept_setTap (ps : List Piece) (hp : ps.contains .tap = true) (s x : State) (y : Tap) :
    sameExcept ps s (x.setTap y) ↔ sameExcept ps s x :=
  sameExcept_through (ps := [.tap]) (by intro p hp; cases p <;> first | rfl | (simp at hp)) (by simpa using hp) s
@[simp ↓] theorem sameExcept_setFcsRead (ps : List Piece) (hp : ps.contains .fcsRead = true) (s x : State) (y : Option (BitVec 24 × Word)) :
    sameExcept ps s (x.setFcsRead y) ↔ sameExcept ps s x :=
  sameExcept_through (ps := [.fcsRead]) (by intro p hp; cases p <;> first | rfl | (simp at hp)) (by simpa using hp) s
@[simp ↓] theorem sameExcept_setLateGua (ps : List Piece) (hp : ps.contains .lateGua = true) (s x : State) (y : List (Nat × Nat)) :
    sameExcept ps s (x.setLateGua y) ↔ sameExcept ps s x :=
  sameExcept_through (ps := [.lateGua]) (by intro p hp; cases p <;> first | rfl | (simp at hp)) (by simpa using hp) s
@[simp ↓] theorem sameExcept_setFreeCtr (ps : List Piece) (hp : ps.contains .freeCtr = true) (s x : State) (y : Nat) :
    sameExcept ps s (x.setFreeCtr y) ↔ sameExcept ps s x :=
  sameExcept_through (ps := [.freeCtr]) (by intro p hp; cases p <;> first | rfl | (simp at hp)) (by simpa using hp) s
@[simp ↓] theorem sameExcept_setF (ps : List Piece) (hp : ps.contains .regs = true) (s x : State) (off lo len v : Nat) :
    sameExcept ps s (x.setF off lo len v) ↔ sameExcept ps s x :=
  sameExcept_through (ps := [.regs]) (by intro p hp; cases p <;> first | rfl | (simp at hp)) (by simpa using hp) s
@[simp ↓] theorem sameExcept_setB (ps : List Piece) (hp : ps.contains .regs = true) (s x : State) (off i : Nat) (b : Bool) :
    sameExcept ps s (x.setB off i b) ↔ sameExcept ps s x :=
  sameExcept_through (ps := [.regs]) (by intro p hp; cases p <;> first | rfl | (simp at hp)) (by simpa using hp) s
@[simp ↓] theorem sameExcept_bump (ps : List Piece) (hp : ps.contains .regs = true) (s x : State) (off k : Nat) :
    sameExcept ps s (x.bump off k) ↔ sameExcept ps s x :=
  sameExcept_through (ps := [.regs]) (by intro p hp; cases p <;> first | rfl | (simp at hp)) (by simpa using hp) s
@[simp ↓] theorem sameExcept_updHg (ps : List Piece) (hp : ps.contains .hg = true) (s x : State) (n : Nat) (f : Headgate → Headgate) :
    sameExcept ps s (x.updHg n f) ↔ sameExcept ps s x :=
  sameExcept_through (ps := [.hg]) (by intro p hp; cases p <;> first | rfl | (simp at hp)) (by simpa using hp) s
@[simp ↓] theorem sameExcept_updRt (ps : List Piece) (hp : ps.contains .rt = true) (s x : State) (i : Nat) (f : Router → Router) :
    sameExcept ps s (x.updRt i f) ↔ sameExcept ps s x :=
  sameExcept_through (ps := [.rt]) (by intro p hp; cases p <;> first | rfl | (simp at hp)) (by simpa using hp) s
@[simp ↓] theorem sameExcept_updHs (ps : List Piece) (hp : ps.contains .hs = true) (s x : State) (k : Nat) (f : Slice → Slice) :
    sameExcept ps s (x.updHs k f) ↔ sameExcept ps s x :=
  sameExcept_through (ps := [.hs]) (by intro p hp; cases p <;> first | rfl | (simp at hp)) (by simpa using hp) s
@[simp ↓] theorem sameExcept_updMb (ps : List Piece) (hp : ps.contains .mb = true) (s x : State) (m : Nat) (f : Mailbox → Mailbox) :
    sameExcept ps s (x.updMb m f) ↔ sameExcept ps s x :=
  sameExcept_through (ps := [.mb]) (by intro p hp; cases p <;> first | rfl | (simp at hp)) (by simpa using hp) s
@[simp ↓] theorem sameExcept_pushWire (ps : List Piece) (hp : ps.contains .wires = true) (s x : State) (e : LEnd) (fs : List Flit) :
    sameExcept ps s (x.pushWire e fs) ↔ sameExcept ps s x :=
  sameExcept_through (ps := [.wires]) (by intro p hp; cases p <;> first | rfl | (simp at hp)) (by simpa using hp) s
@[simp ↓] theorem sameExcept_hgAlarm (ps : List Piece) (hp : ps.contains .al = true) (s x : State) (n : Nat) (typ : BitVec 8) (detail : Nat) :
    sameExcept ps s (x.hgAlarm n typ detail) ↔ sameExcept ps s x :=
  sameExcept_through (ps := [.al]) (by intro p hp; cases p <;> first | rfl | (simp at hp)) (by simpa using hp) s

/-! ### The canonical form -/

theorem canonical_same {ps : List Piece} {s t : State} (h : sameExcept ps s t)
    (hr : (!ps.contains .regs && !ps.contains .rv) = true) : canonical t ↔ canonical s := by
  simp only [Bool.and_eq_true, Bool.not_eq_true', List.contains_eq_mem, decide_eq_false_iff_not] at hr
  have h1 : t.regs = s.regs := h .regs hr.1
  have h2 : t.rv = s.rv := h .rv hr.2
  simp [canonical, h1, h2]
@[simp ↓] theorem canonical_setReg (x : State) (off : Nat) (v : Word) (h : canonical x) : canonical (x.setReg off v) :=
  ⟨Tab.wf_put regReset _ _ _ h.1, h.2⟩
@[simp ↓] theorem canonical_setRv (x : State) (y : Reservoir) (h : canonical x) (hy : Memory.wf y.mem) : canonical (x.setRv y) :=
  ⟨h.1, hy⟩
@[simp] theorem Memory.wf_of_canonical (x : State) (h : canonical x) : Memory.wf x.rv.mem := h.2
@[simp ↓] theorem canonical_setBank (x : State) (b : Nat) (y : BankSt) : canonical (x.setBank b y) ↔ canonical x := Iff.rfl
@[simp ↓] theorem canonical_setF (x : State) (off lo len v : Nat) (h : canonical x) : canonical (x.setF off lo len v) := canonical_setReg _ _ _ h
@[simp ↓] theorem canonical_setB (x : State) (off i : Nat) (b : Bool) (h : canonical x) : canonical (x.setB off i b) := canonical_setReg _ _ _ h
@[simp ↓] theorem canonical_bump (x : State) (off k : Nat) (h : canonical x) : canonical (x.bump off k) := canonical_setReg _ _ _ h
@[simp ↓] theorem canonical_ite (c : Prop) [Decidable c] (a b : State) :
    canonical (if c then a else b) ↔ (c → canonical a) ∧ (¬c → canonical b) := by split <;> simp_all
@[simp ↓] theorem canonical_ite1 {α : Type} (c : Prop) [Decidable c] (a b : State × α) :
    canonical (if c then a else b).1 ↔ (c → canonical a.1) ∧ (¬c → canonical b.1) := by split <;> simp_all
@[simp ↓] theorem canonical_ite2 {α : Type} (c : Prop) [Decidable c] (a b : α × State) :
    canonical (if c then a else b).2 ↔ (c → canonical a.2) ∧ (¬c → canonical b.2) := by split <;> simp_all
theorem canonical_foldl {α : Type} (l : List α) (g : State → α → State) (t : State) (h : canonical t)
    (hg : ∀ t x, canonical t → canonical (g t x)) : canonical (l.foldl g t) := by
  induction l generalizing t with
  | nil => exact h
  | cons x xs ih => exact ih _ (hg t x h)
theorem canonical_foldl1 {α β : Type} (l : List α) (g : State × β → α → State × β) (t : State × β) (h : canonical t.1)
    (hg : ∀ t x, canonical t.1 → canonical (g t x).1) : canonical (l.foldl g t).1 := by
  induction l generalizing t with
  | nil => exact h
  | cons x xs ih => exact ih _ (hg t x h)
theorem canonical_foldl2 {α β : Type} (l : List α) (g : β × State → α → β × State) (t : β × State) (h : canonical t.2)
    (hg : ∀ t x, canonical t.2 → canonical (g t x).2) : canonical (l.foldl g t).2 := by
  induction l generalizing t with
  | nil => exact h
  | cons x xs ih => exact ih _ (hg t x h)
@[simp ↓] theorem canonical_forEach {α : Type} (l : List α) (g : α → State → State) (t : State) (h : canonical t)
    (hg : ∀ t x, canonical t → canonical (g x t)) : canonical (forEach l g t) := canonical_foldl l _ t h hg
@[simp ↓] theorem canonical_forRange (n : Nat) (g : Nat → State → State) (t : State) (h : canonical t)
    (hg : ∀ t x, canonical t → canonical (g x t)) : canonical (forRange n g t) := canonical_foldl _ _ t h hg
@[simp ↓] theorem canonical_setHg (x : State) (n : Nat) (h : Headgate) : canonical (x.setHg n h) ↔ canonical x :=
  canonical_same (ps := [.hg]) ((sameExcept_setHg _ (by decide) x x n h).mpr (sameExcept_refl _ _)) (by decide)
@[simp ↓] theorem canonical_setRt (x : State) (i : Nat) (r : Router) : canonical (x.setRt i r) ↔ canonical x :=
  canonical_same (ps := [.rt]) ((sameExcept_setRt _ (by decide) x x i r).mpr (sameExcept_refl _ _)) (by decide)
@[simp ↓] theorem canonical_setHs (x : State) (k : Nat) (y : Slice) : canonical (x.setHs k y) ↔ canonical x :=
  canonical_same (ps := [.hs]) ((sameExcept_setHs _ (by decide) x x k y).mpr (sameExcept_refl _ _)) (by decide)
@[simp ↓] theorem canonical_setMb (x : State) (m : Nat) (y : Mailbox) : canonical (x.setMb m y) ↔ canonical x :=
  canonical_same (ps := [.mb]) ((sameExcept_setMb _ (by decide) x x m y).mpr (sameExcept_refl _ _)) (by decide)
@[simp ↓] theorem canonical_draw (x : State) : canonical (x.draw.2) ↔ canonical x :=
  canonical_same (ps := [.freeCtr]) ((sameExcept_draw _ (by decide) x x).mpr (sameExcept_refl _ _)) (by decide)
@[simp ↓] theorem canonical_advanceTo (x : State) (t : Nat) : canonical (x.advanceTo t) ↔ canonical x :=
  canonical_same (ps := [.fclk]) ((sameExcept_advanceTo _ (by decide) x x t).mpr (sameExcept_refl _ _)) (by decide)
@[simp ↓] theorem canonical_alarm (x : State) (station : Nat) (typ : BitVec 8) (src detail : Nat) : canonical (x.alarm station typ src detail) ↔ canonical x :=
  canonical_same (ps := [.al]) ((sameExcept_alarm _ (by decide) x x station typ src detail).mpr (sameExcept_refl _ _)) (by decide)
@[simp ↓] theorem canonical_count (x : State) (key k : Nat) : canonical (x.count key k) ↔ canonical x :=
  canonical_same (ps := [.pr]) ((sameExcept_count _ (by decide) x x key k).mpr (sameExcept_refl _ _)) (by decide)
@[simp ↓] theorem canonical_observe (x : State) (atHg : Bool) (wher port : Nat) (f : Flit) : canonical (x.observe atHg wher port f) ↔ canonical x :=
  canonical_same (ps := [.pr]) ((sameExcept_observe _ (by decide) x x atHg wher port f).mpr (sameExcept_refl _ _)) (by decide)
@[simp ↓] theorem canonical_setWire (x : State) (e : LEnd) (fs : List Flit) : canonical (x.setWire e fs) ↔ canonical x :=
  canonical_same (ps := [.wires]) ((sameExcept_setWire _ (by decide) x x e fs).mpr (sameExcept_refl _ _)) (by decide)
@[simp ↓] theorem canonical_pushCredit (x : State) (e : LEnd) (v : Nat) : canonical (x.pushCredit e v) ↔ canonical x :=
  canonical_same (ps := [.credits]) ((sameExcept_pushCredit _ (by decide) x x e v).mpr (sameExcept_refl _ _)) (by decide)
@[simp ↓] theorem canonical_setCredits (x : State) (y : Tab (List (BitVec 4))) : canonical (x.setCredits y) ↔ canonical x :=
  canonical_same (ps := [.credits]) ((sameExcept_setCredits _ (by decide) x x y).mpr (sameExcept_refl _ _)) (by decide)
@[simp ↓] theorem canonical_setBd (x : State) (y : Boundary) : canonical (x.setBd y) ↔ canonical x :=
  canonical_same (ps := [.bd]) ((sameExcept_setBd _ (by decide) x x y).mpr (sameExcept_refl _ _)) (by decide)
@[simp ↓] theorem canonical_setPr (x : State) (y : Probes) : canonical (x.setPr y) ↔ canonical x :=
  canonical_same (ps := [.pr]) ((sameExcept_setPr _ (by decide) x x y).mpr (sameExcept_refl _ _)) (by decide)
@[simp ↓] theorem canonical_setAl (x : State) (y : Alarms) : canonical (x.setAl y) ↔ canonical x :=
  canonical_same (ps := [.al]) ((sameExcept_setAl _ (by decide) x x y).mpr (sameExcept_refl _ _)) (by decide)
@[simp ↓] theorem canonical_setRd (x : State) (y : Rider) : canonical (x.setRd y) ↔ canonical x :=
  canonical_same (ps := [.rd]) ((sameExcept_setRd _ (by decide) x x y).mpr (sameExcept_refl _ _)) (by decide)
@[simp ↓] theorem canonical_setTap (x : State) (y : Tap) : canonical (x.setTap y) ↔ canonical x :=
  canonical_same (ps := [.tap]) ((sameExcept_setTap _ (by decide) x x y).mpr (sameExcept_refl _ _)) (by decide)
@[simp ↓] theorem canonical_setFcsRead (x : State) (y : Option (BitVec 24 × Word)) : canonical (x.setFcsRead y) ↔ canonical x :=
  canonical_same (ps := [.fcsRead]) ((sameExcept_setFcsRead _ (by decide) x x y).mpr (sameExcept_refl _ _)) (by decide)
@[simp ↓] theorem canonical_setLateGua (x : State) (y : List (Nat × Nat)) : canonical (x.setLateGua y) ↔ canonical x :=
  canonical_same (ps := [.lateGua]) ((sameExcept_setLateGua _ (by decide) x x y).mpr (sameExcept_refl _ _)) (by decide)
@[simp ↓] theorem canonical_setFreeCtr (x : State) (y : Nat) : canonical (x.setFreeCtr y) ↔ canonical x :=
  canonical_same (ps := [.freeCtr]) ((sameExcept_setFreeCtr _ (by decide) x x y).mpr (sameExcept_refl _ _)) (by decide)
@[simp ↓] theorem canonical_updHg (x : State) (n : Nat) (f : Headgate → Headgate) : canonical (x.updHg n f) ↔ canonical x :=
  canonical_same (ps := [.hg]) ((sameExcept_updHg _ (by decide) x x n f).mpr (sameExcept_refl _ _)) (by decide)
@[simp ↓] theorem canonical_updRt (x : State) (i : Nat) (f : Router → Router) : canonical (x.updRt i f) ↔ canonical x :=
  canonical_same (ps := [.rt]) ((sameExcept_updRt _ (by decide) x x i f).mpr (sameExcept_refl _ _)) (by decide)
@[simp ↓] theorem canonical_updHs (x : State) (k : Nat) (f : Slice → Slice) : canonical (x.updHs k f) ↔ canonical x :=
  canonical_same (ps := [.hs]) ((sameExcept_updHs _ (by decide) x x k f).mpr (sameExcept_refl _ _)) (by decide)
@[simp ↓] theorem canonical_updMb (x : State) (m : Nat) (f : Mailbox → Mailbox) : canonical (x.updMb m f) ↔ canonical x :=
  canonical_same (ps := [.mb]) ((sameExcept_updMb _ (by decide) x x m f).mpr (sameExcept_refl _ _)) (by decide)
@[simp ↓] theorem canonical_pushWire (x : State) (e : LEnd) (fs : List Flit) : canonical (x.pushWire e fs) ↔ canonical x :=
  canonical_same (ps := [.wires]) ((sameExcept_pushWire _ (by decide) x x e fs).mpr (sameExcept_refl _ _)) (by decide)
@[simp ↓] theorem canonical_hgAlarm (x : State) (n : Nat) (typ : BitVec 8) (detail : Nat) : canonical (x.hgAlarm n typ detail) ↔ canonical x :=
  canonical_same (ps := [.al]) ((sameExcept_hgAlarm _ (by decide) x x n typ detail).mpr (sameExcept_refl _ _)) (by decide)

end Sys2Proof.Machine
end

