-- ==== Sys2Proof/Laws/Below.lean ====
section
/-! SUPPORT. `belowKept` through updates, branches and loops, and the block each register lies in. -/

namespace Sys2Proof.Machine

theorem belowKept_refl (L : Nat) (s : State) : belowKept L s s := fun _ _ => rfl
@[simp] theorem belowKept_self (L : Nat) (s : State) : belowKept L s s ↔ True := iff_true_intro (belowKept_refl L s)
theorem belowKept_iff {L : Nat} {x y : State} (h : belowKept L x y) (s : State) : belowKept L s y ↔ belowKept L s x :=
  ⟨fun h1 o ho => (h o ho).symm.trans (h1 o ho), fun h1 o ho => (h o ho).trans (h1 o ho)⟩
theorem belowKept_mono {L M : Nat} {s t : State} (h : belowKept L s t) (hl : M ≤ L) : belowKept M s t :=
  fun o ho => h o (Nat.lt_of_lt_of_le ho hl)
theorem belowKept_trans {L : Nat} {s t u : State} (h : belowKept L s t) (h' : belowKept L t u) : belowKept L s u :=
  (belowKept_iff h' s).mpr h
theorem belowKept_same {L : Nat} {ps : List Piece} {s t : State} (h : sameExcept ps s t) (hr : (!ps.contains .regs) = true) :
    belowKept L s t := by
  intro o _
  have : t.regs = s.regs := h .regs (by simpa using hr)
  simp [State.reg, this]
@[simp ↓] theorem belowKept_ite (L : Nat) (s : State) (c : Prop) [Decidable c] (a b : State) :
    belowKept L s (if c then a else b) ↔ (c → belowKept L s a) ∧ (¬c → belowKept L s b) := by
  split <;> simp_all
@[simp ↓] theorem belowKept_ite1 {α : Type} (L : Nat) (s : State) (c : Prop) [Decidable c] (a b : State × α) :
    belowKept L s (if c then a else b).1 ↔ (c → belowKept L s a.1) ∧ (¬c → belowKept L s b.1) := by
  split <;> simp_all
@[simp ↓] theorem belowKept_ite2 {α : Type} (L : Nat) (s : State) (c : Prop) [Decidable c] (a b : α × State) :
    belowKept L s (if c then a else b).2 ↔ (c → belowKept L s a.2) ∧ (¬c → belowKept L s b.2) := by
  split <;> simp_all
theorem belowKept_foldl {α : Type} (L : Nat) (l : List α) (g : State → α → State)
    (h : ∀ t x, belowKept L t (g t x)) (s t : State) : belowKept L s (l.foldl g t) ↔ belowKept L s t := by
  induction l generalizing t with
  | nil => rfl
  | cons x xs ih => rw [List.foldl_cons, ih]; exact belowKept_iff (h t x) s
theorem belowKept_foldl2 {α β : Type} (L : Nat) (l : List α) (g : β × State → α → β × State)
    (h : ∀ t x, belowKept L t.2 (g t x).2) (s : State) (t : β × State) :
    belowKept L s (l.foldl g t).2 ↔ belowKept L s t.2 := by
  induction l generalizing t with
  | nil => rfl
  | cons x xs ih => rw [List.foldl_cons, ih]; exact belowKept_iff (h t x) s
theorem belowKept_foldl1 {α β : Type} (L : Nat) (l : List α) (g : State × β → α → State × β)
    (h : ∀ t x, belowKept L t.1 (g t x).1) (s : State) (t : State × β) :
    belowKept L s (l.foldl g t).1 ↔ belowKept L s t.1 := by
  induction l generalizing t with
  | nil => rfl
  | cons x xs ih => rw [List.foldl_cons, ih]; exact belowKept_iff (h t x) s
theorem belowKept_forEach {α : Type} (L : Nat) (l : List α) (g : α → State → State)
    (h : ∀ t x, belowKept L t (g x t)) (s t : State) : belowKept L s (forEach l g t) ↔ belowKept L s t :=
  belowKept_foldl L l _ h s t
theorem belowKept_forRange (L n : Nat) (g : Nat → State → State)
    (h : ∀ t x, belowKept L t (g x t)) (s t : State) : belowKept L s (forRange n g t) ↔ belowKept L s t :=
  belowKept_foldl L _ _ h s t
@[simp ↓] theorem belowKept_setReg (L : Nat) (s x : State) (off : Nat) (v : Word) (h : L ≤ off) :
    belowKept L s (x.setReg off v) ↔ belowKept L s x :=
  belowKept_iff (x := x) (fun o ho => State.reg_setReg_other x off o v (by omega)) s
@[simp ↓] theorem belowKept_setF (L : Nat) (s x : State) (off lo len v : Nat) (h : L ≤ off) :
    belowKept L s (x.setF off lo len v) ↔ belowKept L s x := belowKept_setReg L s x off _ h
@[simp ↓] theorem belowKept_setB (L : Nat) (s x : State) (off i : Nat) (b : Bool) (h : L ≤ off) :
    belowKept L s (x.setB off i b) ↔ belowKept L s x := belowKept_setReg L s x off _ h
@[simp ↓] theorem belowKept_bump (L : Nat) (s x : State) (off k : Nat) (h : L ≤ off) :
    belowKept L s (x.bump off k) ↔ belowKept L s x := belowKept_setReg L s x off _ h

@[simp] theorem Reg.CK_STATUS_from (L : Nat) (h : L ≤ 0x10000) : L ≤ Reg.CK_STATUS := by simp only [Reg.CK_STATUS]; omega
@[simp] theorem Reg.CK_SUPPLY_EVT_from (L : Nat) (h : L ≤ 0x10000) : L ≤ Reg.CK_SUPPLY_EVT := by simp only [Reg.CK_SUPPLY_EVT]; omega
@[simp] theorem Reg.CK_HOLD_CFG_from (L : Nat) (h : L ≤ 0x10000) : L ≤ Reg.CK_HOLD_CFG := by simp only [Reg.CK_HOLD_CFG]; omega
@[simp] theorem Reg.CK_HOLD_CNT_from (L : Nat) (h : L ≤ 0x10000) : L ≤ Reg.CK_HOLD_CNT := by simp only [Reg.CK_HOLD_CNT]; omega
@[simp] theorem Reg.CK_MERGE_from (L : Nat) (h : L ≤ 0x10000) : L ≤ Reg.CK_MERGE := by simp only [Reg.CK_MERGE]; omega
@[simp] theorem Reg.CK_WAKE_PEND_from (L : Nat) (h : L ≤ 0x10000) : L ≤ Reg.CK_WAKE_PEND := by simp only [Reg.CK_WAKE_PEND]; omega
@[simp] theorem Reg.CK_DOM_from (L k : Nat) (h : L ≤ 0x10000) : L ≤ Reg.CK_DOM k := by simp only [Reg.CK_DOM]; omega
@[simp] theorem Reg.CK_TURN_CFG_from (L : Nat) (h : L ≤ 0x10000) : L ≤ Reg.CK_TURN_CFG := by simp only [Reg.CK_TURN_CFG]; omega
@[simp] theorem Reg.CK_TURN_STATUS_from (L : Nat) (h : L ≤ 0x10000) : L ≤ Reg.CK_TURN_STATUS := by simp only [Reg.CK_TURN_STATUS]; omega
@[simp] theorem Reg.CK_TURN_SKIP_from (L : Nat) (h : L ≤ 0x10000) : L ≤ Reg.CK_TURN_SKIP := by simp only [Reg.CK_TURN_SKIP]; omega
@[simp] theorem Reg.CK_TURN_LATE_from (L : Nat) (h : L ≤ 0x10000) : L ≤ Reg.CK_TURN_LATE := by simp only [Reg.CK_TURN_LATE]; omega
@[simp] theorem Reg.CK_TIME_SEC_from (L : Nat) (h : L ≤ 0x10000) : L ≤ Reg.CK_TIME_SEC := by simp only [Reg.CK_TIME_SEC]; omega
@[simp] theorem Reg.CK_TIME_NS_from (L : Nat) (h : L ≤ 0x10000) : L ≤ Reg.CK_TIME_NS := by simp only [Reg.CK_TIME_NS]; omega
@[simp] theorem Reg.CK_HG_DOM_from (L k : Nat) (h : L ≤ 0x10000) : L ≤ Reg.CK_HG_DOM k := by simp only [Reg.CK_HG_DOM]; omega
@[simp] theorem Reg.MB_CMD_from (L m k : Nat) (h : L ≤ 0x20000) : L ≤ Reg.MB_CMD m k := by simp only [mbBase, Reg.MB_CMD]; omega
@[simp] theorem Reg.MB_RSP_from (L m k : Nat) (h : L ≤ 0x20000) : L ≤ Reg.MB_RSP m k := by simp only [mbBase, Reg.MB_RSP]; omega
@[simp] theorem Reg.MB_DOORBELL_from (L m : Nat) (h : L ≤ 0x20000) : L ≤ Reg.MB_DOORBELL m := by simp only [mbBase, Reg.MB_DOORBELL]; omega
@[simp] theorem Reg.MB_STATUS_from (L m : Nat) (h : L ≤ 0x20000) : L ≤ Reg.MB_STATUS m := by simp only [mbBase, Reg.MB_STATUS]; omega
@[simp] theorem Reg.MB_BIND_from (L m : Nat) (h : L ≤ 0x20000) : L ≤ Reg.MB_BIND m := by simp only [mbBase, Reg.MB_BIND]; omega
@[simp] theorem Reg.MB_CUR_from (L m : Nat) (h : L ≤ 0x20000) : L ≤ Reg.MB_CUR m := by simp only [mbBase, Reg.MB_CUR]; omega
@[simp] theorem Reg.MB_OVERRUN_from (L m : Nat) (h : L ≤ 0x20000) : L ≤ Reg.MB_OVERRUN m := by simp only [mbBase, Reg.MB_OVERRUN]; omega
@[simp] theorem Reg.PR_CTL_from (L : Nat) (h : L ≤ 0x40000) : L ≤ Reg.PR_CTL := by simp only [Reg.PR_CTL]; omega
@[simp] theorem Reg.PR_STATUS_from (L : Nat) (h : L ≤ 0x40000) : L ≤ Reg.PR_STATUS := by simp only [Reg.PR_STATUS]; omega
@[simp] theorem Reg.PR_TIME_from (L : Nat) (h : L ≤ 0x40000) : L ≤ Reg.PR_TIME := by simp only [Reg.PR_TIME]; omega
@[simp] theorem Reg.PR_TRACE_WEIR_from (L : Nat) (h : L ≤ 0x40000) : L ≤ Reg.PR_TRACE_WEIR := by simp only [Reg.PR_TRACE_WEIR]; omega
@[simp] theorem Reg.PR_ALARM_STATUS_from (L : Nat) (h : L ≤ 0x40000) : L ≤ Reg.PR_ALARM_STATUS := by simp only [Reg.PR_ALARM_STATUS]; omega
@[simp] theorem Reg.PR_ALARM_RX_from (L : Nat) (h : L ≤ 0x40000) : L ≤ Reg.PR_ALARM_RX := by simp only [Reg.PR_ALARM_RX]; omega
@[simp] theorem Reg.PR_TRACE_OUT_from (L : Nat) (h : L ≤ 0x40000) : L ≤ Reg.PR_TRACE_OUT := by simp only [Reg.PR_TRACE_OUT]; omega
@[simp] theorem Reg.PR_SECRET_MAP_from (L k : Nat) (h : L ≤ 0x40000) : L ≤ Reg.PR_SECRET_MAP k := by simp only [Reg.PR_SECRET_MAP]; omega
@[simp] theorem Reg.PR_PRB_CTL_from (L k : Nat) (h : L ≤ 0x40000) : L ≤ Reg.PR_PRB_CTL k := by simp only [Reg.PR_PRB_CTL]; omega
@[simp] theorem Reg.PR_PRB_STAT_from (L k : Nat) (h : L ≤ 0x40000) : L ≤ Reg.PR_PRB_STAT k := by simp only [Reg.PR_PRB_STAT]; omega
@[simp] theorem Reg.PR_PRB_HITS_from (L k : Nat) (h : L ≤ 0x40000) : L ≤ Reg.PR_PRB_HITS k := by simp only [Reg.PR_PRB_HITS]; omega
@[simp] theorem Reg.PR_PRB_DROP_from (L k : Nat) (h : L ≤ 0x40000) : L ≤ Reg.PR_PRB_DROP k := by simp only [Reg.PR_PRB_DROP]; omega
@[simp] theorem Reg.PR_CAM_MATCH_from (L k : Nat) (h : L ≤ 0x40000) : L ≤ Reg.PR_CAM_MATCH k := by simp only [Reg.PR_CAM_MATCH]; omega
@[simp] theorem Reg.PR_CAM_MASK_from (L k : Nat) (h : L ≤ 0x40000) : L ≤ Reg.PR_CAM_MASK k := by simp only [Reg.PR_CAM_MASK]; omega
@[simp] theorem Reg.PR_BANK_from (L k : Nat) (h : L ≤ 0x40000) : L ≤ Reg.PR_BANK k := by simp only [Reg.PR_BANK]; omega
@[simp] theorem Reg.PR_RTO_CFG_from (L k : Nat) (h : L ≤ 0x40000) : L ≤ Reg.PR_RTO_CFG k := by simp only [Reg.PR_RTO_CFG]; omega
@[simp] theorem Reg.PR_RTO_FLITS_from (L k : Nat) (h : L ≤ 0x40000) : L ≤ Reg.PR_RTO_FLITS k := by simp only [Reg.PR_RTO_FLITS]; omega
@[simp] theorem Reg.PR_RTO_EVENT_from (L k : Nat) (h : L ≤ 0x40000) : L ≤ Reg.PR_RTO_EVENT k := by simp only [Reg.PR_RTO_EVENT]; omega
@[simp] theorem Reg.PR_HGO_CFG_from (L k : Nat) (h : L ≤ 0x40000) : L ≤ Reg.PR_HGO_CFG k := by simp only [Reg.PR_HGO_CFG]; omega
@[simp] theorem Reg.PR_HGO_INJ_from (L k : Nat) (h : L ≤ 0x40000) : L ≤ Reg.PR_HGO_INJ k := by simp only [Reg.PR_HGO_INJ]; omega
@[simp] theorem Reg.PR_HGO_EJ_from (L k : Nat) (h : L ≤ 0x40000) : L ≤ Reg.PR_HGO_EJ k := by simp only [Reg.PR_HGO_EJ]; omega
@[simp] theorem Reg.PR_HGO_EVENT_from (L k : Nat) (h : L ≤ 0x40000) : L ≤ Reg.PR_HGO_EVENT k := by simp only [Reg.PR_HGO_EVENT]; omega
@[simp] theorem Reg.HS_ID_from (L s : Nat) (h : L ≤ 0x80000) : L ≤ Reg.HS_ID s := by simp only [hsBase, Reg.HS_ID]; omega
@[simp] theorem Reg.HS_CFG_from (L s : Nat) (h : L ≤ 0x80000) : L ≤ Reg.HS_CFG s := by simp only [hsBase, Reg.HS_CFG]; omega
@[simp] theorem Reg.HS_STATUS_from (L s : Nat) (h : L ≤ 0x80000) : L ≤ Reg.HS_STATUS s := by simp only [hsBase, Reg.HS_STATUS]; omega
@[simp] theorem Reg.HS_TMO_CFG_from (L s : Nat) (h : L ≤ 0x80000) : L ≤ Reg.HS_TMO_CFG s := by simp only [hsBase, Reg.HS_TMO_CFG]; omega
@[simp] theorem Reg.HS_DEAD_MASK_from (L s : Nat) (h : L ≤ 0x80000) : L ≤ Reg.HS_DEAD_MASK s := by simp only [hsBase, Reg.HS_DEAD_MASK]; omega
@[simp] theorem Reg.HS_SWEEP_from (L s : Nat) (h : L ≤ 0x80000) : L ≤ Reg.HS_SWEEP s := by simp only [hsBase, Reg.HS_SWEEP]; omega
@[simp] theorem Reg.HS_CENSUS_CFG_from (L s : Nat) (h : L ≤ 0x80000) : L ≤ Reg.HS_CENSUS_CFG s := by simp only [hsBase, Reg.HS_CENSUS_CFG]; omega
@[simp] theorem Reg.HS_CENSUS_from (L s : Nat) (h : L ≤ 0x80000) : L ≤ Reg.HS_CENSUS s := by simp only [hsBase, Reg.HS_CENSUS]; omega
@[simp] theorem Reg.HS_TRACK_from (L s : Nat) (h : L ≤ 0x80000) : L ≤ Reg.HS_TRACK s := by simp only [hsBase, Reg.HS_TRACK]; omega
@[simp] theorem Reg.HS_UNBUILT_from (L s k : Nat) (h : L ≤ 0x80000) : L ≤ Reg.HS_UNBUILT s k := by simp only [hsBase, Reg.HS_UNBUILT]; omega
@[simp] theorem Reg.HS_DIR_SEL_from (L s : Nat) (h : L ≤ 0x80000) : L ≤ Reg.HS_DIR_SEL s := by simp only [hsBase, Reg.HS_DIR_SEL]; omega
@[simp] theorem Reg.HS_DIR_ENTRY_from (L s : Nat) (h : L ≤ 0x80000) : L ≤ Reg.HS_DIR_ENTRY s := by simp only [hsBase, Reg.HS_DIR_ENTRY]; omega
@[simp] theorem Reg.HS_DIR_EVICT_from (L s : Nat) (h : L ≤ 0x80000) : L ≤ Reg.HS_DIR_EVICT s := by simp only [hsBase, Reg.HS_DIR_EVICT]; omega
@[simp] theorem Reg.HS_BINV_from (L s : Nat) (h : L ≤ 0x80000) : L ≤ Reg.HS_BINV s := by simp only [hsBase, Reg.HS_BINV]; omega
@[simp] theorem Reg.HS_PIN_WAIT_from (L s : Nat) (h : L ≤ 0x80000) : L ≤ Reg.HS_PIN_WAIT s := by simp only [hsBase, Reg.HS_PIN_WAIT]; omega
@[simp] theorem Reg.HS_TMO_CNT_from (L s : Nat) (h : L ≤ 0x80000) : L ≤ Reg.HS_TMO_CNT s := by simp only [hsBase, Reg.HS_TMO_CNT]; omega
@[simp] theorem Reg.HS_POISON_from (L s : Nat) (h : L ≤ 0x80000) : L ≤ Reg.HS_POISON s := by simp only [hsBase, Reg.HS_POISON]; omega
@[simp] theorem Reg.HS_DIR_CORR_from (L s : Nat) (h : L ≤ 0x80000) : L ≤ Reg.HS_DIR_CORR s := by simp only [hsBase, Reg.HS_DIR_CORR]; omega
@[simp] theorem Reg.HS_DIR_UNCORR_from (L s : Nat) (h : L ≤ 0x80000) : L ≤ Reg.HS_DIR_UNCORR s := by simp only [hsBase, Reg.HS_DIR_UNCORR]; omega
@[simp] theorem Reg.HS_ATOM_from (L s : Nat) (h : L ≤ 0x80000) : L ≤ Reg.HS_ATOM s := by simp only [hsBase, Reg.HS_ATOM]; omega
@[simp] theorem Reg.HS_CENSUS_SNP_from (L s : Nat) (h : L ≤ 0x80000) : L ≤ Reg.HS_CENSUS_SNP s := by simp only [hsBase, Reg.HS_CENSUS_SNP]; omega
@[simp] theorem Reg.HS_STALE_RPL_from (L s : Nat) (h : L ≤ 0x80000) : L ≤ Reg.HS_STALE_RPL s := by simp only [hsBase, Reg.HS_STALE_RPL]; omega
@[simp] theorem Reg.HS_COH_CFG_from (L s : Nat) (h : L ≤ 0x80000) : L ≤ Reg.HS_COH_CFG s := by simp only [hsBase, Reg.HS_COH_CFG]; omega
@[simp] theorem Reg.HS_COH_STALE_from (L s : Nat) (h : L ≤ 0x80000) : L ≤ Reg.HS_COH_STALE s := by simp only [hsBase, Reg.HS_COH_STALE]; omega
@[simp] theorem Reg.HS_COH_UPG_FAIL_from (L s : Nat) (h : L ≤ 0x80000) : L ≤ Reg.HS_COH_UPG_FAIL s := by simp only [hsBase, Reg.HS_COH_UPG_FAIL]; omega
@[simp] theorem Reg.HS_COH_BCAST_from (L s : Nat) (h : L ≤ 0x80000) : L ≤ Reg.HS_COH_BCAST s := by simp only [hsBase, Reg.HS_COH_BCAST]; omega
@[simp] theorem Reg.HS_COH_PROTO_from (L s : Nat) (h : L ≤ 0x80000) : L ≤ Reg.HS_COH_PROTO s := by simp only [hsBase, Reg.HS_COH_PROTO]; omega
@[simp] theorem Reg.HS_COH_HOLD_WAIT_from (L s : Nat) (h : L ≤ 0x80000) : L ≤ Reg.HS_COH_HOLD_WAIT s := by simp only [hsBase, Reg.HS_COH_HOLD_WAIT]; omega
@[simp] theorem Reg.RV_CFG_from (L : Nat) (h : L ≤ 0xD0000) : L ≤ Reg.RV_CFG := by simp only [Reg.RV_CFG]; omega
@[simp] theorem Reg.RV_LOCK_CFG_from (L : Nat) (h : L ≤ 0xD0000) : L ≤ Reg.RV_LOCK_CFG := by simp only [Reg.RV_LOCK_CFG]; omega
@[simp] theorem Reg.RV_SCRUB_CFG_from (L : Nat) (h : L ≤ 0xD0000) : L ≤ Reg.RV_SCRUB_CFG := by simp only [Reg.RV_SCRUB_CFG]; omega
@[simp] theorem Reg.RV_STATUS_from (L : Nat) (h : L ≤ 0xD0000) : L ≤ Reg.RV_STATUS := by simp only [Reg.RV_STATUS]; omega
@[simp] theorem Reg.RV_BANK_PARK_from (L k : Nat) (h : L ≤ 0xD0000) : L ≤ Reg.RV_BANK_PARK k := by simp only [Reg.RV_BANK_PARK]; omega
@[simp] theorem Reg.RV_ARB_STATE_from (L k : Nat) (h : L ≤ 0xD0000) : L ≤ Reg.RV_ARB_STATE k := by simp only [Reg.RV_ARB_STATE]; omega
@[simp] theorem Reg.RV_LOCK_from (L k : Nat) (h : L ≤ 0xD0000) : L ≤ Reg.RV_LOCK k := by simp only [Reg.RV_LOCK]; omega
@[simp] theorem Reg.RV_LOCK_GRANT_from (L : Nat) (h : L ≤ 0xD0000) : L ≤ Reg.RV_LOCK_GRANT := by simp only [Reg.RV_LOCK_GRANT]; omega
@[simp] theorem Reg.RV_LOCK_REVOKE_from (L : Nat) (h : L ≤ 0xD0000) : L ≤ Reg.RV_LOCK_REVOKE := by simp only [Reg.RV_LOCK_REVOKE]; omega
@[simp] theorem Reg.RV_LOCK_LOST_from (L : Nat) (h : L ≤ 0xD0000) : L ≤ Reg.RV_LOCK_LOST := by simp only [Reg.RV_LOCK_LOST]; omega
@[simp] theorem Reg.RV_LOCK_WAIT_from (L : Nat) (h : L ≤ 0xD0000) : L ≤ Reg.RV_LOCK_WAIT := by simp only [Reg.RV_LOCK_WAIT]; omega
@[simp] theorem Reg.RV_ATOM_from (L : Nat) (h : L ≤ 0xD0000) : L ≤ Reg.RV_ATOM := by simp only [Reg.RV_ATOM]; omega
@[simp] theorem Reg.RV_SRAM_CORR_from (L : Nat) (h : L ≤ 0xD0000) : L ≤ Reg.RV_SRAM_CORR := by simp only [Reg.RV_SRAM_CORR]; omega
@[simp] theorem Reg.RV_SRAM_UNCORR_from (L : Nat) (h : L ≤ 0xD0000) : L ≤ Reg.RV_SRAM_UNCORR := by simp only [Reg.RV_SRAM_UNCORR]; omega
@[simp] theorem Reg.RV_RMW_from (L : Nat) (h : L ≤ 0xD0000) : L ≤ Reg.RV_RMW := by simp only [Reg.RV_RMW]; omega
@[simp] theorem Reg.RV_SCRUB_PASS_from (L : Nat) (h : L ≤ 0xD0000) : L ≤ Reg.RV_SCRUB_PASS := by simp only [Reg.RV_SCRUB_PASS]; omega
@[simp] theorem Reg.RT_ID_from (L i : Nat) (h : L ≤ 0x100000) : L ≤ Reg.RT_ID i := by simp only [rtBase, Reg.RT_ID]; omega
@[simp] theorem Reg.RT_CTRL_from (L i : Nat) (h : L ≤ 0x100000) : L ≤ Reg.RT_CTRL i := by simp only [rtBase, Reg.RT_CTRL]; omega
@[simp] theorem Reg.RT_ARB_CFG_from (L i : Nat) (h : L ≤ 0x100000) : L ≤ Reg.RT_ARB_CFG i := by simp only [rtBase, Reg.RT_ARB_CFG]; omega
@[simp] theorem Reg.RT_LINK_CFG_from (L i : Nat) (h : L ≤ 0x100000) : L ≤ Reg.RT_LINK_CFG i := by simp only [rtBase, Reg.RT_LINK_CFG]; omega
@[simp] theorem Reg.RT_PORT_STATUS_from (L i : Nat) (h : L ≤ 0x100000) : L ≤ Reg.RT_PORT_STATUS i := by simp only [rtBase, Reg.RT_PORT_STATUS]; omega
@[simp] theorem Reg.RT_FAULT_from (L i : Nat) (h : L ≤ 0x100000) : L ≤ Reg.RT_FAULT i := by simp only [rtBase, Reg.RT_FAULT]; omega
@[simp] theorem Reg.RT_HOP_ERR_from (L i k : Nat) (h : L ≤ 0x100000) : L ≤ Reg.RT_HOP_ERR i k := by simp only [rtBase, Reg.RT_HOP_ERR]; omega
@[simp] theorem Reg.RT_HDR_DROP_from (L i : Nat) (h : L ≤ 0x100000) : L ≤ Reg.RT_HDR_DROP i := by simp only [rtBase, Reg.RT_HDR_DROP]; omega
@[simp] theorem Reg.RT_PURGE_from (L i : Nat) (h : L ≤ 0x100000) : L ≤ Reg.RT_PURGE i := by simp only [rtBase, Reg.RT_PURGE]; omega
@[simp] theorem Reg.RT_GUA_COLL_from (L i : Nat) (h : L ≤ 0x100000) : L ≤ Reg.RT_GUA_COLL i := by simp only [rtBase, Reg.RT_GUA_COLL]; omega
@[simp] theorem Reg.RT_TRUNC_from (L i : Nat) (h : L ≤ 0x100000) : L ≤ Reg.RT_TRUNC i := by simp only [rtBase, Reg.RT_TRUNC]; omega
@[simp] theorem Reg.RT_WITHDRAW_from (L i : Nat) (h : L ≤ 0x100000) : L ≤ Reg.RT_WITHDRAW i := by simp only [rtBase, Reg.RT_WITHDRAW]; omega
@[simp] theorem Reg.RT_MAP_MISM_from (L i : Nat) (h : L ≤ 0x100000) : L ≤ Reg.RT_MAP_MISM i := by simp only [rtBase, Reg.RT_MAP_MISM]; omega
@[simp] theorem Reg.RT_SRAM_CORR_from (L i : Nat) (h : L ≤ 0x100000) : L ≤ Reg.RT_SRAM_CORR i := by simp only [rtBase, Reg.RT_SRAM_CORR]; omega
@[simp] theorem Reg.RT_LOCAL_MAP_from (L i : Nat) (h : L ≤ 0x100000) : L ≤ Reg.RT_LOCAL_MAP i := by simp only [rtBase, Reg.RT_LOCAL_MAP]; omega
@[simp] theorem Reg.RT_NBR_MAP_from (L i k : Nat) (h : L ≤ 0x100000) : L ≤ Reg.RT_NBR_MAP i k := by simp only [rtBase, Reg.RT_NBR_MAP]; omega
@[simp] theorem Reg.RT_ARB_STATE_from (L i k : Nat) (h : L ≤ 0x100000) : L ≤ Reg.RT_ARB_STATE i k := by simp only [rtBase, Reg.RT_ARB_STATE]; omega
@[simp] theorem Reg.HG_ID_from (L n : Nat) (h : L ≤ 0x200000) : L ≤ Reg.HG_ID n := by simp only [hgBase, Reg.HG_ID]; omega
@[simp] theorem Reg.HG_CFG_from (L n : Nat) (h : L ≤ 0x200000) : L ≤ Reg.HG_CFG n := by simp only [hgBase, Reg.HG_CFG]; omega
@[simp] theorem Reg.HG_EPOCH_from (L n : Nat) (h : L ≤ 0x200000) : L ≤ Reg.HG_EPOCH n := by simp only [hgBase, Reg.HG_EPOCH]; omega
@[simp] theorem Reg.HG_RSP_POOL_from (L n : Nat) (h : L ≤ 0x200000) : L ≤ Reg.HG_RSP_POOL n := by simp only [hgBase, Reg.HG_RSP_POOL]; omega
@[simp] theorem Reg.HG_STATUS_from (L n : Nat) (h : L ≤ 0x200000) : L ≤ Reg.HG_STATUS n := by simp only [hgBase, Reg.HG_STATUS]; omega
@[simp] theorem Reg.HG_LOCK_from (L n : Nat) (h : L ≤ 0x200000) : L ≤ Reg.HG_LOCK n := by simp only [hgBase, Reg.HG_LOCK]; omega
@[simp] theorem Reg.HG_ADMIT_from (L n : Nat) (h : L ≤ 0x200000) : L ≤ Reg.HG_ADMIT n := by simp only [hgBase, Reg.HG_ADMIT]; omega
@[simp] theorem Reg.HG_COH_UNMATCHED_from (L n : Nat) (h : L ≤ 0x200000) : L ≤ Reg.HG_COH_UNMATCHED n := by simp only [hgBase, Reg.HG_COH_UNMATCHED]; omega
@[simp] theorem Reg.HG_EPOCH_CNT_from (L n k : Nat) (h : L ≤ 0x200000) : L ≤ Reg.HG_EPOCH_CNT n k := by simp only [hgBase, Reg.HG_EPOCH_CNT]; omega
@[simp] theorem Reg.HG_HAI_ABORT_from (L n : Nat) (h : L ≤ 0x200000) : L ≤ Reg.HG_HAI_ABORT n := by simp only [hgBase, Reg.HG_HAI_ABORT]; omega
@[simp] theorem Reg.HG_HAI_DISCARD_from (L n : Nat) (h : L ≤ 0x200000) : L ≤ Reg.HG_HAI_DISCARD n := by simp only [hgBase, Reg.HG_HAI_DISCARD]; omega
@[simp] theorem Reg.HG_POST_REFUSE_from (L n : Nat) (h : L ≤ 0x200000) : L ≤ Reg.HG_POST_REFUSE n := by simp only [hgBase, Reg.HG_POST_REFUSE]; omega
@[simp] theorem Reg.HG_SOURCE_RESET_from (L n : Nat) (h : L ≤ 0x200000) : L ≤ Reg.HG_SOURCE_RESET n := by simp only [hgBase, Reg.HG_SOURCE_RESET]; omega
@[simp] theorem Reg.HG_DECODE_FAULT_from (L n : Nat) (h : L ≤ 0x200000) : L ≤ Reg.HG_DECODE_FAULT n := by simp only [hgBase, Reg.HG_DECODE_FAULT]; omega
@[simp] theorem Reg.HG_CHK_OPEN_from (L n : Nat) (h : L ≤ 0x200000) : L ≤ Reg.HG_CHK_OPEN n := by simp only [hgBase, Reg.HG_CHK_OPEN]; omega
@[simp] theorem Reg.HG_E2E_CFG_from (L n : Nat) (h : L ≤ 0x200000) : L ≤ Reg.HG_E2E_CFG n := by simp only [hgBase, Reg.HG_E2E_CFG]; omega
@[simp] theorem Reg.HG_REPLAY_CMD_from (L n : Nat) (h : L ≤ 0x200000) : L ≤ Reg.HG_REPLAY_CMD n := by simp only [hgBase, Reg.HG_REPLAY_CMD]; omega
@[simp] theorem Reg.HG_REPLAY_STATUS_from (L n : Nat) (h : L ≤ 0x200000) : L ≤ Reg.HG_REPLAY_STATUS n := by simp only [hgBase, Reg.HG_REPLAY_STATUS]; omega
@[simp] theorem Reg.HG_PAIR_SEL_from (L n : Nat) (h : L ≤ 0x200000) : L ≤ Reg.HG_PAIR_SEL n := by simp only [hgBase, Reg.HG_PAIR_SEL]; omega
@[simp] theorem Reg.HG_PAIR_TX_from (L n : Nat) (h : L ≤ 0x200000) : L ≤ Reg.HG_PAIR_TX n := by simp only [hgBase, Reg.HG_PAIR_TX]; omega
@[simp] theorem Reg.HG_PAIR_RX_from (L n : Nat) (h : L ≤ 0x200000) : L ≤ Reg.HG_PAIR_RX n := by simp only [hgBase, Reg.HG_PAIR_RX]; omega
@[simp] theorem Reg.HG_E2E_STATUS_from (L n : Nat) (h : L ≤ 0x200000) : L ≤ Reg.HG_E2E_STATUS n := by simp only [hgBase, Reg.HG_E2E_STATUS]; omega
@[simp] theorem Reg.HG_ECRC_FAIL_from (L n : Nat) (h : L ≤ 0x200000) : L ≤ Reg.HG_ECRC_FAIL n := by simp only [hgBase, Reg.HG_ECRC_FAIL]; omega
@[simp] theorem Reg.HG_DUP_DROP_from (L n : Nat) (h : L ≤ 0x200000) : L ≤ Reg.HG_DUP_DROP n := by simp only [hgBase, Reg.HG_DUP_DROP]; omega
@[simp] theorem Reg.HG_RESEQ_DROP_from (L n : Nat) (h : L ≤ 0x200000) : L ≤ Reg.HG_RESEQ_DROP n := by simp only [hgBase, Reg.HG_RESEQ_DROP]; omega
@[simp] theorem Reg.HG_SEQ_FAULT_from (L n : Nat) (h : L ≤ 0x200000) : L ≤ Reg.HG_SEQ_FAULT n := by simp only [hgBase, Reg.HG_SEQ_FAULT]; omega
@[simp] theorem Reg.HG_REPLAY_PKTS_from (L n : Nat) (h : L ≤ 0x200000) : L ≤ Reg.HG_REPLAY_PKTS n := by simp only [hgBase, Reg.HG_REPLAY_PKTS]; omega
@[simp] theorem Reg.HG_ENAK_TX_from (L n : Nat) (h : L ≤ 0x200000) : L ≤ Reg.HG_ENAK_TX n := by simp only [hgBase, Reg.HG_ENAK_TX]; omega
@[simp] theorem Reg.HG_ENAK_RX_from (L n : Nat) (h : L ≤ 0x200000) : L ≤ Reg.HG_ENAK_RX n := by simp only [hgBase, Reg.HG_ENAK_RX]; omega
@[simp] theorem Reg.HG_CMT_TIMEOUT_from (L n : Nat) (h : L ≤ 0x200000) : L ≤ Reg.HG_CMT_TIMEOUT n := by simp only [hgBase, Reg.HG_CMT_TIMEOUT]; omega
@[simp] theorem Reg.HG_CMT_INVALID_from (L n : Nat) (h : L ≤ 0x200000) : L ≤ Reg.HG_CMT_INVALID n := by simp only [hgBase, Reg.HG_CMT_INVALID]; omega
@[simp] theorem Reg.HG_STORE_CORR_from (L n : Nat) (h : L ≤ 0x200000) : L ≤ Reg.HG_STORE_CORR n := by simp only [hgBase, Reg.HG_STORE_CORR]; omega
@[simp] theorem Reg.HG_STORE_UNCORR_from (L n : Nat) (h : L ≤ 0x200000) : L ≤ Reg.HG_STORE_UNCORR n := by simp only [hgBase, Reg.HG_STORE_UNCORR]; omega
@[simp] theorem Reg.HG_WEIR_from (L n k : Nat) (h : L ≤ 0x200000) : L ≤ Reg.HG_WEIR n k := by simp only [hgBase, Reg.HG_WEIR]; omega
@[simp] theorem Reg.HG_ALLOT_from (L n k : Nat) (h : L ≤ 0x200000) : L ≤ Reg.HG_ALLOT n k := by simp only [hgBase, Reg.HG_ALLOT]; omega
@[simp] theorem Reg.HG_GRANT_from (L n k : Nat) (h : L ≤ 0x200000) : L ≤ Reg.HG_GRANT n k := by simp only [hgBase, Reg.HG_GRANT]; omega
@[simp] theorem Reg.HG_PL_CH_SEL_from (L n : Nat) (h : L ≤ 0x200000) : L ≤ Reg.HG_PL_CH_SEL n := by simp only [hgBase, Reg.HG_PL_CH_SEL]; omega
@[simp] theorem Reg.HG_PL_CH_STAT_from (L n : Nat) (h : L ≤ 0x200000) : L ≤ Reg.HG_PL_CH_STAT n := by simp only [hgBase, Reg.HG_PL_CH_STAT]; omega
@[simp] theorem Reg.HG_PL_STATUS_from (L n : Nat) (h : L ≤ 0x200000) : L ≤ Reg.HG_PL_STATUS n := by simp only [hgBase, Reg.HG_PL_STATUS]; omega
@[simp] theorem Reg.HG_PL_TURN_from (L n : Nat) (h : L ≤ 0x200000) : L ≤ Reg.HG_PL_TURN n := by simp only [hgBase, Reg.HG_PL_TURN]; omega
@[simp] theorem Reg.HG_PL_COLL_from (L n : Nat) (h : L ≤ 0x200000) : L ≤ Reg.HG_PL_COLL n := by simp only [hgBase, Reg.HG_PL_COLL]; omega
@[simp] theorem Reg.HG_PL_EMPTY_from (L n : Nat) (h : L ≤ 0x200000) : L ≤ Reg.HG_PL_EMPTY n := by simp only [hgBase, Reg.HG_PL_EMPTY]; omega
@[simp] theorem Reg.HG_PL_STAGE_from (L n : Nat) (h : L ≤ 0x200000) : L ≤ Reg.HG_PL_STAGE n := by simp only [hgBase, Reg.HG_PL_STAGE]; omega
@[simp] theorem Reg.HG_ILV_MAP_from (L n k : Nat) (h : L ≤ 0x200000) : L ≤ Reg.HG_ILV_MAP n k := by simp only [hgBase, Reg.HG_ILV_MAP]; omega
@[simp] theorem Reg.HG_DOM_CLOSE_from (L n : Nat) (h : L ≤ 0x200000) : L ≤ Reg.HG_DOM_CLOSE n := by simp only [hgBase, Reg.HG_DOM_CLOSE]; omega
@[simp] theorem Reg.HG_DOM_STATUS_from (L n : Nat) (h : L ≤ 0x200000) : L ≤ Reg.HG_DOM_STATUS n := by simp only [hgBase, Reg.HG_DOM_STATUS]; omega
@[simp] theorem Reg.HG_SLUICE_from (L n : Nat) (h : L ≤ 0x200000) : L ≤ Reg.HG_SLUICE n := by simp only [hgBase, Reg.HG_SLUICE]; omega
@[simp] theorem Reg.HG_DOM_OFF_CNT_from (L n : Nat) (h : L ≤ 0x200000) : L ≤ Reg.HG_DOM_OFF_CNT n := by simp only [hgBase, Reg.HG_DOM_OFF_CNT]; omega
@[simp] theorem Reg.HG_DOM_OFF_POST_from (L n : Nat) (h : L ≤ 0x200000) : L ≤ Reg.HG_DOM_OFF_POST n := by simp only [hgBase, Reg.HG_DOM_OFF_POST]; omega
@[simp] theorem Reg.HG_CLOSED_CNT_from (L n : Nat) (h : L ≤ 0x200000) : L ≤ Reg.HG_CLOSED_CNT n := by simp only [hgBase, Reg.HG_CLOSED_CNT]; omega
@[simp] theorem Reg.HG_DEC_SLOT_w0_from (L n k : Nat) (h : L ≤ 0x200000) : L ≤ Reg.HG_DEC_SLOT_w0 n k := by simp only [hgBase, Reg.HG_DEC_SLOT_w0]; omega
@[simp] theorem Reg.HG_DEC_SLOT_w1_from (L n k : Nat) (h : L ≤ 0x200000) : L ≤ Reg.HG_DEC_SLOT_w1 n k := by simp only [hgBase, Reg.HG_DEC_SLOT_w1]; omega
@[simp] theorem Reg.HG_ATTACH_k_from (L n k : Nat) (h : L ≤ 0x200000) : L ≤ Reg.HG_ATTACH_k n k := by simp only [hgBase, Reg.HG_ATTACH_k]; omega
@[simp] theorem Reg.HG_LINK_CFG_from (L n : Nat) (h : L ≤ 0x200000) : L ≤ Reg.HG_LINK_CFG n := by simp only [hgBase, Reg.HG_LINK_CFG]; omega
@[simp] theorem Reg.HG_ATTACH_from (L n : Nat) (h : L ≤ 0x200000) : L ≤ Reg.HG_ATTACH n := by simp only [hgBase, Reg.HG_ATTACH]; omega
@[simp] theorem Reg.HG_LEVEE_from (L n : Nat) (h : L ≤ 0x200000) : L ≤ Reg.HG_LEVEE n := by simp only [hgBase, Reg.HG_LEVEE]; omega
@[simp] theorem Reg.HG_TGT_TMO_from (L n : Nat) (h : L ≤ 0x200000) : L ≤ Reg.HG_TGT_TMO n := by simp only [hgBase, Reg.HG_TGT_TMO]; omega
@[simp] theorem Reg.HG_DEAD_DEST_from (L n k : Nat) (h : L ≤ 0x200000) : L ≤ Reg.HG_DEAD_DEST n k := by simp only [hgBase, Reg.HG_DEAD_DEST]; omega
@[simp] theorem Reg.HG_PAIR_RESET_from (L n : Nat) (h : L ≤ 0x200000) : L ≤ Reg.HG_PAIR_RESET n := by simp only [hgBase, Reg.HG_PAIR_RESET]; omega
@[simp] theorem Reg.HG_WPT_HIT_from (L n : Nat) (h : L ≤ 0x200000) : L ≤ Reg.HG_WPT_HIT n := by simp only [hgBase, Reg.HG_WPT_HIT]; omega
@[simp] theorem Reg.HG_SIPHON_TD_from (L n : Nat) (h : L ≤ 0x200000) : L ≤ Reg.HG_SIPHON_TD n := by simp only [hgBase, Reg.HG_SIPHON_TD]; omega
@[simp] theorem Reg.HG_SIPHON_POST_from (L n : Nat) (h : L ≤ 0x200000) : L ≤ Reg.HG_SIPHON_POST n := by simp only [hgBase, Reg.HG_SIPHON_POST]; omega
@[simp] theorem Reg.HG_LEVEE_LATE_from (L n : Nat) (h : L ≤ 0x200000) : L ≤ Reg.HG_LEVEE_LATE n := by simp only [hgBase, Reg.HG_LEVEE_LATE]; omega
@[simp] theorem Reg.HG_TGT_TMO_CNT_from (L n : Nat) (h : L ≤ 0x200000) : L ≤ Reg.HG_TGT_TMO_CNT n := by simp only [hgBase, Reg.HG_TGT_TMO_CNT]; omega
@[simp] theorem Reg.HG_FAILOVER_CNT_from (L n : Nat) (h : L ≤ 0x200000) : L ≤ Reg.HG_FAILOVER_CNT n := by simp only [hgBase, Reg.HG_FAILOVER_CNT]; omega
@[simp] theorem Reg.HG_TRSP_BADOUT_from (L n : Nat) (h : L ≤ 0x200000) : L ≤ Reg.HG_TRSP_BADOUT n := by simp only [hgBase, Reg.HG_TRSP_BADOUT]; omega
@[simp] theorem Reg.HG_WRP_CUT_from (L n : Nat) (h : L ≤ 0x200000) : L ≤ Reg.HG_WRP_CUT n := by simp only [hgBase, Reg.HG_WRP_CUT]; omega
@[simp] theorem Reg.HG_WAYPT_from (L n k : Nat) (h : L ≤ 0x200000) : L ≤ Reg.HG_WAYPT n k := by simp only [hgBase, Reg.HG_WAYPT]; omega
@[simp] theorem Reg.HG_PROT_BASE_from (L n : Nat) (h : L ≤ 0x200000) : L ≤ Reg.HG_PROT_BASE n := by simp only [hgBase, Reg.HG_PROT_BASE]; omega
@[simp] theorem Reg.HG_PROT_SIZE_from (L n : Nat) (h : L ≤ 0x200000) : L ≤ Reg.HG_PROT_SIZE n := by simp only [hgBase, Reg.HG_PROT_SIZE]; omega
@[simp] theorem Reg.HG_PROT_CTRL_from (L n : Nat) (h : L ≤ 0x200000) : L ≤ Reg.HG_PROT_CTRL n := by simp only [hgBase, Reg.HG_PROT_CTRL]; omega
@[simp] theorem Reg.HG_PROT_DRAIN_from (L n : Nat) (h : L ≤ 0x200000) : L ≤ Reg.HG_PROT_DRAIN n := by simp only [hgBase, Reg.HG_PROT_DRAIN]; omega
@[simp] theorem Reg.HG_PROT_DENY_from (L n : Nat) (h : L ≤ 0x200000) : L ≤ Reg.HG_PROT_DENY n := by simp only [hgBase, Reg.HG_PROT_DENY]; omega
@[simp] theorem Reg.HG_PROT_PREFUSE_from (L n : Nat) (h : L ≤ 0x200000) : L ≤ Reg.HG_PROT_PREFUSE n := by simp only [hgBase, Reg.HG_PROT_PREFUSE]; omega
@[simp] theorem Reg.HG_PROT_LAST_from (L n : Nat) (h : L ≤ 0x200000) : L ≤ Reg.HG_PROT_LAST n := by simp only [hgBase, Reg.HG_PROT_LAST]; omega
@[simp] theorem Reg.HG_PROT_RIGHTS_from (L n k : Nat) (h : L ≤ 0x200000) : L ≤ Reg.HG_PROT_RIGHTS n k := by simp only [hgBase, Reg.HG_PROT_RIGHTS]; omega
@[simp] theorem Reg.HG_PROT_GROUP_from (L n k : Nat) (h : L ≤ 0x200000) : L ≤ Reg.HG_PROT_GROUP n k := by simp only [hgBase, Reg.HG_PROT_GROUP]; omega
@[simp] theorem Reg.HG_PL_ENTRY_from (L n k : Nat) (h : L ≤ 0x200000) : L ≤ Reg.HG_PL_ENTRY n k := by simp only [hgBase, Reg.HG_PL_ENTRY]; omega
@[simp] theorem Reg.HG_PL_SET_from (L n k : Nat) (h : L ≤ 0x200000) : L ≤ Reg.HG_PL_SET n k := by simp only [hgBase, Reg.HG_PL_SET]; omega
@[simp] theorem Reg.HG_PL_CHAN_from (L n k : Nat) (h : L ≤ 0x200000) : L ≤ Reg.HG_PL_CHAN n k := by simp only [hgBase, Reg.HG_PL_CHAN]; omega
@[simp ↓] theorem belowKept_setHg (L : Nat) (s x : State) (n : Nat) (h : Headgate) : belowKept L s (x.setHg n h) ↔ belowKept L s x :=
  belowKept_iff (belowKept_same (ps := [.hg]) ((sameExcept_setHg _ (by decide) x x n h).mpr (sameExcept_refl _ _)) (by decide)) s
@[simp ↓] theorem belowKept_setRt (L : Nat) (s x : State) (i : Nat) (r : Router) : belowKept L s (x.setRt i r) ↔ belowKept L s x :=
  belowKept_iff (belowKept_same (ps := [.rt]) ((sameExcept_setRt _ (by decide) x x i r).mpr (sameExcept_refl _ _)) (by decide)) s
@[simp ↓] theorem belowKept_setHs (L : Nat) (s x : State) (k : Nat) (y : Slice) : belowKept L s (x.setHs k y) ↔ belowKept L s x :=
  belowKept_iff (belowKept_same (ps := [.hs]) ((sameExcept_setHs _ (by decide) x x k y).mpr (sameExcept_refl _ _)) (by decide)) s
@[simp ↓] theorem belowKept_setMb (L : Nat) (s x : State) (m : Nat) (y : Mailbox) : belowKept L s (x.setMb m y) ↔ belowKept L s x :=
  belowKept_iff (belowKept_same (ps := [.mb]) ((sameExcept_setMb _ (by decide) x x m y).mpr (sameExcept_refl _ _)) (by decide)) s
@[simp ↓] theorem belowKept_setBank (L : Nat) (s x : State) (b : Nat) (y : BankSt) : belowKept L s (x.setBank b y) ↔ belowKept L s x :=
  belowKept_iff (belowKept_same (ps := [.rv]) ((sameExcept_setBank _ (by decide) x x b y).mpr (sameExcept_refl _ _)) (by decide)) s
@[simp ↓] theorem belowKept_draw (L : Nat) (s x : State) : belowKept L s (x.draw.2) ↔ belowKept L s x :=
  belowKept_iff (belowKept_same (ps := [.freeCtr]) ((sameExcept_draw _ (by decide) x x).mpr (sameExcept_refl _ _)) (by decide)) s
@[simp ↓] theorem belowKept_advanceTo (L : Nat) (s x : State) (t : Nat) : belowKept L s (x.advanceTo t) ↔ belowKept L s x :=
  belowKept_iff (belowKept_same (ps := [.fclk]) ((sameExcept_advanceTo _ (by decide) x x t).mpr (sameExcept_refl _ _)) (by decide)) s
@[simp ↓] theorem belowKept_alarm (L : Nat) (s x : State) (station : Nat) (typ : BitVec 8) (src detail : Nat) : belowKept L s (x.alarm station typ src detail) ↔ belowKept L s x :=
  belowKept_iff (belowKept_same (ps := [.al]) ((sameExcept_alarm _ (by decide) x x station typ src detail).mpr (sameExcept_refl _ _)) (by decide)) s
@[simp ↓] theorem belowKept_count (L : Nat) (s x : State) (key k : Nat) : belowKept L s (x.count key k) ↔ belowKept L s x :=
  belowKept_iff (belowKept_same (ps := [.pr]) ((sameExcept_count _ (by decide) x x key k).mpr (sameExcept_refl _ _)) (by decide)) s
@[simp ↓] theorem belowKept_observe (L : Nat) (s x : State) (atHg : Bool) (wher port : Nat) (f : Flit) : belowKept L s (x.observe atHg wher port f) ↔ belowKept L s x :=
  belowKept_iff (belowKept_same (ps := [.pr]) ((sameExcept_observe _ (by decide) x x atHg wher port f).mpr (sameExcept_refl _ _)) (by decide)) s
@[simp ↓] theorem belowKept_setWire (L : Nat) (s x : State) (e : LEnd) (fs : List Flit) : belowKept L s (x.setWire e fs) ↔ belowKept L s x :=
  belowKept_iff (belowKept_same (ps := [.wires]) ((sameExcept_setWire _ (by decide) x x e fs).mpr (sameExcept_refl _ _)) (by decide)) s
@[simp ↓] theorem belowKept_pushCredit (L : Nat) (s x : State) (e : LEnd) (v : Nat) : belowKept L s (x.pushCredit e v) ↔ belowKept L s x :=
  belowKept_iff (belowKept_same (ps := [.credits]) ((sameExcept_pushCredit _ (by decide) x x e v).mpr (sameExcept_refl _ _)) (by decide)) s
@[simp ↓] theorem belowKept_setCredits (L : Nat) (s x : State) (y : Tab (List (BitVec 4))) : belowKept L s (x.setCredits y) ↔ belowKept L s x :=
  belowKept_iff (belowKept_same (ps := [.credits]) ((sameExcept_setCredits _ (by decide) x x y).mpr (sameExcept_refl _ _)) (by decide)) s
@[simp ↓] theorem belowKept_setBd (L : Nat) (s x : State) (y : Boundary) : belowKept L s (x.setBd y) ↔ belowKept L s x :=
  belowKept_iff (belowKept_same (ps := [.bd]) ((sameExcept_setBd _ (by decide) x x y).mpr (sameExcept_refl _ _)) (by decide)) s
@[simp ↓] theorem belowKept_setPr (L : Nat) (s x : State) (y : Probes) : belowKept L s (x.setPr y) ↔ belowKept L s x :=
  belowKept_iff (belowKept_same (ps := [.pr]) ((sameExcept_setPr _ (by decide) x x y).mpr (sameExcept_refl _ _)) (by decide)) s
@[simp ↓] theorem belowKept_setAl (L : Nat) (s x : State) (y : Alarms) : belowKept L s (x.setAl y) ↔ belowKept L s x :=
  belowKept_iff (belowKept_same (ps := [.al]) ((sameExcept_setAl _ (by decide) x x y).mpr (sameExcept_refl _ _)) (by decide)) s
@[simp ↓] theorem belowKept_setRd (L : Nat) (s x : State) (y : Rider) : belowKept L s (x.setRd y) ↔ belowKept L s x :=
  belowKept_iff (belowKept_same (ps := [.rd]) ((sameExcept_setRd _ (by decide) x x y).mpr (sameExcept_refl _ _)) (by decide)) s
@[simp ↓] theorem belowKept_setRv (L : Nat) (s x : State) (y : Reservoir) : belowKept L s (x.setRv y) ↔ belowKept L s x :=
  belowKept_iff (belowKept_same (ps := [.rv]) ((sameExcept_setRv _ (by decide) x x y).mpr (sameExcept_refl _ _)) (by decide)) s
@[simp ↓] theorem belowKept_setTap (L : Nat) (s x : State) (y : Tap) : belowKept L s (x.setTap y) ↔ belowKept L s x :=
  belowKept_iff (belowKept_same (ps := [.tap]) ((sameExcept_setTap _ (by decide) x x y).mpr (sameExcept_refl _ _)) (by decide)) s
@[simp ↓] theorem belowKept_setFcsRead (L : Nat) (s x : State) (y : Option (BitVec 24 × Word)) : belowKept L s (x.setFcsRead y) ↔ belowKept L s x :=
  belowKept_iff (belowKept_same (ps := [.fcsRead]) ((sameExcept_setFcsRead _ (by decide) x x y).mpr (sameExcept_refl _ _)) (by decide)) s
@[simp ↓] theorem belowKept_setLateGua (L : Nat) (s x : State) (y : List (Nat × Nat)) : belowKept L s (x.setLateGua y) ↔ belowKept L s x :=
  belowKept_iff (belowKept_same (ps := [.lateGua]) ((sameExcept_setLateGua _ (by decide) x x y).mpr (sameExcept_refl _ _)) (by decide)) s
@[simp ↓] theorem belowKept_setFreeCtr (L : Nat) (s x : State) (y : Nat) : belowKept L s (x.setFreeCtr y) ↔ belowKept L s x :=
  belowKept_iff (belowKept_same (ps := [.freeCtr]) ((sameExcept_setFreeCtr _ (by decide) x x y).mpr (sameExcept_refl _ _)) (by decide)) s
@[simp ↓] theorem belowKept_updHg (L : Nat) (s x : State) (n : Nat) (f : Headgate → Headgate) : belowKept L s (x.updHg n f) ↔ belowKept L s x :=
  belowKept_iff (belowKept_same (ps := [.hg]) ((sameExcept_updHg _ (by decide) x x n f).mpr (sameExcept_refl _ _)) (by decide)) s
@[simp ↓] theorem belowKept_updRt (L : Nat) (s x : State) (i : Nat) (f : Router → Router) : belowKept L s (x.updRt i f) ↔ belowKept L s x :=
  belowKept_iff (belowKept_same (ps := [.rt]) ((sameExcept_updRt _ (by decide) x x i f).mpr (sameExcept_refl _ _)) (by decide)) s
@[simp ↓] theorem belowKept_updHs (L : Nat) (s x : State) (k : Nat) (f : Slice → Slice) : belowKept L s (x.updHs k f) ↔ belowKept L s x :=
  belowKept_iff (belowKept_same (ps := [.hs]) ((sameExcept_updHs _ (by decide) x x k f).mpr (sameExcept_refl _ _)) (by decide)) s
@[simp ↓] theorem belowKept_updMb (L : Nat) (s x : State) (m : Nat) (f : Mailbox → Mailbox) : belowKept L s (x.updMb m f) ↔ belowKept L s x :=
  belowKept_iff (belowKept_same (ps := [.mb]) ((sameExcept_updMb _ (by decide) x x m f).mpr (sameExcept_refl _ _)) (by decide)) s
@[simp ↓] theorem belowKept_pushWire (L : Nat) (s x : State) (e : LEnd) (fs : List Flit) : belowKept L s (x.pushWire e fs) ↔ belowKept L s x :=
  belowKept_iff (belowKept_same (ps := [.wires]) ((sameExcept_pushWire _ (by decide) x x e fs).mpr (sameExcept_refl _ _)) (by decide)) s
@[simp ↓] theorem belowKept_hgAlarm (L : Nat) (s x : State) (n : Nat) (typ : BitVec 8) (detail : Nat) : belowKept L s (x.hgAlarm n typ detail) ↔ belowKept L s x :=
  belowKept_iff (belowKept_same (ps := [.al]) ((sameExcept_hgAlarm _ (by decide) x x n typ detail).mpr (sameExcept_refl _ _)) (by decide)) s

end Sys2Proof.Machine
end

