-- ==== Sys2Proof/Laws/Bits.lean ====
section
/-! SUPPORT. Bit fields: what a bit or a field reads after a field was set. -/

namespace Sys2Proof.Machine

/-- The number `setField` builds, by its three parts. -/
theorem setField_parts (w lo len v : Nat) :
    w - (((w >>> lo) % 2 ^ len) <<< lo) + ((v % 2 ^ len) <<< lo) =
      w % 2 ^ lo + 2 ^ lo * (v % 2 ^ len) + 2 ^ (lo + len) * (w / 2 ^ (lo + len)) := by
  simp only [Nat.shiftRight_eq_div_pow, Nat.shiftLeft_eq]
  have h1 := Nat.div_add_mod w (2 ^ lo)
  have h2 := Nat.div_add_mod (w / 2 ^ lo) (2 ^ len)
  have h3 : w / 2 ^ (lo + len) = w / 2 ^ lo / 2 ^ len := by rw [Nat.pow_add, Nat.div_div_eq_div_mul]
  rw [h3, Nat.pow_add]
  generalize w / 2 ^ lo / 2 ^ len = c at *
  generalize w / 2 ^ lo % 2 ^ len = b at *
  generalize w % 2 ^ lo = a at *
  have h4 : w = 2 ^ lo * 2 ^ len * c + 2 ^ lo * b + a := by
    rw [← h1, ← h2]; rw [Nat.mul_add, Nat.mul_assoc]
  rw [h4, Nat.mul_comm b, Nat.mul_comm (v % 2 ^ len)]
  omega

/-- A bit of that number. -/
theorem testBit_setField_parts (w lo len v i : Nat) :
    (w % 2 ^ lo + 2 ^ lo * (v % 2 ^ len) + 2 ^ (lo + len) * (w / 2 ^ (lo + len))).testBit i =
      if lo ≤ i ∧ i < lo + len then Nat.testBit v (i - lo) else w.testBit i := by
  have e : w % 2 ^ lo + 2 ^ lo * (v % 2 ^ len) + 2 ^ (lo + len) * (w / 2 ^ (lo + len)) =
      2 ^ lo * (2 ^ len * (w / 2 ^ (lo + len)) + v % 2 ^ len) + w % 2 ^ lo := by
    rw [Nat.mul_add, Nat.pow_add, Nat.mul_assoc]; omega
  rw [e, Nat.testBit_two_pow_mul_add _ (Nat.mod_lt _ (Nat.two_pow_pos _)),
    Nat.testBit_two_pow_mul_add _ (Nat.mod_lt _ (Nat.two_pow_pos _))]
  by_cases h1 : i < lo
  · simp [h1, Nat.testBit_mod_two_pow, Nat.not_le.mpr h1]
  · rw [if_neg h1]
    by_cases h2 : i - lo < len
    · rw [if_pos h2, if_pos (by omega)]
      simp [Nat.testBit_mod_two_pow, h2]
    · rw [if_neg h2, if_neg (by omega), Nat.testBit_div_two_pow]
      congr 1; omega

/-- A bit of a word after a field was set. -/
theorem getLsbD_setField {n : Nat} (w : BitVec n) (lo len v i : Nat) :
    (setField w lo len v).getLsbD i =
      (decide (i < n) && (if lo ≤ i ∧ i < lo + len then Nat.testBit v (i - lo) else w.getLsbD i)) := by
  unfold setField
  rw [BitVec.getLsbD_ofNat, setField_parts, testBit_setField_parts]
  rfl

/-- A bit of a field. -/
theorem testBit_field {n : Nat} (w : BitVec n) (lo len i : Nat) :
    (field w lo len).testBit i = (decide (i < len) && w.getLsbD (lo + i)) := by
  unfold field
  rw [Nat.testBit_mod_two_pow, Nat.testBit_shiftRight]
  rfl

/-- A field reads as it was set. -/
theorem field_setField_same {n : Nat} (w : BitVec n) (lo len v : Nat) (h : lo + len ≤ n) :
    field (setField w lo len v) lo len = v % 2 ^ len := by
  apply Nat.eq_of_testBit_eq
  intro i
  rw [testBit_field, getLsbD_setField, Nat.testBit_mod_two_pow]
  by_cases hi : i < len
  · have h1 : lo + i < n := by omega
    have h2 : lo ≤ lo + i ∧ lo + i < lo + len := by omega
    have h3 : lo + i - lo = i := by omega
    simp [hi, h1, h3]
  · simp [hi]

/-- A field set leaves a disjoint one as it was. -/
theorem field_setField_other {n : Nat} (w : BitVec n) (lo len v lo' len' : Nat) (h : lo' + len' ≤ lo ∨ lo + len ≤ lo') :
    field (setField w lo len v) lo' len' = field w lo' len' := by
  apply Nat.eq_of_testBit_eq
  intro i
  rw [testBit_field, testBit_field, getLsbD_setField]
  by_cases hi : i < len'
  · have h2 : ¬(lo ≤ lo' + i ∧ lo' + i < lo + len) := by omega
    by_cases hn : lo' + i < n
    · simp [hi, h2, hn]
    · simp [hi, hn, BitVec.getLsbD_of_ge w (lo' + i) (by omega)]
  · simp [hi]

/-- A field lies below two to its length. -/
theorem field_lt {n : Nat} (w : BitVec n) (lo len : Nat) : field w lo len < 2 ^ len := Nat.mod_lt _ (Nat.two_pow_pos _)

/-- A bit after another field was set. -/
theorem bit_setField_other {n : Nat} (w : BitVec n) (lo len v i : Nat) (h : i < lo ∨ lo + len ≤ i) :
    bit (setField w lo len v) i = bit w i := by
  unfold bit
  rw [getLsbD_setField, if_neg (by omega)]
  by_cases hn : i < n
  · simp [hn]
  · simp [hn, BitVec.getLsbD_of_ge w i (by omega)]

/-- A bit within a field that was set. -/
theorem bit_setField_in {n : Nat} (w : BitVec n) (lo len v i : Nat) (hn : i < n) (h : lo ≤ i ∧ i < lo + len) :
    bit (setField w lo len v) i = Nat.testBit v (i - lo) := by
  unfold bit
  rw [getLsbD_setField, if_pos h]
  simp [hn]

/-- A bit reads as it was set. -/
theorem bit_setBit_same {n : Nat} (w : BitVec n) (i : Nat) (b : Bool) (hn : i < n) : bit (setBit w i b) i = b := by
  unfold setBit
  rw [bit_setField_in w i 1 _ i hn (by omega)]
  cases b <;> simp [b2n]

/-- A bit set leaves every other as it was. -/
theorem bit_setBit_other {n : Nat} (w : BitVec n) (i j : Nat) (b : Bool) (h : j ≠ i) : bit (setBit w i b) j = bit w j := by
  unfold setBit
  exact bit_setField_other w i 1 _ j (by omega)

/-- A field that does not hold the bit is as it was. -/
theorem field_setBit_other {n : Nat} (w : BitVec n) (i lo len : Nat) (b : Bool) (h : i < lo ∨ lo + len ≤ i) :
    field (setBit w i b) lo len = field w lo len := by
  unfold setBit
  exact field_setField_other w i 1 _ lo len (by omega)

end Sys2Proof.Machine
end

