-- ==== Sys2Proof/Laws/FrameOps.lean ====
section
/-! SUPPORT. What each operation of `Machine/Ops.lean` can change, in the pieces of `Safety.lean`: `<operation>_frame` says it once,
`<operation>_through` carries it past the operation, `<operation>_canonical` says that it keeps the canonical form, and
`<operation>_low`, `<operation>_below` that it keeps the registers below the blocks it works on. -/

open Sys2Proof

namespace Sys2Proof.Machine

set_option linter.unusedSimpArgs false
set_option linter.unusedVariables false

theorem State.hgEvent_frame (s : State) (n : Nat) (evt : Nat) (k : Nat) :
    sameExcept [.pr] s (State.hgEvent s n evt k) := by
  unfold State.hgEvent
  simp (disch := decide)
@[simp ↓] theorem State.hgEvent_through (ps : List Piece) (hps : ([.pr] : List Piece).all (ps.contains ·) = true) (s0 : State)
    (s : State) (n : Nat) (evt : Nat) (k : Nat) :
    sameExcept ps s0 (State.hgEvent s n evt k) ↔ sameExcept ps s0 s :=
  sameExcept_through (State.hgEvent_frame s n evt k) hps s0
@[simp ↓] theorem State.hgEvent_canonical (s : State) (n : Nat) (evt : Nat) (k : Nat) : canonical (State.hgEvent s n evt k) ↔ canonical s :=
  canonical_same (State.hgEvent_frame s n evt k) (by decide)
@[simp ↓] theorem State.hgEvent_below (L : Nat) (s0 : State) (s : State) (n : Nat) (evt : Nat) (k : Nat) :
    belowKept L s0 (State.hgEvent s n evt k) ↔ belowKept L s0 s :=
  belowKept_iff (belowKept_same (State.hgEvent_frame s n evt k) (by decide)) s0

theorem State.rtEvent_frame (s : State) (i : Nat) (o : Nat) (evt : Nat) (k : Nat) :
    sameExcept [.pr] s (State.rtEvent s i o evt k) := by
  unfold State.rtEvent
  simp (disch := decide)
@[simp ↓] theorem State.rtEvent_through (ps : List Piece) (hps : ([.pr] : List Piece).all (ps.contains ·) = true) (s0 : State)
    (s : State) (i : Nat) (o : Nat) (evt : Nat) (k : Nat) :
    sameExcept ps s0 (State.rtEvent s i o evt k) ↔ sameExcept ps s0 s :=
  sameExcept_through (State.rtEvent_frame s i o evt k) hps s0
@[simp ↓] theorem State.rtEvent_canonical (s : State) (i : Nat) (o : Nat) (evt : Nat) (k : Nat) : canonical (State.rtEvent s i o evt k) ↔ canonical s :=
  canonical_same (State.rtEvent_frame s i o evt k) (by decide)
@[simp ↓] theorem State.rtEvent_below (L : Nat) (s0 : State) (s : State) (i : Nat) (o : Nat) (evt : Nat) (k : Nat) :
    belowKept L s0 (State.rtEvent s i o evt k) ↔ belowKept L s0 s :=
  belowKept_iff (belowKept_same (State.rtEvent_frame s i o evt k) (by decide)) s0

theorem State.setLink_frame (s : State) (e : LEnd) (k : LinkEnd) :
    sameExcept [.hg, .rt] s (State.setLink s e k) := by
  unfold State.setLink
  (repeat' split) <;> simp (disch := decide)
@[simp ↓] theorem State.setLink_through (ps : List Piece) (hps : ([.hg, .rt] : List Piece).all (ps.contains ·) = true) (s0 : State)
    (s : State) (e : LEnd) (k : LinkEnd) :
    sameExcept ps s0 (State.setLink s e k) ↔ sameExcept ps s0 s :=
  sameExcept_through (State.setLink_frame s e k) hps s0
@[simp ↓] theorem State.setLink_canonical (s : State) (e : LEnd) (k : LinkEnd) : canonical (State.setLink s e k) ↔ canonical s :=
  canonical_same (State.setLink_frame s e k) (by decide)
@[simp ↓] theorem State.setLink_below (L : Nat) (s0 : State) (s : State) (e : LEnd) (k : LinkEnd) :
    belowKept L s0 (State.setLink s e k) ↔ belowKept L s0 s :=
  belowKept_iff (belowKept_same (State.setLink_frame s e k) (by decide)) s0

theorem freeLanes_frame (s : State) (l : Line) (be : BitVec 64) :
    sameExcept [.freeCtr] s (freeLanes s l be).2 := by
  unfold freeLanes
  simp (disch := decide)
@[simp ↓] theorem freeLanes_through (ps : List Piece) (hps : ([.freeCtr] : List Piece).all (ps.contains ·) = true) (s0 : State)
    (s : State) (l : Line) (be : BitVec 64) :
    sameExcept ps s0 (freeLanes s l be).2 ↔ sameExcept ps s0 s :=
  sameExcept_through (freeLanes_frame s l be) hps s0
@[simp ↓] theorem freeLanes_canonical (s : State) (l : Line) (be : BitVec 64) : canonical (freeLanes s l be).2 ↔ canonical s :=
  canonical_same (freeLanes_frame s l be) (by decide)
@[simp ↓] theorem freeLanes_below (L : Nat) (s0 : State) (s : State) (l : Line) (be : BitVec 64) :
    belowKept L s0 (freeLanes s l be).2 ↔ belowKept L s0 s :=
  belowKept_iff (belowKept_same (freeLanes_frame s l be) (by decide)) s0

theorem idle_frame (s : State) :
    sameExcept [.fclk] s (idle s) := by
  unfold idle
  split
  · simp
  · intro p hp; cases p <;> first | rfl | (simp at hp)
@[simp ↓] theorem idle_through (ps : List Piece) (hps : ([.fclk] : List Piece).all (ps.contains ·) = true) (s0 : State)
    (s : State) :
    sameExcept ps s0 (idle s) ↔ sameExcept ps s0 s :=
  sameExcept_through (idle_frame s) hps s0
@[simp ↓] theorem idle_canonical (s : State) : canonical (idle s) ↔ canonical s :=
  canonical_same (idle_frame s) (by decide)
@[simp ↓] theorem idle_below (L : Nat) (s0 : State) (s : State) :
    belowKept L s0 (idle s) ↔ belowKept L s0 s :=
  belowKept_iff (belowKept_same (idle_frame s) (by decide)) s0

end Sys2Proof.Machine
end

