-- ==== Sys2Proof/Laws/FrameInject.lean ====
section
/-! SUPPORT. What each operation of `Machine/Inject.lean` can change, in the pieces of `Safety.lean`: `<operation>_frame` says it once,
`<operation>_through` carries it past the operation, `<operation>_canonical` says that it keeps the canonical form, and
`<operation>_low`, `<operation>_below` that it keeps the registers below the blocks it works on. -/

open Sys2Proof

namespace Sys2Proof.Machine

set_option linter.unusedSimpArgs false
set_option linter.unusedVariables false

theorem advanceEpoch_frame (s : State) (n : Nat) :
    sameExcept [.regs] s (advanceEpoch s n) := by
  unfold advanceEpoch
  simp (disch := decide)
@[simp ↓] theorem advanceEpoch_through (ps : List Piece) (hps : ([.regs] : List Piece).all (ps.contains ·) = true) (s0 : State)
    (s : State) (n : Nat) :
    sameExcept ps s0 (advanceEpoch s n) ↔ sameExcept ps s0 s :=
  sameExcept_through (advanceEpoch_frame s n) hps s0
@[simp ↓] theorem advanceEpoch_canonical (s : State) (n : Nat) (h : canonical s) : canonical (advanceEpoch s n) := by
  unfold advanceEpoch
  simp (maxDischargeDepth := 60) (contextual := true) [h]
theorem advanceEpoch_low (s : State) (n : Nat) :
    belowKept 0x200000 s (advanceEpoch s n) := by
  unfold advanceEpoch
  simp (maxDischargeDepth := 60)
@[simp ↓] theorem advanceEpoch_below (L : Nat) (hL : L ≤ 0x200000) (s0 : State) (s : State) (n : Nat) :
    belowKept L s0 (advanceEpoch s n) ↔ belowKept L s0 s :=
  belowKept_iff (belowKept_mono (advanceEpoch_low s n) hL) s0

theorem launch_frame (s : State) (n : Nat) (fs : List Flit) (gua : Bool) :
    sameExcept [.wires, .pr] s (launch s n fs gua) := by
  unfold launch
  simp (disch := first | decide | (intro _ _; (repeat' split) <;> simp (disch := decide))) [sameExcept_foldl, sameExcept_foldl1, sameExcept_foldl2, sameExcept_forEach, sameExcept_forRange]
@[simp ↓] theorem launch_through (ps : List Piece) (hps : ([.wires, .pr] : List Piece).all (ps.contains ·) = true) (s0 : State)
    (s : State) (n : Nat) (fs : List Flit) (gua : Bool) :
    sameExcept ps s0 (launch s n fs gua) ↔ sameExcept ps s0 s :=
  sameExcept_through (launch_frame s n fs gua) hps s0
@[simp ↓] theorem launch_canonical (s : State) (n : Nat) (fs : List Flit) (gua : Bool) : canonical (launch s n fs gua) ↔ canonical s :=
  canonical_same (launch_frame s n fs gua) (by decide)
@[simp ↓] theorem launch_below (L : Nat) (s0 : State) (s : State) (n : Nat) (fs : List Flit) (gua : Bool) :
    belowKept L s0 (launch s n fs gua) ↔ belowKept L s0 s :=
  belowKept_iff (belowKept_same (launch_frame s n fs gua) (by decide)) s0

theorem launchPkt_frame (s : State) (n : Nat) (p : Pkt) :
    sameExcept [.wires, .pr] s (launchPkt s n p) := by
  unfold launchPkt
  simp (disch := decide)
@[simp ↓] theorem launchPkt_through (ps : List Piece) (hps : ([.wires, .pr] : List Piece).all (ps.contains ·) = true) (s0 : State)
    (s : State) (n : Nat) (p : Pkt) :
    sameExcept ps s0 (launchPkt s n p) ↔ sameExcept ps s0 s :=
  sameExcept_through (launchPkt_frame s n p) hps s0
@[simp ↓] theorem launchPkt_canonical (s : State) (n : Nat) (p : Pkt) : canonical (launchPkt s n p) ↔ canonical s :=
  canonical_same (launchPkt_frame s n p) (by decide)
@[simp ↓] theorem launchPkt_below (L : Nat) (s0 : State) (s : State) (n : Nat) (p : Pkt) :
    belowKept L s0 (launchPkt s n p) ↔ belowKept L s0 s :=
  belowKept_iff (belowKept_same (launchPkt_frame s n p) (by decide)) s0

theorem waypointMatch_frame (s : State) (n : Nat) (node : Nat) :
    sameExcept [.regs] s (waypointMatch s n node).2 := by
  unfold waypointMatch
  (repeat' split) <;> simp (disch := decide)
@[simp ↓] theorem waypointMatch_through (ps : List Piece) (hps : ([.regs] : List Piece).all (ps.contains ·) = true) (s0 : State)
    (s : State) (n : Nat) (node : Nat) :
    sameExcept ps s0 (waypointMatch s n node).2 ↔ sameExcept ps s0 s :=
  sameExcept_through (waypointMatch_frame s n node) hps s0
@[simp ↓] theorem waypointMatch_canonical (s : State) (n : Nat) (node : Nat) (h : canonical s) : canonical (waypointMatch s n node).2 := by
  unfold waypointMatch
  (repeat' split) <;> simp (maxDischargeDepth := 60) (contextual := true) [h]
theorem waypointMatch_low (s : State) (n : Nat) (node : Nat) :
    belowKept 0x200000 s (waypointMatch s n node).2 := by
  unfold waypointMatch
  (repeat' split) <;> simp (maxDischargeDepth := 60)
@[simp ↓] theorem waypointMatch_below (L : Nat) (hL : L ≤ 0x200000) (s0 : State) (s : State) (n : Nat) (node : Nat) :
    belowKept L s0 (waypointMatch s n node).2 ↔ belowKept L s0 s :=
  belowKept_iff (belowKept_mono (waypointMatch_low s n node) hL) s0

theorem routePkt_frame (s : State) (n : Nat) (p : Pkt) (replay : Bool) :
    sameExcept [.regs] s (routePkt s n p replay).2 := by
  unfold routePkt
  simp (disch := decide)
@[simp ↓] theorem routePkt_through (ps : List Piece) (hps : ([.regs] : List Piece).all (ps.contains ·) = true) (s0 : State)
    (s : State) (n : Nat) (p : Pkt) (replay : Bool) :
    sameExcept ps s0 (routePkt s n p replay).2 ↔ sameExcept ps s0 s :=
  sameExcept_through (routePkt_frame s n p replay) hps s0
@[simp ↓] theorem routePkt_canonical (s : State) (n : Nat) (p : Pkt) (replay : Bool) (h : canonical s) : canonical (routePkt s n p replay).2 := by
  unfold routePkt
  simp (maxDischargeDepth := 60) (contextual := true) [h]
theorem routePkt_low (s : State) (n : Nat) (p : Pkt) (replay : Bool) :
    belowKept 0x200000 s (routePkt s n p replay).2 := by
  unfold routePkt
  simp (maxDischargeDepth := 60)
@[simp ↓] theorem routePkt_below (L : Nat) (hL : L ≤ 0x200000) (s0 : State) (s : State) (n : Nat) (p : Pkt) (replay : Bool) :
    belowKept L s0 (routePkt s n p replay).2 ↔ belowKept L s0 s :=
  belowKept_iff (belowKept_mono (routePkt_low s n p replay) hL) s0

theorem sendCmt_frame (s : State) (n : Nat) (dst : Nat) (op : BitVec 8) (xinfo : Nat) :
    sameExcept [.regs, .wires, .pr] s (sendCmt s n dst op xinfo) := by
  unfold sendCmt
  simp (disch := decide)
@[simp ↓] theorem sendCmt_through (ps : List Piece) (hps : ([.regs, .wires, .pr] : List Piece).all (ps.contains ·) = true) (s0 : State)
    (s : State) (n : Nat) (dst : Nat) (op : BitVec 8) (xinfo : Nat) :
    sameExcept ps s0 (sendCmt s n dst op xinfo) ↔ sameExcept ps s0 s :=
  sameExcept_through (sendCmt_frame s n dst op xinfo) hps s0
@[simp ↓] theorem sendCmt_canonical (s : State) (n : Nat) (dst : Nat) (op : BitVec 8) (xinfo : Nat) (h : canonical s) : canonical (sendCmt s n dst op xinfo) := by
  unfold sendCmt
  simp (maxDischargeDepth := 60) (contextual := true) [h]
theorem sendCmt_low (s : State) (n : Nat) (dst : Nat) (op : BitVec 8) (xinfo : Nat) :
    belowKept 0x200000 s (sendCmt s n dst op xinfo) := by
  unfold sendCmt
  simp (maxDischargeDepth := 60)
@[simp ↓] theorem sendCmt_below (L : Nat) (hL : L ≤ 0x200000) (s0 : State) (s : State) (n : Nat) (dst : Nat) (op : BitVec 8) (xinfo : Nat) :
    belowKept L s0 (sendCmt s n dst op xinfo) ↔ belowKept L s0 s :=
  belowKept_iff (belowKept_mono (sendCmt_low s n dst op xinfo) hL) s0

theorem storePkt_frame (s : State) (n : Nat) (p : StPkt) :
    sameExcept [.hg] s (storePkt s n p) := by
  unfold storePkt
  simp (disch := decide)
@[simp ↓] theorem storePkt_through (ps : List Piece) (hps : ([.hg] : List Piece).all (ps.contains ·) = true) (s0 : State)
    (s : State) (n : Nat) (p : StPkt) :
    sameExcept ps s0 (storePkt s n p) ↔ sameExcept ps s0 s :=
  sameExcept_through (storePkt_frame s n p) hps s0
@[simp ↓] theorem storePkt_canonical (s : State) (n : Nat) (p : StPkt) : canonical (storePkt s n p) ↔ canonical s :=
  canonical_same (storePkt_frame s n p) (by decide)
@[simp ↓] theorem storePkt_below (L : Nat) (s0 : State) (s : State) (n : Nat) (p : StPkt) :
    belowKept L s0 (storePkt s n p) ↔ belowKept L s0 s :=
  belowKept_iff (belowKept_same (storePkt_frame s n p) (by decide)) s0

theorem storeReply_frame (s : State) (n : Nat) (kind : PktKind) (p : Pkt) :
    sameExcept [.hg] s (storeReply s n kind p) := by
  unfold storeReply
  simp (disch := decide)
@[simp ↓] theorem storeReply_through (ps : List Piece) (hps : ([.hg] : List Piece).all (ps.contains ·) = true) (s0 : State)
    (s : State) (n : Nat) (kind : PktKind) (p : Pkt) :
    sameExcept ps s0 (storeReply s n kind p) ↔ sameExcept ps s0 s :=
  sameExcept_through (storeReply_frame s n kind p) hps s0
@[simp ↓] theorem storeReply_canonical (s : State) (n : Nat) (kind : PktKind) (p : Pkt) : canonical (storeReply s n kind p) ↔ canonical s :=
  canonical_same (storeReply_frame s n kind p) (by decide)
@[simp ↓] theorem storeReply_below (L : Nat) (s0 : State) (s : State) (n : Nat) (kind : PktKind) (p : Pkt) :
    belowKept L s0 (storeReply s n kind p) ↔ belowKept L s0 s :=
  belowKept_iff (belowKept_same (storeReply_frame s n kind p) (by decide)) s0

theorem triggerPass_frame (s : State) (n : Nat) (d : Nat) :
    sameExcept [.hg] s (triggerPass s n d) := by
  unfold triggerPass
  simp (disch := decide)
@[simp ↓] theorem triggerPass_through (ps : List Piece) (hps : ([.hg] : List Piece).all (ps.contains ·) = true) (s0 : State)
    (s : State) (n : Nat) (d : Nat) :
    sameExcept ps s0 (triggerPass s n d) ↔ sameExcept ps s0 s :=
  sameExcept_through (triggerPass_frame s n d) hps s0
@[simp ↓] theorem triggerPass_canonical (s : State) (n : Nat) (d : Nat) : canonical (triggerPass s n d) ↔ canonical s :=
  canonical_same (triggerPass_frame s n d) (by decide)
@[simp ↓] theorem triggerPass_below (L : Nat) (s0 : State) (s : State) (n : Nat) (d : Nat) :
    belowKept L s0 (triggerPass s n d) ↔ belowKept L s0 s :=
  belowKept_iff (belowKept_same (triggerPass_frame s n d) (by decide)) s0

theorem triggerAll_frame (s : State) (n : Nat) :
    sameExcept [.hg] s (triggerAll s n) := by
  unfold triggerAll
  simp (disch := first | decide | (intro _ _; (repeat' split) <;> simp (disch := decide))) [sameExcept_foldl, sameExcept_foldl1, sameExcept_foldl2, sameExcept_forEach, sameExcept_forRange]
@[simp ↓] theorem triggerAll_through (ps : List Piece) (hps : ([.hg] : List Piece).all (ps.contains ·) = true) (s0 : State)
    (s : State) (n : Nat) :
    sameExcept ps s0 (triggerAll s n) ↔ sameExcept ps s0 s :=
  sameExcept_through (triggerAll_frame s n) hps s0
@[simp ↓] theorem triggerAll_canonical (s : State) (n : Nat) : canonical (triggerAll s n) ↔ canonical s :=
  canonical_same (triggerAll_frame s n) (by decide)
@[simp ↓] theorem triggerAll_below (L : Nat) (s0 : State) (s : State) (n : Nat) :
    belowKept L s0 (triggerAll s n) ↔ belowKept L s0 s :=
  belowKept_iff (belowKept_same (triggerAll_frame s n) (by decide)) s0

theorem injectFirst_frame (s : State) (n : Nat) (k : Nat) :
    sameExcept [.regs, .hg, .wires, .pr] s (injectFirst s n k) := by
  unfold injectFirst
  (repeat' split) <;> simp (disch := decide)
@[simp ↓] theorem injectFirst_through (ps : List Piece) (hps : ([.regs, .hg, .wires, .pr] : List Piece).all (ps.contains ·) = true) (s0 : State)
    (s : State) (n : Nat) (k : Nat) :
    sameExcept ps s0 (injectFirst s n k) ↔ sameExcept ps s0 s :=
  sameExcept_through (injectFirst_frame s n k) hps s0
@[simp ↓] theorem injectFirst_canonical (s : State) (n : Nat) (k : Nat) (h : canonical s) : canonical (injectFirst s n k) := by
  unfold injectFirst
  (repeat' split) <;> simp (maxDischargeDepth := 60) (contextual := true) [h]
theorem injectFirst_low (s : State) (n : Nat) (k : Nat) :
    belowKept 0x200000 s (injectFirst s n k) := by
  unfold injectFirst
  (repeat' split) <;> simp (maxDischargeDepth := 60)
@[simp ↓] theorem injectFirst_below (L : Nat) (hL : L ≤ 0x200000) (s0 : State) (s : State) (n : Nat) (k : Nat) :
    belowKept L s0 (injectFirst s n k) ↔ belowKept L s0 s :=
  belowKept_iff (belowKept_mono (injectFirst_low s n k) hL) s0

theorem storeUncorr_frame (s : State) (n : Nat) (which : Nat) (alarmed : Bool) :
    sameExcept [.regs, .al, .freeCtr] s (storeUncorr s n which alarmed) := by
  unfold storeUncorr
  simp (disch := decide)
@[simp ↓] theorem storeUncorr_through (ps : List Piece) (hps : ([.regs, .al, .freeCtr] : List Piece).all (ps.contains ·) = true) (s0 : State)
    (s : State) (n : Nat) (which : Nat) (alarmed : Bool) :
    sameExcept ps s0 (storeUncorr s n which alarmed) ↔ sameExcept ps s0 s :=
  sameExcept_through (storeUncorr_frame s n which alarmed) hps s0
@[simp ↓] theorem storeUncorr_canonical (s : State) (n : Nat) (which : Nat) (alarmed : Bool) (h : canonical s) : canonical (storeUncorr s n which alarmed) := by
  unfold storeUncorr
  simp (maxDischargeDepth := 60) (contextual := true) [h]
theorem storeUncorr_low (s : State) (n : Nat) (which : Nat) (alarmed : Bool) :
    belowKept 0x200000 s (storeUncorr s n which alarmed) := by
  unfold storeUncorr
  simp (maxDischargeDepth := 60)
@[simp ↓] theorem storeUncorr_below (L : Nat) (hL : L ≤ 0x200000) (s0 : State) (s : State) (n : Nat) (which : Nat) (alarmed : Bool) :
    belowKept L s0 (storeUncorr s n which alarmed) ↔ belowKept L s0 s :=
  belowKept_iff (belowKept_mono (storeUncorr_low s n which alarmed) hL) s0

theorem readStored_frame (s : State) (n : Nat) (k : Nat) (err : MemErr) :
    sameExcept [.regs, .hg, .al, .freeCtr] s (readStored s n k err) := by
  unfold readStored
  dsimp only
  (repeat' split) <;> simp (disch := decide)
@[simp ↓] theorem readStored_through (ps : List Piece) (hps : ([.regs, .hg, .al, .freeCtr] : List Piece).all (ps.contains ·) = true) (s0 : State)
    (s : State) (n : Nat) (k : Nat) (err : MemErr) :
    sameExcept ps s0 (readStored s n k err) ↔ sameExcept ps s0 s :=
  sameExcept_through (readStored_frame s n k err) hps s0
@[simp ↓] theorem readStored_canonical (s : State) (n : Nat) (k : Nat) (err : MemErr) (h : canonical s) : canonical (readStored s n k err) := by
  unfold readStored
  dsimp only
  (repeat' split) <;> simp (maxDischargeDepth := 60) (contextual := true) [h]
theorem readStored_low (s : State) (n : Nat) (k : Nat) (err : MemErr) :
    belowKept 0x200000 s (readStored s n k err) := by
  unfold readStored
  dsimp only
  (repeat' split) <;> simp (maxDischargeDepth := 60)
@[simp ↓] theorem readStored_below (L : Nat) (hL : L ≤ 0x200000) (s0 : State) (s : State) (n : Nat) (k : Nat) (err : MemErr) :
    belowKept L s0 (readStored s n k err) ↔ belowKept L s0 s :=
  belowKept_iff (belowKept_mono (readStored_low s n k err) hL) s0

theorem injectAgain_frame (s : State) (n : Nat) (k : Nat) :
    sameExcept [.regs, .hg, .wires, .pr] s (injectAgain s n k) := by
  unfold injectAgain
  dsimp only
  (repeat' split) <;> simp (disch := decide)
@[simp ↓] theorem injectAgain_through (ps : List Piece) (hps : ([.regs, .hg, .wires, .pr] : List Piece).all (ps.contains ·) = true) (s0 : State)
    (s : State) (n : Nat) (k : Nat) :
    sameExcept ps s0 (injectAgain s n k) ↔ sameExcept ps s0 s :=
  sameExcept_through (injectAgain_frame s n k) hps s0
@[simp ↓] theorem injectAgain_canonical (s : State) (n : Nat) (k : Nat) (h : canonical s) : canonical (injectAgain s n k) := by
  unfold injectAgain
  dsimp only
  (repeat' split) <;> simp (maxDischargeDepth := 60) (contextual := true) [h]
theorem injectAgain_low (s : State) (n : Nat) (k : Nat) :
    belowKept 0x200000 s (injectAgain s n k) := by
  unfold injectAgain
  dsimp only
  (repeat' split) <;> simp (maxDischargeDepth := 60)
@[simp ↓] theorem injectAgain_below (L : Nat) (hL : L ≤ 0x200000) (s0 : State) (s : State) (n : Nat) (k : Nat) :
    belowKept L s0 (injectAgain s n k) ↔ belowKept L s0 s :=
  belowKept_iff (belowKept_mono (injectAgain_low s n k) hL) s0

end Sys2Proof.Machine
end

