-- ==== Sys2Proof/Laws/FrameTarget.lean ====
section
/-! SUPPORT. What each operation of `Machine/Target.lean` can change, in the pieces of `Safety.lean`: `<operation>_frame` says it once,
`<operation>_through` carries it past the operation, `<operation>_canonical` says that it keeps the canonical form, and
`<operation>_low`, `<operation>_below` that it keeps the registers below the blocks it works on. -/

open Sys2Proof

namespace Sys2Proof.Machine

set_option linter.unusedSimpArgs false
set_option linter.unusedVariables false

theorem sendCred_frame (s : State) (t : Nat) (src : Nat) :
    sameExcept [.regs, .hg, .wires, .pr] s (sendCred s t src) := by
  unfold sendCred
  simp (disch := decide)
@[simp ↓] theorem sendCred_through (ps : List Piece) (hps : ([.regs, .hg, .wires, .pr] : List Piece).all (ps.contains ·) = true) (s0 : State)
    (s : State) (t : Nat) (src : Nat) :
    sameExcept ps s0 (sendCred s t src) ↔ sameExcept ps s0 s :=
  sameExcept_through (sendCred_frame s t src) hps s0
@[simp ↓] theorem sendCred_canonical (s : State) (t : Nat) (src : Nat) (h : canonical s) : canonical (sendCred s t src) := by
  unfold sendCred
  simp (maxDischargeDepth := 60) (contextual := true) [h]
theorem sendCred_low (s : State) (t : Nat) (src : Nat) :
    belowKept 0x200000 s (sendCred s t src) := by
  unfold sendCred
  simp (maxDischargeDepth := 60)
@[simp ↓] theorem sendCred_below (L : Nat) (hL : L ≤ 0x200000) (s0 : State) (s : State) (t : Nat) (src : Nat) :
    belowKept L s0 (sendCred s t src) ↔ belowKept L s0 s :=
  belowKept_iff (belowKept_mono (sendCred_low s t src) hL) s0

theorem countFree_frame (s : State) (t : Nat) (src : Nat) :
    sameExcept [.regs, .hg, .wires, .pr] s (countFree s t src) := by
  unfold countFree
  simp (disch := decide)
@[simp ↓] theorem countFree_through (ps : List Piece) (hps : ([.regs, .hg, .wires, .pr] : List Piece).all (ps.contains ·) = true) (s0 : State)
    (s : State) (t : Nat) (src : Nat) :
    sameExcept ps s0 (countFree s t src) ↔ sameExcept ps s0 s :=
  sameExcept_through (countFree_frame s t src) hps s0
@[simp ↓] theorem countFree_canonical (s : State) (t : Nat) (src : Nat) (h : canonical s) : canonical (countFree s t src) := by
  unfold countFree
  simp (maxDischargeDepth := 60) (contextual := true) [h]
theorem countFree_low (s : State) (t : Nat) (src : Nat) :
    belowKept 0x200000 s (countFree s t src) := by
  unfold countFree
  simp (maxDischargeDepth := 60)
@[simp ↓] theorem countFree_below (L : Nat) (hL : L ≤ 0x200000) (s0 : State) (s : State) (t : Nat) (src : Nat) :
    belowKept L s0 (countFree s t src) ↔ belowKept L s0 s :=
  belowKept_iff (belowKept_mono (countFree_low s t src) hL) s0

theorem freeEntry_frame (s : State) (t : Nat) (id : Nat) :
    sameExcept [.regs, .hg, .wires, .pr] s (freeEntry s t id) := by
  unfold freeEntry
  (repeat' split) <;> simp (disch := decide)
@[simp ↓] theorem freeEntry_through (ps : List Piece) (hps : ([.regs, .hg, .wires, .pr] : List Piece).all (ps.contains ·) = true) (s0 : State)
    (s : State) (t : Nat) (id : Nat) :
    sameExcept ps s0 (freeEntry s t id) ↔ sameExcept ps s0 s :=
  sameExcept_through (freeEntry_frame s t id) hps s0
@[simp ↓] theorem freeEntry_canonical (s : State) (t : Nat) (id : Nat) (h : canonical s) : canonical (freeEntry s t id) := by
  unfold freeEntry
  (repeat' split) <;> simp (maxDischargeDepth := 60) (contextual := true) [h]
theorem freeEntry_low (s : State) (t : Nat) (id : Nat) :
    belowKept 0x200000 s (freeEntry s t id) := by
  unfold freeEntry
  (repeat' split) <;> simp (maxDischargeDepth := 60)
@[simp ↓] theorem freeEntry_below (L : Nat) (hL : L ≤ 0x200000) (s0 : State) (s : State) (t : Nat) (id : Nat) :
    belowKept L s0 (freeEntry s t id) ↔ belowKept L s0 s :=
  belowKept_iff (belowKept_mono (freeEntry_low s t id) hL) s0

theorem answer_frame (s : State) (t : Nat) (id : Nat) (oc : BitVec 4) (done : Nat) (data : List DBeat) :
    sameExcept [.regs, .hg, .wires, .pr] s (answer s t id oc done data) := by
  unfold answer
  (repeat' split) <;> simp (disch := decide)
@[simp ↓] theorem answer_through (ps : List Piece) (hps : ([.regs, .hg, .wires, .pr] : List Piece).all (ps.contains ·) = true) (s0 : State)
    (s : State) (t : Nat) (id : Nat) (oc : BitVec 4) (done : Nat) (data : List DBeat) :
    sameExcept ps s0 (answer s t id oc done data) ↔ sameExcept ps s0 s :=
  sameExcept_through (answer_frame s t id oc done data) hps s0
@[simp ↓] theorem answer_canonical (s : State) (t : Nat) (id : Nat) (oc : BitVec 4) (done : Nat) (data : List DBeat) (h : canonical s) : canonical (answer s t id oc done data) := by
  unfold answer
  (repeat' split) <;> simp (maxDischargeDepth := 60) (contextual := true) [h]
theorem answer_low (s : State) (t : Nat) (id : Nat) (oc : BitVec 4) (done : Nat) (data : List DBeat) :
    belowKept 0x200000 s (answer s t id oc done data) := by
  unfold answer
  (repeat' split) <;> simp (maxDischargeDepth := 60)
@[simp ↓] theorem answer_below (L : Nat) (hL : L ≤ 0x200000) (s0 : State) (s : State) (t : Nat) (id : Nat) (oc : BitVec 4) (done : Nat) (data : List DBeat) :
    belowKept L s0 (answer s t id oc done data) ↔ belowKept L s0 s :=
  belowKept_iff (belowKept_mono (answer_low s t id oc done data) hL) s0

theorem flushAnswers_frame (s : State) (t : Nat) :
    sameExcept [.regs, .hg, .wires, .pr] s (flushAnswers s t) := by
  unfold flushAnswers
  simp (disch := first | decide | (intro _ _; (repeat' split) <;> simp (disch := decide))) [sameExcept_foldl, sameExcept_foldl1, sameExcept_foldl2, sameExcept_forEach, sameExcept_forRange]
@[simp ↓] theorem flushAnswers_through (ps : List Piece) (hps : ([.regs, .hg, .wires, .pr] : List Piece).all (ps.contains ·) = true) (s0 : State)
    (s : State) (t : Nat) :
    sameExcept ps s0 (flushAnswers s t) ↔ sameExcept ps s0 s :=
  sameExcept_through (flushAnswers_frame s t) hps s0
@[simp ↓] theorem flushAnswers_canonical (s : State) (t : Nat) (h : canonical s) : canonical (flushAnswers s t) := by
  unfold flushAnswers
  exact canonical_foldl _ _ _ h (fun t x ht => by simp (maxDischargeDepth := 60) (contextual := true) [ht])
theorem flushAnswers_low (s : State) (t : Nat) :
    belowKept 0x200000 s (flushAnswers s t) := by
  unfold flushAnswers
  simp (maxDischargeDepth := 60) [belowKept_foldl, belowKept_foldl1, belowKept_foldl2, belowKept_forEach, belowKept_forRange]
@[simp ↓] theorem flushAnswers_below (L : Nat) (hL : L ≤ 0x200000) (s0 : State) (s : State) (t : Nat) :
    belowKept L s0 (flushAnswers s t) ↔ belowKept L s0 s :=
  belowKept_iff (belowKept_mono (flushAnswers_low s t) hL) s0

theorem releaseMsgs_frame (s : State) (t : Nat) :
    sameExcept [.hg] s (releaseMsgs s t) := by
  unfold releaseMsgs
  simp (disch := first | decide | (intro _ _; (repeat' split) <;> simp (disch := decide))) [sameExcept_foldl, sameExcept_foldl1, sameExcept_foldl2, sameExcept_forEach, sameExcept_forRange]
@[simp ↓] theorem releaseMsgs_through (ps : List Piece) (hps : ([.hg] : List Piece).all (ps.contains ·) = true) (s0 : State)
    (s : State) (t : Nat) :
    sameExcept ps s0 (releaseMsgs s t) ↔ sameExcept ps s0 s :=
  sameExcept_through (releaseMsgs_frame s t) hps s0
@[simp ↓] theorem releaseMsgs_canonical (s : State) (t : Nat) : canonical (releaseMsgs s t) ↔ canonical s :=
  canonical_same (releaseMsgs_frame s t) (by decide)
@[simp ↓] theorem releaseMsgs_below (L : Nat) (s0 : State) (s : State) (t : Nat) :
    belowKept L s0 (releaseMsgs s t) ↔ belowKept L s0 s :=
  belowKept_iff (belowKept_same (releaseMsgs_frame s t) (by decide)) s0

theorem countRevoke_frame (s : State) :
    sameExcept [.regs] s (countRevoke s) := by
  unfold countRevoke
  simp (disch := decide)
@[simp ↓] theorem countRevoke_through (ps : List Piece) (hps : ([.regs] : List Piece).all (ps.contains ·) = true) (s0 : State)
    (s : State) :
    sameExcept ps s0 (countRevoke s) ↔ sameExcept ps s0 s :=
  sameExcept_through (countRevoke_frame s) hps s0
@[simp ↓] theorem countRevoke_canonical (s : State) (h : canonical s) : canonical (countRevoke s) := by
  unfold countRevoke
  simp (maxDischargeDepth := 60) (contextual := true) [h]
theorem countRevoke_low (s : State) :
    belowKept 0xD0000 s (countRevoke s) := by
  unfold countRevoke
  simp (maxDischargeDepth := 60)
@[simp ↓] theorem countRevoke_below (L : Nat) (hL : L ≤ 0xD0000) (s0 : State) (s : State) :
    belowKept L s0 (countRevoke s) ↔ belowKept L s0 s :=
  belowKept_iff (belowKept_mono (countRevoke_low s) hL) s0

theorem revokeHg_frame (s : State) (n : Nat) :
    sameExcept [.regs, .hg, .al] s (revokeHg s n) := by
  unfold revokeHg
  simp (disch := decide)
@[simp ↓] theorem revokeHg_through (ps : List Piece) (hps : ([.regs, .hg, .al] : List Piece).all (ps.contains ·) = true) (s0 : State)
    (s : State) (n : Nat) :
    sameExcept ps s0 (revokeHg s n) ↔ sameExcept ps s0 s :=
  sameExcept_through (revokeHg_frame s n) hps s0
@[simp ↓] theorem revokeHg_canonical (s : State) (n : Nat) (h : canonical s) : canonical (revokeHg s n) := by
  unfold revokeHg
  simp (maxDischargeDepth := 60) (contextual := true) [h]
theorem revokeHg_low (s : State) (n : Nat) :
    belowKept 0xD0000 s (revokeHg s n) := by
  unfold revokeHg
  simp (maxDischargeDepth := 60)
@[simp ↓] theorem revokeHg_below (L : Nat) (hL : L ≤ 0xD0000) (s0 : State) (s : State) (n : Nat) :
    belowKept L s0 (revokeHg s n) ↔ belowKept L s0 s :=
  belowKept_iff (belowKept_mono (revokeHg_low s n) hL) s0

theorem dueHg_frame (s : State) (n : Nat) :
    sameExcept [.regs, .hg, .al] s (dueHg s n) := by
  unfold dueHg
  simp (disch := decide)
@[simp ↓] theorem dueHg_through (ps : List Piece) (hps : ([.regs, .hg, .al] : List Piece).all (ps.contains ·) = true) (s0 : State)
    (s : State) (n : Nat) :
    sameExcept ps s0 (dueHg s n) ↔ sameExcept ps s0 s :=
  sameExcept_through (dueHg_frame s n) hps s0
@[simp ↓] theorem dueHg_canonical (s : State) (n : Nat) (h : canonical s) : canonical (dueHg s n) := by
  unfold dueHg
  simp (maxDischargeDepth := 60) (contextual := true) [h]
theorem dueHg_low (s : State) (n : Nat) :
    belowKept 0xD0000 s (dueHg s n) := by
  unfold dueHg
  simp (maxDischargeDepth := 60)
@[simp ↓] theorem dueHg_below (L : Nat) (hL : L ≤ 0xD0000) (s0 : State) (s : State) (n : Nat) :
    belowKept L s0 (dueHg s n) ↔ belowKept L s0 s :=
  belowKept_iff (belowKept_mono (dueHg_low s n) hL) s0

theorem admitEntry_frame (s : State) (t : Nat) (id : Nat) (h : Header) :
    sameExcept [.regs, .hg, .wires, .pr, .al] s (admitEntry s t id h) := by
  unfold admitEntry
  simp (disch := decide)
@[simp ↓] theorem admitEntry_through (ps : List Piece) (hps : ([.regs, .hg, .wires, .pr, .al] : List Piece).all (ps.contains ·) = true) (s0 : State)
    (s : State) (t : Nat) (id : Nat) (h : Header) :
    sameExcept ps s0 (admitEntry s t id h) ↔ sameExcept ps s0 s :=
  sameExcept_through (admitEntry_frame s t id h) hps s0
@[simp ↓] theorem admitEntry_canonical (s : State) (t : Nat) (id : Nat) (h : Header) (hk : canonical s) : canonical (admitEntry s t id h) := by
  unfold admitEntry
  simp (maxDischargeDepth := 60) (contextual := true) [hk]
theorem admitEntry_low (s : State) (t : Nat) (id : Nat) (h : Header) :
    belowKept 0xD0000 s (admitEntry s t id h) := by
  unfold admitEntry
  simp (maxDischargeDepth := 60)
@[simp ↓] theorem admitEntry_below (L : Nat) (hL : L ≤ 0xD0000) (s0 : State) (s : State) (t : Nat) (id : Nat) (h : Header) :
    belowKept L s0 (admitEntry s t id h) ↔ belowKept L s0 s :=
  belowKept_iff (belowKept_mono (admitEntry_low s t id h) hL) s0

theorem noteDenied_frame (s : State) (t : Nat) (h : Header) (partly : Bool) :
    sameExcept [.regs, .al] s (noteDenied s t h partly) := by
  unfold noteDenied
  simp (disch := decide)
@[simp ↓] theorem noteDenied_through (ps : List Piece) (hps : ([.regs, .al] : List Piece).all (ps.contains ·) = true) (s0 : State)
    (s : State) (t : Nat) (h : Header) (partly : Bool) :
    sameExcept ps s0 (noteDenied s t h partly) ↔ sameExcept ps s0 s :=
  sameExcept_through (noteDenied_frame s t h partly) hps s0
@[simp ↓] theorem noteDenied_canonical (s : State) (t : Nat) (h : Header) (partly : Bool) (hk : canonical s) : canonical (noteDenied s t h partly) := by
  unfold noteDenied
  simp (maxDischargeDepth := 60) (contextual := true) [hk]
theorem noteDenied_low (s : State) (t : Nat) (h : Header) (partly : Bool) :
    belowKept 0x200000 s (noteDenied s t h partly) := by
  unfold noteDenied
  simp (maxDischargeDepth := 60)
@[simp ↓] theorem noteDenied_below (L : Nat) (hL : L ≤ 0x200000) (s0 : State) (s : State) (t : Nat) (h : Header) (partly : Bool) :
    belowKept L s0 (noteDenied s t h partly) ↔ belowKept L s0 s :=
  belowKept_iff (belowKept_mono (noteDenied_low s t h partly) hL) s0

theorem shellAnswer_frame (s : State) (t : Nat) (id : Nat) (h : Header) :
    sameExcept [.regs, .hg, .wires, .pr, .al] s (shellAnswer s t id h) := by
  unfold shellAnswer
  simp (disch := decide)
@[simp ↓] theorem shellAnswer_through (ps : List Piece) (hps : ([.regs, .hg, .wires, .pr, .al] : List Piece).all (ps.contains ·) = true) (s0 : State)
    (s : State) (t : Nat) (id : Nat) (h : Header) :
    sameExcept ps s0 (shellAnswer s t id h) ↔ sameExcept ps s0 s :=
  sameExcept_through (shellAnswer_frame s t id h) hps s0
@[simp ↓] theorem shellAnswer_canonical (s : State) (t : Nat) (id : Nat) (h : Header) (hk : canonical s) : canonical (shellAnswer s t id h) := by
  unfold shellAnswer
  simp (maxDischargeDepth := 60) (contextual := true) [hk]
theorem shellAnswer_low (s : State) (t : Nat) (id : Nat) (h : Header) :
    belowKept 0x200000 s (shellAnswer s t id h) := by
  unfold shellAnswer
  simp (maxDischargeDepth := 60)
@[simp ↓] theorem shellAnswer_below (L : Nat) (hL : L ≤ 0x200000) (s0 : State) (s : State) (t : Nat) (id : Nat) (h : Header) :
    belowKept L s0 (shellAnswer s t id h) ↔ belowKept L s0 s :=
  belowKept_iff (belowKept_mono (shellAnswer_low s t id h) hL) s0

theorem checkEntry_frame (s : State) (t : Nat) (id : Nat) (h : Header) :
    sameExcept [.regs, .hg, .wires, .pr, .al] s (checkEntry s t id h) := by
  unfold checkEntry
  dsimp only
  (repeat' split) <;> simp (disch := decide)
@[simp ↓] theorem checkEntry_through (ps : List Piece) (hps : ([.regs, .hg, .wires, .pr, .al] : List Piece).all (ps.contains ·) = true) (s0 : State)
    (s : State) (t : Nat) (id : Nat) (h : Header) :
    sameExcept ps s0 (checkEntry s t id h) ↔ sameExcept ps s0 s :=
  sameExcept_through (checkEntry_frame s t id h) hps s0
@[simp ↓] theorem checkEntry_canonical (s : State) (t : Nat) (id : Nat) (h : Header) (hk : canonical s) : canonical (checkEntry s t id h) := by
  unfold checkEntry
  dsimp only
  (repeat' split) <;> simp (maxDischargeDepth := 60) (contextual := true) [hk]
theorem checkEntry_low (s : State) (t : Nat) (id : Nat) (h : Header) :
    belowKept 0xD0000 s (checkEntry s t id h) := by
  unfold checkEntry
  dsimp only
  (repeat' split) <;> simp (maxDischargeDepth := 60)
@[simp ↓] theorem checkEntry_below (L : Nat) (hL : L ≤ 0xD0000) (s0 : State) (s : State) (t : Nat) (id : Nat) (h : Header) :
    belowKept L s0 (checkEntry s t id h) ↔ belowKept L s0 s :=
  belowKept_iff (belowKept_mono (checkEntry_low s t id h) hL) s0

theorem takeEntry_frame (s : State) (t : Nat) (p : Pkt) :
    sameExcept [.regs, .hg, .wires, .pr, .al] s (takeEntry s t p) := by
  unfold takeEntry
  simp (disch := decide)
@[simp ↓] theorem takeEntry_through (ps : List Piece) (hps : ([.regs, .hg, .wires, .pr, .al] : List Piece).all (ps.contains ·) = true) (s0 : State)
    (s : State) (t : Nat) (p : Pkt) :
    sameExcept ps s0 (takeEntry s t p) ↔ sameExcept ps s0 s :=
  sameExcept_through (takeEntry_frame s t p) hps s0
@[simp ↓] theorem takeEntry_canonical (s : State) (t : Nat) (p : Pkt) (h : canonical s) : canonical (takeEntry s t p) := by
  unfold takeEntry
  simp (maxDischargeDepth := 60) (contextual := true) [h]
theorem takeEntry_low (s : State) (t : Nat) (p : Pkt) :
    belowKept 0xD0000 s (takeEntry s t p) := by
  unfold takeEntry
  simp (maxDischargeDepth := 60)
@[simp ↓] theorem takeEntry_below (L : Nat) (hL : L ≤ 0xD0000) (s0 : State) (s : State) (t : Nat) (p : Pkt) :
    belowKept L s0 (takeEntry s t p) ↔ belowKept L s0 s :=
  belowKept_iff (belowKept_mono (takeEntry_low s t p) hL) s0

theorem retryOver_frame (fuel : Nat) (s : State) (t : Nat) :
    sameExcept [.regs, .hg, .wires, .pr, .al] s (retryOver fuel s t) := by
  induction fuel generalizing s with
  | zero => simp [retryOver]
  | succ k ih =>
    unfold retryOver
    split
    · simp
    · split
      · simp
      · exact (sameExcept_iff (ih _) s).mpr (by simp (disch := decide))
@[simp ↓] theorem retryOver_through (ps : List Piece) (hps : ([.regs, .hg, .wires, .pr, .al] : List Piece).all (ps.contains ·) = true) (s0 : State)
    (fuel : Nat) (s : State) (t : Nat) :
    sameExcept ps s0 (retryOver fuel s t) ↔ sameExcept ps s0 s :=
  sameExcept_through (retryOver_frame fuel s t) hps s0
@[simp ↓] theorem retryOver_canonical (fuel : Nat) (s : State) (t : Nat) (h : canonical s) : canonical (retryOver fuel s t) := by
  induction fuel generalizing s with
  | zero => exact h
  | succ k ih =>
    unfold retryOver
    (repeat' split)
    · exact h
    · exact h
    · exact ih _ (by simp (maxDischargeDepth := 60) (contextual := true) [h])
theorem retryOver_low (fuel : Nat) (s : State) (t : Nat) :
    belowKept 0xD0000 s (retryOver fuel s t) := by
  induction fuel generalizing s with
  | zero => simp [retryOver]
  | succ k ih =>
    unfold retryOver
    split
    · simp
    · split
      · simp
      · exact (belowKept_iff (ih _) s).mpr (by simp (maxDischargeDepth := 60))
@[simp ↓] theorem retryOver_below (L : Nat) (hL : L ≤ 0xD0000) (s0 : State) (fuel : Nat) (s : State) (t : Nat) :
    belowKept L s0 (retryOver fuel s t) ↔ belowKept L s0 s :=
  belowKept_iff (belowKept_mono (retryOver_low fuel s t) hL) s0

theorem settleTarget_frame (s : State) (t : Nat) :
    sameExcept [.regs, .hg, .wires, .pr, .al] s (settleTarget s t) := by
  unfold settleTarget
  simp (disch := decide)
@[simp ↓] theorem settleTarget_through (ps : List Piece) (hps : ([.regs, .hg, .wires, .pr, .al] : List Piece).all (ps.contains ·) = true) (s0 : State)
    (s : State) (t : Nat) :
    sameExcept ps s0 (settleTarget s t) ↔ sameExcept ps s0 s :=
  sameExcept_through (settleTarget_frame s t) hps s0
@[simp ↓] theorem settleTarget_canonical (s : State) (t : Nat) (h : canonical s) : canonical (settleTarget s t) := by
  unfold settleTarget
  simp (maxDischargeDepth := 60) (contextual := true) [h]
theorem settleTarget_low (s : State) (t : Nat) :
    belowKept 0xD0000 s (settleTarget s t) := by
  unfold settleTarget
  simp (maxDischargeDepth := 60)
@[simp ↓] theorem settleTarget_below (L : Nat) (hL : L ≤ 0xD0000) (s0 : State) (s : State) (t : Nat) :
    belowKept L s0 (settleTarget s t) ↔ belowKept L s0 s :=
  belowKept_iff (belowKept_mono (settleTarget_low s t) hL) s0

theorem revokeBank_frame (s : State) (b : Nat) :
    sameExcept [.regs, .rv, .al] s (revokeBank s b) := by
  unfold revokeBank
  simp (disch := decide)
@[simp ↓] theorem revokeBank_through (ps : List Piece) (hps : ([.regs, .rv, .al] : List Piece).all (ps.contains ·) = true) (s0 : State)
    (s : State) (b : Nat) :
    sameExcept ps s0 (revokeBank s b) ↔ sameExcept ps s0 s :=
  sameExcept_through (revokeBank_frame s b) hps s0
@[simp ↓] theorem revokeBank_canonical (s : State) (b : Nat) (h : canonical s) : canonical (revokeBank s b) := by
  unfold revokeBank
  simp (maxDischargeDepth := 60) (contextual := true) [h]
theorem revokeBank_low (s : State) (b : Nat) :
    belowKept 0xD0000 s (revokeBank s b) := by
  unfold revokeBank
  simp (maxDischargeDepth := 60)
@[simp ↓] theorem revokeBank_below (L : Nat) (hL : L ≤ 0xD0000) (s0 : State) (s : State) (b : Nat) :
    belowKept L s0 (revokeBank s b) ↔ belowKept L s0 s :=
  belowKept_iff (belowKept_mono (revokeBank_low s b) hL) s0

theorem dueBank_frame (b : Nat) (s : State) :
    sameExcept [.regs, .rv, .al] s (dueBank b s) := by
  unfold dueBank
  simp (disch := decide)
@[simp ↓] theorem dueBank_through (ps : List Piece) (hps : ([.regs, .rv, .al] : List Piece).all (ps.contains ·) = true) (s0 : State)
    (b : Nat) (s : State) :
    sameExcept ps s0 (dueBank b s) ↔ sameExcept ps s0 s :=
  sameExcept_through (dueBank_frame b s) hps s0
@[simp ↓] theorem dueBank_canonical (b : Nat) (s : State) (h : canonical s) : canonical (dueBank b s) := by
  unfold dueBank
  simp (maxDischargeDepth := 60) (contextual := true) [h]
theorem dueBank_low (b : Nat) (s : State) :
    belowKept 0xD0000 s (dueBank b s) := by
  unfold dueBank
  simp (maxDischargeDepth := 60)
@[simp ↓] theorem dueBank_below (L : Nat) (hL : L ≤ 0xD0000) (s0 : State) (b : Nat) (s : State) :
    belowKept L s0 (dueBank b s) ↔ belowKept L s0 s :=
  belowKept_iff (belowKept_mono (dueBank_low b s) hL) s0

theorem releaseReq_frame (s : State) (t : Nat) (p : Pkt) :
    sameExcept [.regs, .hg, .wires, .pr, .al] s (releaseReq s t p) := by
  unfold releaseReq
  simp (disch := decide)
@[simp ↓] theorem releaseReq_through (ps : List Piece) (hps : ([.regs, .hg, .wires, .pr, .al] : List Piece).all (ps.contains ·) = true) (s0 : State)
    (s : State) (t : Nat) (p : Pkt) :
    sameExcept ps s0 (releaseReq s t p) ↔ sameExcept ps s0 s :=
  sameExcept_through (releaseReq_frame s t p) hps s0
@[simp ↓] theorem releaseReq_canonical (s : State) (t : Nat) (p : Pkt) (h : canonical s) : canonical (releaseReq s t p) := by
  unfold releaseReq
  simp (maxDischargeDepth := 60) (contextual := true) [h]
theorem releaseReq_low (s : State) (t : Nat) (p : Pkt) :
    belowKept 0xD0000 s (releaseReq s t p) := by
  unfold releaseReq
  simp (maxDischargeDepth := 60)
@[simp ↓] theorem releaseReq_below (L : Nat) (hL : L ≤ 0xD0000) (s0 : State) (s : State) (t : Nat) (p : Pkt) :
    belowKept L s0 (releaseReq s t p) ↔ belowKept L s0 s :=
  belowKept_iff (belowKept_mono (releaseReq_low s t p) hL) s0

end Sys2Proof.Machine
end

