-- ==== Sys2Proof/Laws/FrameDelivery.lean ====
section
/-! SUPPORT. What each operation of `Machine/Delivery.lean` can change, in the pieces of `Safety.lean`: `<operation>_frame` says it once,
`<operation>_through` carries it past the operation, `<operation>_canonical` says that it keeps the canonical form, and
`<operation>_low`, `<operation>_below` that it keeps the registers below the blocks it works on. -/

open Sys2Proof

namespace Sys2Proof.Machine

set_option linter.unusedSimpArgs false
set_option linter.unusedVariables false

theorem answerSnoop_frame (n : Nat) (q : SnoopSt) (s : State) :
    sameExcept [.hg] s (answerSnoop n q s) := by
  unfold answerSnoop
  simp (disch := decide)
@[simp ↓] theorem answerSnoop_through (ps : List Piece) (hps : ([.hg] : List Piece).all (ps.contains ·) = true) (s0 : State)
    (n : Nat) (q : SnoopSt) (s : State) :
    sameExcept ps s0 (answerSnoop n q s) ↔ sameExcept ps s0 s :=
  sameExcept_through (answerSnoop_frame n q s) hps s0
@[simp ↓] theorem answerSnoop_canonical (n : Nat) (q : SnoopSt) (s : State) : canonical (answerSnoop n q s) ↔ canonical s :=
  canonical_same (answerSnoop_frame n q s) (by decide)
@[simp ↓] theorem answerSnoop_below (L : Nat) (s0 : State) (n : Nat) (q : SnoopSt) (s : State) :
    belowKept L s0 (answerSnoop n q s) ↔ belowKept L s0 s :=
  belowKept_iff (belowKept_same (answerSnoop_frame n q s) (by decide)) s0

theorem answerSnoops_frame (s : State) (n : Nat) :
    sameExcept [.hg] s (answerSnoops s n) := by
  unfold answerSnoops
  simp (disch := first | decide | (intro _ _; (repeat' split) <;> simp (disch := decide))) [sameExcept_foldl, sameExcept_foldl1, sameExcept_foldl2, sameExcept_forEach, sameExcept_forRange]
@[simp ↓] theorem answerSnoops_through (ps : List Piece) (hps : ([.hg] : List Piece).all (ps.contains ·) = true) (s0 : State)
    (s : State) (n : Nat) :
    sameExcept ps s0 (answerSnoops s n) ↔ sameExcept ps s0 s :=
  sameExcept_through (answerSnoops_frame s n) hps s0
@[simp ↓] theorem answerSnoops_canonical (s : State) (n : Nat) : canonical (answerSnoops s n) ↔ canonical s :=
  canonical_same (answerSnoops_frame s n) (by decide)
@[simp ↓] theorem answerSnoops_below (L : Nat) (s0 : State) (s : State) (n : Nat) :
    belowKept L s0 (answerSnoops s n) ↔ belowKept L s0 s :=
  belowKept_iff (belowKept_same (answerSnoops_frame s n) (by decide)) s0

theorem applyCred_frame (s : State) (n : Nat) (t : Nat) (ctotal : Nat) :
    sameExcept [.regs, .hg] s (applyCred s n t ctotal) := by
  unfold applyCred
  simp (disch := decide)
@[simp ↓] theorem applyCred_through (ps : List Piece) (hps : ([.regs, .hg] : List Piece).all (ps.contains ·) = true) (s0 : State)
    (s : State) (n : Nat) (t : Nat) (ctotal : Nat) :
    sameExcept ps s0 (applyCred s n t ctotal) ↔ sameExcept ps s0 s :=
  sameExcept_through (applyCred_frame s n t ctotal) hps s0
@[simp ↓] theorem applyCred_canonical (s : State) (n : Nat) (t : Nat) (ctotal : Nat) (h : canonical s) : canonical (applyCred s n t ctotal) := by
  unfold applyCred
  simp (maxDischargeDepth := 60) (contextual := true) [h]
theorem applyCred_low (s : State) (n : Nat) (t : Nat) (ctotal : Nat) :
    belowKept 0x200000 s (applyCred s n t ctotal) := by
  unfold applyCred
  simp (maxDischargeDepth := 60)
@[simp ↓] theorem applyCred_below (L : Nat) (hL : L ≤ 0x200000) (s0 : State) (s : State) (n : Nat) (t : Nat) (ctotal : Nat) :
    belowKept L s0 (applyCred s n t ctotal) ↔ belowKept L s0 s :=
  belowKept_iff (belowKept_mono (applyCred_low s n t ctotal) hL) s0

theorem cmtInvalid_frame (s : State) (n : Nat) (d : Nat) (seq : Nat) (enak : Bool) :
    sameExcept [.regs, .al] s (cmtInvalid s n d seq enak) := by
  unfold cmtInvalid
  simp (disch := decide)
@[simp ↓] theorem cmtInvalid_through (ps : List Piece) (hps : ([.regs, .al] : List Piece).all (ps.contains ·) = true) (s0 : State)
    (s : State) (n : Nat) (d : Nat) (seq : Nat) (enak : Bool) :
    sameExcept ps s0 (cmtInvalid s n d seq enak) ↔ sameExcept ps s0 s :=
  sameExcept_through (cmtInvalid_frame s n d seq enak) hps s0
@[simp ↓] theorem cmtInvalid_canonical (s : State) (n : Nat) (d : Nat) (seq : Nat) (enak : Bool) (h : canonical s) : canonical (cmtInvalid s n d seq enak) := by
  unfold cmtInvalid
  simp (maxDischargeDepth := 60) (contextual := true) [h]
theorem cmtInvalid_low (s : State) (n : Nat) (d : Nat) (seq : Nat) (enak : Bool) :
    belowKept 0x200000 s (cmtInvalid s n d seq enak) := by
  unfold cmtInvalid
  simp (maxDischargeDepth := 60)
@[simp ↓] theorem cmtInvalid_below (L : Nat) (hL : L ≤ 0x200000) (s0 : State) (s : State) (n : Nat) (d : Nat) (seq : Nat) (enak : Bool) :
    belowKept L s0 (cmtInvalid s n d seq enak) ↔ belowKept L s0 s :=
  belowKept_iff (belowKept_mono (cmtInvalid_low s n d seq enak) hL) s0

theorem commitUpTo_frame (s : State) (n : Nat) (d : Nat) (k : Nat) :
    sameExcept [.regs, .hg, .wires, .pr, .al] s (commitUpTo s n d k) := by
  unfold commitUpTo
  simp (disch := decide)
@[simp ↓] theorem commitUpTo_through (ps : List Piece) (hps : ([.regs, .hg, .wires, .pr, .al] : List Piece).all (ps.contains ·) = true) (s0 : State)
    (s : State) (n : Nat) (d : Nat) (k : Nat) :
    sameExcept ps s0 (commitUpTo s n d k) ↔ sameExcept ps s0 s :=
  sameExcept_through (commitUpTo_frame s n d k) hps s0
@[simp ↓] theorem commitUpTo_canonical (s : State) (n : Nat) (d : Nat) (k : Nat) (h : canonical s) : canonical (commitUpTo s n d k) := by
  unfold commitUpTo
  simp (maxDischargeDepth := 60) (contextual := true) [h]
theorem commitUpTo_low (s : State) (n : Nat) (d : Nat) (k : Nat) :
    belowKept 0xD0000 s (commitUpTo s n d k) := by
  unfold commitUpTo
  simp (maxDischargeDepth := 60)
@[simp ↓] theorem commitUpTo_below (L : Nat) (hL : L ≤ 0xD0000) (s0 : State) (s : State) (n : Nat) (d : Nat) (k : Nat) :
    belowKept L s0 (commitUpTo s n d k) ↔ belowKept L s0 s :=
  belowKept_iff (belowKept_mono (commitUpTo_low s n d k) hL) s0

theorem applyEcmt_frame (s : State) (n : Nat) (d : Nat) (cseq : Seq) :
    sameExcept [.regs, .hg, .wires, .pr, .al] s (applyEcmt s n d cseq) := by
  unfold applyEcmt
  simp (disch := decide)
@[simp ↓] theorem applyEcmt_through (ps : List Piece) (hps : ([.regs, .hg, .wires, .pr, .al] : List Piece).all (ps.contains ·) = true) (s0 : State)
    (s : State) (n : Nat) (d : Nat) (cseq : Seq) :
    sameExcept ps s0 (applyEcmt s n d cseq) ↔ sameExcept ps s0 s :=
  sameExcept_through (applyEcmt_frame s n d cseq) hps s0
@[simp ↓] theorem applyEcmt_canonical (s : State) (n : Nat) (d : Nat) (cseq : Seq) (h : canonical s) : canonical (applyEcmt s n d cseq) := by
  unfold applyEcmt
  simp (maxDischargeDepth := 60) (contextual := true) [h]
theorem applyEcmt_low (s : State) (n : Nat) (d : Nat) (cseq : Seq) :
    belowKept 0xD0000 s (applyEcmt s n d cseq) := by
  unfold applyEcmt
  simp (maxDischargeDepth := 60)
@[simp ↓] theorem applyEcmt_below (L : Nat) (hL : L ≤ 0xD0000) (s0 : State) (s : State) (n : Nat) (d : Nat) (cseq : Seq) :
    belowKept L s0 (applyEcmt s n d cseq) ↔ belowKept L s0 s :=
  belowKept_iff (belowKept_mono (applyEcmt_low s n d cseq) hL) s0

theorem applyEnak_frame (s : State) (n : Nat) (d : Nat) (nseq : Seq) :
    sameExcept [.regs, .hg, .wires, .pr, .al] s (applyEnak s n d nseq) := by
  unfold applyEnak
  simp (disch := decide)
@[simp ↓] theorem applyEnak_through (ps : List Piece) (hps : ([.regs, .hg, .wires, .pr, .al] : List Piece).all (ps.contains ·) = true) (s0 : State)
    (s : State) (n : Nat) (d : Nat) (nseq : Seq) :
    sameExcept ps s0 (applyEnak s n d nseq) ↔ sameExcept ps s0 s :=
  sameExcept_through (applyEnak_frame s n d nseq) hps s0
@[simp ↓] theorem applyEnak_canonical (s : State) (n : Nat) (d : Nat) (nseq : Seq) (h : canonical s) : canonical (applyEnak s n d nseq) := by
  unfold applyEnak
  simp (maxDischargeDepth := 60) (contextual := true) [h]
theorem applyEnak_low (s : State) (n : Nat) (d : Nat) (nseq : Seq) :
    belowKept 0xD0000 s (applyEnak s n d nseq) := by
  unfold applyEnak
  simp (maxDischargeDepth := 60)
@[simp ↓] theorem applyEnak_below (L : Nat) (hL : L ≤ 0xD0000) (s0 : State) (s : State) (n : Nat) (d : Nat) (nseq : Seq) :
    belowKept L s0 (applyEnak s n d nseq) ↔ belowKept L s0 s :=
  belowKept_iff (belowKept_mono (applyEnak_low s n d nseq) hL) s0

theorem beginPass_frame (s : State) (n : Nat) (d : Nat) :
    sameExcept [.hg] s (beginPass s n d) := by
  unfold beginPass
  dsimp only
  (repeat' split) <;> simp (disch := decide)
@[simp ↓] theorem beginPass_through (ps : List Piece) (hps : ([.hg] : List Piece).all (ps.contains ·) = true) (s0 : State)
    (s : State) (n : Nat) (d : Nat) :
    sameExcept ps s0 (beginPass s n d) ↔ sameExcept ps s0 s :=
  sameExcept_through (beginPass_frame s n d) hps s0
@[simp ↓] theorem beginPass_canonical (s : State) (n : Nat) (d : Nat) : canonical (beginPass s n d) ↔ canonical s :=
  canonical_same (beginPass_frame s n d) (by decide)
@[simp ↓] theorem beginPass_below (L : Nat) (s0 : State) (s : State) (n : Nat) (d : Nat) :
    belowKept L s0 (beginPass s n d) ↔ belowKept L s0 s :=
  belowKept_iff (belowKept_same (beginPass_frame s n d) (by decide)) s0

theorem countCommit_frame (s : State) (n : Nat) (src : Nat) :
    sameExcept [.hg] s (countCommit s n src) := by
  unfold countCommit
  simp (disch := decide)
@[simp ↓] theorem countCommit_through (ps : List Piece) (hps : ([.hg] : List Piece).all (ps.contains ·) = true) (s0 : State)
    (s : State) (n : Nat) (src : Nat) :
    sameExcept ps s0 (countCommit s n src) ↔ sameExcept ps s0 s :=
  sameExcept_through (countCommit_frame s n src) hps s0
@[simp ↓] theorem countCommit_canonical (s : State) (n : Nat) (src : Nat) : canonical (countCommit s n src) ↔ canonical s :=
  canonical_same (countCommit_frame s n src) (by decide)
@[simp ↓] theorem countCommit_below (L : Nat) (s0 : State) (s : State) (n : Nat) (src : Nat) :
    belowKept L s0 (countCommit s n src) ↔ belowKept L s0 s :=
  belowKept_iff (belowKept_same (countCommit_frame s n src) (by decide)) s0

theorem sendEcmt_frame (s : State) (n : Nat) (src : Nat) :
    sameExcept [.regs, .hg, .wires, .pr] s (sendEcmt s n src) := by
  unfold sendEcmt
  simp (disch := decide)
@[simp ↓] theorem sendEcmt_through (ps : List Piece) (hps : ([.regs, .hg, .wires, .pr] : List Piece).all (ps.contains ·) = true) (s0 : State)
    (s : State) (n : Nat) (src : Nat) :
    sameExcept ps s0 (sendEcmt s n src) ↔ sameExcept ps s0 s :=
  sameExcept_through (sendEcmt_frame s n src) hps s0
@[simp ↓] theorem sendEcmt_canonical (s : State) (n : Nat) (src : Nat) (h : canonical s) : canonical (sendEcmt s n src) := by
  unfold sendEcmt
  simp (maxDischargeDepth := 60) (contextual := true) [h]
theorem sendEcmt_low (s : State) (n : Nat) (src : Nat) :
    belowKept 0x200000 s (sendEcmt s n src) := by
  unfold sendEcmt
  simp (maxDischargeDepth := 60)
@[simp ↓] theorem sendEcmt_below (L : Nat) (hL : L ≤ 0x200000) (s0 : State) (s : State) (n : Nat) (src : Nat) :
    belowKept L s0 (sendEcmt s n src) ↔ belowKept L s0 s :=
  belowKept_iff (belowKept_mono (sendEcmt_low s n src) hL) s0

theorem ecmtIfDue_frame (s : State) (n : Nat) (src : Nat) :
    sameExcept [.regs, .hg, .wires, .pr] s (ecmtIfDue s n src) := by
  unfold ecmtIfDue
  simp (disch := decide)
@[simp ↓] theorem ecmtIfDue_through (ps : List Piece) (hps : ([.regs, .hg, .wires, .pr] : List Piece).all (ps.contains ·) = true) (s0 : State)
    (s : State) (n : Nat) (src : Nat) :
    sameExcept ps s0 (ecmtIfDue s n src) ↔ sameExcept ps s0 s :=
  sameExcept_through (ecmtIfDue_frame s n src) hps s0
@[simp ↓] theorem ecmtIfDue_canonical (s : State) (n : Nat) (src : Nat) (h : canonical s) : canonical (ecmtIfDue s n src) := by
  unfold ecmtIfDue
  simp (maxDischargeDepth := 60) (contextual := true) [h]
theorem ecmtIfDue_low (s : State) (n : Nat) (src : Nat) :
    belowKept 0x200000 s (ecmtIfDue s n src) := by
  unfold ecmtIfDue
  simp (maxDischargeDepth := 60)
@[simp ↓] theorem ecmtIfDue_below (L : Nat) (hL : L ≤ 0x200000) (s0 : State) (s : State) (n : Nat) (src : Nat) :
    belowKept L s0 (ecmtIfDue s n src) ↔ belowKept L s0 s :=
  belowKept_iff (belowKept_mono (ecmtIfDue_low s n src) hL) s0

theorem commitLost_frame (s : State) (n : Nat) (src : Nat) :
    sameExcept [.regs, .hg, .wires, .pr] s (commitLost s n src) := by
  unfold commitLost
  simp (disch := decide)
@[simp ↓] theorem commitLost_through (ps : List Piece) (hps : ([.regs, .hg, .wires, .pr] : List Piece).all (ps.contains ·) = true) (s0 : State)
    (s : State) (n : Nat) (src : Nat) :
    sameExcept ps s0 (commitLost s n src) ↔ sameExcept ps s0 s :=
  sameExcept_through (commitLost_frame s n src) hps s0
@[simp ↓] theorem commitLost_canonical (s : State) (n : Nat) (src : Nat) (h : canonical s) : canonical (commitLost s n src) := by
  unfold commitLost
  simp (maxDischargeDepth := 60) (contextual := true) [h]
theorem commitLost_low (s : State) (n : Nat) (src : Nat) :
    belowKept 0x200000 s (commitLost s n src) := by
  unfold commitLost
  simp (maxDischargeDepth := 60)
@[simp ↓] theorem commitLost_below (L : Nat) (hL : L ≤ 0x200000) (s0 : State) (s : State) (n : Nat) (src : Nat) :
    belowKept L s0 (commitLost s n src) ↔ belowKept L s0 s :=
  belowKept_iff (belowKept_mono (commitLost_low s n src) hL) s0

theorem deliverRsp_frame (s : State) (n : Nat) (p : Pkt) :
    sameExcept [.hg] s (deliverRsp s n p) := by
  unfold deliverRsp
  simp (disch := decide)
@[simp ↓] theorem deliverRsp_through (ps : List Piece) (hps : ([.hg] : List Piece).all (ps.contains ·) = true) (s0 : State)
    (s : State) (n : Nat) (p : Pkt) :
    sameExcept ps s0 (deliverRsp s n p) ↔ sameExcept ps s0 s :=
  sameExcept_through (deliverRsp_frame s n p) hps s0
@[simp ↓] theorem deliverRsp_canonical (s : State) (n : Nat) (p : Pkt) : canonical (deliverRsp s n p) ↔ canonical s :=
  canonical_same (deliverRsp_frame s n p) (by decide)
@[simp ↓] theorem deliverRsp_below (L : Nat) (s0 : State) (s : State) (n : Nat) (p : Pkt) :
    belowKept L s0 (deliverRsp s n p) ↔ belowKept L s0 s :=
  belowKept_iff (belowKept_same (deliverRsp_frame s n p) (by decide)) s0

theorem takeSnoop_frame (s : State) (n : Nat) (p : Pkt) :
    sameExcept [.hg] s (takeSnoop s n p) := by
  unfold takeSnoop
  simp (disch := decide)
@[simp ↓] theorem takeSnoop_through (ps : List Piece) (hps : ([.hg] : List Piece).all (ps.contains ·) = true) (s0 : State)
    (s : State) (n : Nat) (p : Pkt) :
    sameExcept ps s0 (takeSnoop s n p) ↔ sameExcept ps s0 s :=
  sameExcept_through (takeSnoop_frame s n p) hps s0
@[simp ↓] theorem takeSnoop_canonical (s : State) (n : Nat) (p : Pkt) : canonical (takeSnoop s n p) ↔ canonical s :=
  canonical_same (takeSnoop_frame s n p) (by decide)
@[simp ↓] theorem takeSnoop_below (L : Nat) (s0 : State) (s : State) (n : Nat) (p : Pkt) :
    belowKept L s0 (takeSnoop s n p) ↔ belowKept L s0 s :=
  belowKept_iff (belowKept_same (takeSnoop_frame s n p) (by decide)) s0

theorem release_frame (s : State) (n : Nat) (p : Pkt) :
    sameExcept [.regs, .hg, .wires, .pr, .al] s (release s n p) := by
  unfold release
  (repeat' split) <;> simp (disch := decide)
@[simp ↓] theorem release_through (ps : List Piece) (hps : ([.regs, .hg, .wires, .pr, .al] : List Piece).all (ps.contains ·) = true) (s0 : State)
    (s : State) (n : Nat) (p : Pkt) :
    sameExcept ps s0 (release s n p) ↔ sameExcept ps s0 s :=
  sameExcept_through (release_frame s n p) hps s0
@[simp ↓] theorem release_canonical (s : State) (n : Nat) (p : Pkt) (h : canonical s) : canonical (release s n p) := by
  unfold release
  (repeat' split) <;> simp (maxDischargeDepth := 60) (contextual := true) [h]
theorem release_low (s : State) (n : Nat) (p : Pkt) :
    belowKept 0xD0000 s (release s n p) := by
  unfold release
  (repeat' split) <;> simp (maxDischargeDepth := 60)
@[simp ↓] theorem release_below (L : Nat) (hL : L ≤ 0xD0000) (s0 : State) (s : State) (n : Nat) (p : Pkt) :
    belowKept L s0 (release s n p) ↔ belowKept L s0 s :=
  belowKept_iff (belowKept_mono (release_low s n p) hL) s0

theorem commitPkt_frame (s : State) (n : Nat) (src : Nat) (p : Pkt) :
    sameExcept [.regs, .hg, .wires, .pr, .al] s (commitPkt s n src p) := by
  unfold commitPkt
  simp (disch := decide)
@[simp ↓] theorem commitPkt_through (ps : List Piece) (hps : ([.regs, .hg, .wires, .pr, .al] : List Piece).all (ps.contains ·) = true) (s0 : State)
    (s : State) (n : Nat) (src : Nat) (p : Pkt) :
    sameExcept ps s0 (commitPkt s n src p) ↔ sameExcept ps s0 s :=
  sameExcept_through (commitPkt_frame s n src p) hps s0
@[simp ↓] theorem commitPkt_canonical (s : State) (n : Nat) (src : Nat) (p : Pkt) (h : canonical s) : canonical (commitPkt s n src p) := by
  unfold commitPkt
  simp (maxDischargeDepth := 60) (contextual := true) [h]
theorem commitPkt_low (s : State) (n : Nat) (src : Nat) (p : Pkt) :
    belowKept 0xD0000 s (commitPkt s n src p) := by
  unfold commitPkt
  simp (maxDischargeDepth := 60)
@[simp ↓] theorem commitPkt_below (L : Nat) (hL : L ≤ 0xD0000) (s0 : State) (s : State) (n : Nat) (src : Nat) (p : Pkt) :
    belowKept L s0 (commitPkt s n src p) ↔ belowKept L s0 s :=
  belowKept_iff (belowKept_mono (commitPkt_low s n src p) hL) s0

theorem readReseq_frame (s : State) (n : Nat) (p : Pkt) (err : MemErr) :
    sameExcept [.regs, .al, .freeCtr] s (readReseq s n p err).2 := by
  unfold readReseq
  dsimp only
  (repeat' split) <;> simp (disch := decide)
@[simp ↓] theorem readReseq_through (ps : List Piece) (hps : ([.regs, .al, .freeCtr] : List Piece).all (ps.contains ·) = true) (s0 : State)
    (s : State) (n : Nat) (p : Pkt) (err : MemErr) :
    sameExcept ps s0 (readReseq s n p err).2 ↔ sameExcept ps s0 s :=
  sameExcept_through (readReseq_frame s n p err) hps s0
@[simp ↓] theorem readReseq_canonical (s : State) (n : Nat) (p : Pkt) (err : MemErr) (h : canonical s) : canonical (readReseq s n p err).2 := by
  unfold readReseq
  dsimp only
  (repeat' split) <;> simp (maxDischargeDepth := 60) (contextual := true) [h]
theorem readReseq_low (s : State) (n : Nat) (p : Pkt) (err : MemErr) :
    belowKept 0x200000 s (readReseq s n p err).2 := by
  unfold readReseq
  dsimp only
  (repeat' split) <;> simp (maxDischargeDepth := 60)
@[simp ↓] theorem readReseq_below (L : Nat) (hL : L ≤ 0x200000) (s0 : State) (s : State) (n : Nat) (p : Pkt) (err : MemErr) :
    belowKept L s0 (readReseq s n p err).2 ↔ belowKept L s0 s :=
  belowKept_iff (belowKept_mono (readReseq_low s n p err) hL) s0

theorem commitRead_frame (s : State) (n : Nat) (src : Nat) (p : Pkt) (err : MemErr) :
    sameExcept [.regs, .hg, .wires, .pr, .al, .freeCtr] s (commitRead s n src p err) := by
  unfold commitRead
  (repeat' split) <;> (rename_i heq; rw [Prod.ext_iff] at heq; rcases heq with ⟨_, rfl⟩; simp (disch := decide))
@[simp ↓] theorem commitRead_through (ps : List Piece) (hps : ([.regs, .hg, .wires, .pr, .al, .freeCtr] : List Piece).all (ps.contains ·) = true) (s0 : State)
    (s : State) (n : Nat) (src : Nat) (p : Pkt) (err : MemErr) :
    sameExcept ps s0 (commitRead s n src p err) ↔ sameExcept ps s0 s :=
  sameExcept_through (commitRead_frame s n src p err) hps s0
@[simp ↓] theorem commitRead_canonical (s : State) (n : Nat) (src : Nat) (p : Pkt) (err : MemErr) (h : canonical s) : canonical (commitRead s n src p err) := by
  unfold commitRead
  (repeat' split) <;> (rename_i heq; rw [Prod.ext_iff] at heq; rcases heq with ⟨_, rfl⟩; simp (maxDischargeDepth := 60) (contextual := true) [h])
theorem commitRead_low (s : State) (n : Nat) (src : Nat) (p : Pkt) (err : MemErr) :
    belowKept 0xD0000 s (commitRead s n src p err) := by
  unfold commitRead
  (repeat' split) <;> (rename_i heq; rw [Prod.ext_iff] at heq; rcases heq with ⟨_, rfl⟩; simp (maxDischargeDepth := 60))
@[simp ↓] theorem commitRead_below (L : Nat) (hL : L ≤ 0xD0000) (s0 : State) (s : State) (n : Nat) (src : Nat) (p : Pkt) (err : MemErr) :
    belowKept L s0 (commitRead s n src p err) ↔ belowKept L s0 s :=
  belowKept_iff (belowKept_mono (commitRead_low s n src p err) hL) s0

theorem dropAhead_frame (s : State) (n : Nat) :
    sameExcept [.regs] s (dropAhead s n) := by
  unfold dropAhead
  simp (disch := decide)
@[simp ↓] theorem dropAhead_through (ps : List Piece) (hps : ([.regs] : List Piece).all (ps.contains ·) = true) (s0 : State)
    (s : State) (n : Nat) :
    sameExcept ps s0 (dropAhead s n) ↔ sameExcept ps s0 s :=
  sameExcept_through (dropAhead_frame s n) hps s0
@[simp ↓] theorem dropAhead_canonical (s : State) (n : Nat) (h : canonical s) : canonical (dropAhead s n) := by
  unfold dropAhead
  simp (maxDischargeDepth := 60) (contextual := true) [h]
theorem dropAhead_low (s : State) (n : Nat) :
    belowKept 0x200000 s (dropAhead s n) := by
  unfold dropAhead
  simp (maxDischargeDepth := 60)
@[simp ↓] theorem dropAhead_below (L : Nat) (hL : L ≤ 0x200000) (s0 : State) (s : State) (n : Nat) :
    belowKept L s0 (dropAhead s n) ↔ belowKept L s0 s :=
  belowKept_iff (belowKept_mono (dropAhead_low s n) hL) s0

theorem dropDuplicate_frame (s : State) (n : Nat) (src : Nat) :
    sameExcept [.regs, .hg, .wires, .pr] s (dropDuplicate s n src) := by
  unfold dropDuplicate
  dsimp only
  (repeat' split) <;> simp (disch := decide)
@[simp ↓] theorem dropDuplicate_through (ps : List Piece) (hps : ([.regs, .hg, .wires, .pr] : List Piece).all (ps.contains ·) = true) (s0 : State)
    (s : State) (n : Nat) (src : Nat) :
    sameExcept ps s0 (dropDuplicate s n src) ↔ sameExcept ps s0 s :=
  sameExcept_through (dropDuplicate_frame s n src) hps s0
@[simp ↓] theorem dropDuplicate_canonical (s : State) (n : Nat) (src : Nat) (h : canonical s) : canonical (dropDuplicate s n src) := by
  unfold dropDuplicate
  dsimp only
  (repeat' split) <;> simp (maxDischargeDepth := 60) (contextual := true) [h]
theorem dropDuplicate_low (s : State) (n : Nat) (src : Nat) :
    belowKept 0x200000 s (dropDuplicate s n src) := by
  unfold dropDuplicate
  dsimp only
  (repeat' split) <;> simp (maxDischargeDepth := 60)
@[simp ↓] theorem dropDuplicate_below (L : Nat) (hL : L ≤ 0x200000) (s0 : State) (s : State) (n : Nat) (src : Nat) :
    belowKept L s0 (dropDuplicate s n src) ↔ belowKept L s0 s :=
  belowKept_iff (belowKept_mono (dropDuplicate_low s n src) hL) s0

theorem classify_frame (s : State) (n : Nat) (p : Pkt) (stored : Bool) (err : MemErr) :
    sameExcept [.regs, .hg, .wires, .pr, .al, .freeCtr] s (classify s n p stored err) := by
  unfold classify
  simp (disch := decide)
@[simp ↓] theorem classify_through (ps : List Piece) (hps : ([.regs, .hg, .wires, .pr, .al, .freeCtr] : List Piece).all (ps.contains ·) = true) (s0 : State)
    (s : State) (n : Nat) (p : Pkt) (stored : Bool) (err : MemErr) :
    sameExcept ps s0 (classify s n p stored err) ↔ sameExcept ps s0 s :=
  sameExcept_through (classify_frame s n p stored err) hps s0
@[simp ↓] theorem classify_canonical (s : State) (n : Nat) (p : Pkt) (stored : Bool) (err : MemErr) (h : canonical s) : canonical (classify s n p stored err) := by
  unfold classify
  simp (maxDischargeDepth := 60) (contextual := true) [h]
theorem classify_low (s : State) (n : Nat) (p : Pkt) (stored : Bool) (err : MemErr) :
    belowKept 0xD0000 s (classify s n p stored err) := by
  unfold classify
  simp (maxDischargeDepth := 60)
@[simp ↓] theorem classify_below (L : Nat) (hL : L ≤ 0xD0000) (s0 : State) (s : State) (n : Nat) (p : Pkt) (stored : Bool) (err : MemErr) :
    belowKept L s0 (classify s n p stored err) ↔ belowKept L s0 s :=
  belowKept_iff (belowKept_mono (classify_low s n p stored err) hL) s0

theorem commitExpire_frame (s : State) (n : Nat) (d : Nat) :
    sameExcept [.fclk, .regs, .hg, .al] s (commitExpire s n d) := by
  unfold commitExpire
  simp (disch := decide)
@[simp ↓] theorem commitExpire_through (ps : List Piece) (hps : ([.fclk, .regs, .hg, .al] : List Piece).all (ps.contains ·) = true) (s0 : State)
    (s : State) (n : Nat) (d : Nat) :
    sameExcept ps s0 (commitExpire s n d) ↔ sameExcept ps s0 s :=
  sameExcept_through (commitExpire_frame s n d) hps s0
@[simp ↓] theorem commitExpire_canonical (s : State) (n : Nat) (d : Nat) (h : canonical s) : canonical (commitExpire s n d) := by
  unfold commitExpire
  simp (maxDischargeDepth := 60) (contextual := true) [h]
theorem commitExpire_low (s : State) (n : Nat) (d : Nat) :
    belowKept 0x200000 s (commitExpire s n d) := by
  unfold commitExpire
  simp (maxDischargeDepth := 60)
@[simp ↓] theorem commitExpire_below (L : Nat) (hL : L ≤ 0x200000) (s0 : State) (s : State) (n : Nat) (d : Nat) :
    belowKept L s0 (commitExpire s n d) ↔ belowKept L s0 s :=
  belowKept_iff (belowKept_mono (commitExpire_low s n d) hL) s0

theorem commitHeld_frame (s : State) (n : Nat) (src : Nat) (err : MemErr) :
    sameExcept [.regs, .hg, .wires, .pr, .al, .freeCtr] s (commitHeld s n src err) := by
  unfold commitHeld
  dsimp only
  (repeat' split) <;> simp (disch := decide)
@[simp ↓] theorem commitHeld_through (ps : List Piece) (hps : ([.regs, .hg, .wires, .pr, .al, .freeCtr] : List Piece).all (ps.contains ·) = true) (s0 : State)
    (s : State) (n : Nat) (src : Nat) (err : MemErr) :
    sameExcept ps s0 (commitHeld s n src err) ↔ sameExcept ps s0 s :=
  sameExcept_through (commitHeld_frame s n src err) hps s0
@[simp ↓] theorem commitHeld_canonical (s : State) (n : Nat) (src : Nat) (err : MemErr) (h : canonical s) : canonical (commitHeld s n src err) := by
  unfold commitHeld
  dsimp only
  (repeat' split) <;> simp (maxDischargeDepth := 60) (contextual := true) [h]
theorem commitHeld_low (s : State) (n : Nat) (src : Nat) (err : MemErr) :
    belowKept 0xD0000 s (commitHeld s n src err) := by
  unfold commitHeld
  dsimp only
  (repeat' split) <;> simp (maxDischargeDepth := 60)
@[simp ↓] theorem commitHeld_below (L : Nat) (hL : L ≤ 0xD0000) (s0 : State) (s : State) (n : Nat) (src : Nat) (err : MemErr) :
    belowKept L s0 (commitHeld s n src err) ↔ belowKept L s0 s :=
  belowKept_iff (belowKept_mono (commitHeld_low s n src err) hL) s0

theorem sendEnak_frame (s : State) (n : Nat) (f : Flit) :
    sameExcept [.regs, .hg, .wires, .pr] s (sendEnak s n f) := by
  unfold sendEnak
  dsimp only
  (repeat' split) <;> simp (disch := decide)
@[simp ↓] theorem sendEnak_through (ps : List Piece) (hps : ([.regs, .hg, .wires, .pr] : List Piece).all (ps.contains ·) = true) (s0 : State)
    (s : State) (n : Nat) (f : Flit) :
    sameExcept ps s0 (sendEnak s n f) ↔ sameExcept ps s0 s :=
  sameExcept_through (sendEnak_frame s n f) hps s0
@[simp ↓] theorem sendEnak_canonical (s : State) (n : Nat) (f : Flit) (h : canonical s) : canonical (sendEnak s n f) := by
  unfold sendEnak
  dsimp only
  (repeat' split) <;> simp (maxDischargeDepth := 60) (contextual := true) [h]
theorem sendEnak_low (s : State) (n : Nat) (f : Flit) :
    belowKept 0x200000 s (sendEnak s n f) := by
  unfold sendEnak
  dsimp only
  (repeat' split) <;> simp (maxDischargeDepth := 60)
@[simp ↓] theorem sendEnak_below (L : Nat) (hL : L ≤ 0x200000) (s0 : State) (s : State) (n : Nat) (f : Flit) :
    belowKept L s0 (sendEnak s n f) ↔ belowKept L s0 s :=
  belowKept_iff (belowKept_mono (sendEnak_low s n f) hL) s0

theorem discardPkt_frame (s : State) (n : Nat) (fs : List Flit) (poisBad : Bool) :
    sameExcept [.regs, .hg, .wires, .pr] s (discardPkt s n fs poisBad) := by
  unfold discardPkt
  (repeat' split) <;> simp (disch := decide)
@[simp ↓] theorem discardPkt_through (ps : List Piece) (hps : ([.regs, .hg, .wires, .pr] : List Piece).all (ps.contains ·) = true) (s0 : State)
    (s : State) (n : Nat) (fs : List Flit) (poisBad : Bool) :
    sameExcept ps s0 (discardPkt s n fs poisBad) ↔ sameExcept ps s0 s :=
  sameExcept_through (discardPkt_frame s n fs poisBad) hps s0
@[simp ↓] theorem discardPkt_canonical (s : State) (n : Nat) (fs : List Flit) (poisBad : Bool) (h : canonical s) : canonical (discardPkt s n fs poisBad) := by
  unfold discardPkt
  (repeat' split) <;> simp (maxDischargeDepth := 60) (contextual := true) [h]
theorem discardPkt_low (s : State) (n : Nat) (fs : List Flit) (poisBad : Bool) :
    belowKept 0x200000 s (discardPkt s n fs poisBad) := by
  unfold discardPkt
  (repeat' split) <;> simp (maxDischargeDepth := 60)
@[simp ↓] theorem discardPkt_below (L : Nat) (hL : L ≤ 0x200000) (s0 : State) (s : State) (n : Nat) (fs : List Flit) (poisBad : Bool) :
    belowKept L s0 (discardPkt s n fs poisBad) ↔ belowKept L s0 s :=
  belowKept_iff (belowKept_mono (discardPkt_low s n fs poisBad) hL) s0

theorem endPass_frame (s : State) (n : Nat) (d : Nat) :
    sameExcept [.hg] s (endPass s n d) := by
  unfold endPass
  simp (disch := decide)
@[simp ↓] theorem endPass_through (ps : List Piece) (hps : ([.hg] : List Piece).all (ps.contains ·) = true) (s0 : State)
    (s : State) (n : Nat) (d : Nat) :
    sameExcept ps s0 (endPass s n d) ↔ sameExcept ps s0 s :=
  sameExcept_through (endPass_frame s n d) hps s0
@[simp ↓] theorem endPass_canonical (s : State) (n : Nat) (d : Nat) : canonical (endPass s n d) ↔ canonical s :=
  canonical_same (endPass_frame s n d) (by decide)
@[simp ↓] theorem endPass_below (L : Nat) (s0 : State) (s : State) (n : Nat) (d : Nat) :
    belowKept L s0 (endPass s n d) ↔ belowKept L s0 s :=
  belowKept_iff (belowKept_same (endPass_frame s n d) (by decide)) s0

theorem receivePkt_frame (s : State) (n : Nat) (err : MemErr) :
    sameExcept [.regs, .hg, .wires, .pr, .al, .freeCtr] s (receivePkt s n err) := by
  unfold receivePkt
  split
  · simp
  · dsimp only
    (repeat' split) <;> first
      | (simp (disch := decide); done)
      | (rename_i heq; rw [Prod.ext_iff] at heq; rcases heq with ⟨_, rfl⟩; simp (disch := decide); done)
      | (rename_i heq _; rw [Prod.ext_iff] at heq; rcases heq with ⟨_, rfl⟩; simp (disch := decide); done)
@[simp ↓] theorem receivePkt_through (ps : List Piece) (hps : ([.regs, .hg, .wires, .pr, .al, .freeCtr] : List Piece).all (ps.contains ·) = true) (s0 : State)
    (s : State) (n : Nat) (err : MemErr) :
    sameExcept ps s0 (receivePkt s n err) ↔ sameExcept ps s0 s :=
  sameExcept_through (receivePkt_frame s n err) hps s0
@[simp ↓] theorem receivePkt_canonical (s : State) (n : Nat) (err : MemErr) (h : canonical s) : canonical (receivePkt s n err) := by
  unfold receivePkt
  split
  · exact h
  · dsimp only
    (repeat' split) <;> first
      | (simp (maxDischargeDepth := 60) (contextual := true) [h]; done)
      | (rename_i heq; rw [Prod.ext_iff] at heq; rcases heq with ⟨_, rfl⟩; simp (maxDischargeDepth := 60) (contextual := true) [h]; done)
      | (rename_i heq _; rw [Prod.ext_iff] at heq; rcases heq with ⟨_, rfl⟩; simp (maxDischargeDepth := 60) (contextual := true) [h]; done)
theorem receivePkt_low (s : State) (n : Nat) (err : MemErr) :
    belowKept 0xD0000 s (receivePkt s n err) := by
  unfold receivePkt
  split
  · simp (maxDischargeDepth := 60)
  · dsimp only
    (repeat' split) <;> first
      | (simp (maxDischargeDepth := 60); done)
      | (rename_i heq; rw [Prod.ext_iff] at heq; rcases heq with ⟨_, rfl⟩; simp (maxDischargeDepth := 60); done)
      | (rename_i heq _; rw [Prod.ext_iff] at heq; rcases heq with ⟨_, rfl⟩; simp (maxDischargeDepth := 60); done)
@[simp ↓] theorem receivePkt_below (L : Nat) (hL : L ≤ 0xD0000) (s0 : State) (s : State) (n : Nat) (err : MemErr) :
    belowKept L s0 (receivePkt s n err) ↔ belowKept L s0 s :=
  belowKept_iff (belowKept_mono (receivePkt_low s n err) hL) s0

theorem reportLost_frame (s : State) (n : Nat) (k : Nat) :
    sameExcept [.regs, .hg, .al] s (reportLost s n k) := by
  unfold reportLost
  (repeat' split) <;> simp (disch := decide)
@[simp ↓] theorem reportLost_through (ps : List Piece) (hps : ([.regs, .hg, .al] : List Piece).all (ps.contains ·) = true) (s0 : State)
    (s : State) (n : Nat) (k : Nat) :
    sameExcept ps s0 (reportLost s n k) ↔ sameExcept ps s0 s :=
  sameExcept_through (reportLost_frame s n k) hps s0
@[simp ↓] theorem reportLost_canonical (s : State) (n : Nat) (k : Nat) (h : canonical s) : canonical (reportLost s n k) := by
  unfold reportLost
  (repeat' split) <;> simp (maxDischargeDepth := 60) (contextual := true) [h]
theorem reportLost_low (s : State) (n : Nat) (k : Nat) :
    belowKept 0x200000 s (reportLost s n k) := by
  unfold reportLost
  (repeat' split) <;> simp (maxDischargeDepth := 60)
@[simp ↓] theorem reportLost_below (L : Nat) (hL : L ≤ 0x200000) (s0 : State) (s : State) (n : Nat) (k : Nat) :
    belowKept L s0 (reportLost s n k) ↔ belowKept L s0 s :=
  belowKept_iff (belowKept_mono (reportLost_low s n k) hL) s0

theorem replayNext_frame (s : State) (n : Nat) (d : Nat) (err : MemErr) :
    sameExcept [.regs, .hg, .wires, .pr, .al, .freeCtr] s (replayNext s n d err) := by
  unfold replayNext
  dsimp only
  (repeat' split) <;> simp (disch := decide)
@[simp ↓] theorem replayNext_through (ps : List Piece) (hps : ([.regs, .hg, .wires, .pr, .al, .freeCtr] : List Piece).all (ps.contains ·) = true) (s0 : State)
    (s : State) (n : Nat) (d : Nat) (err : MemErr) :
    sameExcept ps s0 (replayNext s n d err) ↔ sameExcept ps s0 s :=
  sameExcept_through (replayNext_frame s n d err) hps s0
@[simp ↓] theorem replayNext_canonical (s : State) (n : Nat) (d : Nat) (err : MemErr) (h : canonical s) : canonical (replayNext s n d err) := by
  unfold replayNext
  dsimp only
  (repeat' split) <;> simp (maxDischargeDepth := 60) (contextual := true) [h]
theorem replayNext_low (s : State) (n : Nat) (d : Nat) (err : MemErr) :
    belowKept 0x200000 s (replayNext s n d err) := by
  unfold replayNext
  dsimp only
  (repeat' split) <;> simp (maxDischargeDepth := 60)
@[simp ↓] theorem replayNext_below (L : Nat) (hL : L ≤ 0x200000) (s0 : State) (s : State) (n : Nat) (d : Nat) (err : MemErr) :
    belowKept L s0 (replayNext s n d err) ↔ belowKept L s0 s :=
  belowKept_iff (belowKept_mono (replayNext_low s n d err) hL) s0

theorem startPass_frame (s : State) (n : Nat) (d : Nat) :
    sameExcept [.hg] s (startPass s n d) := by
  unfold startPass
  simp (disch := decide)
@[simp ↓] theorem startPass_through (ps : List Piece) (hps : ([.hg] : List Piece).all (ps.contains ·) = true) (s0 : State)
    (s : State) (n : Nat) (d : Nat) :
    sameExcept ps s0 (startPass s n d) ↔ sameExcept ps s0 s :=
  sameExcept_through (startPass_frame s n d) hps s0
@[simp ↓] theorem startPass_canonical (s : State) (n : Nat) (d : Nat) : canonical (startPass s n d) ↔ canonical s :=
  canonical_same (startPass_frame s n d) (by decide)
@[simp ↓] theorem startPass_below (L : Nat) (s0 : State) (s : State) (n : Nat) (d : Nat) :
    belowKept L s0 (startPass s n d) ↔ belowKept L s0 s :=
  belowKept_iff (belowKept_same (startPass_frame s n d) (by decide)) s0

end Sys2Proof.Machine
end

