-- ==== Sys2Proof/Laws/FrameHai.lean ====
section
/-! SUPPORT. What each operation of `Machine/Hai.lean` can change, in the pieces of `Safety.lean`: `<operation>_frame` says it once,
`<operation>_through` carries it past the operation, `<operation>_canonical` says that it keeps the canonical form, and
`<operation>_low`, `<operation>_below` that it keeps the registers below the blocks it works on. -/

open Sys2Proof

namespace Sys2Proof.Machine

set_option linter.unusedSimpArgs false
set_option linter.unusedVariables false

theorem setWake_frame (s : State) (n : Nat) (b : Bool) :
    sameExcept [.regs, .hg] s (setWake s n b) := by
  unfold setWake
  simp (disch := decide)
@[simp ↓] theorem setWake_through (ps : List Piece) (hps : ([.regs, .hg] : List Piece).all (ps.contains ·) = true) (s0 : State)
    (s : State) (n : Nat) (b : Bool) :
    sameExcept ps s0 (setWake s n b) ↔ sameExcept ps s0 s :=
  sameExcept_through (setWake_frame s n b) hps s0
@[simp ↓] theorem setWake_canonical (s : State) (n : Nat) (b : Bool) (h : canonical s) : canonical (setWake s n b) := by
  unfold setWake
  simp (maxDischargeDepth := 60) (contextual := true) [h]
theorem setWake_low (s : State) (n : Nat) (b : Bool) :
    belowKept 0x200000 s (setWake s n b) := by
  unfold setWake
  simp (maxDischargeDepth := 60)
@[simp ↓] theorem setWake_below (L : Nat) (hL : L ≤ 0x200000) (s0 : State) (s : State) (n : Nat) (b : Bool) :
    belowKept L s0 (setWake s n b) ↔ belowKept L s0 s :=
  belowKept_iff (belowKept_mono (setWake_low s n b) hL) s0

theorem setPwrReq_frame (s : State) (n : Nat) (b : Bool) :
    sameExcept [.regs, .hg] s (setPwrReq s n b) := by
  unfold setPwrReq
  simp (disch := decide)
@[simp ↓] theorem setPwrReq_through (ps : List Piece) (hps : ([.regs, .hg] : List Piece).all (ps.contains ·) = true) (s0 : State)
    (s : State) (n : Nat) (b : Bool) :
    sameExcept ps s0 (setPwrReq s n b) ↔ sameExcept ps s0 s :=
  sameExcept_through (setPwrReq_frame s n b) hps s0
@[simp ↓] theorem setPwrReq_canonical (s : State) (n : Nat) (b : Bool) (h : canonical s) : canonical (setPwrReq s n b) := by
  unfold setPwrReq
  simp (maxDischargeDepth := 60) (contextual := true) [h]
theorem setPwrReq_low (s : State) (n : Nat) (b : Bool) :
    belowKept 0x200000 s (setPwrReq s n b) := by
  unfold setPwrReq
  simp (maxDischargeDepth := 60)
@[simp ↓] theorem setPwrReq_below (L : Nat) (hL : L ≤ 0x200000) (s0 : State) (s : State) (n : Nat) (b : Bool) :
    belowKept L s0 (setPwrReq s n b) ↔ belowKept L s0 s :=
  belowKept_iff (belowKept_mono (setPwrReq_low s n b) hL) s0

theorem setWeirLevel_frame (s : State) (n : Nat) (c : Nat) (l : Int) :
    sameExcept [.regs] s (setWeirLevel s n c l) := by
  unfold setWeirLevel
  simp (disch := decide)
@[simp ↓] theorem setWeirLevel_through (ps : List Piece) (hps : ([.regs] : List Piece).all (ps.contains ·) = true) (s0 : State)
    (s : State) (n : Nat) (c : Nat) (l : Int) :
    sameExcept ps s0 (setWeirLevel s n c l) ↔ sameExcept ps s0 s :=
  sameExcept_through (setWeirLevel_frame s n c l) hps s0
@[simp ↓] theorem setWeirLevel_canonical (s : State) (n : Nat) (c : Nat) (l : Int) (h : canonical s) : canonical (setWeirLevel s n c l) := by
  unfold setWeirLevel
  simp (maxDischargeDepth := 60) (contextual := true) [h]
theorem setWeirLevel_low (s : State) (n : Nat) (c : Nat) (l : Int) :
    belowKept 0x200000 s (setWeirLevel s n c l) := by
  unfold setWeirLevel
  simp (maxDischargeDepth := 60)
@[simp ↓] theorem setWeirLevel_below (L : Nat) (hL : L ≤ 0x200000) (s0 : State) (s : State) (n : Nat) (c : Nat) (l : Int) :
    belowKept L s0 (setWeirLevel s n c l) ↔ belowKept L s0 s :=
  belowKept_iff (belowKept_mono (setWeirLevel_low s n c l) hL) s0

theorem absorbed_frame (s : State) (n : Nat) (c : Ctx) :
    sameExcept [.hg] s (absorbed s n c) := by
  unfold absorbed
  simp (disch := decide)
@[simp ↓] theorem absorbed_through (ps : List Piece) (hps : ([.hg] : List Piece).all (ps.contains ·) = true) (s0 : State)
    (s : State) (n : Nat) (c : Ctx) :
    sameExcept ps s0 (absorbed s n c) ↔ sameExcept ps s0 s :=
  sameExcept_through (absorbed_frame s n c) hps s0
@[simp ↓] theorem absorbed_canonical (s : State) (n : Nat) (c : Ctx) : canonical (absorbed s n c) ↔ canonical s :=
  canonical_same (absorbed_frame s n c) (by decide)
@[simp ↓] theorem absorbed_below (L : Nat) (s0 : State) (s : State) (n : Nat) (c : Ctx) :
    belowKept L s0 (absorbed s n c) ↔ belowKept L s0 s :=
  belowKept_iff (belowKept_same (absorbed_frame s n c) (by decide)) s0

theorem postedDrop_frame (s : State) (n : Nat) (c : Ctx) (op : BitVec 8) (why : Nat) :
    sameExcept [.regs, .al] s (postedDrop s n c op why) := by
  unfold postedDrop
  simp (disch := decide)
@[simp ↓] theorem postedDrop_through (ps : List Piece) (hps : ([.regs, .al] : List Piece).all (ps.contains ·) = true) (s0 : State)
    (s : State) (n : Nat) (c : Ctx) (op : BitVec 8) (why : Nat) :
    sameExcept ps s0 (postedDrop s n c op why) ↔ sameExcept ps s0 s :=
  sameExcept_through (postedDrop_frame s n c op why) hps s0
@[simp ↓] theorem postedDrop_canonical (s : State) (n : Nat) (c : Ctx) (op : BitVec 8) (why : Nat) (h : canonical s) : canonical (postedDrop s n c op why) := by
  unfold postedDrop
  simp (maxDischargeDepth := 60) (contextual := true) [h]
theorem postedDrop_low (s : State) (n : Nat) (c : Ctx) (op : BitVec 8) (why : Nat) :
    belowKept 0x200000 s (postedDrop s n c op why) := by
  unfold postedDrop
  simp (maxDischargeDepth := 60)
@[simp ↓] theorem postedDrop_below (L : Nat) (hL : L ≤ 0x200000) (s0 : State) (s : State) (n : Nat) (c : Ctx) (op : BitVec 8) (why : Nat) :
    belowKept L s0 (postedDrop s n c op why) ↔ belowKept L s0 s :=
  belowKept_iff (belowKept_mono (postedDrop_low s n c op why) hL) s0

theorem acceptGdata_frame (s : State) (n : Nat) (q : PendReq) (tag : Tag) :
    sameExcept [.regs, .hg, .al] s (acceptGdata s n q tag) := by
  unfold acceptGdata
  dsimp only
  (repeat' split) <;> simp (disch := decide)
@[simp ↓] theorem acceptGdata_through (ps : List Piece) (hps : ([.regs, .hg, .al] : List Piece).all (ps.contains ·) = true) (s0 : State)
    (s : State) (n : Nat) (q : PendReq) (tag : Tag) :
    sameExcept ps s0 (acceptGdata s n q tag) ↔ sameExcept ps s0 s :=
  sameExcept_through (acceptGdata_frame s n q tag) hps s0
@[simp ↓] theorem acceptGdata_canonical (s : State) (n : Nat) (q : PendReq) (tag : Tag) (h : canonical s) : canonical (acceptGdata s n q tag) := by
  unfold acceptGdata
  dsimp only
  (repeat' split) <;> simp (maxDischargeDepth := 60) (contextual := true) [h]
theorem acceptGdata_low (s : State) (n : Nat) (q : PendReq) (tag : Tag) :
    belowKept 0x200000 s (acceptGdata s n q tag) := by
  unfold acceptGdata
  dsimp only
  (repeat' split) <;> simp (maxDischargeDepth := 60)
@[simp ↓] theorem acceptGdata_below (L : Nat) (hL : L ≤ 0x200000) (s0 : State) (s : State) (n : Nat) (q : PendReq) (tag : Tag) :
    belowKept L s0 (acceptGdata s n q tag) ↔ belowKept L s0 s :=
  belowKept_iff (belowKept_mono (acceptGdata_low s n q tag) hL) s0

theorem noteLocal_frame (s : State) (n : Nat) (r : Req) (p : Part) (oc : BitVec 4) :
    sameExcept [.regs, .al] s (noteLocal s n r p oc) := by
  unfold noteLocal
  (repeat' split) <;> simp (disch := decide)
@[simp ↓] theorem noteLocal_through (ps : List Piece) (hps : ([.regs, .al] : List Piece).all (ps.contains ·) = true) (s0 : State)
    (s : State) (n : Nat) (r : Req) (p : Part) (oc : BitVec 4) :
    sameExcept ps s0 (noteLocal s n r p oc) ↔ sameExcept ps s0 s :=
  sameExcept_through (noteLocal_frame s n r p oc) hps s0
@[simp ↓] theorem noteLocal_canonical (s : State) (n : Nat) (r : Req) (p : Part) (oc : BitVec 4) (h : canonical s) : canonical (noteLocal s n r p oc) := by
  unfold noteLocal
  (repeat' split) <;> simp (maxDischargeDepth := 60) (contextual := true) [h]
theorem noteLocal_low (s : State) (n : Nat) (r : Req) (p : Part) (oc : BitVec 4) :
    belowKept 0x200000 s (noteLocal s n r p oc) := by
  unfold noteLocal
  (repeat' split) <;> simp (maxDischargeDepth := 60)
@[simp ↓] theorem noteLocal_below (L : Nat) (hL : L ≤ 0x200000) (s0 : State) (s : State) (n : Nat) (r : Req) (p : Part) (oc : BitVec 4) :
    belowKept L s0 (noteLocal s n r p oc) ↔ belowKept L s0 s :=
  belowKept_iff (belowKept_mono (noteLocal_low s n r p oc) hL) s0

theorem chargeWeir_frame (s : State) (n : Nat) (r : Req) :
    sameExcept [.regs] s (chargeWeir s n r) := by
  unfold chargeWeir
  simp (disch := decide)
@[simp ↓] theorem chargeWeir_through (ps : List Piece) (hps : ([.regs] : List Piece).all (ps.contains ·) = true) (s0 : State)
    (s : State) (n : Nat) (r : Req) :
    sameExcept ps s0 (chargeWeir s n r) ↔ sameExcept ps s0 s :=
  sameExcept_through (chargeWeir_frame s n r) hps s0
@[simp ↓] theorem chargeWeir_canonical (s : State) (n : Nat) (r : Req) (h : canonical s) : canonical (chargeWeir s n r) := by
  unfold chargeWeir
  simp (maxDischargeDepth := 60) (contextual := true) [h]
theorem chargeWeir_low (s : State) (n : Nat) (r : Req) :
    belowKept 0x200000 s (chargeWeir s n r) := by
  unfold chargeWeir
  simp (maxDischargeDepth := 60)
@[simp ↓] theorem chargeWeir_below (L : Nat) (hL : L ≤ 0x200000) (s0 : State) (s : State) (n : Nat) (r : Req) :
    belowKept L s0 (chargeWeir s n r) ↔ belowKept L s0 s :=
  belowKept_iff (belowKept_mono (chargeWeir_low s n r) hL) s0

theorem giveAcc_frame (s : State) (n : Nat) (c : Ctx) (tag : Tag) (closed : Bool) (absorb : Bool) :
    sameExcept [.regs, .hg] s (giveAcc s n c tag closed absorb) := by
  unfold giveAcc
  simp (disch := decide)
@[simp ↓] theorem giveAcc_through (ps : List Piece) (hps : ([.regs, .hg] : List Piece).all (ps.contains ·) = true) (s0 : State)
    (s : State) (n : Nat) (c : Ctx) (tag : Tag) (closed : Bool) (absorb : Bool) :
    sameExcept ps s0 (giveAcc s n c tag closed absorb) ↔ sameExcept ps s0 s :=
  sameExcept_through (giveAcc_frame s n c tag closed absorb) hps s0
@[simp ↓] theorem giveAcc_canonical (s : State) (n : Nat) (c : Ctx) (tag : Tag) (closed : Bool) (absorb : Bool) (h : canonical s) : canonical (giveAcc s n c tag closed absorb) := by
  unfold giveAcc
  simp (maxDischargeDepth := 60) (contextual := true) [h]
theorem giveAcc_low (s : State) (n : Nat) (c : Ctx) (tag : Tag) (closed : Bool) (absorb : Bool) :
    belowKept 0x200000 s (giveAcc s n c tag closed absorb) := by
  unfold giveAcc
  simp (maxDischargeDepth := 60)
@[simp ↓] theorem giveAcc_below (L : Nat) (hL : L ≤ 0x200000) (s0 : State) (s : State) (n : Nat) (c : Ctx) (tag : Tag) (closed : Bool) (absorb : Bool) :
    belowKept L s0 (giveAcc s n c tag closed absorb) ↔ belowKept L s0 s :=
  belowKept_iff (belowKept_mono (giveAcc_low s n c tag closed absorb) hL) s0

theorem lockOnAccept_frame (s : State) (n : Nat) (id : Nat) (r : Req) (parts : List PartSt) :
    sameExcept [.hg] s (lockOnAccept s n id r parts) := by
  unfold lockOnAccept
  (repeat' split) <;> simp (disch := decide)
@[simp ↓] theorem lockOnAccept_through (ps : List Piece) (hps : ([.hg] : List Piece).all (ps.contains ·) = true) (s0 : State)
    (s : State) (n : Nat) (id : Nat) (r : Req) (parts : List PartSt) :
    sameExcept ps s0 (lockOnAccept s n id r parts) ↔ sameExcept ps s0 s :=
  sameExcept_through (lockOnAccept_frame s n id r parts) hps s0
@[simp ↓] theorem lockOnAccept_canonical (s : State) (n : Nat) (id : Nat) (r : Req) (parts : List PartSt) : canonical (lockOnAccept s n id r parts) ↔ canonical s :=
  canonical_same (lockOnAccept_frame s n id r parts) (by decide)
@[simp ↓] theorem lockOnAccept_below (L : Nat) (s0 : State) (s : State) (n : Nat) (id : Nat) (r : Req) (parts : List PartSt) :
    belowKept L s0 (lockOnAccept s n id r parts) ↔ belowKept L s0 s :=
  belowKept_iff (belowKept_same (lockOnAccept_frame s n id r parts) (by decide)) s0

theorem openTxn_frame (s : State) (n : Nat) (id : Nat) (r : Req) (tag : Tag) (parts : List PartSt) (absorb : Bool) :
    sameExcept [.hg] s (openTxn s n id r tag parts absorb) := by
  unfold openTxn
  simp (disch := decide)
@[simp ↓] theorem openTxn_through (ps : List Piece) (hps : ([.hg] : List Piece).all (ps.contains ·) = true) (s0 : State)
    (s : State) (n : Nat) (id : Nat) (r : Req) (tag : Tag) (parts : List PartSt) (absorb : Bool) :
    sameExcept ps s0 (openTxn s n id r tag parts absorb) ↔ sameExcept ps s0 s :=
  sameExcept_through (openTxn_frame s n id r tag parts absorb) hps s0
@[simp ↓] theorem openTxn_canonical (s : State) (n : Nat) (id : Nat) (r : Req) (tag : Tag) (parts : List PartSt) (absorb : Bool) : canonical (openTxn s n id r tag parts absorb) ↔ canonical s :=
  canonical_same (openTxn_frame s n id r tag parts absorb) (by decide)
@[simp ↓] theorem openTxn_below (L : Nat) (s0 : State) (s : State) (n : Nat) (id : Nat) (r : Req) (tag : Tag) (parts : List PartSt) (absorb : Bool) :
    belowKept L s0 (openTxn s n id r tag parts absorb) ↔ belowKept L s0 s :=
  belowKept_iff (belowKept_same (openTxn_frame s n id r tag parts absorb) (by decide)) s0

theorem acceptPiece_same (n : Nat) (r : Req) (bs : List Beat) (tag : Tag) (id : Nat) (split : Bool) (last : Nat)
    (acc : State × List PartSt) (x : Nat × Part × Addr × BitVec 9) :
    sameExcept [.regs, .hg, .pr, .al] acc.1 (acceptPiece n r bs tag id split last acc x).1 := by
  unfold acceptPiece
  dsimp only
  (repeat' split) <;> simp (disch := decide)
theorem acceptReq_frame (s : State) (n : Nat) (q : PendReq) :
    sameExcept [.regs, .hg, .pr, .al] s (acceptReq s n q) := by
  unfold acceptReq
  dsimp only
  split
  · split <;> simp (disch := decide)
  · split
    · simp (disch := decide)
    · split
      · simp (disch := decide)
      · split
        · simp (disch := decide)
        · have hf : ∀ (g : State × List PartSt → Nat × Part × Addr × BitVec 9 → State × List PartSt)
              (hg : ∀ t x, sameExcept [.regs, .hg, .pr, .al] t.1 (g t x).1) (l : List (Nat × Part × Addr × BitVec 9)) (a : State),
              sameExcept [.regs, .hg, .pr, .al] s a → sameExcept [.regs, .hg, .pr, .al] s (l.foldl g (a, [])).1 :=
            fun g hg l a ha => (sameExcept_foldl1 [.regs, .hg, .pr, .al] l g hg s (a, [])).mpr ha
          split
          · apply hf
            · exact fun t x => acceptPiece_same _ _ _ _ _ _ _ t x
            · simp (disch := decide)
          · rw [lockOnAccept_through [.regs, .hg, .pr, .al] (by decide), openTxn_through [.regs, .hg, .pr, .al] (by decide)]
            apply hf
            · exact fun t x => acceptPiece_same _ _ _ _ _ _ _ t x
            · simp (disch := decide)
@[simp ↓] theorem acceptReq_through (ps : List Piece) (hps : ([.regs, .hg, .pr, .al] : List Piece).all (ps.contains ·) = true) (s0 : State)
    (s : State) (n : Nat) (q : PendReq) :
    sameExcept ps s0 (acceptReq s n q) ↔ sameExcept ps s0 s :=
  sameExcept_through (acceptReq_frame s n q) hps s0
theorem canonical_acceptPiece (n : Nat) (r : Req) (bs : List Beat) (tag : Tag) (id : Nat) (split : Bool) (last : Nat)
    (acc : State × List PartSt) (x : Nat × Part × Addr × BitVec 9) (h : canonical acc.1) :
    canonical (acceptPiece n r bs tag id split last acc x).1 := by
  unfold acceptPiece
  dsimp only
  (repeat' split) <;> simp (maxDischargeDepth := 60) (contextual := true) [h]
@[simp ↓] theorem acceptReq_canonical (s : State) (n : Nat) (q : PendReq) (h : canonical s) : canonical (acceptReq s n q) := by
  unfold acceptReq
  dsimp only
  split
  · split <;> simp (maxDischargeDepth := 60) (contextual := true) [h]
  · split
    · simp (maxDischargeDepth := 60) (contextual := true) [h]
    · split
      · simp (maxDischargeDepth := 60) (contextual := true) [h]
      · split
        · simp (maxDischargeDepth := 60) (contextual := true) [h]
        · split
          · apply canonical_foldl1
            · simp (maxDischargeDepth := 60) (contextual := true) [h]
            · exact fun t x ht => canonical_acceptPiece _ _ _ _ _ _ _ t x ht
          · apply (lockOnAccept_canonical _ _ _ _ _).mpr
            apply (openTxn_canonical _ _ _ _ _ _ _).mpr
            apply canonical_foldl1
            · simp (maxDischargeDepth := 60) (contextual := true) [h]
            · exact fun t x ht => canonical_acceptPiece _ _ _ _ _ _ _ t x ht
theorem acceptPiece_low (n : Nat) (r : Req) (bs : List Beat) (tag : Tag) (id : Nat) (split : Bool) (last : Nat)
    (acc : State × List PartSt) (x : Nat × Part × Addr × BitVec 9) :
    belowKept 0x200000 acc.1 (acceptPiece n r bs tag id split last acc x).1 := by
  unfold acceptPiece
  dsimp only
  (repeat' split) <;> simp (maxDischargeDepth := 60)
theorem acceptReq_low (s : State) (n : Nat) (q : PendReq) :
    belowKept 0x200000 s (acceptReq s n q) := by
  unfold acceptReq
  dsimp only
  split
  · split <;> simp (maxDischargeDepth := 60)
  · split
    · simp (maxDischargeDepth := 60)
    · split
      · simp (maxDischargeDepth := 60)
      · split
        · simp (maxDischargeDepth := 60)
        · have hf : ∀ (g : State × List PartSt → Nat × Part × Addr × BitVec 9 → State × List PartSt)
              (hg : ∀ t x, belowKept 0x200000 t.1 (g t x).1) (l : List (Nat × Part × Addr × BitVec 9)) (a : State),
              belowKept 0x200000 s a → belowKept 0x200000 s (l.foldl g (a, [])).1 :=
            fun g hg l a ha => (belowKept_foldl1 _ l g hg s (a, [])).mpr ha
          split
          · apply hf
            · exact fun t x => acceptPiece_low _ _ _ _ _ _ _ t x
            · simp (maxDischargeDepth := 60)
          · rw [lockOnAccept_below _ , openTxn_below _]
            apply hf
            · exact fun t x => acceptPiece_low _ _ _ _ _ _ _ t x
            · simp (maxDischargeDepth := 60)
@[simp ↓] theorem acceptReq_below (L : Nat) (hL : L ≤ 0x200000) (s0 : State) (s : State) (n : Nat) (q : PendReq) :
    belowKept L s0 (acceptReq s n q) ↔ belowKept L s0 s :=
  belowKept_iff (belowKept_mono (acceptReq_low s n q) hL) s0

theorem refuseClosed_frame (s : State) (n : Nat) (q : PendReq) :
    sameExcept [.regs, .hg, .pr] s (refuseClosed s n q) := by
  unfold refuseClosed
  simp (disch := decide)
@[simp ↓] theorem refuseClosed_through (ps : List Piece) (hps : ([.regs, .hg, .pr] : List Piece).all (ps.contains ·) = true) (s0 : State)
    (s : State) (n : Nat) (q : PendReq) :
    sameExcept ps s0 (refuseClosed s n q) ↔ sameExcept ps s0 s :=
  sameExcept_through (refuseClosed_frame s n q) hps s0
@[simp ↓] theorem refuseClosed_canonical (s : State) (n : Nat) (q : PendReq) (h : canonical s) : canonical (refuseClosed s n q) := by
  unfold refuseClosed
  simp (maxDischargeDepth := 60) (contextual := true) [h]
theorem refuseClosed_low (s : State) (n : Nat) (q : PendReq) :
    belowKept 0x200000 s (refuseClosed s n q) := by
  unfold refuseClosed
  simp (maxDischargeDepth := 60)
@[simp ↓] theorem refuseClosed_below (L : Nat) (hL : L ≤ 0x200000) (s0 : State) (s : State) (n : Nat) (q : PendReq) :
    belowKept L s0 (refuseClosed s n q) ↔ belowKept L s0 s :=
  belowKept_iff (belowKept_mono (refuseClosed_low s n q) hL) s0

theorem dropWakeLine_frame (n : Nat) (d : Nat) (s : State) :
    sameExcept [.regs, .hg] s (dropWakeLine n d s) := by
  unfold dropWakeLine
  simp (disch := decide)
@[simp ↓] theorem dropWakeLine_through (ps : List Piece) (hps : ([.regs, .hg] : List Piece).all (ps.contains ·) = true) (s0 : State)
    (n : Nat) (d : Nat) (s : State) :
    sameExcept ps s0 (dropWakeLine n d s) ↔ sameExcept ps s0 s :=
  sameExcept_through (dropWakeLine_frame n d s) hps s0
@[simp ↓] theorem dropWakeLine_canonical (n : Nat) (d : Nat) (s : State) (h : canonical s) : canonical (dropWakeLine n d s) := by
  unfold dropWakeLine
  simp (maxDischargeDepth := 60) (contextual := true) [h]
theorem dropWakeLine_low (n : Nat) (d : Nat) (s : State) :
    belowKept 0x10000 s (dropWakeLine n d s) := by
  unfold dropWakeLine
  simp (maxDischargeDepth := 60)
@[simp ↓] theorem dropWakeLine_below (L : Nat) (hL : L ≤ 0x10000) (s0 : State) (n : Nat) (d : Nat) (s : State) :
    belowKept L s0 (dropWakeLine n d s) ↔ belowKept L s0 s :=
  belowKept_iff (belowKept_mono (dropWakeLine_low n d s) hL) s0

theorem unhold_frame (s : State) (n : Nat) (q : PendReq) :
    sameExcept [.regs, .hg] s (unhold s n q) := by
  unfold unhold
  (repeat' split) <;> simp (disch := first | decide | (intro _ _; (repeat' split) <;> simp (disch := decide))) [sameExcept_foldl, sameExcept_foldl1, sameExcept_foldl2, sameExcept_forEach, sameExcept_forRange]
@[simp ↓] theorem unhold_through (ps : List Piece) (hps : ([.regs, .hg] : List Piece).all (ps.contains ·) = true) (s0 : State)
    (s : State) (n : Nat) (q : PendReq) :
    sameExcept ps s0 (unhold s n q) ↔ sameExcept ps s0 s :=
  sameExcept_through (unhold_frame s n q) hps s0
@[simp ↓] theorem unhold_canonical (s : State) (n : Nat) (q : PendReq) (h : canonical s) : canonical (unhold s n q) := by
  unfold unhold
  (repeat' split) <;> simp (maxDischargeDepth := 60) (contextual := true) [h]
theorem unhold_low (s : State) (n : Nat) (q : PendReq) :
    belowKept 0x10000 s (unhold s n q) := by
  unfold unhold
  (repeat' split) <;> simp (maxDischargeDepth := 60) [belowKept_foldl, belowKept_foldl1, belowKept_foldl2, belowKept_forEach, belowKept_forRange]
@[simp ↓] theorem unhold_below (L : Nat) (hL : L ≤ 0x10000) (s0 : State) (s : State) (n : Nat) (q : PendReq) :
    belowKept L s0 (unhold s n q) ↔ belowKept L s0 s :=
  belowKept_iff (belowKept_mono (unhold_low s n q) hL) s0

theorem judgeHead_frame (s : State) (n : Nat) (q : PendReq) :
    sameExcept [.regs, .hg, .pr, .al] s (judgeHead s n q) := by
  unfold judgeHead
  (repeat' split) <;> simp (disch := decide)
@[simp ↓] theorem judgeHead_through (ps : List Piece) (hps : ([.regs, .hg, .pr, .al] : List Piece).all (ps.contains ·) = true) (s0 : State)
    (s : State) (n : Nat) (q : PendReq) :
    sameExcept ps s0 (judgeHead s n q) ↔ sameExcept ps s0 s :=
  sameExcept_through (judgeHead_frame s n q) hps s0
@[simp ↓] theorem judgeHead_canonical (s : State) (n : Nat) (q : PendReq) (h : canonical s) : canonical (judgeHead s n q) := by
  unfold judgeHead
  (repeat' split) <;> simp (maxDischargeDepth := 60) (contextual := true) [h]
theorem judgeHead_low (s : State) (n : Nat) (q : PendReq) :
    belowKept 0x10000 s (judgeHead s n q) := by
  unfold judgeHead
  (repeat' split) <;> simp (maxDischargeDepth := 60)
@[simp ↓] theorem judgeHead_below (L : Nat) (hL : L ≤ 0x10000) (s0 : State) (s : State) (n : Nat) (q : PendReq) :
    belowKept L s0 (judgeHead s n q) ↔ belowKept L s0 s :=
  belowKept_iff (belowKept_mono (judgeHead_low s n q) hL) s0

theorem sameExcept_deliverOn (ps : List Piece) (hp : ([.regs, .hg] : List Piece).all (ps.contains ·) = true) (s0 s : State) (n : Nat)
    (f : State → State) (h : ∀ t, sameExcept ps t (f t)) : sameExcept ps s0 (deliverOn s n f) ↔ sameExcept ps s0 s := by
  unfold deliverOn
  (repeat' split)
  · exact sameExcept_iff (h s) s0
  · exact setWake_through ps hp s0 s n true
  · rfl
theorem acceptHead_frame (s : State) (n : Nat) :
    sameExcept [.regs, .hg, .pr, .al] s (acceptHead s n) := by
  unfold acceptHead
  split
  · simp
  · (repeat' split)
    · simp
    · simp (disch := decide)
    · rw [sameExcept_deliverOn _ (by decide)]
      · simp
      · intro t; simp (disch := decide)
@[simp ↓] theorem acceptHead_through (ps : List Piece) (hps : ([.regs, .hg, .pr, .al] : List Piece).all (ps.contains ·) = true) (s0 : State)
    (s : State) (n : Nat) :
    sameExcept ps s0 (acceptHead s n) ↔ sameExcept ps s0 s :=
  sameExcept_through (acceptHead_frame s n) hps s0
theorem canonical_deliverOn (s : State) (n : Nat) (f : State → State) (h : canonical s) (hf : canonical (f s)) :
    canonical (deliverOn s n f) := by
  unfold deliverOn
  (repeat' split)
  · exact hf
  · simp (maxDischargeDepth := 60) (contextual := true) [h]
  · exact h
@[simp ↓] theorem acceptHead_canonical (s : State) (n : Nat) (h : canonical s) : canonical (acceptHead s n) := by
  unfold acceptHead
  split
  · exact h
  · (repeat' split)
    · exact h
    · simp (maxDischargeDepth := 60) (contextual := true) [h]
    · apply canonical_deliverOn
      · exact h
      · simp (maxDischargeDepth := 60) (contextual := true) [h]
theorem belowKept_deliverOn (L : Nat) (hL : L ≤ 0x200000) (s0 s : State) (n : Nat) (f : State → State)
    (h : ∀ t, belowKept L t (f t)) : belowKept L s0 (deliverOn s n f) ↔ belowKept L s0 s := by
  unfold deliverOn
  (repeat' split)
  · exact belowKept_iff (h s) s0
  · exact setWake_below L hL s0 s n true
  · rfl
theorem acceptHead_low (s : State) (n : Nat) :
    belowKept 0x10000 s (acceptHead s n) := by
  unfold acceptHead
  split
  · simp (maxDischargeDepth := 60)
  · (repeat' split)
    · simp (maxDischargeDepth := 60)
    · simp (maxDischargeDepth := 60)
    · rw [belowKept_deliverOn _ (by simp)]
      · simp (maxDischargeDepth := 60)
      · intro t; simp (maxDischargeDepth := 60)
@[simp ↓] theorem acceptHead_below (L : Nat) (hL : L ≤ 0x10000) (s0 : State) (s : State) (n : Nat) :
    belowKept L s0 (acceptHead s n) ↔ belowKept L s0 s :=
  belowKept_iff (belowKept_mono (acceptHead_low s n) hL) s0

theorem openDom_frame (d : Nat) (n : Nat) (s : State) :
    sameExcept [.regs, .hg, .pr, .al] s (openDom d n s) := by
  unfold openDom
  dsimp only
  (repeat' split) <;> simp (disch := decide)
@[simp ↓] theorem openDom_through (ps : List Piece) (hps : ([.regs, .hg, .pr, .al] : List Piece).all (ps.contains ·) = true) (s0 : State)
    (d : Nat) (n : Nat) (s : State) :
    sameExcept ps s0 (openDom d n s) ↔ sameExcept ps s0 s :=
  sameExcept_through (openDom_frame d n s) hps s0
@[simp ↓] theorem openDom_canonical (d : Nat) (n : Nat) (s : State) (h : canonical s) : canonical (openDom d n s) := by
  unfold openDom
  dsimp only
  (repeat' split) <;> simp (maxDischargeDepth := 60) (contextual := true) [h]
theorem openDom_low (d : Nat) (n : Nat) (s : State) :
    belowKept 0x10000 s (openDom d n s) := by
  unfold openDom
  dsimp only
  (repeat' split) <;> simp (maxDischargeDepth := 60)
@[simp ↓] theorem openDom_below (L : Nat) (hL : L ≤ 0x10000) (s0 : State) (d : Nat) (n : Nat) (s : State) :
    belowKept L s0 (openDom d n s) ↔ belowKept L s0 s :=
  belowKept_iff (belowKept_mono (openDom_low d n s) hL) s0

theorem unlockCtx_frame (n : Nat) (c : Nat) (s : State) :
    sameExcept [.regs, .hg, .wires, .pr] s (unlockCtx n c s) := by
  unfold unlockCtx
  simp (disch := decide)
@[simp ↓] theorem unlockCtx_through (ps : List Piece) (hps : ([.regs, .hg, .wires, .pr] : List Piece).all (ps.contains ·) = true) (s0 : State)
    (n : Nat) (c : Nat) (s : State) :
    sameExcept ps s0 (unlockCtx n c s) ↔ sameExcept ps s0 s :=
  sameExcept_through (unlockCtx_frame n c s) hps s0
@[simp ↓] theorem unlockCtx_canonical (n : Nat) (c : Nat) (s : State) (h : canonical s) : canonical (unlockCtx n c s) := by
  unfold unlockCtx
  simp (maxDischargeDepth := 60) (contextual := true) [h]
theorem unlockCtx_low (n : Nat) (c : Nat) (s : State) :
    belowKept 0x200000 s (unlockCtx n c s) := by
  unfold unlockCtx
  simp (maxDischargeDepth := 60)
@[simp ↓] theorem unlockCtx_below (L : Nat) (hL : L ≤ 0x200000) (s0 : State) (n : Nat) (c : Nat) (s : State) :
    belowKept L s0 (unlockCtx n c s) ↔ belowKept L s0 s :=
  belowKept_iff (belowKept_mono (unlockCtx_low n c s) hL) s0

theorem resetInitiator_frame (s : State) (n : Nat) :
    sameExcept [.regs, .hg, .wires, .pr] s (resetInitiator s n) := by
  unfold resetInitiator
  dsimp only
  rw [sameExcept_forRange, sameExcept_forEach]
  · simp (disch := decide)
  · intro t x; simp (disch := decide)
  · intro t x; simp (disch := decide)
@[simp ↓] theorem resetInitiator_through (ps : List Piece) (hps : ([.regs, .hg, .wires, .pr] : List Piece).all (ps.contains ·) = true) (s0 : State)
    (s : State) (n : Nat) :
    sameExcept ps s0 (resetInitiator s n) ↔ sameExcept ps s0 s :=
  sameExcept_through (resetInitiator_frame s n) hps s0
@[simp ↓] theorem resetInitiator_canonical (s : State) (n : Nat) (h : canonical s) : canonical (resetInitiator s n) := by
  unfold resetInitiator
  dsimp only
  apply canonical_forRange
  · apply canonical_forEach
    · simp (maxDischargeDepth := 60) (contextual := true) [h]
    · intro t x ht; simp (maxDischargeDepth := 60) (contextual := true) [ht]
  · intro t x ht; simp (maxDischargeDepth := 60) (contextual := true) [ht]
theorem resetInitiator_low (s : State) (n : Nat) :
    belowKept 0x10000 s (resetInitiator s n) := by
  unfold resetInitiator
  dsimp only
  rw [belowKept_forRange, belowKept_forEach]
  · simp (maxDischargeDepth := 60)
  · intro t x; simp (maxDischargeDepth := 60)
  · intro t x; simp (maxDischargeDepth := 60)
@[simp ↓] theorem resetInitiator_below (L : Nat) (hL : L ≤ 0x10000) (s0 : State) (s : State) (n : Nat) :
    belowKept L s0 (resetInitiator s n) ↔ belowKept L s0 s :=
  belowKept_iff (belowKept_mono (resetInitiator_low s n) hL) s0

theorem cutMsgin_frame (s : State) (n : Nat) :
    sameExcept [.hg] s (cutMsgin s n) := by
  unfold cutMsgin
  simp (disch := first | decide | (intro _ _; (repeat' split) <;> simp (disch := decide))) [sameExcept_foldl, sameExcept_foldl1, sameExcept_foldl2, sameExcept_forEach, sameExcept_forRange]
@[simp ↓] theorem cutMsgin_through (ps : List Piece) (hps : ([.hg] : List Piece).all (ps.contains ·) = true) (s0 : State)
    (s : State) (n : Nat) :
    sameExcept ps s0 (cutMsgin s n) ↔ sameExcept ps s0 s :=
  sameExcept_through (cutMsgin_frame s n) hps s0
@[simp ↓] theorem cutMsgin_canonical (s : State) (n : Nat) : canonical (cutMsgin s n) ↔ canonical s :=
  canonical_same (cutMsgin_frame s n) (by decide)
@[simp ↓] theorem cutMsgin_below (L : Nat) (s0 : State) (s : State) (n : Nat) :
    belowKept L s0 (cutMsgin s n) ↔ belowKept L s0 s :=
  belowKept_iff (belowKept_same (cutMsgin_frame s n) (by decide)) s0

theorem setDomState_frame (s : State) (d : Nat) (st : Nat) :
    sameExcept [.regs] s (setDomState s d st) := by
  unfold setDomState
  simp (disch := first | decide | (intro _ _; (repeat' split) <;> simp (disch := decide))) [sameExcept_foldl, sameExcept_foldl1, sameExcept_foldl2, sameExcept_forEach, sameExcept_forRange]
@[simp ↓] theorem setDomState_through (ps : List Piece) (hps : ([.regs] : List Piece).all (ps.contains ·) = true) (s0 : State)
    (s : State) (d : Nat) (st : Nat) :
    sameExcept ps s0 (setDomState s d st) ↔ sameExcept ps s0 s :=
  sameExcept_through (setDomState_frame s d st) hps s0
@[simp ↓] theorem setDomState_canonical (s : State) (d : Nat) (st : Nat) (h : canonical s) : canonical (setDomState s d st) := by
  unfold setDomState
  simp (maxDischargeDepth := 60) (contextual := true) [h]
theorem setDomState_low (s : State) (d : Nat) (st : Nat) :
    belowKept 0x10000 s (setDomState s d st) := by
  unfold setDomState
  simp (maxDischargeDepth := 60) [belowKept_foldl, belowKept_foldl1, belowKept_foldl2, belowKept_forEach, belowKept_forRange]
@[simp ↓] theorem setDomState_below (L : Nat) (hL : L ≤ 0x10000) (s0 : State) (s : State) (d : Nat) (st : Nat) :
    belowKept L s0 (setDomState s d st) ↔ belowKept L s0 s :=
  belowKept_iff (belowKept_mono (setDomState_low s d st) hL) s0

theorem wakeHai_frame (n : Nat) (s : State) :
    sameExcept [.regs, .hg] s (wakeHai n s) := by
  unfold wakeHai
  simp (disch := decide)
@[simp ↓] theorem wakeHai_through (ps : List Piece) (hps : ([.regs, .hg] : List Piece).all (ps.contains ·) = true) (s0 : State)
    (n : Nat) (s : State) :
    sameExcept ps s0 (wakeHai n s) ↔ sameExcept ps s0 s :=
  sameExcept_through (wakeHai_frame n s) hps s0
@[simp ↓] theorem wakeHai_canonical (n : Nat) (s : State) (h : canonical s) : canonical (wakeHai n s) := by
  unfold wakeHai
  simp (maxDischargeDepth := 60) (contextual := true) [h]
theorem wakeHai_low (n : Nat) (s : State) :
    belowKept 0x200000 s (wakeHai n s) := by
  unfold wakeHai
  simp (maxDischargeDepth := 60)
@[simp ↓] theorem wakeHai_below (L : Nat) (hL : L ≤ 0x200000) (s0 : State) (n : Nat) (s : State) :
    belowKept L s0 (wakeHai n s) ↔ belowKept L s0 s :=
  belowKept_iff (belowKept_mono (wakeHai_low n s) hL) s0

theorem wakeDomain_frame (s : State) (d : Nat) :
    sameExcept [.regs, .hg] s (wakeDomain s d) := by
  unfold wakeDomain
  simp (disch := first | decide | (intro _ _; (repeat' split) <;> simp (disch := decide))) [sameExcept_foldl, sameExcept_foldl1, sameExcept_foldl2, sameExcept_forEach, sameExcept_forRange]
@[simp ↓] theorem wakeDomain_through (ps : List Piece) (hps : ([.regs, .hg] : List Piece).all (ps.contains ·) = true) (s0 : State)
    (s : State) (d : Nat) :
    sameExcept ps s0 (wakeDomain s d) ↔ sameExcept ps s0 s :=
  sameExcept_through (wakeDomain_frame s d) hps s0
@[simp ↓] theorem wakeDomain_canonical (s : State) (d : Nat) (h : canonical s) : canonical (wakeDomain s d) := by
  unfold wakeDomain
  simp (maxDischargeDepth := 60) (contextual := true) [h]
theorem wakeDomain_low (s : State) (d : Nat) :
    belowKept 0x200000 s (wakeDomain s d) := by
  unfold wakeDomain
  simp (maxDischargeDepth := 60) [belowKept_foldl, belowKept_foldl1, belowKept_foldl2, belowKept_forEach, belowKept_forRange]
@[simp ↓] theorem wakeDomain_below (L : Nat) (hL : L ≤ 0x200000) (s0 : State) (s : State) (d : Nat) :
    belowKept L s0 (wakeDomain s d) ↔ belowKept L s0 s :=
  belowKept_iff (belowKept_mono (wakeDomain_low s d) hL) s0

theorem abandonSleep_frame (s : State) (d : Nat) :
    sameExcept [.regs, .hg, .pr, .al] s (abandonSleep s d) := by
  unfold abandonSleep
  simp (disch := first | decide | (intro _ _; (repeat' split) <;> simp (disch := decide))) [sameExcept_foldl, sameExcept_foldl1, sameExcept_foldl2, sameExcept_forEach, sameExcept_forRange]
@[simp ↓] theorem abandonSleep_through (ps : List Piece) (hps : ([.regs, .hg, .pr, .al] : List Piece).all (ps.contains ·) = true) (s0 : State)
    (s : State) (d : Nat) :
    sameExcept ps s0 (abandonSleep s d) ↔ sameExcept ps s0 s :=
  sameExcept_through (abandonSleep_frame s d) hps s0
@[simp ↓] theorem abandonSleep_canonical (s : State) (d : Nat) (h : canonical s) : canonical (abandonSleep s d) := by
  unfold abandonSleep
  simp (maxDischargeDepth := 60) (contextual := true) [h]
theorem abandonSleep_low (s : State) (d : Nat) :
    belowKept 0x10000 s (abandonSleep s d) := by
  unfold abandonSleep
  simp (maxDischargeDepth := 60) [belowKept_foldl, belowKept_foldl1, belowKept_foldl2, belowKept_forEach, belowKept_forRange]
@[simp ↓] theorem abandonSleep_below (L : Nat) (hL : L ≤ 0x10000) (s0 : State) (s : State) (d : Nat) :
    belowKept L s0 (abandonSleep s d) ↔ belowKept L s0 s :=
  belowKept_iff (belowKept_mono (abandonSleep_low s d) hL) s0

theorem ackExpire_frame (s : State) (d : Nat) :
    sameExcept [.fclk, .regs, .hg, .pr, .al] s (ackExpire s d) := by
  unfold ackExpire
  simp (disch := decide)
@[simp ↓] theorem ackExpire_through (ps : List Piece) (hps : ([.fclk, .regs, .hg, .pr, .al] : List Piece).all (ps.contains ·) = true) (s0 : State)
    (s : State) (d : Nat) :
    sameExcept ps s0 (ackExpire s d) ↔ sameExcept ps s0 s :=
  sameExcept_through (ackExpire_frame s d) hps s0
@[simp ↓] theorem ackExpire_canonical (s : State) (d : Nat) (h : canonical s) : canonical (ackExpire s d) := by
  unfold ackExpire
  simp (maxDischargeDepth := 60) (contextual := true) [h]
theorem ackExpire_low (s : State) (d : Nat) :
    belowKept 0x10000 s (ackExpire s d) := by
  unfold ackExpire
  simp (maxDischargeDepth := 60)
@[simp ↓] theorem ackExpire_below (L : Nat) (hL : L ≤ 0x10000) (s0 : State) (s : State) (d : Nat) :
    belowKept L s0 (ackExpire s d) ↔ belowKept L s0 s :=
  belowKept_iff (belowKept_mono (ackExpire_low s d) hL) s0

theorem aclkChange_frame (s : State) (n : Nat) (level : Bool) :
    sameExcept [.regs, .hg] s (aclkChange s n level) := by
  unfold aclkChange
  simp (disch := decide)
@[simp ↓] theorem aclkChange_through (ps : List Piece) (hps : ([.regs, .hg] : List Piece).all (ps.contains ·) = true) (s0 : State)
    (s : State) (n : Nat) (level : Bool) :
    sameExcept ps s0 (aclkChange s n level) ↔ sameExcept ps s0 s :=
  sameExcept_through (aclkChange_frame s n level) hps s0
@[simp ↓] theorem aclkChange_canonical (s : State) (n : Nat) (level : Bool) (h : canonical s) : canonical (aclkChange s n level) := by
  unfold aclkChange
  simp (maxDischargeDepth := 60) (contextual := true) [h]
theorem aclkChange_low (s : State) (n : Nat) (level : Bool) :
    belowKept 0x200000 s (aclkChange s n level) := by
  unfold aclkChange
  simp (maxDischargeDepth := 60)
@[simp ↓] theorem aclkChange_below (L : Nat) (hL : L ≤ 0x200000) (s0 : State) (s : State) (n : Nat) (level : Bool) :
    belowKept L s0 (aclkChange s n level) ↔ belowKept L s0 s :=
  belowKept_iff (belowKept_mono (aclkChange_low s n level) hL) s0

theorem beatAbort_frame (s : State) (n : Nat) :
    sameExcept [.regs, .hg] s (beatAbort s n) := by
  unfold beatAbort
  (repeat' split) <;> simp (disch := decide)
@[simp ↓] theorem beatAbort_through (ps : List Piece) (hps : ([.regs, .hg] : List Piece).all (ps.contains ·) = true) (s0 : State)
    (s : State) (n : Nat) :
    sameExcept ps s0 (beatAbort s n) ↔ sameExcept ps s0 s :=
  sameExcept_through (beatAbort_frame s n) hps s0
@[simp ↓] theorem beatAbort_canonical (s : State) (n : Nat) (h : canonical s) : canonical (beatAbort s n) := by
  unfold beatAbort
  (repeat' split) <;> simp (maxDischargeDepth := 60) (contextual := true) [h]
theorem beatAbort_low (s : State) (n : Nat) :
    belowKept 0x10000 s (beatAbort s n) := by
  unfold beatAbort
  (repeat' split) <;> simp (maxDischargeDepth := 60)
@[simp ↓] theorem beatAbort_below (L : Nat) (hL : L ≤ 0x10000) (s0 : State) (s : State) (n : Nat) :
    belowKept L s0 (beatAbort s n) ↔ belowKept L s0 s :=
  belowKept_iff (belowKept_mono (beatAbort_low s n) hL) s0

theorem beatTake_frame (s : State) (n : Nat) (b : Beat) (last : Bool) :
    sameExcept [.hg] s (beatTake s n b last) := by
  unfold beatTake
  simp (disch := decide)
@[simp ↓] theorem beatTake_through (ps : List Piece) (hps : ([.hg] : List Piece).all (ps.contains ·) = true) (s0 : State)
    (s : State) (n : Nat) (b : Beat) (last : Bool) :
    sameExcept ps s0 (beatTake s n b last) ↔ sameExcept ps s0 s :=
  sameExcept_through (beatTake_frame s n b last) hps s0
@[simp ↓] theorem beatTake_canonical (s : State) (n : Nat) (b : Beat) (last : Bool) : canonical (beatTake s n b last) ↔ canonical s :=
  canonical_same (beatTake_frame s n b last) (by decide)
@[simp ↓] theorem beatTake_below (L : Nat) (s0 : State) (s : State) (n : Nat) (b : Beat) (last : Bool) :
    belowKept L s0 (beatTake s n b last) ↔ belowKept L s0 s :=
  belowKept_iff (belowKept_same (beatTake_frame s n b last) (by decide)) s0

theorem breakLock_frame (s : State) (n : Nat) (id : Nat) :
    sameExcept [.regs, .hg, .wires, .pr] s (breakLock s n id) := by
  unfold breakLock
  simp (disch := decide)
@[simp ↓] theorem breakLock_through (ps : List Piece) (hps : ([.regs, .hg, .wires, .pr] : List Piece).all (ps.contains ·) = true) (s0 : State)
    (s : State) (n : Nat) (id : Nat) :
    sameExcept ps s0 (breakLock s n id) ↔ sameExcept ps s0 s :=
  sameExcept_through (breakLock_frame s n id) hps s0
@[simp ↓] theorem breakLock_canonical (s : State) (n : Nat) (id : Nat) (h : canonical s) : canonical (breakLock s n id) := by
  unfold breakLock
  simp (maxDischargeDepth := 60) (contextual := true) [h]
theorem breakLock_low (s : State) (n : Nat) (id : Nat) :
    belowKept 0x200000 s (breakLock s n id) := by
  unfold breakLock
  simp (maxDischargeDepth := 60)
@[simp ↓] theorem breakLock_below (L : Nat) (hL : L ≤ 0x200000) (s0 : State) (s : State) (n : Nat) (id : Nat) :
    belowKept L s0 (breakLock s n id) ↔ belowKept L s0 s :=
  belowKept_iff (belowKept_mono (breakLock_low s n id) hL) s0

theorem cackTake_frame (s : State) (n : Nat) (c : Ctx) (tag : Tag) :
    sameExcept [.regs, .hg] s (cackTake s n c tag) := by
  unfold cackTake
  (repeat' split) <;> simp (disch := decide)
@[simp ↓] theorem cackTake_through (ps : List Piece) (hps : ([.regs, .hg] : List Piece).all (ps.contains ·) = true) (s0 : State)
    (s : State) (n : Nat) (c : Ctx) (tag : Tag) :
    sameExcept ps s0 (cackTake s n c tag) ↔ sameExcept ps s0 s :=
  sameExcept_through (cackTake_frame s n c tag) hps s0
@[simp ↓] theorem cackTake_canonical (s : State) (n : Nat) (c : Ctx) (tag : Tag) (h : canonical s) : canonical (cackTake s n c tag) := by
  unfold cackTake
  (repeat' split) <;> simp (maxDischargeDepth := 60) (contextual := true) [h]
theorem cackTake_low (s : State) (n : Nat) (c : Ctx) (tag : Tag) :
    belowKept 0x200000 s (cackTake s n c tag) := by
  unfold cackTake
  (repeat' split) <;> simp (maxDischargeDepth := 60)
@[simp ↓] theorem cackTake_below (L : Nat) (hL : L ≤ 0x200000) (s0 : State) (s : State) (n : Nat) (c : Ctx) (tag : Tag) :
    belowKept L s0 (cackTake s n c tag) ↔ belowKept L s0 s :=
  belowKept_iff (belowKept_mono (cackTake_low s n c tag) hL) s0

theorem cutEntry_frame (n : Nat) (e : Entry) (s : State) :
    sameExcept [.regs, .hg, .wires, .pr, .al] s (cutEntry n e s) := by
  unfold cutEntry
  simp (disch := decide)
@[simp ↓] theorem cutEntry_through (ps : List Piece) (hps : ([.regs, .hg, .wires, .pr, .al] : List Piece).all (ps.contains ·) = true) (s0 : State)
    (n : Nat) (e : Entry) (s : State) :
    sameExcept ps s0 (cutEntry n e s) ↔ sameExcept ps s0 s :=
  sameExcept_through (cutEntry_frame n e s) hps s0
@[simp ↓] theorem cutEntry_canonical (n : Nat) (e : Entry) (s : State) (h : canonical s) : canonical (cutEntry n e s) := by
  unfold cutEntry
  simp (maxDischargeDepth := 60) (contextual := true) [h]
theorem cutEntry_low (n : Nat) (e : Entry) (s : State) :
    belowKept 0x200000 s (cutEntry n e s) := by
  unfold cutEntry
  simp (maxDischargeDepth := 60)
@[simp ↓] theorem cutEntry_below (L : Nat) (hL : L ≤ 0x200000) (s0 : State) (n : Nat) (e : Entry) (s : State) :
    belowKept L s0 (cutEntry n e s) ↔ belowKept L s0 s :=
  belowKept_iff (belowKept_mono (cutEntry_low n e s) hL) s0

theorem endTxn_frame (s : State) (n : Nat) (t : Txn) (byHeadgate : Bool) :
    sameExcept [.hg] s (endTxn s n t byHeadgate) := by
  unfold endTxn
  (repeat' split) <;> simp (disch := decide)
@[simp ↓] theorem endTxn_through (ps : List Piece) (hps : ([.hg] : List Piece).all (ps.contains ·) = true) (s0 : State)
    (s : State) (n : Nat) (t : Txn) (byHeadgate : Bool) :
    sameExcept ps s0 (endTxn s n t byHeadgate) ↔ sameExcept ps s0 s :=
  sameExcept_through (endTxn_frame s n t byHeadgate) hps s0
@[simp ↓] theorem endTxn_canonical (s : State) (n : Nat) (t : Txn) (byHeadgate : Bool) : canonical (endTxn s n t byHeadgate) ↔ canonical s :=
  canonical_same (endTxn_frame s n t byHeadgate) (by decide)
@[simp ↓] theorem endTxn_below (L : Nat) (s0 : State) (s : State) (n : Nat) (t : Txn) (byHeadgate : Bool) :
    belowKept L s0 (endTxn s n t byHeadgate) ↔ belowKept L s0 s :=
  belowKept_iff (belowKept_same (endTxn_frame s n t byHeadgate) (by decide)) s0

theorem setPwrAck_frame (s : State) (n : Nat) (b : Bool) :
    sameExcept [.regs, .hg] s (setPwrAck s n b) := by
  unfold setPwrAck
  simp (disch := decide)
@[simp ↓] theorem setPwrAck_through (ps : List Piece) (hps : ([.regs, .hg] : List Piece).all (ps.contains ·) = true) (s0 : State)
    (s : State) (n : Nat) (b : Bool) :
    sameExcept ps s0 (setPwrAck s n b) ↔ sameExcept ps s0 s :=
  sameExcept_through (setPwrAck_frame s n b) hps s0
@[simp ↓] theorem setPwrAck_canonical (s : State) (n : Nat) (b : Bool) (h : canonical s) : canonical (setPwrAck s n b) := by
  unfold setPwrAck
  simp (maxDischargeDepth := 60) (contextual := true) [h]
theorem setPwrAck_low (s : State) (n : Nat) (b : Bool) :
    belowKept 0x200000 s (setPwrAck s n b) := by
  unfold setPwrAck
  simp (maxDischargeDepth := 60)
@[simp ↓] theorem setPwrAck_below (L : Nat) (hL : L ≤ 0x200000) (s0 : State) (s : State) (n : Nat) (b : Bool) :
    belowKept L s0 (setPwrAck s n b) ↔ belowKept L s0 s :=
  belowKept_iff (belowKept_mono (setPwrAck_low s n b) hL) s0

theorem liveFall_frame (s : State) (n : Nat) :
    sameExcept [.regs, .hg, .wires, .pr, .al] s (liveFall s n) := by
  unfold liveFall
  simp (disch := first | decide | (intro _ _; (repeat' split) <;> simp (disch := decide))) [sameExcept_foldl, sameExcept_foldl1, sameExcept_foldl2, sameExcept_forEach, sameExcept_forRange]
@[simp ↓] theorem liveFall_through (ps : List Piece) (hps : ([.regs, .hg, .wires, .pr, .al] : List Piece).all (ps.contains ·) = true) (s0 : State)
    (s : State) (n : Nat) :
    sameExcept ps s0 (liveFall s n) ↔ sameExcept ps s0 s :=
  sameExcept_through (liveFall_frame s n) hps s0
@[simp ↓] theorem liveFall_canonical (s : State) (n : Nat) (h : canonical s) : canonical (liveFall s n) := by
  unfold liveFall
  simp (maxDischargeDepth := 60) (contextual := true) [h]
theorem liveFall_low (s : State) (n : Nat) :
    belowKept 0x10000 s (liveFall s n) := by
  unfold liveFall
  simp (maxDischargeDepth := 60) [belowKept_foldl, belowKept_foldl1, belowKept_foldl2, belowKept_forEach, belowKept_forRange]
@[simp ↓] theorem liveFall_below (L : Nat) (hL : L ≤ 0x10000) (s0 : State) (s : State) (n : Nat) :
    belowKept L s0 (liveFall s n) ↔ belowKept L s0 s :=
  belowKept_iff (belowKept_mono (liveFall_low s n) hL) s0

theorem liveRise_frame (s : State) (n : Nat) :
    sameExcept [.regs, .hg] s (liveRise s n) := by
  unfold liveRise
  simp (disch := first | decide | (intro _ _; (repeat' split) <;> simp (disch := decide))) [sameExcept_foldl, sameExcept_foldl1, sameExcept_foldl2, sameExcept_forEach, sameExcept_forRange]
@[simp ↓] theorem liveRise_through (ps : List Piece) (hps : ([.regs, .hg] : List Piece).all (ps.contains ·) = true) (s0 : State)
    (s : State) (n : Nat) :
    sameExcept ps s0 (liveRise s n) ↔ sameExcept ps s0 s :=
  sameExcept_through (liveRise_frame s n) hps s0
@[simp ↓] theorem liveRise_canonical (s : State) (n : Nat) (h : canonical s) : canonical (liveRise s n) := by
  unfold liveRise
  simp (maxDischargeDepth := 60) (contextual := true) [h]
theorem liveRise_low (s : State) (n : Nat) :
    belowKept 0x200000 s (liveRise s n) := by
  unfold liveRise
  simp (maxDischargeDepth := 60) [belowKept_foldl, belowKept_foldl1, belowKept_foldl2, belowKept_forEach, belowKept_forRange]
@[simp ↓] theorem liveRise_below (L : Nat) (hL : L ≤ 0x200000) (s0 : State) (s : State) (n : Nat) :
    belowKept L s0 (liveRise s n) ↔ belowKept L s0 s :=
  belowKept_iff (belowKept_mono (liveRise_low s n) hL) s0

theorem fenceDone_frame (s : State) (n : Nat) (c : Ctx) :
    sameExcept [.hg] s (fenceDone s n c) := by
  unfold fenceDone
  dsimp only
  (repeat' split) <;> simp (disch := decide)
@[simp ↓] theorem fenceDone_through (ps : List Piece) (hps : ([.hg] : List Piece).all (ps.contains ·) = true) (s0 : State)
    (s : State) (n : Nat) (c : Ctx) :
    sameExcept ps s0 (fenceDone s n c) ↔ sameExcept ps s0 s :=
  sameExcept_through (fenceDone_frame s n c) hps s0
@[simp ↓] theorem fenceDone_canonical (s : State) (n : Nat) (c : Ctx) : canonical (fenceDone s n c) ↔ canonical s :=
  canonical_same (fenceDone_frame s n c) (by decide)
@[simp ↓] theorem fenceDone_below (L : Nat) (s0 : State) (s : State) (n : Nat) (c : Ctx) :
    belowKept L s0 (fenceDone s n c) ↔ belowKept L s0 s :=
  belowKept_iff (belowKept_same (fenceDone_frame s n c) (by decide)) s0

theorem msginBeat_frame (s : State) (n : Nat) :
    sameExcept [.regs, .hg, .wires, .pr, .al] s (msginBeat s n) := by
  unfold msginBeat
  dsimp only
  split
  · simp
  · split
    · simp
    · rw [sameExcept_deliverOn _ (by decide)]
      · simp
      · intro t
        (repeat' split) <;> simp (disch := decide)
@[simp ↓] theorem msginBeat_through (ps : List Piece) (hps : ([.regs, .hg, .wires, .pr, .al] : List Piece).all (ps.contains ·) = true) (s0 : State)
    (s : State) (n : Nat) :
    sameExcept ps s0 (msginBeat s n) ↔ sameExcept ps s0 s :=
  sameExcept_through (msginBeat_frame s n) hps s0
@[simp ↓] theorem msginBeat_canonical (s : State) (n : Nat) (h : canonical s) : canonical (msginBeat s n) := by
  unfold msginBeat
  dsimp only
  split
  · exact h
  · split
    · exact h
    · apply canonical_deliverOn
      · exact h
      · (repeat' split) <;> simp (maxDischargeDepth := 60) (contextual := true) [h]
theorem msginBeat_low (s : State) (n : Nat) :
    belowKept 0xD0000 s (msginBeat s n) := by
  unfold msginBeat
  dsimp only
  split
  · simp (maxDischargeDepth := 60)
  · split
    · simp (maxDischargeDepth := 60)
    · rw [belowKept_deliverOn _ (by simp)]
      · simp (maxDischargeDepth := 60)
      · intro t
        (repeat' split) <;> simp (maxDischargeDepth := 60)
@[simp ↓] theorem msginBeat_below (L : Nat) (hL : L ≤ 0xD0000) (s0 : State) (s : State) (n : Nat) :
    belowKept L s0 (msginBeat s n) ↔ belowKept L s0 s :=
  belowKept_iff (belowKept_mono (msginBeat_low s n) hL) s0

theorem pwrAckDrop_frame (s : State) (n : Nat) :
    sameExcept [.regs, .hg] s (pwrAckDrop s n) := by
  unfold pwrAckDrop
  simp (disch := decide)
@[simp ↓] theorem pwrAckDrop_through (ps : List Piece) (hps : ([.regs, .hg] : List Piece).all (ps.contains ·) = true) (s0 : State)
    (s : State) (n : Nat) :
    sameExcept ps s0 (pwrAckDrop s n) ↔ sameExcept ps s0 s :=
  sameExcept_through (pwrAckDrop_frame s n) hps s0
@[simp ↓] theorem pwrAckDrop_canonical (s : State) (n : Nat) (h : canonical s) : canonical (pwrAckDrop s n) := by
  unfold pwrAckDrop
  simp (maxDischargeDepth := 60) (contextual := true) [h]
theorem pwrAckDrop_low (s : State) (n : Nat) :
    belowKept 0x200000 s (pwrAckDrop s n) := by
  unfold pwrAckDrop
  simp (maxDischargeDepth := 60)
@[simp ↓] theorem pwrAckDrop_below (L : Nat) (hL : L ≤ 0x200000) (s0 : State) (s : State) (n : Nat) :
    belowKept L s0 (pwrAckDrop s n) ↔ belowKept L s0 s :=
  belowKept_iff (belowKept_mono (pwrAckDrop_low s n) hL) s0

theorem pwrAckRise_frame (s : State) (n : Nat) :
    sameExcept [.regs, .hg] s (pwrAckRise s n) := by
  unfold pwrAckRise
  split <;> simp (disch := decide)
@[simp ↓] theorem pwrAckRise_through (ps : List Piece) (hps : ([.regs, .hg] : List Piece).all (ps.contains ·) = true) (s0 : State)
    (s : State) (n : Nat) :
    sameExcept ps s0 (pwrAckRise s n) ↔ sameExcept ps s0 s :=
  sameExcept_through (pwrAckRise_frame s n) hps s0
@[simp ↓] theorem pwrAckRise_canonical (s : State) (n : Nat) (h : canonical s) : canonical (pwrAckRise s n) := by
  unfold pwrAckRise
  split
  · simp (maxDischargeDepth := 60) (contextual := true) [h]
  · exact h
theorem pwrAckRise_low (s : State) (n : Nat) :
    belowKept 0x200000 s (pwrAckRise s n) := by
  unfold pwrAckRise
  split <;> simp (maxDischargeDepth := 60)
@[simp ↓] theorem pwrAckRise_below (L : Nat) (hL : L ≤ 0x200000) (s0 : State) (s : State) (n : Nat) :
    belowKept L s0 (pwrAckRise s n) ↔ belowKept L s0 s :=
  belowKept_iff (belowKept_mono (pwrAckRise_low s n) hL) s0

theorem raiseWakeLine_frame (n : Nat) (d : Nat) (s : State) :
    sameExcept [.regs, .hg] s (raiseWakeLine n d s) := by
  unfold raiseWakeLine
  simp (disch := decide)
@[simp ↓] theorem raiseWakeLine_through (ps : List Piece) (hps : ([.regs, .hg] : List Piece).all (ps.contains ·) = true) (s0 : State)
    (n : Nat) (d : Nat) (s : State) :
    sameExcept ps s0 (raiseWakeLine n d s) ↔ sameExcept ps s0 s :=
  sameExcept_through (raiseWakeLine_frame n d s) hps s0
@[simp ↓] theorem raiseWakeLine_canonical (n : Nat) (d : Nat) (s : State) (h : canonical s) : canonical (raiseWakeLine n d s) := by
  unfold raiseWakeLine
  simp (maxDischargeDepth := 60) (contextual := true) [h]
theorem raiseWakeLine_low (n : Nat) (d : Nat) (s : State) :
    belowKept 0x10000 s (raiseWakeLine n d s) := by
  unfold raiseWakeLine
  simp (maxDischargeDepth := 60)
@[simp ↓] theorem raiseWakeLine_below (L : Nat) (hL : L ≤ 0x10000) (s0 : State) (n : Nat) (d : Nat) (s : State) :
    belowKept L s0 (raiseWakeLine n d s) ↔ belowKept L s0 s :=
  belowKept_iff (belowKept_mono (raiseWakeLine_low n d s) hL) s0

theorem reqTake_frame (s : State) (n : Nat) (r : Req) :
    sameExcept [.regs, .hg] s (reqTake s n r) := by
  unfold reqTake
  dsimp only
  (repeat' split) <;> simp (disch := first | decide | (intro _ _; (repeat' split) <;> simp (disch := decide))) [sameExcept_foldl, sameExcept_foldl1, sameExcept_foldl2, sameExcept_forEach, sameExcept_forRange]
@[simp ↓] theorem reqTake_through (ps : List Piece) (hps : ([.regs, .hg] : List Piece).all (ps.contains ·) = true) (s0 : State)
    (s : State) (n : Nat) (r : Req) :
    sameExcept ps s0 (reqTake s n r) ↔ sameExcept ps s0 s :=
  sameExcept_through (reqTake_frame s n r) hps s0
@[simp ↓] theorem reqTake_canonical (s : State) (n : Nat) (r : Req) (h : canonical s) : canonical (reqTake s n r) := by
  unfold reqTake
  dsimp only
  (repeat' split) <;> simp (maxDischargeDepth := 60) (contextual := true) [h]
theorem reqTake_low (s : State) (n : Nat) (r : Req) :
    belowKept 0x10000 s (reqTake s n r) := by
  unfold reqTake
  dsimp only
  (repeat' split) <;> simp (maxDischargeDepth := 60) [belowKept_foldl, belowKept_foldl1, belowKept_foldl2, belowKept_forEach, belowKept_forRange]
@[simp ↓] theorem reqTake_below (L : Nat) (hL : L ≤ 0x10000) (s0 : State) (s : State) (n : Nat) (r : Req) :
    belowKept L s0 (reqTake s n r) ↔ belowKept L s0 s :=
  belowKept_iff (belowKept_mono (reqTake_low s n r) hL) s0

theorem readRsp_frame (s : State) (n : Nat) (p : PartSt) (err : MemErr) :
    sameExcept [.regs, .al, .freeCtr] s (readRsp s n p err).2 := by
  unfold readRsp
  dsimp only
  (repeat' split) <;> (rename_i heq; rw [Prod.ext_iff] at heq; rcases heq with ⟨_, rfl⟩; simp (disch := decide))
@[simp ↓] theorem readRsp_through (ps : List Piece) (hps : ([.regs, .al, .freeCtr] : List Piece).all (ps.contains ·) = true) (s0 : State)
    (s : State) (n : Nat) (p : PartSt) (err : MemErr) :
    sameExcept ps s0 (readRsp s n p err).2 ↔ sameExcept ps s0 s :=
  sameExcept_through (readRsp_frame s n p err) hps s0
@[simp ↓] theorem readRsp_canonical (s : State) (n : Nat) (p : PartSt) (err : MemErr) (h : canonical s) : canonical (readRsp s n p err).2 := by
  unfold readRsp
  dsimp only
  (repeat' split) <;> (rename_i heq; rw [Prod.ext_iff] at heq; rcases heq with ⟨_, rfl⟩; simp (maxDischargeDepth := 60) (contextual := true) [h])
theorem readRsp_low (s : State) (n : Nat) (p : PartSt) (err : MemErr) :
    belowKept 0x200000 s (readRsp s n p err).2 := by
  unfold readRsp
  dsimp only
  (repeat' split) <;> (rename_i heq; rw [Prod.ext_iff] at heq; rcases heq with ⟨_, rfl⟩; simp (maxDischargeDepth := 60))
@[simp ↓] theorem readRsp_below (L : Nat) (hL : L ≤ 0x200000) (s0 : State) (s : State) (n : Nat) (p : PartSt) (err : MemErr) :
    belowKept L s0 (readRsp s n p err).2 ↔ belowKept L s0 s :=
  belowKept_iff (belowKept_mono (readRsp_low s n p err) hL) s0

theorem readTxn_frame (s : State) (n : Nat) (t : Txn) (err : MemErr) :
    sameExcept [.regs, .hg, .al, .freeCtr] s (readTxn s n t err).2 := by
  unfold readTxn
  dsimp only
  (repeat' split) <;> simp (disch := decide)
@[simp ↓] theorem readTxn_through (ps : List Piece) (hps : ([.regs, .hg, .al, .freeCtr] : List Piece).all (ps.contains ·) = true) (s0 : State)
    (s : State) (n : Nat) (t : Txn) (err : MemErr) :
    sameExcept ps s0 (readTxn s n t err).2 ↔ sameExcept ps s0 s :=
  sameExcept_through (readTxn_frame s n t err) hps s0
@[simp ↓] theorem readTxn_canonical (s : State) (n : Nat) (t : Txn) (err : MemErr) (h : canonical s) : canonical (readTxn s n t err).2 := by
  unfold readTxn
  dsimp only
  (repeat' split) <;> simp (maxDischargeDepth := 60) (contextual := true) [h]
theorem readTxn_low (s : State) (n : Nat) (t : Txn) (err : MemErr) :
    belowKept 0x200000 s (readTxn s n t err).2 := by
  unfold readTxn
  dsimp only
  (repeat' split) <;> simp (maxDischargeDepth := 60)
@[simp ↓] theorem readTxn_below (L : Nat) (hL : L ≤ 0x200000) (s0 : State) (s : State) (n : Nat) (t : Txn) (err : MemErr) :
    belowKept L s0 (readTxn s n t err).2 ↔ belowKept L s0 s :=
  belowKept_iff (belowKept_mono (readTxn_low s n t err) hL) s0

theorem rspOut_frame (s : State) (n : Nat) (t : Txn) :
    sameExcept [.hg] s (rspOut s n t) := by
  unfold rspOut
  simp (disch := decide)
@[simp ↓] theorem rspOut_through (ps : List Piece) (hps : ([.hg] : List Piece).all (ps.contains ·) = true) (s0 : State)
    (s : State) (n : Nat) (t : Txn) :
    sameExcept ps s0 (rspOut s n t) ↔ sameExcept ps s0 s :=
  sameExcept_through (rspOut_frame s n t) hps s0
@[simp ↓] theorem rspOut_canonical (s : State) (n : Nat) (t : Txn) : canonical (rspOut s n t) ↔ canonical s :=
  canonical_same (rspOut_frame s n t) (by decide)
@[simp ↓] theorem rspOut_below (L : Nat) (s0 : State) (s : State) (n : Nat) (t : Txn) :
    belowKept L s0 (rspOut s n t) ↔ belowKept L s0 s :=
  belowKept_iff (belowKept_same (rspOut_frame s n t) (by decide)) s0

theorem rspBeat_frame (s : State) (n : Nat) (k : Nat) (err : MemErr) :
    sameExcept [.regs, .hg, .al, .freeCtr] s (rspBeat s n k err) := by
  unfold rspBeat
  split
  · simp
  · split
    · rw [sameExcept_deliverOn _ (by decide)]
      · simp
      · intro t
        dsimp only
        (repeat' split) <;> simp (disch := decide)
    · simp
@[simp ↓] theorem rspBeat_through (ps : List Piece) (hps : ([.regs, .hg, .al, .freeCtr] : List Piece).all (ps.contains ·) = true) (s0 : State)
    (s : State) (n : Nat) (k : Nat) (err : MemErr) :
    sameExcept ps s0 (rspBeat s n k err) ↔ sameExcept ps s0 s :=
  sameExcept_through (rspBeat_frame s n k err) hps s0
@[simp ↓] theorem rspBeat_canonical (s : State) (n : Nat) (k : Nat) (err : MemErr) (h : canonical s) : canonical (rspBeat s n k err) := by
  unfold rspBeat
  split
  · exact h
  · split
    · apply canonical_deliverOn
      · exact h
      · dsimp only
        (repeat' split) <;> simp (maxDischargeDepth := 60) (contextual := true) [h]
    · exact h
theorem rspBeat_low (s : State) (n : Nat) (k : Nat) (err : MemErr) :
    belowKept 0x200000 s (rspBeat s n k err) := by
  unfold rspBeat
  split
  · simp (maxDischargeDepth := 60)
  · split
    · rw [belowKept_deliverOn _ (by simp)]
      · simp (maxDischargeDepth := 60)
      · intro t
        dsimp only
        (repeat' split) <;> simp (maxDischargeDepth := 60)
    · simp (maxDischargeDepth := 60)
@[simp ↓] theorem rspBeat_below (L : Nat) (hL : L ≤ 0x200000) (s0 : State) (s : State) (n : Nat) (k : Nat) (err : MemErr) :
    belowKept L s0 (rspBeat s n k err) ↔ belowKept L s0 s :=
  belowKept_iff (belowKept_mono (rspBeat_low s n k err) hL) s0

theorem siphonAbsorb_frame (s : State) (n : Nat) (k : Nat) :
    sameExcept [.regs, .hg] s (siphonAbsorb s n k) := by
  unfold siphonAbsorb
  (repeat' split) <;> simp (disch := decide)
@[simp ↓] theorem siphonAbsorb_through (ps : List Piece) (hps : ([.regs, .hg] : List Piece).all (ps.contains ·) = true) (s0 : State)
    (s : State) (n : Nat) (k : Nat) :
    sameExcept ps s0 (siphonAbsorb s n k) ↔ sameExcept ps s0 s :=
  sameExcept_through (siphonAbsorb_frame s n k) hps s0
@[simp ↓] theorem siphonAbsorb_canonical (s : State) (n : Nat) (k : Nat) (h : canonical s) : canonical (siphonAbsorb s n k) := by
  unfold siphonAbsorb
  (repeat' split) <;> simp (maxDischargeDepth := 60) (contextual := true) [h]
theorem siphonAbsorb_low (s : State) (n : Nat) (k : Nat) :
    belowKept 0x200000 s (siphonAbsorb s n k) := by
  unfold siphonAbsorb
  (repeat' split) <;> simp (maxDischargeDepth := 60)
@[simp ↓] theorem siphonAbsorb_below (L : Nat) (hL : L ≤ 0x200000) (s0 : State) (s : State) (n : Nat) (k : Nat) :
    belowKept L s0 (siphonAbsorb s n k) ↔ belowKept L s0 s :=
  belowKept_iff (belowKept_mono (siphonAbsorb_low s n k) hL) s0

theorem snpPresent_frame (s : State) (n : Nat) :
    sameExcept [.regs, .hg] s (snpPresent s n) := by
  unfold snpPresent
  split
  · simp (disch := decide)
  · split
    · simp
    · split
      · simp
      · rw [sameExcept_deliverOn _ (by decide)]
        · simp
        · intro t
          simp (disch := decide)
@[simp ↓] theorem snpPresent_through (ps : List Piece) (hps : ([.regs, .hg] : List Piece).all (ps.contains ·) = true) (s0 : State)
    (s : State) (n : Nat) :
    sameExcept ps s0 (snpPresent s n) ↔ sameExcept ps s0 s :=
  sameExcept_through (snpPresent_frame s n) hps s0
@[simp ↓] theorem snpPresent_canonical (s : State) (n : Nat) (h : canonical s) : canonical (snpPresent s n) := by
  unfold snpPresent
  split
  · simp (maxDischargeDepth := 60) (contextual := true) [h]
  · split
    · exact h
    · split
      · exact h
      · apply canonical_deliverOn
        · exact h
        · simp (maxDischargeDepth := 60) (contextual := true) [h]
theorem snpPresent_low (s : State) (n : Nat) :
    belowKept 0x200000 s (snpPresent s n) := by
  unfold snpPresent
  split
  · simp (maxDischargeDepth := 60)
  · split
    · simp (maxDischargeDepth := 60)
    · split
      · simp (maxDischargeDepth := 60)
      · rw [belowKept_deliverOn _ (by simp)]
        · simp (maxDischargeDepth := 60)
        · intro t
          simp (maxDischargeDepth := 60)
@[simp ↓] theorem snpPresent_below (L : Nat) (hL : L ≤ 0x200000) (s0 : State) (s : State) (n : Nat) :
    belowKept L s0 (snpPresent s n) ↔ belowKept L s0 s :=
  belowKept_iff (belowKept_mono (snpPresent_low s n) hL) s0

theorem snprspTake_frame (s : State) (n : Nat) (op : BitVec 8) (txn : Nat) (toReq : Bool) (st : BitVec 2) (data : Line) (last : Bool) :
    sameExcept [.regs, .hg] s (snprspTake s n op txn toReq st data last) := by
  unfold snprspTake
  (repeat' split) <;> simp (disch := decide)
@[simp ↓] theorem snprspTake_through (ps : List Piece) (hps : ([.regs, .hg] : List Piece).all (ps.contains ·) = true) (s0 : State)
    (s : State) (n : Nat) (op : BitVec 8) (txn : Nat) (toReq : Bool) (st : BitVec 2) (data : Line) (last : Bool) :
    sameExcept ps s0 (snprspTake s n op txn toReq st data last) ↔ sameExcept ps s0 s :=
  sameExcept_through (snprspTake_frame s n op txn toReq st data last) hps s0
@[simp ↓] theorem snprspTake_canonical (s : State) (n : Nat) (op : BitVec 8) (txn : Nat) (toReq : Bool) (st : BitVec 2) (data : Line) (last : Bool) (h : canonical s) : canonical (snprspTake s n op txn toReq st data last) := by
  unfold snprspTake
  (repeat' split) <;> simp (maxDischargeDepth := 60) (contextual := true) [h]
theorem snprspTake_low (s : State) (n : Nat) (op : BitVec 8) (txn : Nat) (toReq : Bool) (st : BitVec 2) (data : Line) (last : Bool) :
    belowKept 0x200000 s (snprspTake s n op txn toReq st data last) := by
  unfold snprspTake
  (repeat' split) <;> simp (maxDischargeDepth := 60)
@[simp ↓] theorem snprspTake_below (L : Nat) (hL : L ≤ 0x200000) (s0 : State) (s : State) (n : Nat) (op : BitVec 8) (txn : Nat) (toReq : Bool) (st : BitVec 2) (data : Line) (last : Bool) :
    belowKept L s0 (snprspTake s n op txn toReq st data last) ↔ belowKept L s0 s :=
  belowKept_iff (belowKept_mono (snprspTake_low s n op txn toReq st data last) hL) s0

theorem presentEntry_frame (s : State) (n : Nat) (e : Entry) :
    sameExcept [.hg, .freeCtr] s (presentEntry s n e) := by
  unfold presentEntry
  dsimp only
  (repeat' split) <;> simp (disch := decide)
@[simp ↓] theorem presentEntry_through (ps : List Piece) (hps : ([.hg, .freeCtr] : List Piece).all (ps.contains ·) = true) (s0 : State)
    (s : State) (n : Nat) (e : Entry) :
    sameExcept ps s0 (presentEntry s n e) ↔ sameExcept ps s0 s :=
  sameExcept_through (presentEntry_frame s n e) hps s0
@[simp ↓] theorem presentEntry_canonical (s : State) (n : Nat) (e : Entry) : canonical (presentEntry s n e) ↔ canonical s :=
  canonical_same (presentEntry_frame s n e) (by decide)
@[simp ↓] theorem presentEntry_below (L : Nat) (s0 : State) (s : State) (n : Nat) (e : Entry) :
    belowKept L s0 (presentEntry s n e) ↔ belowKept L s0 s :=
  belowKept_iff (belowKept_same (presentEntry_frame s n e) (by decide)) s0

theorem treqPresent_frame (s : State) (n : Nat) :
    sameExcept [.regs, .hg, .wires, .pr, .al, .freeCtr] s (treqPresent s n) := by
  unfold treqPresent
  split
  · simp
  · dsimp only
    split
    · simp (disch := decide)
    · (repeat' split)
      · simp (disch := decide)
      · simp (disch := decide)
      · simp (disch := decide)
      · rw [sameExcept_deliverOn _ (by decide)]
        · simp (disch := decide)
        · intro t
          simp (disch := decide)
@[simp ↓] theorem treqPresent_through (ps : List Piece) (hps : ([.regs, .hg, .wires, .pr, .al, .freeCtr] : List Piece).all (ps.contains ·) = true) (s0 : State)
    (s : State) (n : Nat) :
    sameExcept ps s0 (treqPresent s n) ↔ sameExcept ps s0 s :=
  sameExcept_through (treqPresent_frame s n) hps s0
@[simp ↓] theorem treqPresent_canonical (s : State) (n : Nat) (h : canonical s) : canonical (treqPresent s n) := by
  unfold treqPresent
  split
  · exact h
  · dsimp only
    split
    · simp (maxDischargeDepth := 60) (contextual := true) [h]
    · (repeat' split)
      · simp (maxDischargeDepth := 60) (contextual := true) [h]
      · simp (maxDischargeDepth := 60) (contextual := true) [h]
      · simp (maxDischargeDepth := 60) (contextual := true) [h]
      · apply canonical_deliverOn
        · simp (maxDischargeDepth := 60) (contextual := true) [h]
        · simp (maxDischargeDepth := 60) (contextual := true) [h]
theorem treqPresent_low (s : State) (n : Nat) :
    belowKept 0xD0000 s (treqPresent s n) := by
  unfold treqPresent
  split
  · simp (maxDischargeDepth := 60)
  · dsimp only
    split
    · simp (maxDischargeDepth := 60)
    · (repeat' split)
      · simp (maxDischargeDepth := 60)
      · simp (maxDischargeDepth := 60)
      · simp (maxDischargeDepth := 60)
      · rw [belowKept_deliverOn _ (by simp)]
        · simp (maxDischargeDepth := 60)
        · intro t
          simp (maxDischargeDepth := 60)
@[simp ↓] theorem treqPresent_below (L : Nat) (hL : L ≤ 0xD0000) (s0 : State) (s : State) (n : Nat) :
    belowKept L s0 (treqPresent s n) ↔ belowKept L s0 s :=
  belowKept_iff (belowKept_mono (treqPresent_low s n) hL) s0

theorem trspTake_frame (s : State) (n : Nat) (id : Nat) (oc : BitVec 4) (beats : List DBeat) :
    sameExcept [.regs, .hg, .wires, .pr, .al] s (trspTake s n id oc beats) := by
  unfold trspTake
  (repeat' split) <;> simp (disch := decide)
@[simp ↓] theorem trspTake_through (ps : List Piece) (hps : ([.regs, .hg, .wires, .pr, .al] : List Piece).all (ps.contains ·) = true) (s0 : State)
    (s : State) (n : Nat) (id : Nat) (oc : BitVec 4) (beats : List DBeat) :
    sameExcept ps s0 (trspTake s n id oc beats) ↔ sameExcept ps s0 s :=
  sameExcept_through (trspTake_frame s n id oc beats) hps s0
@[simp ↓] theorem trspTake_canonical (s : State) (n : Nat) (id : Nat) (oc : BitVec 4) (beats : List DBeat) (h : canonical s) : canonical (trspTake s n id oc beats) := by
  unfold trspTake
  (repeat' split) <;> simp (maxDischargeDepth := 60) (contextual := true) [h]
theorem trspTake_low (s : State) (n : Nat) (id : Nat) (oc : BitVec 4) (beats : List DBeat) :
    belowKept 0xD0000 s (trspTake s n id oc beats) := by
  unfold trspTake
  (repeat' split) <;> simp (maxDischargeDepth := 60)
@[simp ↓] theorem trspTake_below (L : Nat) (hL : L ≤ 0xD0000) (s0 : State) (s : State) (n : Nat) (id : Nat) (oc : BitVec 4) (beats : List DBeat) :
    belowKept L s0 (trspTake s n id oc beats) ↔ belowKept L s0 s :=
  belowKept_iff (belowKept_mono (trspTake_low s n id oc beats) hL) s0

theorem twdataBeat_frame (s : State) (n : Nat) :
    sameExcept [.regs, .hg, .wires, .pr, .al] s (twdataBeat s n) := by
  unfold twdataBeat
  split
  · rw [sameExcept_deliverOn _ (by decide)]
    · simp
    · intro t
      dsimp only
      (repeat' split) <;> simp (disch := decide)
  · simp
@[simp ↓] theorem twdataBeat_through (ps : List Piece) (hps : ([.regs, .hg, .wires, .pr, .al] : List Piece).all (ps.contains ·) = true) (s0 : State)
    (s : State) (n : Nat) :
    sameExcept ps s0 (twdataBeat s n) ↔ sameExcept ps s0 s :=
  sameExcept_through (twdataBeat_frame s n) hps s0
@[simp ↓] theorem twdataBeat_canonical (s : State) (n : Nat) (h : canonical s) : canonical (twdataBeat s n) := by
  unfold twdataBeat
  split
  · apply canonical_deliverOn
    · exact h
    · dsimp only
      (repeat' split) <;> simp (maxDischargeDepth := 60) (contextual := true) [h]
  · exact h
theorem twdataBeat_low (s : State) (n : Nat) :
    belowKept 0xD0000 s (twdataBeat s n) := by
  unfold twdataBeat
  split
  · rw [belowKept_deliverOn _ (by simp)]
    · simp (maxDischargeDepth := 60)
    · intro t
      dsimp only
      (repeat' split) <;> simp (maxDischargeDepth := 60)
  · simp (maxDischargeDepth := 60)
@[simp ↓] theorem twdataBeat_below (L : Nat) (hL : L ≤ 0xD0000) (s0 : State) (s : State) (n : Nat) :
    belowKept L s0 (twdataBeat s n) ↔ belowKept L s0 s :=
  belowKept_iff (belowKept_mono (twdataBeat_low s n) hL) s0

theorem wakeExpire_frame (s : State) (n : Nat) :
    sameExcept [.fclk, .regs, .hg, .pr, .al] s (wakeExpire s n) := by
  unfold wakeExpire
  (repeat' split) <;> simp (disch := decide)
@[simp ↓] theorem wakeExpire_through (ps : List Piece) (hps : ([.fclk, .regs, .hg, .pr, .al] : List Piece).all (ps.contains ·) = true) (s0 : State)
    (s : State) (n : Nat) :
    sameExcept ps s0 (wakeExpire s n) ↔ sameExcept ps s0 s :=
  sameExcept_through (wakeExpire_frame s n) hps s0
@[simp ↓] theorem wakeExpire_canonical (s : State) (n : Nat) (h : canonical s) : canonical (wakeExpire s n) := by
  unfold wakeExpire
  (repeat' split) <;> simp (maxDischargeDepth := 60) (contextual := true) [h]
theorem wakeExpire_low (s : State) (n : Nat) :
    belowKept 0x10000 s (wakeExpire s n) := by
  unfold wakeExpire
  (repeat' split) <;> simp (maxDischargeDepth := 60)
@[simp ↓] theorem wakeExpire_below (L : Nat) (hL : L ≤ 0x10000) (s0 : State) (s : State) (n : Nat) :
    belowKept L s0 (wakeExpire s n) ↔ belowKept L s0 s :=
  belowKept_iff (belowKept_mono (wakeExpire_low s n) hL) s0

theorem refillWeirs_frame (s : State) (n : Nat) :
    sameExcept [.regs] s (refillWeirs s n) := by
  unfold refillWeirs
  simp (disch := first | decide | (intro _ _; (repeat' split) <;> simp (disch := decide))) [sameExcept_foldl, sameExcept_foldl1, sameExcept_foldl2, sameExcept_forEach, sameExcept_forRange]
@[simp ↓] theorem refillWeirs_through (ps : List Piece) (hps : ([.regs] : List Piece).all (ps.contains ·) = true) (s0 : State)
    (s : State) (n : Nat) :
    sameExcept ps s0 (refillWeirs s n) ↔ sameExcept ps s0 s :=
  sameExcept_through (refillWeirs_frame s n) hps s0
@[simp ↓] theorem refillWeirs_canonical (s : State) (n : Nat) (h : canonical s) : canonical (refillWeirs s n) := by
  unfold refillWeirs
  simp (maxDischargeDepth := 60) (contextual := true) [h]
theorem refillWeirs_low (s : State) (n : Nat) :
    belowKept 0x200000 s (refillWeirs s n) := by
  unfold refillWeirs
  simp (maxDischargeDepth := 60) [belowKept_foldl, belowKept_foldl1, belowKept_foldl2, belowKept_forEach, belowKept_forRange]
@[simp ↓] theorem refillWeirs_below (L : Nat) (hL : L ≤ 0x200000) (s0 : State) (s : State) (n : Nat) :
    belowKept L s0 (refillWeirs s n) ↔ belowKept L s0 s :=
  belowKept_iff (belowKept_mono (refillWeirs_low s n) hL) s0

end Sys2Proof.Machine
end

