-- ==== Sys2Proof/Laws/FrameHome.lean ====
section
/-! SUPPORT. What each operation of `Machine/Home.lean` can change, in the pieces of `Safety.lean`: `<operation>_frame` says it once,
`<operation>_through` carries it past the operation, `<operation>_canonical` says that it keeps the canonical form, and
`<operation>_low`, `<operation>_below` that it keeps the registers below the blocks it works on. -/

open Sys2Proof

namespace Sys2Proof.Machine

set_option linter.unusedSimpArgs false
set_option linter.unusedVariables false

theorem State.putSlot_frame (s : State) (k : Nat) (i : Nat) (sl : Slot) :
    sameExcept [.hs] s (State.putSlot s k i sl) := by
  unfold State.putSlot
  simp (disch := decide)
@[simp ↓] theorem State.putSlot_through (ps : List Piece) (hps : ([.hs] : List Piece).all (ps.contains ·) = true) (s0 : State)
    (s : State) (k : Nat) (i : Nat) (sl : Slot) :
    sameExcept ps s0 (State.putSlot s k i sl) ↔ sameExcept ps s0 s :=
  sameExcept_through (State.putSlot_frame s k i sl) hps s0
@[simp ↓] theorem State.putSlot_canonical (s : State) (k : Nat) (i : Nat) (sl : Slot) : canonical (State.putSlot s k i sl) ↔ canonical s :=
  canonical_same (State.putSlot_frame s k i sl) (by decide)
@[simp ↓] theorem State.putSlot_below (L : Nat) (s0 : State) (s : State) (k : Nat) (i : Nat) (sl : Slot) :
    belowKept L s0 (State.putSlot s k i sl) ↔ belowKept L s0 s :=
  belowKept_iff (belowKept_same (State.putSlot_frame s k i sl) (by decide)) s0

theorem joinHandover_frame (s : State) (k : Nat) :
    sameExcept [.hg, .hs] s (joinHandover s k) := by
  unfold joinHandover
  simp (disch := first | decide | (intro _ _; (repeat' split) <;> simp (disch := decide))) [sameExcept_foldl, sameExcept_foldl1, sameExcept_foldl2, sameExcept_forEach, sameExcept_forRange]
@[simp ↓] theorem joinHandover_through (ps : List Piece) (hps : ([.hg, .hs] : List Piece).all (ps.contains ·) = true) (s0 : State)
    (s : State) (k : Nat) :
    sameExcept ps s0 (joinHandover s k) ↔ sameExcept ps s0 s :=
  sameExcept_through (joinHandover_frame s k) hps s0
@[simp ↓] theorem joinHandover_canonical (s : State) (k : Nat) : canonical (joinHandover s k) ↔ canonical s :=
  canonical_same (joinHandover_frame s k) (by decide)
@[simp ↓] theorem joinHandover_below (L : Nat) (s0 : State) (s : State) (k : Nat) :
    belowKept L s0 (joinHandover s k) ↔ belowKept L s0 s :=
  belowKept_iff (belowKept_same (joinHandover_frame s k) (by decide)) s0

theorem memFailed_frame (s : State) (k : Nat) (i : Nat) (sl : Slot) (oc : BitVec 4) :
    sameExcept [.hs] s (memFailed s k i sl oc) := by
  unfold memFailed
  dsimp only
  (repeat' split) <;> simp (disch := decide)
@[simp ↓] theorem memFailed_through (ps : List Piece) (hps : ([.hs] : List Piece).all (ps.contains ·) = true) (s0 : State)
    (s : State) (k : Nat) (i : Nat) (sl : Slot) (oc : BitVec 4) :
    sameExcept ps s0 (memFailed s k i sl oc) ↔ sameExcept ps s0 s :=
  sameExcept_through (memFailed_frame s k i sl oc) hps s0
@[simp ↓] theorem memFailed_canonical (s : State) (k : Nat) (i : Nat) (sl : Slot) (oc : BitVec 4) : canonical (memFailed s k i sl oc) ↔ canonical s :=
  canonical_same (memFailed_frame s k i sl oc) (by decide)
@[simp ↓] theorem memFailed_below (L : Nat) (s0 : State) (s : State) (k : Nat) (i : Nat) (sl : Slot) (oc : BitVec 4) :
    belowKept L s0 (memFailed s k i sl oc) ↔ belowKept L s0 s :=
  belowKept_iff (belowKept_same (memFailed_frame s k i sl oc) (by decide)) s0

theorem popAct_frame (s : State) (k : Nat) (i : Nat) :
    sameExcept [.hs] s (popAct s k i) := by
  unfold popAct
  (repeat' split) <;> simp (disch := decide)
@[simp ↓] theorem popAct_through (ps : List Piece) (hps : ([.hs] : List Piece).all (ps.contains ·) = true) (s0 : State)
    (s : State) (k : Nat) (i : Nat) :
    sameExcept ps s0 (popAct s k i) ↔ sameExcept ps s0 s :=
  sameExcept_through (popAct_frame s k i) hps s0
@[simp ↓] theorem popAct_canonical (s : State) (k : Nat) (i : Nat) : canonical (popAct s k i) ↔ canonical s :=
  canonical_same (popAct_frame s k i) (by decide)
@[simp ↓] theorem popAct_below (L : Nat) (s0 : State) (s : State) (k : Nat) (i : Nat) :
    belowKept L s0 (popAct s k i) ↔ belowKept L s0 s :=
  belowKept_iff (belowKept_same (popAct_frame s k i) (by decide)) s0

theorem putActs_frame (s : State) (k : Nat) (i : Nat) (todo : List HAct) :
    sameExcept [.hs] s (putActs s k i todo) := by
  unfold putActs
  (repeat' split) <;> simp (disch := decide)
@[simp ↓] theorem putActs_through (ps : List Piece) (hps : ([.hs] : List Piece).all (ps.contains ·) = true) (s0 : State)
    (s : State) (k : Nat) (i : Nat) (todo : List HAct) :
    sameExcept ps s0 (putActs s k i todo) ↔ sameExcept ps s0 s :=
  sameExcept_through (putActs_frame s k i todo) hps s0
@[simp ↓] theorem putActs_canonical (s : State) (k : Nat) (i : Nat) (todo : List HAct) : canonical (putActs s k i todo) ↔ canonical s :=
  canonical_same (putActs_frame s k i todo) (by decide)
@[simp ↓] theorem putActs_below (L : Nat) (s0 : State) (s : State) (k : Nat) (i : Nat) (todo : List HAct) :
    belowKept L s0 (putActs s k i todo) ↔ belowKept L s0 s :=
  belowKept_iff (belowKept_same (putActs_frame s k i todo) (by decide)) s0

theorem memEnds_frame (s : State) (k : Nat) (i : Nat) (oc : BitVec 4) (b : Option DBeat) :
    sameExcept [.hs] s (memEnds s k i oc b).1 := by
  unfold memEnds
  (repeat' split) <;> simp (disch := decide)
@[simp ↓] theorem memEnds_through (ps : List Piece) (hps : ([.hs] : List Piece).all (ps.contains ·) = true) (s0 : State)
    (s : State) (k : Nat) (i : Nat) (oc : BitVec 4) (b : Option DBeat) :
    sameExcept ps s0 (memEnds s k i oc b).1 ↔ sameExcept ps s0 s :=
  sameExcept_through (memEnds_frame s k i oc b) hps s0
@[simp ↓] theorem memEnds_canonical (s : State) (k : Nat) (i : Nat) (oc : BitVec 4) (b : Option DBeat) : canonical (memEnds s k i oc b).1 ↔ canonical s :=
  canonical_same (memEnds_frame s k i oc b) (by decide)
@[simp ↓] theorem memEnds_below (L : Nat) (s0 : State) (s : State) (k : Nat) (i : Nat) (oc : BitVec 4) (b : Option DBeat) :
    belowKept L s0 (memEnds s k i oc b).1 ↔ belowKept L s0 s :=
  belowKept_iff (belowKept_same (memEnds_frame s k i oc b) (by decide)) s0

theorem waitFor_frame (s : State) (k : Nat) (i : Nat) (w : HWait) :
    sameExcept [.hs] s (waitFor s k i w) := by
  unfold waitFor
  (repeat' split) <;> simp (disch := decide)
@[simp ↓] theorem waitFor_through (ps : List Piece) (hps : ([.hs] : List Piece).all (ps.contains ·) = true) (s0 : State)
    (s : State) (k : Nat) (i : Nat) (w : HWait) :
    sameExcept ps s0 (waitFor s k i w) ↔ sameExcept ps s0 s :=
  sameExcept_through (waitFor_frame s k i w) hps s0
@[simp ↓] theorem waitFor_canonical (s : State) (k : Nat) (i : Nat) (w : HWait) : canonical (waitFor s k i w) ↔ canonical s :=
  canonical_same (waitFor_frame s k i w) (by decide)
@[simp ↓] theorem waitFor_below (L : Nat) (s0 : State) (s : State) (k : Nat) (i : Nat) (w : HWait) :
    belowKept L s0 (waitFor s k i w) ↔ belowKept L s0 s :=
  belowKept_iff (belowKept_same (waitFor_frame s k i w) (by decide)) s0

theorem toReserved_frame (s : State) (k : Nat) (i : Nat) :
    sameExcept [.regs, .hs] s (toReserved s k i) := by
  unfold toReserved
  simp (disch := decide)
@[simp ↓] theorem toReserved_through (ps : List Piece) (hps : ([.regs, .hs] : List Piece).all (ps.contains ·) = true) (s0 : State)
    (s : State) (k : Nat) (i : Nat) :
    sameExcept ps s0 (toReserved s k i) ↔ sameExcept ps s0 s :=
  sameExcept_through (toReserved_frame s k i) hps s0
@[simp ↓] theorem toReserved_canonical (s : State) (k : Nat) (i : Nat) (h : canonical s) : canonical (toReserved s k i) := by
  unfold toReserved
  simp (maxDischargeDepth := 60) (contextual := true) [h]
theorem toReserved_low (s : State) (k : Nat) (i : Nat) :
    belowKept 0x80000 s (toReserved s k i) := by
  unfold toReserved
  simp (maxDischargeDepth := 60)
@[simp ↓] theorem toReserved_below (L : Nat) (hL : L ≤ 0x80000) (s0 : State) (s : State) (k : Nat) (i : Nat) :
    belowKept L s0 (toReserved s k i) ↔ belowKept L s0 s :=
  belowKept_iff (belowKept_mono (toReserved_low s k i) hL) s0

theorem allocStep_frame (s : State) (k : Nat) (i : Nat) (sl : Slot) (w : DirWrite) :
    sameExcept [.regs, .hs] s (allocStep s k i sl w).1 := by
  unfold allocStep
  dsimp only
  (repeat' split) <;> simp (disch := decide)
@[simp ↓] theorem allocStep_through (ps : List Piece) (hps : ([.regs, .hs] : List Piece).all (ps.contains ·) = true) (s0 : State)
    (s : State) (k : Nat) (i : Nat) (sl : Slot) (w : DirWrite) :
    sameExcept ps s0 (allocStep s k i sl w).1 ↔ sameExcept ps s0 s :=
  sameExcept_through (allocStep_frame s k i sl w) hps s0
@[simp ↓] theorem allocStep_canonical (s : State) (k : Nat) (i : Nat) (sl : Slot) (w : DirWrite) (h : canonical s) : canonical (allocStep s k i sl w).1 := by
  unfold allocStep
  dsimp only
  (repeat' split) <;> simp (maxDischargeDepth := 60) (contextual := true) [h]
theorem allocStep_low (s : State) (k : Nat) (i : Nat) (sl : Slot) (w : DirWrite) :
    belowKept 0x80000 s (allocStep s k i sl w).1 := by
  unfold allocStep
  dsimp only
  (repeat' split) <;> simp (maxDischargeDepth := 60)
@[simp ↓] theorem allocStep_below (L : Nat) (hL : L ≤ 0x80000) (s0 : State) (s : State) (k : Nat) (i : Nat) (sl : Slot) (w : DirWrite) :
    belowKept L s0 (allocStep s k i sl w).1 ↔ belowKept L s0 s :=
  belowKept_iff (belowKept_mono (allocStep_low s k i sl w) hL) s0

theorem memIssue_frame (s : State) (k : Nat) (i : Nat) (sl : Slot) (op : BitVec 8) (bs : List Beat) :
    sameExcept [.regs, .hg, .al] s (memIssue s k i sl op bs).1 := by
  unfold memIssue
  dsimp only
  (repeat' split) <;> simp (disch := decide)
@[simp ↓] theorem memIssue_through (ps : List Piece) (hps : ([.regs, .hg, .al] : List Piece).all (ps.contains ·) = true) (s0 : State)
    (s : State) (k : Nat) (i : Nat) (sl : Slot) (op : BitVec 8) (bs : List Beat) :
    sameExcept ps s0 (memIssue s k i sl op bs).1 ↔ sameExcept ps s0 s :=
  sameExcept_through (memIssue_frame s k i sl op bs) hps s0
@[simp ↓] theorem memIssue_canonical (s : State) (k : Nat) (i : Nat) (sl : Slot) (op : BitVec 8) (bs : List Beat) (h : canonical s) : canonical (memIssue s k i sl op bs).1 := by
  unfold memIssue
  dsimp only
  (repeat' split) <;> simp (maxDischargeDepth := 60) (contextual := true) [h]
theorem memIssue_low (s : State) (k : Nat) (i : Nat) (sl : Slot) (op : BitVec 8) (bs : List Beat) :
    belowKept 0x200000 s (memIssue s k i sl op bs).1 := by
  unfold memIssue
  dsimp only
  (repeat' split) <;> simp (maxDischargeDepth := 60)
@[simp ↓] theorem memIssue_below (L : Nat) (hL : L ≤ 0x200000) (s0 : State) (s : State) (k : Nat) (i : Nat) (sl : Slot) (op : BitVec 8) (bs : List Beat) :
    belowKept L s0 (memIssue s k i sl op bs).1 ↔ belowKept L s0 s :=
  belowKept_iff (belowKept_mono (memIssue_low s k i sl op bs) hL) s0

theorem atomStep_frame (s : State) (k : Nat) (i : Nat) (sl : Slot) :
    sameExcept [.regs, .hg, .hs, .al, .freeCtr] s (atomStep s k i sl).1 := by
  unfold atomStep
  dsimp only
  split
  · simp (disch := decide)
  · split
    · simp (disch := decide)
    · split <;> (rename_i heq; rw [Prod.ext_iff] at heq; rcases heq with ⟨rfl, _⟩; simp (disch := decide))
@[simp ↓] theorem atomStep_through (ps : List Piece) (hps : ([.regs, .hg, .hs, .al, .freeCtr] : List Piece).all (ps.contains ·) = true) (s0 : State)
    (s : State) (k : Nat) (i : Nat) (sl : Slot) :
    sameExcept ps s0 (atomStep s k i sl).1 ↔ sameExcept ps s0 s :=
  sameExcept_through (atomStep_frame s k i sl) hps s0
@[simp ↓] theorem atomStep_canonical (s : State) (k : Nat) (i : Nat) (sl : Slot) (h : canonical s) : canonical (atomStep s k i sl).1 := by
  unfold atomStep
  dsimp only
  split
  · simp (maxDischargeDepth := 60) (contextual := true) [h]
  · split
    · simp (maxDischargeDepth := 60) (contextual := true) [h]
    · split <;> (rename_i heq; rw [Prod.ext_iff] at heq; rcases heq with ⟨rfl, _⟩; simp (maxDischargeDepth := 60) (contextual := true) [h])
theorem atomStep_low (s : State) (k : Nat) (i : Nat) (sl : Slot) :
    belowKept 0x80000 s (atomStep s k i sl).1 := by
  unfold atomStep
  dsimp only
  split
  · simp (maxDischargeDepth := 60)
  · split
    · simp (maxDischargeDepth := 60)
    · split <;> (rename_i heq; rw [Prod.ext_iff] at heq; rcases heq with ⟨rfl, _⟩; simp (maxDischargeDepth := 60))
@[simp ↓] theorem atomStep_below (L : Nat) (hL : L ≤ 0x80000) (s0 : State) (s : State) (k : Nat) (i : Nat) (sl : Slot) :
    belowKept L s0 (atomStep s k i sl).1 ↔ belowKept L s0 s :=
  belowKept_iff (belowKept_mono (atomStep_low s k i sl) hL) s0

theorem enqueueBusy_frame (s : State) (k : Nat) :
    sameExcept [.hs] s (enqueueBusy s k) := by
  unfold enqueueBusy
  simp (disch := first | decide | (intro _ _; (repeat' split) <;> simp (disch := decide))) [sameExcept_foldl, sameExcept_foldl1, sameExcept_foldl2, sameExcept_forEach, sameExcept_forRange]
@[simp ↓] theorem enqueueBusy_through (ps : List Piece) (hps : ([.hs] : List Piece).all (ps.contains ·) = true) (s0 : State)
    (s : State) (k : Nat) :
    sameExcept ps s0 (enqueueBusy s k) ↔ sameExcept ps s0 s :=
  sameExcept_through (enqueueBusy_frame s k) hps s0
@[simp ↓] theorem enqueueBusy_canonical (s : State) (k : Nat) : canonical (enqueueBusy s k) ↔ canonical s :=
  canonical_same (enqueueBusy_frame s k) (by decide)
@[simp ↓] theorem enqueueBusy_below (L : Nat) (s0 : State) (s : State) (k : Nat) :
    belowKept L s0 (enqueueBusy s k) ↔ belowKept L s0 s :=
  belowKept_iff (belowKept_same (enqueueBusy_frame s k) (by decide)) s0

theorem freeRequest_frame (s : State) (k : Nat) (i : Nat) :
    sameExcept [.regs, .hg, .hs, .wires, .pr, .al] s (freeRequest s k i) := by
  unfold freeRequest
  (repeat' split) <;> simp (disch := decide)
@[simp ↓] theorem freeRequest_through (ps : List Piece) (hps : ([.regs, .hg, .hs, .wires, .pr, .al] : List Piece).all (ps.contains ·) = true) (s0 : State)
    (s : State) (k : Nat) (i : Nat) :
    sameExcept ps s0 (freeRequest s k i) ↔ sameExcept ps s0 s :=
  sameExcept_through (freeRequest_frame s k i) hps s0
@[simp ↓] theorem freeRequest_canonical (s : State) (k : Nat) (i : Nat) (h : canonical s) : canonical (freeRequest s k i) := by
  unfold freeRequest
  (repeat' split) <;> simp (maxDischargeDepth := 60) (contextual := true) [h]
theorem freeRequest_low (s : State) (k : Nat) (i : Nat) :
    belowKept 0xD0000 s (freeRequest s k i) := by
  unfold freeRequest
  (repeat' split) <;> simp (maxDischargeDepth := 60)
@[simp ↓] theorem freeRequest_below (L : Nat) (hL : L ≤ 0xD0000) (s0 : State) (s : State) (k : Nat) (i : Nat) :
    belowKept L s0 (freeRequest s k i) ↔ belowKept L s0 s :=
  belowKept_iff (belowKept_mono (freeRequest_low s k i) hL) s0

theorem resumeReserved_frame (s : State) (k : Nat) :
    sameExcept [.hs] s (resumeReserved s k).1 := by
  unfold resumeReserved
  dsimp only
  (repeat' split) <;> simp (disch := decide)
@[simp ↓] theorem resumeReserved_through (ps : List Piece) (hps : ([.hs] : List Piece).all (ps.contains ·) = true) (s0 : State)
    (s : State) (k : Nat) :
    sameExcept ps s0 (resumeReserved s k).1 ↔ sameExcept ps s0 s :=
  sameExcept_through (resumeReserved_frame s k) hps s0
@[simp ↓] theorem resumeReserved_canonical (s : State) (k : Nat) : canonical (resumeReserved s k).1 ↔ canonical s :=
  canonical_same (resumeReserved_frame s k) (by decide)
@[simp ↓] theorem resumeReserved_below (L : Nat) (s0 : State) (s : State) (k : Nat) :
    belowKept L s0 (resumeReserved s k).1 ↔ belowKept L s0 s :=
  belowKept_iff (belowKept_same (resumeReserved_frame s k) (by decide)) s0

theorem startEntry_frame (s : State) (k : Nat) (j : Nat) (e : Entry) :
    sameExcept [.hg, .hs] s (startEntry s k j e) := by
  unfold startEntry
  simp (disch := decide)
@[simp ↓] theorem startEntry_through (ps : List Piece) (hps : ([.hg, .hs] : List Piece).all (ps.contains ·) = true) (s0 : State)
    (s : State) (k : Nat) (j : Nat) (e : Entry) :
    sameExcept ps s0 (startEntry s k j e) ↔ sameExcept ps s0 s :=
  sameExcept_through (startEntry_frame s k j e) hps s0
@[simp ↓] theorem startEntry_canonical (s : State) (k : Nat) (j : Nat) (e : Entry) : canonical (startEntry s k j e) ↔ canonical s :=
  canonical_same (startEntry_frame s k j e) (by decide)
@[simp ↓] theorem startEntry_below (L : Nat) (s0 : State) (s : State) (k : Nat) (j : Nat) (e : Entry) :
    belowKept L s0 (startEntry s k j e) ↔ belowKept L s0 s :=
  belowKept_iff (belowKept_same (startEntry_frame s k j e) (by decide)) s0

theorem startWalk_frame (s : State) (k : Nat) (j : Nat) (line : Nat) (mask : BitVec 16) :
    sameExcept [.hs] s (startWalk s k j line mask) := by
  unfold startWalk
  simp (disch := decide)
@[simp ↓] theorem startWalk_through (ps : List Piece) (hps : ([.hs] : List Piece).all (ps.contains ·) = true) (s0 : State)
    (s : State) (k : Nat) (j : Nat) (line : Nat) (mask : BitVec 16) :
    sameExcept ps s0 (startWalk s k j line mask) ↔ sameExcept ps s0 s :=
  sameExcept_through (startWalk_frame s k j line mask) hps s0
@[simp ↓] theorem startWalk_canonical (s : State) (k : Nat) (j : Nat) (line : Nat) (mask : BitVec 16) : canonical (startWalk s k j line mask) ↔ canonical s :=
  canonical_same (startWalk_frame s k j line mask) (by decide)
@[simp ↓] theorem startWalk_below (L : Nat) (s0 : State) (s : State) (k : Nat) (j : Nat) (line : Nat) (mask : BitVec 16) :
    belowKept L s0 (startWalk s k j line mask) ↔ belowKept L s0 s :=
  belowKept_iff (belowKept_same (startWalk_frame s k j line mask) (by decide)) s0

theorem serveWait_frame (k : Nat) (s : State) (q : Nat × LineWait) :
    sameExcept [.hg, .hs] s (serveWait k s q) := by
  unfold serveWait
  dsimp only
  (repeat' split) <;> simp (disch := decide)
@[simp ↓] theorem serveWait_through (ps : List Piece) (hps : ([.hg, .hs] : List Piece).all (ps.contains ·) = true) (s0 : State)
    (k : Nat) (s : State) (q : Nat × LineWait) :
    sameExcept ps s0 (serveWait k s q) ↔ sameExcept ps s0 s :=
  sameExcept_through (serveWait_frame k s q) hps s0
@[simp ↓] theorem serveWait_canonical (k : Nat) (s : State) (q : Nat × LineWait) : canonical (serveWait k s q) ↔ canonical s :=
  canonical_same (serveWait_frame k s q) (by decide)
@[simp ↓] theorem serveWait_below (L : Nat) (s0 : State) (k : Nat) (s : State) (q : Nat × LineWait) :
    belowKept L s0 (serveWait k s q) ↔ belowKept L s0 s :=
  belowKept_iff (belowKept_same (serveWait_frame k s q) (by decide)) s0

theorem serveQueues_frame (s : State) (k : Nat) :
    sameExcept [.hg, .hs] s (serveQueues s k) := by
  unfold serveQueues
  simp (disch := first | decide | (intro _ _; (repeat' split) <;> simp (disch := decide))) [sameExcept_foldl, sameExcept_foldl1, sameExcept_foldl2, sameExcept_forEach, sameExcept_forRange]
@[simp ↓] theorem serveQueues_through (ps : List Piece) (hps : ([.hg, .hs] : List Piece).all (ps.contains ·) = true) (s0 : State)
    (s : State) (k : Nat) :
    sameExcept ps s0 (serveQueues s k) ↔ sameExcept ps s0 s :=
  sameExcept_through (serveQueues_frame s k) hps s0
@[simp ↓] theorem serveQueues_canonical (s : State) (k : Nat) : canonical (serveQueues s k) ↔ canonical s :=
  canonical_same (serveQueues_frame s k) (by decide)
@[simp ↓] theorem serveQueues_below (L : Nat) (s0 : State) (s : State) (k : Nat) :
    belowKept L s0 (serveQueues s k) ↔ belowKept L s0 s :=
  belowKept_iff (belowKept_same (serveQueues_frame s k) (by decide)) s0

theorem endSlot_frame (s : State) (k : Nat) (i : Nat) :
    sameExcept [.regs, .hg, .hs, .wires, .pr, .al] s (endSlot s k i).1 := by
  unfold endSlot
  (repeat' split) <;> simp (disch := decide)
@[simp ↓] theorem endSlot_through (ps : List Piece) (hps : ([.regs, .hg, .hs, .wires, .pr, .al] : List Piece).all (ps.contains ·) = true) (s0 : State)
    (s : State) (k : Nat) (i : Nat) :
    sameExcept ps s0 (endSlot s k i).1 ↔ sameExcept ps s0 s :=
  sameExcept_through (endSlot_frame s k i) hps s0
@[simp ↓] theorem endSlot_canonical (s : State) (k : Nat) (i : Nat) (h : canonical s) : canonical (endSlot s k i).1 := by
  unfold endSlot
  (repeat' split) <;> simp (maxDischargeDepth := 60) (contextual := true) [h]
theorem endSlot_low (s : State) (k : Nat) (i : Nat) :
    belowKept 0xD0000 s (endSlot s k i).1 := by
  unfold endSlot
  (repeat' split) <;> simp (maxDischargeDepth := 60)
@[simp ↓] theorem endSlot_below (L : Nat) (hL : L ≤ 0xD0000) (s0 : State) (s : State) (k : Nat) (i : Nat) :
    belowKept L s0 (endSlot s k i).1 ↔ belowKept L s0 s :=
  belowKept_iff (belowKept_mono (endSlot_low s k i) hL) s0

theorem memStep_frame (s : State) (k : Nat) (i : Nat) (sl : Slot) (op : BitVec 8) (bs : List Beat) :
    sameExcept [.regs, .hg, .hs, .al] s (memStep s k i sl op bs).1 := by
  unfold memStep
  split
  · simp (disch := decide)
  · split <;> (rename_i heq; rw [Prod.ext_iff] at heq; rcases heq with ⟨rfl, _⟩; simp (disch := decide))
@[simp ↓] theorem memStep_through (ps : List Piece) (hps : ([.regs, .hg, .hs, .al] : List Piece).all (ps.contains ·) = true) (s0 : State)
    (s : State) (k : Nat) (i : Nat) (sl : Slot) (op : BitVec 8) (bs : List Beat) :
    sameExcept ps s0 (memStep s k i sl op bs).1 ↔ sameExcept ps s0 s :=
  sameExcept_through (memStep_frame s k i sl op bs) hps s0
@[simp ↓] theorem memStep_canonical (s : State) (k : Nat) (i : Nat) (sl : Slot) (op : BitVec 8) (bs : List Beat) (h : canonical s) : canonical (memStep s k i sl op bs).1 := by
  unfold memStep
  split
  · simp (maxDischargeDepth := 60) (contextual := true) [h]
  · split <;> (rename_i heq; rw [Prod.ext_iff] at heq; rcases heq with ⟨rfl, _⟩; simp (maxDischargeDepth := 60) (contextual := true) [h])
theorem memStep_low (s : State) (k : Nat) (i : Nat) (sl : Slot) (op : BitVec 8) (bs : List Beat) :
    belowKept 0x200000 s (memStep s k i sl op bs).1 := by
  unfold memStep
  split
  · simp (maxDischargeDepth := 60)
  · split <;> (rename_i heq; rw [Prod.ext_iff] at heq; rcases heq with ⟨rfl, _⟩; simp (maxDischargeDepth := 60))
@[simp ↓] theorem memStep_below (L : Nat) (hL : L ≤ 0x200000) (s0 : State) (s : State) (k : Nat) (i : Nat) (sl : Slot) (op : BitVec 8) (bs : List Beat) :
    belowKept L s0 (memStep s k i sl op bs).1 ↔ belowKept L s0 s :=
  belowKept_iff (belowKept_mono (memStep_low s k i sl op bs) hL) s0

theorem nextLineStep_frame (s : State) (k : Nat) (i : Nat) (sl : Slot) :
    sameExcept [.hg, .hs] s (nextLineStep s k i sl).1 := by
  unfold nextLineStep
  simp (disch := decide)
@[simp ↓] theorem nextLineStep_through (ps : List Piece) (hps : ([.hg, .hs] : List Piece).all (ps.contains ·) = true) (s0 : State)
    (s : State) (k : Nat) (i : Nat) (sl : Slot) :
    sameExcept ps s0 (nextLineStep s k i sl).1 ↔ sameExcept ps s0 s :=
  sameExcept_through (nextLineStep_frame s k i sl) hps s0
@[simp ↓] theorem nextLineStep_canonical (s : State) (k : Nat) (i : Nat) (sl : Slot) : canonical (nextLineStep s k i sl).1 ↔ canonical s :=
  canonical_same (nextLineStep_frame s k i sl) (by decide)
@[simp ↓] theorem nextLineStep_below (L : Nat) (s0 : State) (s : State) (k : Nat) (i : Nat) (sl : Slot) :
    belowKept L s0 (nextLineStep s k i sl).1 ↔ belowKept L s0 s :=
  belowKept_iff (belowKept_same (nextLineStep_frame s k i sl) (by decide)) s0

theorem noteFlow_frame (s : State) (k : Nat) (sl : Slot) (flow : List HAct) :
    sameExcept [.regs, .al] s (noteFlow s k sl flow) := by
  unfold noteFlow
  dsimp only
  (repeat' split) <;> simp (disch := decide)
@[simp ↓] theorem noteFlow_through (ps : List Piece) (hps : ([.regs, .al] : List Piece).all (ps.contains ·) = true) (s0 : State)
    (s : State) (k : Nat) (sl : Slot) (flow : List HAct) :
    sameExcept ps s0 (noteFlow s k sl flow) ↔ sameExcept ps s0 s :=
  sameExcept_through (noteFlow_frame s k sl flow) hps s0
@[simp ↓] theorem noteFlow_canonical (s : State) (k : Nat) (sl : Slot) (flow : List HAct) (h : canonical s) : canonical (noteFlow s k sl flow) := by
  unfold noteFlow
  dsimp only
  (repeat' split) <;> simp (maxDischargeDepth := 60) (contextual := true) [h]
theorem noteFlow_low (s : State) (k : Nat) (sl : Slot) (flow : List HAct) :
    belowKept 0x80000 s (noteFlow s k sl flow) := by
  unfold noteFlow
  dsimp only
  (repeat' split) <;> simp (maxDischargeDepth := 60)
@[simp ↓] theorem noteFlow_below (L : Nat) (hL : L ≤ 0x80000) (s0 : State) (s : State) (k : Nat) (sl : Slot) (flow : List HAct) :
    belowKept L s0 (noteFlow s k sl flow) ↔ belowKept L s0 s :=
  belowKept_iff (belowKept_mono (noteFlow_low s k sl flow) hL) s0

theorem poisonBeat_frame (s : State) :
    sameExcept [.freeCtr] s (poisonBeat s).2 := by
  unfold poisonBeat
  simp (disch := decide)
@[simp ↓] theorem poisonBeat_through (ps : List Piece) (hps : ([.freeCtr] : List Piece).all (ps.contains ·) = true) (s0 : State)
    (s : State) :
    sameExcept ps s0 (poisonBeat s).2 ↔ sameExcept ps s0 s :=
  sameExcept_through (poisonBeat_frame s) hps s0
@[simp ↓] theorem poisonBeat_canonical (s : State) : canonical (poisonBeat s).2 ↔ canonical s :=
  canonical_same (poisonBeat_frame s) (by decide)
@[simp ↓] theorem poisonBeat_below (L : Nat) (s0 : State) (s : State) :
    belowKept L s0 (poisonBeat s).2 ↔ belowKept L s0 s :=
  belowKept_iff (belowKept_same (poisonBeat_frame s) (by decide)) s0

theorem replyStep_frame (s : State) (k : Nat) (i : Nat) (sl : Slot) (op : BitVec 8) (oc : BitVec 4) (state : BitVec 2) :
    sameExcept [.regs, .hg, .hs, .wires, .pr, .al] s (replyStep s k i sl op oc state).1 := by
  unfold replyStep
  simp (disch := decide)
@[simp ↓] theorem replyStep_through (ps : List Piece) (hps : ([.regs, .hg, .hs, .wires, .pr, .al] : List Piece).all (ps.contains ·) = true) (s0 : State)
    (s : State) (k : Nat) (i : Nat) (sl : Slot) (op : BitVec 8) (oc : BitVec 4) (state : BitVec 2) :
    sameExcept ps s0 (replyStep s k i sl op oc state).1 ↔ sameExcept ps s0 s :=
  sameExcept_through (replyStep_frame s k i sl op oc state) hps s0
@[simp ↓] theorem replyStep_canonical (s : State) (k : Nat) (i : Nat) (sl : Slot) (op : BitVec 8) (oc : BitVec 4) (state : BitVec 2) (h : canonical s) : canonical (replyStep s k i sl op oc state).1 := by
  unfold replyStep
  simp (maxDischargeDepth := 60) (contextual := true) [h]
theorem replyStep_low (s : State) (k : Nat) (i : Nat) (sl : Slot) (op : BitVec 8) (oc : BitVec 4) (state : BitVec 2) :
    belowKept 0xD0000 s (replyStep s k i sl op oc state).1 := by
  unfold replyStep
  simp (maxDischargeDepth := 60)
@[simp ↓] theorem replyStep_below (L : Nat) (hL : L ≤ 0xD0000) (s0 : State) (s : State) (k : Nat) (i : Nat) (sl : Slot) (op : BitVec 8) (oc : BitVec 4) (state : BitVec 2) :
    belowKept L s0 (replyStep s k i sl op oc state).1 ↔ belowKept L s0 s :=
  belowKept_iff (belowKept_mono (replyStep_low s k i sl op oc state) hL) s0

theorem deadForward_frame (s : State) (k : Nat) (i : Nat) (sl : Slot) (owner : Bool) :
    sameExcept [.hs, .freeCtr] s (deadForward s k i sl owner) := by
  unfold deadForward
  simp (disch := decide)
@[simp ↓] theorem deadForward_through (ps : List Piece) (hps : ([.hs, .freeCtr] : List Piece).all (ps.contains ·) = true) (s0 : State)
    (s : State) (k : Nat) (i : Nat) (sl : Slot) (owner : Bool) :
    sameExcept ps s0 (deadForward s k i sl owner) ↔ sameExcept ps s0 s :=
  sameExcept_through (deadForward_frame s k i sl owner) hps s0
@[simp ↓] theorem deadForward_canonical (s : State) (k : Nat) (i : Nat) (sl : Slot) (owner : Bool) : canonical (deadForward s k i sl owner) ↔ canonical s :=
  canonical_same (deadForward_frame s k i sl owner) (by decide)
@[simp ↓] theorem deadForward_below (L : Nat) (s0 : State) (s : State) (k : Nat) (i : Nat) (sl : Slot) (owner : Bool) :
    belowKept L s0 (deadForward s k i sl owner) ↔ belowKept L s0 s :=
  belowKept_iff (belowKept_same (deadForward_frame s k i sl owner) (by decide)) s0

theorem returnBlocks_frame (s : State) (k : Nat) (i : Nat) (sl : Slot) :
    sameExcept [.hg, .hs] s (returnBlocks s k i sl) := by
  unfold returnBlocks
  simp (disch := decide)
@[simp ↓] theorem returnBlocks_through (ps : List Piece) (hps : ([.hg, .hs] : List Piece).all (ps.contains ·) = true) (s0 : State)
    (s : State) (k : Nat) (i : Nat) (sl : Slot) :
    sameExcept ps s0 (returnBlocks s k i sl) ↔ sameExcept ps s0 s :=
  sameExcept_through (returnBlocks_frame s k i sl) hps s0
@[simp ↓] theorem returnBlocks_canonical (s : State) (k : Nat) (i : Nat) (sl : Slot) : canonical (returnBlocks s k i sl) ↔ canonical s :=
  canonical_same (returnBlocks_frame s k i sl) (by decide)
@[simp ↓] theorem returnBlocks_below (L : Nat) (s0 : State) (s : State) (k : Nat) (i : Nat) (sl : Slot) :
    belowKept L s0 (returnBlocks s k i sl) ↔ belowKept L s0 s :=
  belowKept_iff (belowKept_same (returnBlocks_frame s k i sl) (by decide)) s0

theorem roundEnds_frame (s : State) (k : Nat) (i : Nat) (missing : BitVec 16) :
    sameExcept [.regs, .hg, .hs, .wires, .pr, .al, .freeCtr] s (roundEnds s k i missing) := by
  unfold roundEnds
  dsimp only
  (repeat' split) <;> simp (disch := decide)
@[simp ↓] theorem roundEnds_through (ps : List Piece) (hps : ([.regs, .hg, .hs, .wires, .pr, .al, .freeCtr] : List Piece).all (ps.contains ·) = true) (s0 : State)
    (s : State) (k : Nat) (i : Nat) (missing : BitVec 16) :
    sameExcept ps s0 (roundEnds s k i missing) ↔ sameExcept ps s0 s :=
  sameExcept_through (roundEnds_frame s k i missing) hps s0
@[simp ↓] theorem roundEnds_canonical (s : State) (k : Nat) (i : Nat) (missing : BitVec 16) (h : canonical s) : canonical (roundEnds s k i missing) := by
  unfold roundEnds
  dsimp only
  (repeat' split) <;> simp (maxDischargeDepth := 60) (contextual := true) [h]
theorem roundEnds_low (s : State) (k : Nat) (i : Nat) (missing : BitVec 16) :
    belowKept 0xD0000 s (roundEnds s k i missing) := by
  unfold roundEnds
  dsimp only
  (repeat' split) <;> simp (maxDischargeDepth := 60)
@[simp ↓] theorem roundEnds_below (L : Nat) (hL : L ≤ 0xD0000) (s0 : State) (s : State) (k : Nat) (i : Nat) (missing : BitVec 16) :
    belowKept L s0 (roundEnds s k i missing) ↔ belowKept L s0 s :=
  belowKept_iff (belowKept_mono (roundEnds_low s k i missing) hL) s0

theorem sendSnoops_frame (s : State) (k : Nat) (i : Nat) (sl : Slot) (op : BitVec 8) (mask : BitVec 16) :
    sameExcept [.regs, .hg, .hs] s (sendSnoops s k i sl op mask).2 := by
  unfold sendSnoops
  dsimp only
  (repeat' split) <;> simp (disch := first | decide | (intro _ _; (repeat' split) <;> simp (disch := decide))) [sameExcept_foldl, sameExcept_foldl1, sameExcept_foldl2, sameExcept_forEach, sameExcept_forRange]
@[simp ↓] theorem sendSnoops_through (ps : List Piece) (hps : ([.regs, .hg, .hs] : List Piece).all (ps.contains ·) = true) (s0 : State)
    (s : State) (k : Nat) (i : Nat) (sl : Slot) (op : BitVec 8) (mask : BitVec 16) :
    sameExcept ps s0 (sendSnoops s k i sl op mask).2 ↔ sameExcept ps s0 s :=
  sameExcept_through (sendSnoops_frame s k i sl op mask) hps s0
@[simp ↓] theorem sendSnoops_canonical (s : State) (k : Nat) (i : Nat) (sl : Slot) (op : BitVec 8) (mask : BitVec 16) (h : canonical s) : canonical (sendSnoops s k i sl op mask).2 := by
  unfold sendSnoops
  dsimp only
  have hf : ∀ (l : List (BitVec 4)), canonical (l.foldl (fun s a => storeReply s (homeHg k) .snp (mkSnp s k i sl op a)) s) :=
    fun l => canonical_foldl _ _ _ h (fun t x ht => by simp (maxDischargeDepth := 60) (contextual := true) [ht])
  (repeat' split) <;> simp (maxDischargeDepth := 60) (contextual := true) [h, hf]
theorem sendSnoops_low (s : State) (k : Nat) (i : Nat) (sl : Slot) (op : BitVec 8) (mask : BitVec 16) :
    belowKept 0x80000 s (sendSnoops s k i sl op mask).2 := by
  unfold sendSnoops
  dsimp only
  (repeat' split) <;> simp (maxDischargeDepth := 60) [belowKept_foldl, belowKept_foldl1, belowKept_foldl2, belowKept_forEach, belowKept_forRange]
@[simp ↓] theorem sendSnoops_below (L : Nat) (hL : L ≤ 0x80000) (s0 : State) (s : State) (k : Nat) (i : Nat) (sl : Slot) (op : BitVec 8) (mask : BitVec 16) :
    belowKept L s0 (sendSnoops s k i sl op mask).2 ↔ belowKept L s0 s :=
  belowKept_iff (belowKept_mono (sendSnoops_low s k i sl op mask) hL) s0

theorem snoopStep_frame (s : State) (k : Nat) (i : Nat) (sl : Slot) (op : BitVec 8) (mask : BitVec 16) :
    sameExcept [.regs, .hg, .hs, .wires, .pr, .al, .freeCtr] s (snoopStep s k i sl op mask).1 := by
  unfold snoopStep
  split <;> (rename_i heq; rw [Prod.ext_iff] at heq; rcases heq with ⟨_, rfl⟩; simp (disch := decide))
@[simp ↓] theorem snoopStep_through (ps : List Piece) (hps : ([.regs, .hg, .hs, .wires, .pr, .al, .freeCtr] : List Piece).all (ps.contains ·) = true) (s0 : State)
    (s : State) (k : Nat) (i : Nat) (sl : Slot) (op : BitVec 8) (mask : BitVec 16) :
    sameExcept ps s0 (snoopStep s k i sl op mask).1 ↔ sameExcept ps s0 s :=
  sameExcept_through (snoopStep_frame s k i sl op mask) hps s0
@[simp ↓] theorem snoopStep_canonical (s : State) (k : Nat) (i : Nat) (sl : Slot) (op : BitVec 8) (mask : BitVec 16) (h : canonical s) : canonical (snoopStep s k i sl op mask).1 := by
  unfold snoopStep
  split <;> (rename_i heq; rw [Prod.ext_iff] at heq; rcases heq with ⟨_, rfl⟩; simp (maxDischargeDepth := 60) (contextual := true) [h])
theorem snoopStep_low (s : State) (k : Nat) (i : Nat) (sl : Slot) (op : BitVec 8) (mask : BitVec 16) :
    belowKept 0x80000 s (snoopStep s k i sl op mask).1 := by
  unfold snoopStep
  split <;> (rename_i heq; rw [Prod.ext_iff] at heq; rcases heq with ⟨_, rfl⟩; simp (maxDischargeDepth := 60))
@[simp ↓] theorem snoopStep_below (L : Nat) (hL : L ≤ 0x80000) (s0 : State) (s : State) (k : Nat) (i : Nat) (sl : Slot) (op : BitVec 8) (mask : BitVec 16) :
    belowKept L s0 (snoopStep s k i sl op mask).1 ↔ belowKept L s0 s :=
  belowKept_iff (belowKept_mono (snoopStep_low s k i sl op mask) hL) s0

theorem stepSlot_frame (s : State) (k : Nat) (i : Nat) :
    sameExcept [.regs, .hg, .hs, .wires, .pr, .al, .freeCtr] s (stepSlot s k i).1 := by
  unfold stepSlot
  dsimp only
  (repeat' split) <;> simp (disch := decide)
@[simp ↓] theorem stepSlot_through (ps : List Piece) (hps : ([.regs, .hg, .hs, .wires, .pr, .al, .freeCtr] : List Piece).all (ps.contains ·) = true) (s0 : State)
    (s : State) (k : Nat) (i : Nat) :
    sameExcept ps s0 (stepSlot s k i).1 ↔ sameExcept ps s0 s :=
  sameExcept_through (stepSlot_frame s k i) hps s0
@[simp ↓] theorem stepSlot_canonical (s : State) (k : Nat) (i : Nat) (h : canonical s) : canonical (stepSlot s k i).1 := by
  unfold stepSlot
  dsimp only
  (repeat' split) <;> simp (maxDischargeDepth := 60) (contextual := true) [h]
theorem stepSlot_low (s : State) (k : Nat) (i : Nat) :
    belowKept 0x80000 s (stepSlot s k i).1 := by
  unfold stepSlot
  dsimp only
  (repeat' split) <;> simp (maxDischargeDepth := 60)
@[simp ↓] theorem stepSlot_below (L : Nat) (hL : L ≤ 0x80000) (s0 : State) (s : State) (k : Nat) (i : Nat) :
    belowKept L s0 (stepSlot s k i).1 ↔ belowKept L s0 s :=
  belowKept_iff (belowKept_mono (stepSlot_low s k i) hL) s0

theorem runSlots_frame (a0 : Nat) (a1 : Nat) (a2 : List Nat) (a3 : State) :
    sameExcept [.regs, .hg, .hs, .wires, .pr, .al, .freeCtr] a3 (runSlots a0 a1 a2 a3) := by
  induction a0 generalizing a2 a3 with
  | zero => simp [runSlots]
  | succ f ih =>
    cases a2 with
    | nil => simp [runSlots]
    | cons i rest => unfold runSlots; exact (sameExcept_iff (ih _ _) a3).mpr (by simp (disch := decide))
@[simp ↓] theorem runSlots_through (ps : List Piece) (hps : ([.regs, .hg, .hs, .wires, .pr, .al, .freeCtr] : List Piece).all (ps.contains ·) = true) (s0 : State)
    (a0 : Nat) (a1 : Nat) (a2 : List Nat) (a3 : State) :
    sameExcept ps s0 (runSlots a0 a1 a2 a3) ↔ sameExcept ps s0 a3 :=
  sameExcept_through (runSlots_frame a0 a1 a2 a3) hps s0
@[simp ↓] theorem runSlots_canonical (a0 : Nat) (a1 : Nat) (a2 : List Nat) (a3 : State) (h : canonical a3) : canonical (runSlots a0 a1 a2 a3) := by
  induction a0 generalizing a2 a3 with
  | zero => exact h
  | succ f ih =>
    cases a2 with
    | nil => exact h
    | cons i rest => unfold runSlots; exact ih _ _ (by simp (maxDischargeDepth := 60) (contextual := true) [h])
theorem runSlots_low (a0 : Nat) (a1 : Nat) (a2 : List Nat) (a3 : State) :
    belowKept 0x80000 a3 (runSlots a0 a1 a2 a3) := by
  induction a0 generalizing a2 a3 with
  | zero => simp [runSlots]
  | succ f ih =>
    cases a2 with
    | nil => simp [runSlots]
    | cons i rest => unfold runSlots; exact (belowKept_iff (ih _ _) a3).mpr (by simp (maxDischargeDepth := 60))
@[simp ↓] theorem runSlots_below (L : Nat) (hL : L ≤ 0x80000) (s0 : State) (a0 : Nat) (a1 : Nat) (a2 : List Nat) (a3 : State) :
    belowKept L s0 (runSlots a0 a1 a2 a3) ↔ belowKept L s0 a3 :=
  belowKept_iff (belowKept_mono (runSlots_low a0 a1 a2 a3) hL) s0

theorem sweepGo_frame (s : State) (k : Nat) (agent : BitVec 4) :
    sameExcept [.regs, .hs] s (sweepGo s k agent) := by
  unfold sweepGo
  simp (disch := decide)
@[simp ↓] theorem sweepGo_through (ps : List Piece) (hps : ([.regs, .hs] : List Piece).all (ps.contains ·) = true) (s0 : State)
    (s : State) (k : Nat) (agent : BitVec 4) :
    sameExcept ps s0 (sweepGo s k agent) ↔ sameExcept ps s0 s :=
  sameExcept_through (sweepGo_frame s k agent) hps s0
@[simp ↓] theorem sweepGo_canonical (s : State) (k : Nat) (agent : BitVec 4) (h : canonical s) : canonical (sweepGo s k agent) := by
  unfold sweepGo
  simp (maxDischargeDepth := 60) (contextual := true) [h]
theorem sweepGo_low (s : State) (k : Nat) (agent : BitVec 4) :
    belowKept 0x80000 s (sweepGo s k agent) := by
  unfold sweepGo
  simp (maxDischargeDepth := 60)
@[simp ↓] theorem sweepGo_below (L : Nat) (hL : L ≤ 0x80000) (s0 : State) (s : State) (k : Nat) (agent : BitVec 4) :
    belowKept L s0 (sweepGo s k agent) ↔ belowKept L s0 s :=
  belowKept_iff (belowKept_mono (sweepGo_low s k agent) hL) s0

theorem runSlot_frame (s : State) (k : Nat) (i : Nat) :
    sameExcept [.regs, .hg, .hs, .wires, .pr, .al, .freeCtr] s (runSlot s k i) := by
  unfold runSlot
  simp (disch := decide)
@[simp ↓] theorem runSlot_through (ps : List Piece) (hps : ([.regs, .hg, .hs, .wires, .pr, .al, .freeCtr] : List Piece).all (ps.contains ·) = true) (s0 : State)
    (s : State) (k : Nat) (i : Nat) :
    sameExcept ps s0 (runSlot s k i) ↔ sameExcept ps s0 s :=
  sameExcept_through (runSlot_frame s k i) hps s0
@[simp ↓] theorem runSlot_canonical (s : State) (k : Nat) (i : Nat) (h : canonical s) : canonical (runSlot s k i) := by
  unfold runSlot
  simp (maxDischargeDepth := 60) (contextual := true) [h]
theorem runSlot_low (s : State) (k : Nat) (i : Nat) :
    belowKept 0x80000 s (runSlot s k i) := by
  unfold runSlot
  simp (maxDischargeDepth := 60)
@[simp ↓] theorem runSlot_below (L : Nat) (hL : L ≤ 0x80000) (s0 : State) (s : State) (k : Nat) (i : Nat) :
    belowKept L s0 (runSlot s k i) ↔ belowKept L s0 s :=
  belowKept_iff (belowKept_mono (runSlot_low s k i) hL) s0

theorem sendOn_frame (s : State) (p : Pkt) :
    sameExcept [.hg] s (sendOn s p) := by
  unfold sendOn
  simp (disch := decide)
@[simp ↓] theorem sendOn_through (ps : List Piece) (hps : ([.hg] : List Piece).all (ps.contains ·) = true) (s0 : State)
    (s : State) (p : Pkt) :
    sameExcept ps s0 (sendOn s p) ↔ sameExcept ps s0 s :=
  sameExcept_through (sendOn_frame s p) hps s0
@[simp ↓] theorem sendOn_canonical (s : State) (p : Pkt) : canonical (sendOn s p) ↔ canonical s :=
  canonical_same (sendOn_frame s p) (by decide)
@[simp ↓] theorem sendOn_below (L : Nat) (s0 : State) (s : State) (p : Pkt) :
    belowKept L s0 (sendOn s p) ↔ belowKept L s0 s :=
  belowKept_iff (belowKept_same (sendOn_frame s p) (by decide)) s0

theorem startHold_frame (s : State) (k : Nat) (sl : Slot) :
    sameExcept [.hs] s (startHold s k sl) := by
  unfold startHold
  (repeat' split) <;> simp (disch := decide)
@[simp ↓] theorem startHold_through (ps : List Piece) (hps : ([.hs] : List Piece).all (ps.contains ·) = true) (s0 : State)
    (s : State) (k : Nat) (sl : Slot) :
    sameExcept ps s0 (startHold s k sl) ↔ sameExcept ps s0 s :=
  sameExcept_through (startHold_frame s k sl) hps s0
@[simp ↓] theorem startHold_canonical (s : State) (k : Nat) (sl : Slot) : canonical (startHold s k sl) ↔ canonical s :=
  canonical_same (startHold_frame s k sl) (by decide)
@[simp ↓] theorem startHold_below (L : Nat) (s0 : State) (s : State) (k : Nat) (sl : Slot) :
    belowKept L s0 (startHold s k sl) ↔ belowKept L s0 s :=
  belowKept_iff (belowKept_same (startHold_frame s k sl) (by decide)) s0

theorem takeHome_some {s t : State} {n : Nat} {q : Pkt → Bool} {p : Pkt} (h : takeHome s n q = some (p, t)) :
    sameExcept [.hg] s t := by
  unfold takeHome at h
  (repeat' split at h) <;> cases h
  simp (disch := decide)
theorem cackHome_frame (s : State) (k : Nat) :
    sameExcept [.regs, .hg, .hs, .wires, .pr, .al, .freeCtr] s (cackHome s k) := by
  unfold cackHome
  dsimp only
  split
  · simp
  · rename_i heq
    have hw := sameExcept_mono (takeHome_some heq) (qs := [.regs, .hg, .hs, .wires, .pr, .al, .freeCtr]) (by decide)
    (repeat' split) <;> simp (disch := decide) [hw]
@[simp ↓] theorem cackHome_through (ps : List Piece) (hps : ([.regs, .hg, .hs, .wires, .pr, .al, .freeCtr] : List Piece).all (ps.contains ·) = true) (s0 : State)
    (s : State) (k : Nat) :
    sameExcept ps s0 (cackHome s k) ↔ sameExcept ps s0 s :=
  sameExcept_through (cackHome_frame s k) hps s0
@[simp ↓] theorem cackHome_canonical (s : State) (k : Nat) (h : canonical s) : canonical (cackHome s k) := by
  unfold cackHome
  dsimp only
  split
  · exact h
  · rename_i heq
    have hw := (canonical_same (takeHome_some heq) (by decide)).mpr h
    (repeat' split) <;> simp (maxDischargeDepth := 60) (contextual := true) [hw]
theorem cackHome_low (s : State) (k : Nat) :
    belowKept 0x80000 s (cackHome s k) := by
  unfold cackHome
  dsimp only
  split
  · simp (maxDischargeDepth := 60)
  · rename_i heq
    have hw := belowKept_same (L := 0x80000) (takeHome_some heq) (by decide)
    (repeat' split) <;> simp (maxDischargeDepth := 60) [hw]
@[simp ↓] theorem cackHome_below (L : Nat) (hL : L ≤ 0x80000) (s0 : State) (s : State) (k : Nat) :
    belowKept L s0 (cackHome s k) ↔ belowKept L s0 s :=
  belowKept_iff (belowKept_mono (cackHome_low s k) hL) s0

theorem setUnbuilt_frame (s : State) (k : Nat) (set : Nat) (b : Bool) :
    sameExcept [.regs] s (setUnbuilt s k set b) := by
  unfold setUnbuilt
  simp (disch := decide)
@[simp ↓] theorem setUnbuilt_through (ps : List Piece) (hps : ([.regs] : List Piece).all (ps.contains ·) = true) (s0 : State)
    (s : State) (k : Nat) (set : Nat) (b : Bool) :
    sameExcept ps s0 (setUnbuilt s k set b) ↔ sameExcept ps s0 s :=
  sameExcept_through (setUnbuilt_frame s k set b) hps s0
@[simp ↓] theorem setUnbuilt_canonical (s : State) (k : Nat) (set : Nat) (b : Bool) (h : canonical s) : canonical (setUnbuilt s k set b) := by
  unfold setUnbuilt
  simp (maxDischargeDepth := 60) (contextual := true) [h]
theorem setUnbuilt_low (s : State) (k : Nat) (set : Nat) (b : Bool) :
    belowKept 0x80000 s (setUnbuilt s k set b) := by
  unfold setUnbuilt
  simp (maxDischargeDepth := 60)
@[simp ↓] theorem setUnbuilt_below (L : Nat) (hL : L ≤ 0x80000) (s0 : State) (s : State) (k : Nat) (set : Nat) (b : Bool) :
    belowKept L s0 (setUnbuilt s k set b) ↔ belowKept L s0 s :=
  belowKept_iff (belowKept_mono (setUnbuilt_low s k set b) hL) s0

theorem censusWalk_frame (s : State) (readable : Bool) :
    sameExcept [.regs, .hs] s (censusWalk s readable) := by
  unfold censusWalk
  simp (disch := first | decide | (intro _ _; (repeat' split) <;> simp (disch := decide))) [sameExcept_foldl, sameExcept_foldl1, sameExcept_foldl2, sameExcept_forEach, sameExcept_forRange]
@[simp ↓] theorem censusWalk_through (ps : List Piece) (hps : ([.regs, .hs] : List Piece).all (ps.contains ·) = true) (s0 : State)
    (s : State) (readable : Bool) :
    sameExcept ps s0 (censusWalk s readable) ↔ sameExcept ps s0 s :=
  sameExcept_through (censusWalk_frame s readable) hps s0
@[simp ↓] theorem censusWalk_canonical (s : State) (readable : Bool) (h : canonical s) : canonical (censusWalk s readable) := by
  unfold censusWalk
  split
  · exact h
  · extract_lets c set v old s1 s2 s3
    have h1 : canonical s1 := canonical_foldl _ _ _ h (fun t x ht => by dsimp only; split <;> simp (maxDischargeDepth := 60) (contextual := true) [ht])
    have h2 : canonical s2 := by simp only [s2]; split <;> simp (maxDischargeDepth := 60) (contextual := true) [h, h1]
    clear_value s2
    split <;> simp (maxDischargeDepth := 60) (contextual := true) [s3, h2]
theorem censusWalk_low (s : State) (readable : Bool) :
    belowKept 0x80000 s (censusWalk s readable) := by
  unfold censusWalk
  simp (maxDischargeDepth := 60) [belowKept_foldl, belowKept_foldl1, belowKept_foldl2, belowKept_forEach, belowKept_forRange]
@[simp ↓] theorem censusWalk_below (L : Nat) (hL : L ≤ 0x80000) (s0 : State) (s : State) (readable : Bool) :
    belowKept L s0 (censusWalk s readable) ↔ belowKept L s0 s :=
  belowKept_iff (belowKept_mono (censusWalk_low s readable) hL) s0

theorem failSlice_frame (s : State) (k : Nat) (why : SliceFail) :
    sameExcept [.regs, .hs, .al] s (failSlice s k why) := by
  unfold failSlice
  simp (disch := decide)
@[simp ↓] theorem failSlice_through (ps : List Piece) (hps : ([.regs, .hs, .al] : List Piece).all (ps.contains ·) = true) (s0 : State)
    (s : State) (k : Nat) (why : SliceFail) :
    sameExcept ps s0 (failSlice s k why) ↔ sameExcept ps s0 s :=
  sameExcept_through (failSlice_frame s k why) hps s0
@[simp ↓] theorem failSlice_canonical (s : State) (k : Nat) (why : SliceFail) (h : canonical s) : canonical (failSlice s k why) := by
  unfold failSlice
  simp (maxDischargeDepth := 60) (contextual := true) [h]
theorem failSlice_low (s : State) (k : Nat) (why : SliceFail) :
    belowKept 0x80000 s (failSlice s k why) := by
  unfold failSlice
  simp (maxDischargeDepth := 60)
@[simp ↓] theorem failSlice_below (L : Nat) (hL : L ≤ 0x80000) (s0 : State) (s : State) (k : Nat) (why : SliceFail) :
    belowKept L s0 (failSlice s k why) ↔ belowKept L s0 s :=
  belowKept_iff (belowKept_mono (failSlice_low s k why) hL) s0

theorem dirUncorr_frame (s : State) (k : Nat) (line : Nat) (way : Nat) :
    sameExcept [.regs, .hs, .al] s (dirUncorr s k line way) := by
  unfold dirUncorr
  simp (disch := first | decide | (intro _ _; (repeat' split) <;> simp (disch := decide))) [sameExcept_foldl, sameExcept_foldl1, sameExcept_foldl2, sameExcept_forEach, sameExcept_forRange]
@[simp ↓] theorem dirUncorr_through (ps : List Piece) (hps : ([.regs, .hs, .al] : List Piece).all (ps.contains ·) = true) (s0 : State)
    (s : State) (k : Nat) (line : Nat) (way : Nat) :
    sameExcept ps s0 (dirUncorr s k line way) ↔ sameExcept ps s0 s :=
  sameExcept_through (dirUncorr_frame s k line way) hps s0
@[simp ↓] theorem dirUncorr_canonical (s : State) (k : Nat) (line : Nat) (way : Nat) (h : canonical s) : canonical (dirUncorr s k line way) := by
  unfold dirUncorr
  simp (maxDischargeDepth := 60) (contextual := true) [h]
theorem dirUncorr_low (s : State) (k : Nat) (line : Nat) (way : Nat) :
    belowKept 0x80000 s (dirUncorr s k line way) := by
  unfold dirUncorr
  simp (maxDischargeDepth := 60) [belowKept_foldl, belowKept_foldl1, belowKept_foldl2, belowKept_forEach, belowKept_forRange]
@[simp ↓] theorem dirUncorr_below (L : Nat) (hL : L ≤ 0x80000) (s0 : State) (s : State) (k : Nat) (line : Nat) (way : Nat) :
    belowKept L s0 (dirUncorr s k line way) ↔ belowKept L s0 s :=
  belowKept_iff (belowKept_mono (dirUncorr_low s k line way) hL) s0

theorem lookupDone_frame (s : State) (k : Nat) (i : Nat) (err : MemErr) :
    sameExcept [.regs, .hg, .hs, .wires, .pr, .al, .freeCtr] s (lookupDone s k i err) := by
  unfold lookupDone
  (repeat' split) <;> simp (disch := decide)
@[simp ↓] theorem lookupDone_through (ps : List Piece) (hps : ([.regs, .hg, .hs, .wires, .pr, .al, .freeCtr] : List Piece).all (ps.contains ·) = true) (s0 : State)
    (s : State) (k : Nat) (i : Nat) (err : MemErr) :
    sameExcept ps s0 (lookupDone s k i err) ↔ sameExcept ps s0 s :=
  sameExcept_through (lookupDone_frame s k i err) hps s0
@[simp ↓] theorem lookupDone_canonical (s : State) (k : Nat) (i : Nat) (err : MemErr) (h : canonical s) : canonical (lookupDone s k i err) := by
  unfold lookupDone
  (repeat' split) <;> simp (maxDischargeDepth := 60) (contextual := true) [h]
theorem lookupDone_low (s : State) (k : Nat) (i : Nat) (err : MemErr) :
    belowKept 0x80000 s (lookupDone s k i err) := by
  unfold lookupDone
  (repeat' split) <;> simp (maxDischargeDepth := 60)
@[simp ↓] theorem lookupDone_below (L : Nat) (hL : L ≤ 0x80000) (s0 : State) (s : State) (k : Nat) (i : Nat) (err : MemErr) :
    belowKept L s0 (lookupDone s k i err) ↔ belowKept L s0 s :=
  belowKept_iff (belowKept_mono (lookupDone_low s k i err) hL) s0

theorem handoverRecord_frame (s : State) :
    sameExcept [.regs, .hg, .hs, .wires, .pr, .al, .freeCtr] s (handoverRecord s) := by
  unfold handoverRecord
  dsimp only
  (repeat' split) <;> simp (disch := decide)
@[simp ↓] theorem handoverRecord_through (ps : List Piece) (hps : ([.regs, .hg, .hs, .wires, .pr, .al, .freeCtr] : List Piece).all (ps.contains ·) = true) (s0 : State)
    (s : State) :
    sameExcept ps s0 (handoverRecord s) ↔ sameExcept ps s0 s :=
  sameExcept_through (handoverRecord_frame s) hps s0
@[simp ↓] theorem handoverRecord_canonical (s : State) (h : canonical s) : canonical (handoverRecord s) := by
  unfold handoverRecord
  dsimp only
  (repeat' split) <;> simp (maxDischargeDepth := 60) (contextual := true) [h]
theorem handoverRecord_low (s : State) :
    belowKept 0x80000 s (handoverRecord s) := by
  unfold handoverRecord
  dsimp only
  (repeat' split) <;> simp (maxDischargeDepth := 60)
@[simp ↓] theorem handoverRecord_below (L : Nat) (hL : L ≤ 0x80000) (s0 : State) (s : State) :
    belowKept L s0 (handoverRecord s) ↔ belowKept L s0 s :=
  belowKept_iff (belowKept_mono (handoverRecord_low s) hL) s0

theorem holdExpire_frame (s : State) (k : Nat) (i : Nat) :
    sameExcept [.fclk, .regs, .hg, .hs, .wires, .pr, .al, .freeCtr] s (holdExpire s k i) := by
  unfold holdExpire
  (repeat' split) <;> simp (disch := first | decide | (intro _ _; (repeat' split) <;> simp (disch := decide))) [sameExcept_foldl, sameExcept_foldl1, sameExcept_foldl2, sameExcept_forEach, sameExcept_forRange]
@[simp ↓] theorem holdExpire_through (ps : List Piece) (hps : ([.fclk, .regs, .hg, .hs, .wires, .pr, .al, .freeCtr] : List Piece).all (ps.contains ·) = true) (s0 : State)
    (s : State) (k : Nat) (i : Nat) :
    sameExcept ps s0 (holdExpire s k i) ↔ sameExcept ps s0 s :=
  sameExcept_through (holdExpire_frame s k i) hps s0
@[simp ↓] theorem holdExpire_canonical (s : State) (k : Nat) (i : Nat) (h : canonical s) : canonical (holdExpire s k i) := by
  unfold holdExpire
  (repeat' split) <;> simp (maxDischargeDepth := 60) (contextual := true) [h]
theorem holdExpire_low (s : State) (k : Nat) (i : Nat) :
    belowKept 0x80000 s (holdExpire s k i) := by
  unfold holdExpire
  (repeat' split) <;> simp (maxDischargeDepth := 60) [belowKept_foldl, belowKept_foldl1, belowKept_foldl2, belowKept_forEach, belowKept_forRange]
@[simp ↓] theorem holdExpire_below (L : Nat) (hL : L ≤ 0x80000) (s0 : State) (s : State) (k : Nat) (i : Nat) :
    belowKept L s0 (holdExpire s k i) ↔ belowKept L s0 s :=
  belowKept_iff (belowKept_mono (holdExpire_low s k i) hL) s0

theorem grantTo_frame (s : State) (k : Nat) (j : Nat) (w : Nat) (arb : Arb) :
    sameExcept [.hg, .hs] s (grantTo s k j w arb) := by
  unfold grantTo
  dsimp only
  (repeat' split) <;> simp (disch := decide)
@[simp ↓] theorem grantTo_through (ps : List Piece) (hps : ([.hg, .hs] : List Piece).all (ps.contains ·) = true) (s0 : State)
    (s : State) (k : Nat) (j : Nat) (w : Nat) (arb : Arb) :
    sameExcept ps s0 (grantTo s k j w arb) ↔ sameExcept ps s0 s :=
  sameExcept_through (grantTo_frame s k j w arb) hps s0
@[simp ↓] theorem grantTo_canonical (s : State) (k : Nat) (j : Nat) (w : Nat) (arb : Arb) : canonical (grantTo s k j w arb) ↔ canonical s :=
  canonical_same (grantTo_frame s k j w arb) (by decide)
@[simp ↓] theorem grantTo_below (L : Nat) (s0 : State) (s : State) (k : Nat) (j : Nat) (w : Nat) (arb : Arb) :
    belowKept L s0 (grantTo s k j w arb) ↔ belowKept L s0 s :=
  belowKept_iff (belowKept_same (grantTo_frame s k j w arb) (by decide)) s0

theorem homeGrant_frame (s : State) (k : Nat) :
    sameExcept [.hg, .hs] s (homeGrant s k) := by
  unfold homeGrant
  dsimp only
  (repeat' split) <;> simp (disch := decide)
@[simp ↓] theorem homeGrant_through (ps : List Piece) (hps : ([.hg, .hs] : List Piece).all (ps.contains ·) = true) (s0 : State)
    (s : State) (k : Nat) :
    sameExcept ps s0 (homeGrant s k) ↔ sameExcept ps s0 s :=
  sameExcept_through (homeGrant_frame s k) hps s0
@[simp ↓] theorem homeGrant_canonical (s : State) (k : Nat) : canonical (homeGrant s k) ↔ canonical s :=
  canonical_same (homeGrant_frame s k) (by decide)
@[simp ↓] theorem homeGrant_below (L : Nat) (s0 : State) (s : State) (k : Nat) :
    belowKept L s0 (homeGrant s k) ↔ belowKept L s0 s :=
  belowKept_iff (belowKept_same (homeGrant_frame s k) (by decide)) s0

theorem stepReserved_frame (s : State) (k : Nat) (i : Nat) :
    sameExcept [.regs, .hg, .hs, .wires, .pr, .al, .freeCtr] s (stepReserved s k i) := by
  unfold stepReserved
  (repeat' split) <;> simp (disch := decide)
@[simp ↓] theorem stepReserved_through (ps : List Piece) (hps : ([.regs, .hg, .hs, .wires, .pr, .al, .freeCtr] : List Piece).all (ps.contains ·) = true) (s0 : State)
    (s : State) (k : Nat) (i : Nat) :
    sameExcept ps s0 (stepReserved s k i) ↔ sameExcept ps s0 s :=
  sameExcept_through (stepReserved_frame s k i) hps s0
@[simp ↓] theorem stepReserved_canonical (s : State) (k : Nat) (i : Nat) (h : canonical s) : canonical (stepReserved s k i) := by
  unfold stepReserved
  (repeat' split) <;> simp (maxDischargeDepth := 60) (contextual := true) [h]
theorem stepReserved_low (s : State) (k : Nat) (i : Nat) :
    belowKept 0x80000 s (stepReserved s k i) := by
  unfold stepReserved
  (repeat' split) <;> simp (maxDischargeDepth := 60)
@[simp ↓] theorem stepReserved_below (L : Nat) (hL : L ≤ 0x80000) (s0 : State) (s : State) (k : Nat) (i : Nat) :
    belowKept L s0 (stepReserved s k i) ↔ belowKept L s0 s :=
  belowKept_iff (belowKept_mono (stepReserved_low s k i) hL) s0

theorem homeExpire_frame (s : State) (k : Nat) (i : Nat) :
    sameExcept [.fclk, .regs, .hg, .hs, .wires, .pr, .al, .freeCtr] s (homeExpire s k i) := by
  unfold homeExpire
  (repeat' split) <;> simp (disch := decide)
@[simp ↓] theorem homeExpire_through (ps : List Piece) (hps : ([.fclk, .regs, .hg, .hs, .wires, .pr, .al, .freeCtr] : List Piece).all (ps.contains ·) = true) (s0 : State)
    (s : State) (k : Nat) (i : Nat) :
    sameExcept ps s0 (homeExpire s k i) ↔ sameExcept ps s0 s :=
  sameExcept_through (homeExpire_frame s k i) hps s0
@[simp ↓] theorem homeExpire_canonical (s : State) (k : Nat) (i : Nat) (h : canonical s) : canonical (homeExpire s k i) := by
  unfold homeExpire
  (repeat' split) <;> simp (maxDischargeDepth := 60) (contextual := true) [h]
theorem homeExpire_low (s : State) (k : Nat) (i : Nat) :
    belowKept 0x80000 s (homeExpire s k i) := by
  unfold homeExpire
  (repeat' split) <;> simp (maxDischargeDepth := 60)
@[simp ↓] theorem homeExpire_below (L : Nat) (hL : L ≤ 0x80000) (s0 : State) (s : State) (k : Nat) (i : Nat) :
    belowKept L s0 (homeExpire s k i) ↔ belowKept L s0 s :=
  belowKept_iff (belowKept_mono (homeExpire_low s k i) hL) s0

theorem memoryDone_frame (s : State) (k : Nat) :
    sameExcept [.regs, .hg, .hs, .wires, .pr, .al, .freeCtr] s (memoryDone s k) := by
  unfold memoryDone
  dsimp only
  split
  · simp
  · rename_i heq
    have hw := sameExcept_mono (takeHome_some heq) (qs := [.regs, .hg, .hs, .wires, .pr, .al, .freeCtr]) (by decide)
    (repeat' split) <;> simp (disch := decide) [hw]
@[simp ↓] theorem memoryDone_through (ps : List Piece) (hps : ([.regs, .hg, .hs, .wires, .pr, .al, .freeCtr] : List Piece).all (ps.contains ·) = true) (s0 : State)
    (s : State) (k : Nat) :
    sameExcept ps s0 (memoryDone s k) ↔ sameExcept ps s0 s :=
  sameExcept_through (memoryDone_frame s k) hps s0
@[simp ↓] theorem memoryDone_canonical (s : State) (k : Nat) (h : canonical s) : canonical (memoryDone s k) := by
  unfold memoryDone
  dsimp only
  split
  · exact h
  · rename_i heq
    have hw := (canonical_same (takeHome_some heq) (by decide)).mpr h
    (repeat' split) <;> simp (maxDischargeDepth := 60) (contextual := true) [hw]
theorem memoryDone_low (s : State) (k : Nat) :
    belowKept 0x80000 s (memoryDone s k) := by
  unfold memoryDone
  dsimp only
  split
  · simp (maxDischargeDepth := 60)
  · rename_i heq
    have hw := belowKept_same (L := 0x80000) (takeHome_some heq) (by decide)
    (repeat' split) <;> simp (maxDischargeDepth := 60) [hw]
@[simp ↓] theorem memoryDone_below (L : Nat) (hL : L ≤ 0x80000) (s0 : State) (s : State) (k : Nat) :
    belowKept L s0 (memoryDone s k) ↔ belowKept L s0 s :=
  belowKept_iff (belowKept_mono (memoryDone_low s k) hL) s0

theorem sliceWatchdog_frame (s : State) (k : Nat) :
    sameExcept [.fclk, .regs, .hs, .al] s (sliceWatchdog s k) := by
  unfold sliceWatchdog
  (repeat' split) <;> simp (disch := decide)
@[simp ↓] theorem sliceWatchdog_through (ps : List Piece) (hps : ([.fclk, .regs, .hs, .al] : List Piece).all (ps.contains ·) = true) (s0 : State)
    (s : State) (k : Nat) :
    sameExcept ps s0 (sliceWatchdog s k) ↔ sameExcept ps s0 s :=
  sameExcept_through (sliceWatchdog_frame s k) hps s0
@[simp ↓] theorem sliceWatchdog_canonical (s : State) (k : Nat) (h : canonical s) : canonical (sliceWatchdog s k) := by
  unfold sliceWatchdog
  (repeat' split) <;> simp (maxDischargeDepth := 60) (contextual := true) [h]
theorem sliceWatchdog_low (s : State) (k : Nat) :
    belowKept 0x80000 s (sliceWatchdog s k) := by
  unfold sliceWatchdog
  (repeat' split) <;> simp (maxDischargeDepth := 60)
@[simp ↓] theorem sliceWatchdog_below (L : Nat) (hL : L ≤ 0x80000) (s0 : State) (s : State) (k : Nat) :
    belowKept L s0 (sliceWatchdog s k) ↔ belowKept L s0 s :=
  belowKept_iff (belowKept_mono (sliceWatchdog_low s k) hL) s0

theorem snoopReply_frame (s : State) (k : Nat) :
    sameExcept [.regs, .hg, .hs, .wires, .pr, .al, .freeCtr] s (snoopReply s k) := by
  unfold snoopReply
  dsimp only
  split
  · simp
  · rename_i heq
    have hw := sameExcept_mono (takeHome_some heq) (qs := [.regs, .hg, .hs, .wires, .pr, .al, .freeCtr]) (by decide)
    (repeat' split) <;> simp (disch := decide) [hw]
@[simp ↓] theorem snoopReply_through (ps : List Piece) (hps : ([.regs, .hg, .hs, .wires, .pr, .al, .freeCtr] : List Piece).all (ps.contains ·) = true) (s0 : State)
    (s : State) (k : Nat) :
    sameExcept ps s0 (snoopReply s k) ↔ sameExcept ps s0 s :=
  sameExcept_through (snoopReply_frame s k) hps s0
@[simp ↓] theorem snoopReply_canonical (s : State) (k : Nat) (h : canonical s) : canonical (snoopReply s k) := by
  unfold snoopReply
  dsimp only
  split
  · exact h
  · rename_i heq
    have hw := (canonical_same (takeHome_some heq) (by decide)).mpr h
    (repeat' split) <;> simp (maxDischargeDepth := 60) (contextual := true) [hw]
theorem snoopReply_low (s : State) (k : Nat) :
    belowKept 0x80000 s (snoopReply s k) := by
  unfold snoopReply
  dsimp only
  split
  · simp (maxDischargeDepth := 60)
  · rename_i heq
    have hw := belowKept_same (L := 0x80000) (takeHome_some heq) (by decide)
    (repeat' split) <;> simp (maxDischargeDepth := 60) [hw]
@[simp ↓] theorem snoopReply_below (L : Nat) (hL : L ≤ 0x80000) (s0 : State) (s : State) (k : Nat) :
    belowKept L s0 (snoopReply s k) ↔ belowKept L s0 s :=
  belowKept_iff (belowKept_mono (snoopReply_low s k) hL) s0

theorem sweepEntry_frame (k : Nat) (a : BitVec 4) (s : State) (l : Nat) :
    sameExcept [.regs, .hg, .hs, .wires, .pr, .al, .freeCtr] s (sweepEntry k a s l) := by
  unfold sweepEntry
  dsimp only
  (repeat' split) <;> simp (disch := decide)
@[simp ↓] theorem sweepEntry_through (ps : List Piece) (hps : ([.regs, .hg, .hs, .wires, .pr, .al, .freeCtr] : List Piece).all (ps.contains ·) = true) (s0 : State)
    (k : Nat) (a : BitVec 4) (s : State) (l : Nat) :
    sameExcept ps s0 (sweepEntry k a s l) ↔ sameExcept ps s0 s :=
  sameExcept_through (sweepEntry_frame k a s l) hps s0
@[simp ↓] theorem sweepEntry_canonical (k : Nat) (a : BitVec 4) (s : State) (l : Nat) (h : canonical s) : canonical (sweepEntry k a s l) := by
  unfold sweepEntry
  dsimp only
  (repeat' split) <;> simp (maxDischargeDepth := 60) (contextual := true) [h]
theorem sweepEntry_low (k : Nat) (a : BitVec 4) (s : State) (l : Nat) :
    belowKept 0x80000 s (sweepEntry k a s l) := by
  unfold sweepEntry
  dsimp only
  (repeat' split) <;> simp (maxDischargeDepth := 60)
@[simp ↓] theorem sweepEntry_below (L : Nat) (hL : L ≤ 0x80000) (s0 : State) (k : Nat) (a : BitVec 4) (s : State) (l : Nat) :
    belowKept L s0 (sweepEntry k a s l) ↔ belowKept L s0 s :=
  belowKept_iff (belowKept_mono (sweepEntry_low k a s l) hL) s0

theorem sweepVisit_frame (s : State) (k : Nat) :
    sameExcept [.regs, .hg, .hs, .wires, .pr, .al, .freeCtr] s (sweepVisit s k) := by
  unfold sweepVisit
  dsimp only
  (repeat' split) <;> simp (disch := first | decide | (intro _ _; (repeat' split) <;> simp (disch := decide))) [sameExcept_foldl, sameExcept_foldl1, sameExcept_foldl2, sameExcept_forEach, sameExcept_forRange]
@[simp ↓] theorem sweepVisit_through (ps : List Piece) (hps : ([.regs, .hg, .hs, .wires, .pr, .al, .freeCtr] : List Piece).all (ps.contains ·) = true) (s0 : State)
    (s : State) (k : Nat) :
    sameExcept ps s0 (sweepVisit s k) ↔ sameExcept ps s0 s :=
  sameExcept_through (sweepVisit_frame s k) hps s0
@[simp ↓] theorem sweepVisit_canonical (s : State) (k : Nat) (h : canonical s) : canonical (sweepVisit s k) := by
  unfold sweepVisit
  dsimp only
  split
  · exact h
  · split
    · exact h
    · have hf : ∀ (a : BitVec 4) (l : List Nat) (t : State), canonical t → canonical (l.foldl (sweepEntry k a) t) :=
        fun a l t ht => canonical_foldl _ _ _ ht (fun t x ht => by simp (maxDischargeDepth := 60) (contextual := true) [ht])
      (repeat' split) <;> simp (maxDischargeDepth := 60) (contextual := true) [h, hf]
theorem sweepVisit_low (s : State) (k : Nat) :
    belowKept 0x80000 s (sweepVisit s k) := by
  unfold sweepVisit
  dsimp only
  (repeat' split) <;> simp (maxDischargeDepth := 60) [belowKept_foldl, belowKept_foldl1, belowKept_foldl2, belowKept_forEach, belowKept_forRange]
@[simp ↓] theorem sweepVisit_below (L : Nat) (hL : L ≤ 0x80000) (s0 : State) (s : State) (k : Nat) :
    belowKept L s0 (sweepVisit s k) ↔ belowKept L s0 s :=
  belowKept_iff (belowKept_mono (sweepVisit_low s k) hL) s0

end Sys2Proof.Machine
end

