-- ==== Sys2Proof/Laws/FrameRouters.lean ====
section
/-! SUPPORT. What each operation of `Machine/Routers.lean` can change, in the pieces of `Safety.lean`: `<operation>_frame` says it once,
`<operation>_through` carries it past the operation, `<operation>_canonical` says that it keeps the canonical form, and
`<operation>_low`, `<operation>_below` that it keeps the registers below the blocks it works on. -/

open Sys2Proof

namespace Sys2Proof.Machine

set_option linter.unusedSimpArgs false
set_option linter.unusedVariables false

theorem returnCredit_frame (s : State) (e : LEnd) (v : Nat) :
    sameExcept [.credits] s (returnCredit s e v) := by
  unfold returnCredit
  (repeat' split) <;> simp (disch := decide)
@[simp ↓] theorem returnCredit_through (ps : List Piece) (hps : ([.credits] : List Piece).all (ps.contains ·) = true) (s0 : State)
    (s : State) (e : LEnd) (v : Nat) :
    sameExcept ps s0 (returnCredit s e v) ↔ sameExcept ps s0 s :=
  sameExcept_through (returnCredit_frame s e v) hps s0
@[simp ↓] theorem returnCredit_canonical (s : State) (e : LEnd) (v : Nat) : canonical (returnCredit s e v) ↔ canonical s :=
  canonical_same (returnCredit_frame s e v) (by decide)
@[simp ↓] theorem returnCredit_below (L : Nat) (s0 : State) (s : State) (e : LEnd) (v : Nat) :
    belowKept L s0 (returnCredit s e v) ↔ belowKept L s0 s :=
  belowKept_iff (belowKept_same (returnCredit_frame s e v) (by decide)) s0

theorem closeOpen_frame (i : Nat) (p : Nat) (v : Nat) (s : State) :
    sameExcept [.regs, .rt, .credits] s (closeOpen i p v s) := by
  unfold closeOpen
  (repeat' split) <;> simp (disch := first | decide | (intro _ _; (repeat' split) <;> simp (disch := decide))) [sameExcept_foldl, sameExcept_foldl1, sameExcept_foldl2, sameExcept_forEach, sameExcept_forRange]
@[simp ↓] theorem closeOpen_through (ps : List Piece) (hps : ([.regs, .rt, .credits] : List Piece).all (ps.contains ·) = true) (s0 : State)
    (i : Nat) (p : Nat) (v : Nat) (s : State) :
    sameExcept ps s0 (closeOpen i p v s) ↔ sameExcept ps s0 s :=
  sameExcept_through (closeOpen_frame i p v s) hps s0
@[simp ↓] theorem closeOpen_canonical (i : Nat) (p : Nat) (v : Nat) (s : State) (h : canonical s) : canonical (closeOpen i p v s) := by
  unfold closeOpen
  (repeat' split) <;> simp (maxDischargeDepth := 60) (contextual := true) [h]
theorem closeOpen_low (i : Nat) (p : Nat) (v : Nat) (s : State) :
    belowKept 0x100000 s (closeOpen i p v s) := by
  unfold closeOpen
  (repeat' split) <;> simp (maxDischargeDepth := 60) [belowKept_foldl, belowKept_foldl1, belowKept_foldl2, belowKept_forEach, belowKept_forRange]
@[simp ↓] theorem closeOpen_below (L : Nat) (hL : L ≤ 0x100000) (s0 : State) (i : Nat) (p : Nat) (v : Nat) (s : State) :
    belowKept L s0 (closeOpen i p v s) ↔ belowKept L s0 s :=
  belowKept_iff (belowKept_mono (closeOpen_low i p v s) hL) s0

theorem sinkBuf_frame (i : Nat) (p : Nat) (v : Nat) (s : State) :
    sameExcept [.regs, .rt, .credits] s (sinkBuf i p v s) := by
  unfold sinkBuf
  dsimp only
  rw [sameExcept_forRange]
  · simp (disch := decide)
  · intro t x; simp (disch := decide)
@[simp ↓] theorem sinkBuf_through (ps : List Piece) (hps : ([.regs, .rt, .credits] : List Piece).all (ps.contains ·) = true) (s0 : State)
    (i : Nat) (p : Nat) (v : Nat) (s : State) :
    sameExcept ps s0 (sinkBuf i p v s) ↔ sameExcept ps s0 s :=
  sameExcept_through (sinkBuf_frame i p v s) hps s0
@[simp ↓] theorem sinkBuf_canonical (i : Nat) (p : Nat) (v : Nat) (s : State) (h : canonical s) : canonical (sinkBuf i p v s) := by
  unfold sinkBuf
  dsimp only
  apply canonical_forRange
  · simp (maxDischargeDepth := 60) (contextual := true) [h]
  · intro t x ht; simp (maxDischargeDepth := 60) (contextual := true) [ht]
theorem sinkBuf_low (i : Nat) (p : Nat) (v : Nat) (s : State) :
    belowKept 0x100000 s (sinkBuf i p v s) := by
  unfold sinkBuf
  dsimp only
  rw [belowKept_forRange]
  · simp (maxDischargeDepth := 60)
  · intro t x; simp (maxDischargeDepth := 60)
@[simp ↓] theorem sinkBuf_below (L : Nat) (hL : L ≤ 0x100000) (s0 : State) (i : Nat) (p : Nat) (v : Nat) (s : State) :
    belowKept L s0 (sinkBuf i p v s) ↔ belowKept L s0 s :=
  belowKept_iff (belowKept_mono (sinkBuf_low i p v s) hL) s0

theorem sinkAll_frame (s : State) (i : Nat) :
    sameExcept [.regs, .rt, .credits] s (sinkAll s i) := by
  unfold sinkAll
  simp (disch := first | decide | (intro _ _; (repeat' split) <;> simp (disch := decide))) [sameExcept_foldl, sameExcept_foldl1, sameExcept_foldl2, sameExcept_forEach, sameExcept_forRange]
@[simp ↓] theorem sinkAll_through (ps : List Piece) (hps : ([.regs, .rt, .credits] : List Piece).all (ps.contains ·) = true) (s0 : State)
    (s : State) (i : Nat) :
    sameExcept ps s0 (sinkAll s i) ↔ sameExcept ps s0 s :=
  sameExcept_through (sinkAll_frame s i) hps s0
@[simp ↓] theorem sinkAll_canonical (s : State) (i : Nat) (h : canonical s) : canonical (sinkAll s i) := by
  unfold sinkAll
  simp (maxDischargeDepth := 60) (contextual := true) [h]
theorem sinkAll_low (s : State) (i : Nat) :
    belowKept 0x100000 s (sinkAll s i) := by
  unfold sinkAll
  simp (maxDischargeDepth := 60) [belowKept_foldl, belowKept_foldl1, belowKept_foldl2, belowKept_forEach, belowKept_forRange]
@[simp ↓] theorem sinkAll_below (L : Nat) (hL : L ≤ 0x100000) (s0 : State) (s : State) (i : Nat) :
    belowKept L s0 (sinkAll s i) ↔ belowKept L s0 s :=
  belowKept_iff (belowKept_mono (sinkAll_low s i) hL) s0

theorem setLive_frame (s : State) (e : LEnd) (b : Bool) :
    sameExcept [.regs] s (setLive s e b) := by
  unfold setLive
  (repeat' split) <;> simp (disch := decide)
@[simp ↓] theorem setLive_through (ps : List Piece) (hps : ([.regs] : List Piece).all (ps.contains ·) = true) (s0 : State)
    (s : State) (e : LEnd) (b : Bool) :
    sameExcept ps s0 (setLive s e b) ↔ sameExcept ps s0 s :=
  sameExcept_through (setLive_frame s e b) hps s0
@[simp ↓] theorem setLive_canonical (s : State) (e : LEnd) (b : Bool) (h : canonical s) : canonical (setLive s e b) := by
  unfold setLive
  (repeat' split) <;> simp (maxDischargeDepth := 60) (contextual := true) [h]
theorem setLive_low (s : State) (e : LEnd) (b : Bool) :
    belowKept 0x100000 s (setLive s e b) := by
  unfold setLive
  (repeat' split) <;> simp (maxDischargeDepth := 60)
@[simp ↓] theorem setLive_below (L : Nat) (hL : L ≤ 0x100000) (s0 : State) (s : State) (e : LEnd) (b : Bool) :
    belowKept L s0 (setLive s e b) ↔ belowKept L s0 s :=
  belowKept_iff (belowKept_mono (setLive_low s e b) hL) s0

theorem liveGained_frame (s : State) (e : LEnd) :
    sameExcept [.regs, .hg, .rt] s (liveGained s e) := by
  unfold liveGained
  simp (disch := decide)
@[simp ↓] theorem liveGained_through (ps : List Piece) (hps : ([.regs, .hg, .rt] : List Piece).all (ps.contains ·) = true) (s0 : State)
    (s : State) (e : LEnd) :
    sameExcept ps s0 (liveGained s e) ↔ sameExcept ps s0 s :=
  sameExcept_through (liveGained_frame s e) hps s0
@[simp ↓] theorem liveGained_canonical (s : State) (e : LEnd) (h : canonical s) : canonical (liveGained s e) := by
  unfold liveGained
  simp (maxDischargeDepth := 60) (contextual := true) [h]
theorem liveGained_low (s : State) (e : LEnd) :
    belowKept 0x100000 s (liveGained s e) := by
  unfold liveGained
  simp (maxDischargeDepth := 60)
@[simp ↓] theorem liveGained_below (L : Nat) (hL : L ≤ 0x100000) (s0 : State) (s : State) (e : LEnd) :
    belowKept L s0 (liveGained s e) ↔ belowKept L s0 s :=
  belowKept_iff (belowKept_mono (liveGained_low s e) hL) s0

theorem clearEntries_frame (s : State) (n : Nat) :
    sameExcept [.regs, .hg] s (clearEntries s n) := by
  unfold clearEntries
  simp (disch := first | decide | (intro _ _; (repeat' split) <;> simp (disch := decide))) [sameExcept_foldl, sameExcept_foldl1, sameExcept_foldl2, sameExcept_forEach, sameExcept_forRange]
@[simp ↓] theorem clearEntries_through (ps : List Piece) (hps : ([.regs, .hg] : List Piece).all (ps.contains ·) = true) (s0 : State)
    (s : State) (n : Nat) :
    sameExcept ps s0 (clearEntries s n) ↔ sameExcept ps s0 s :=
  sameExcept_through (clearEntries_frame s n) hps s0
@[simp ↓] theorem clearEntries_canonical (s : State) (n : Nat) (h : canonical s) : canonical (clearEntries s n) := by
  unfold clearEntries
  simp (maxDischargeDepth := 60) (contextual := true) [h]
theorem clearEntries_low (s : State) (n : Nat) :
    belowKept 0x200000 s (clearEntries s n) := by
  unfold clearEntries
  simp (maxDischargeDepth := 60) [belowKept_foldl, belowKept_foldl1, belowKept_foldl2, belowKept_forEach, belowKept_forRange]
@[simp ↓] theorem clearEntries_below (L : Nat) (hL : L ≤ 0x200000) (s0 : State) (s : State) (n : Nat) :
    belowKept L s0 (clearEntries s n) ↔ belowKept L s0 s :=
  belowKept_iff (belowKept_mono (clearEntries_low s n) hL) s0

theorem declareHeadgate_frame (s : State) (n : Nat) (l : Nat) (cause : Nat) :
    sameExcept [.regs, .hg, .wires, .al] s (declareHeadgate s n l cause) := by
  unfold declareHeadgate
  dsimp only
  (repeat' split) <;> simp (disch := decide)
@[simp ↓] theorem declareHeadgate_through (ps : List Piece) (hps : ([.regs, .hg, .wires, .al] : List Piece).all (ps.contains ·) = true) (s0 : State)
    (s : State) (n : Nat) (l : Nat) (cause : Nat) :
    sameExcept ps s0 (declareHeadgate s n l cause) ↔ sameExcept ps s0 s :=
  sameExcept_through (declareHeadgate_frame s n l cause) hps s0
@[simp ↓] theorem declareHeadgate_canonical (s : State) (n : Nat) (l : Nat) (cause : Nat) (h : canonical s) : canonical (declareHeadgate s n l cause) := by
  unfold declareHeadgate
  dsimp only
  (repeat' split) <;> simp (maxDischargeDepth := 60) (contextual := true) [h]
theorem declareHeadgate_low (s : State) (n : Nat) (l : Nat) (cause : Nat) :
    belowKept 0x200000 s (declareHeadgate s n l cause) := by
  unfold declareHeadgate
  dsimp only
  (repeat' split) <;> simp (maxDischargeDepth := 60)
@[simp ↓] theorem declareHeadgate_below (L : Nat) (hL : L ≤ 0x200000) (s0 : State) (s : State) (n : Nat) (l : Nat) (cause : Nat) :
    belowKept L s0 (declareHeadgate s n l cause) ↔ belowKept L s0 s :=
  belowKept_iff (belowKept_mono (declareHeadgate_low s n l cause) hL) s0

theorem declareRouter_frame (s : State) (i : Nat) (p : Nat) (cause : Nat) :
    sameExcept [.regs, .rt, .credits, .al] s (declareRouter s i p cause) := by
  unfold declareRouter
  simp (disch := first | decide | (intro _ _; (repeat' split) <;> simp (disch := decide))) [sameExcept_foldl, sameExcept_foldl1, sameExcept_foldl2, sameExcept_forEach, sameExcept_forRange]
@[simp ↓] theorem declareRouter_through (ps : List Piece) (hps : ([.regs, .rt, .credits, .al] : List Piece).all (ps.contains ·) = true) (s0 : State)
    (s : State) (i : Nat) (p : Nat) (cause : Nat) :
    sameExcept ps s0 (declareRouter s i p cause) ↔ sameExcept ps s0 s :=
  sameExcept_through (declareRouter_frame s i p cause) hps s0
@[simp ↓] theorem declareRouter_canonical (s : State) (i : Nat) (p : Nat) (cause : Nat) (h : canonical s) : canonical (declareRouter s i p cause) := by
  unfold declareRouter
  simp (maxDischargeDepth := 60) (contextual := true) [h]
theorem declareRouter_low (s : State) (i : Nat) (p : Nat) (cause : Nat) :
    belowKept 0x100000 s (declareRouter s i p cause) := by
  unfold declareRouter
  simp (maxDischargeDepth := 60) [belowKept_foldl, belowKept_foldl1, belowKept_foldl2, belowKept_forEach, belowKept_forRange]
@[simp ↓] theorem declareRouter_below (L : Nat) (hL : L ≤ 0x100000) (s0 : State) (s : State) (i : Nat) (p : Nat) (cause : Nat) :
    belowKept L s0 (declareRouter s i p cause) ↔ belowKept L s0 s :=
  belowKept_iff (belowKept_mono (declareRouter_low s i p cause) hL) s0

theorem declare_frame (s : State) (e : LEnd) (cause : Nat) :
    sameExcept [.regs, .hg, .rt, .wires, .credits, .al] s (declare s e cause) := by
  unfold declare
  (repeat' split) <;> simp (disch := decide)
@[simp ↓] theorem declare_through (ps : List Piece) (hps : ([.regs, .hg, .rt, .wires, .credits, .al] : List Piece).all (ps.contains ·) = true) (s0 : State)
    (s : State) (e : LEnd) (cause : Nat) :
    sameExcept ps s0 (declare s e cause) ↔ sameExcept ps s0 s :=
  sameExcept_through (declare_frame s e cause) hps s0
@[simp ↓] theorem declare_canonical (s : State) (e : LEnd) (cause : Nat) (h : canonical s) : canonical (declare s e cause) := by
  unfold declare
  (repeat' split) <;> simp (maxDischargeDepth := 60) (contextual := true) [h]
theorem declare_low (s : State) (e : LEnd) (cause : Nat) :
    belowKept 0x100000 s (declare s e cause) := by
  unfold declare
  (repeat' split) <;> simp (maxDischargeDepth := 60)
@[simp ↓] theorem declare_below (L : Nat) (hL : L ≤ 0x100000) (s0 : State) (s : State) (e : LEnd) (cause : Nat) :
    belowKept L s0 (declare s e cause) ↔ belowKept L s0 s :=
  belowKept_iff (belowKept_mono (declare_low s e cause) hL) s0

theorem liveLost_frame (s : State) (e : LEnd) :
    sameExcept [.regs, .hg, .rt, .wires, .credits, .al] s (liveLost s e) := by
  unfold liveLost
  simp (disch := decide)
@[simp ↓] theorem liveLost_through (ps : List Piece) (hps : ([.regs, .hg, .rt, .wires, .credits, .al] : List Piece).all (ps.contains ·) = true) (s0 : State)
    (s : State) (e : LEnd) :
    sameExcept ps s0 (liveLost s e) ↔ sameExcept ps s0 s :=
  sameExcept_through (liveLost_frame s e) hps s0
@[simp ↓] theorem liveLost_canonical (s : State) (e : LEnd) (h : canonical s) : canonical (liveLost s e) := by
  unfold liveLost
  simp (maxDischargeDepth := 60) (contextual := true) [h]
theorem liveLost_low (s : State) (e : LEnd) :
    belowKept 0x100000 s (liveLost s e) := by
  unfold liveLost
  simp (maxDischargeDepth := 60)
@[simp ↓] theorem liveLost_below (L : Nat) (hL : L ≤ 0x100000) (s0 : State) (s : State) (e : LEnd) :
    belowKept L s0 (liveLost s e) ↔ belowKept L s0 s :=
  belowKept_iff (belowKept_mono (liveLost_low s e) hL) s0

theorem dropBad_frame (s : State) (i : Nat) (p : Nat) (v : Nat) (granted : Bool) (o : Nat) :
    sameExcept [.regs, .rt, .credits, .pr] s (dropBad s i p v granted o) := by
  unfold dropBad
  (repeat' split) <;> simp (disch := decide)
@[simp ↓] theorem dropBad_through (ps : List Piece) (hps : ([.regs, .rt, .credits, .pr] : List Piece).all (ps.contains ·) = true) (s0 : State)
    (s : State) (i : Nat) (p : Nat) (v : Nat) (granted : Bool) (o : Nat) :
    sameExcept ps s0 (dropBad s i p v granted o) ↔ sameExcept ps s0 s :=
  sameExcept_through (dropBad_frame s i p v granted o) hps s0
@[simp ↓] theorem dropBad_canonical (s : State) (i : Nat) (p : Nat) (v : Nat) (granted : Bool) (o : Nat) (h : canonical s) : canonical (dropBad s i p v granted o) := by
  unfold dropBad
  (repeat' split) <;> simp (maxDischargeDepth := 60) (contextual := true) [h]
theorem dropBad_low (s : State) (i : Nat) (p : Nat) (v : Nat) (granted : Bool) (o : Nat) :
    belowKept 0x100000 s (dropBad s i p v granted o) := by
  unfold dropBad
  (repeat' split) <;> simp (maxDischargeDepth := 60)
@[simp ↓] theorem dropBad_below (L : Nat) (hL : L ≤ 0x100000) (s0 : State) (s : State) (i : Nat) (p : Nat) (v : Nat) (granted : Bool) (o : Nat) :
    belowKept L s0 (dropBad s i p v granted o) ↔ belowKept L s0 s :=
  belowKept_iff (belowKept_mono (dropBad_low s i p v granted o) hL) s0

theorem sendFlit_frame (s : State) (i : Nat) (o : Nat) (p : Nat) (v : Nat) :
    sameExcept [.regs, .hg, .rt, .wires, .credits, .pr] s (sendFlit s i o p v) := by
  unfold sendFlit
  split
  · simp
  · extract_lets f mask la g s1 s2 keep openHere s3 s4 s5 s6 s7 s8
    have h1 : sameExcept [.regs, .hg, .rt, .wires, .credits, .pr] s s1 := by simp (disch := decide) [s1]
    have h2 : sameExcept [.regs, .hg, .rt, .wires, .credits, .pr] s s2 := by simp only [s2]; split <;> simp (disch := decide) [h1]
    have h3 : sameExcept [.regs, .hg, .rt, .wires, .credits, .pr] s s3 := (sameExcept_updRt [.regs, .hg, .rt, .wires, .credits, .pr] (by decide) s s2 i _).mpr h2
    have h4 : sameExcept [.regs, .hg, .rt, .wires, .credits, .pr] s s4 := by simp only [s4]; split <;> simp (disch := decide) [h3]
    have h5 : sameExcept [.regs, .hg, .rt, .wires, .credits, .pr] s s5 := by simp only [s5]; split <;> simp (disch := decide) [h4]
    have h6 : sameExcept [.regs, .hg, .rt, .wires, .credits, .pr] s s6 := by simp (disch := decide) [s6, h5]
    have h7 : sameExcept [.regs, .hg, .rt, .wires, .credits, .pr] s s7 := by simp only [s7]; split <;> simp (disch := decide) [h6]
    have h8 : sameExcept [.regs, .hg, .rt, .wires, .credits, .pr] s s8 := by simp only [s8]; split <;> simp (disch := decide) [h7]
    split <;> simp (disch := decide) [h8]
@[simp ↓] theorem sendFlit_through (ps : List Piece) (hps : ([.regs, .hg, .rt, .wires, .credits, .pr] : List Piece).all (ps.contains ·) = true) (s0 : State)
    (s : State) (i : Nat) (o : Nat) (p : Nat) (v : Nat) :
    sameExcept ps s0 (sendFlit s i o p v) ↔ sameExcept ps s0 s :=
  sameExcept_through (sendFlit_frame s i o p v) hps s0
@[simp ↓] theorem sendFlit_canonical (s : State) (i : Nat) (o : Nat) (p : Nat) (v : Nat) (h : canonical s) : canonical (sendFlit s i o p v) := by
  unfold sendFlit
  split
  · exact h
  · extract_lets f mask la g s1 s2 keep openHere s3 s4 s5 s6 s7 s8
    have h1 : canonical s1 := by simp (maxDischargeDepth := 60) (contextual := true) [s1, h]
    have h2 : canonical s2 := by simp only [s2]; split <;> simp (maxDischargeDepth := 60) (contextual := true) [h1]
    have h3 : canonical s3 := (canonical_updRt s2 i _).mpr h2
    have h4 : canonical s4 := by simp only [s4]; split <;> simp (maxDischargeDepth := 60) (contextual := true) [h3]
    have h5 : canonical s5 := by simp only [s5]; split <;> simp (maxDischargeDepth := 60) (contextual := true) [h4]
    have h6 : canonical s6 := by simp (maxDischargeDepth := 60) (contextual := true) [s6, h5]
    have h7 : canonical s7 := by simp only [s7]; split <;> simp (maxDischargeDepth := 60) (contextual := true) [h6]
    have h8 : canonical s8 := by simp only [s8]; split <;> simp (maxDischargeDepth := 60) (contextual := true) [h7]
    split <;> simp (maxDischargeDepth := 60) (contextual := true) [h8]
theorem sendFlit_low (s : State) (i : Nat) (o : Nat) (p : Nat) (v : Nat) :
    belowKept 0x100000 s (sendFlit s i o p v) := by
  unfold sendFlit
  (repeat' split) <;> simp (maxDischargeDepth := 60)
@[simp ↓] theorem sendFlit_below (L : Nat) (hL : L ≤ 0x100000) (s0 : State) (s : State) (i : Nat) (o : Nat) (p : Nat) (v : Nat) :
    belowKept L s0 (sendFlit s i o p v) ↔ belowKept L s0 s :=
  belowKept_iff (belowKept_mono (sendFlit_low s i o p v) hL) s0

theorem bestCycle_frame (s : State) (i : Nat) (o : Nat) (pres : List (Nat × Nat)) :
    sameExcept [.regs, .hg, .rt, .wires, .credits, .pr] s (bestCycle s i o pres) := by
  unfold bestCycle
  dsimp only
  (repeat' split) <;> simp (disch := decide)
@[simp ↓] theorem bestCycle_through (ps : List Piece) (hps : ([.regs, .hg, .rt, .wires, .credits, .pr] : List Piece).all (ps.contains ·) = true) (s0 : State)
    (s : State) (i : Nat) (o : Nat) (pres : List (Nat × Nat)) :
    sameExcept ps s0 (bestCycle s i o pres) ↔ sameExcept ps s0 s :=
  sameExcept_through (bestCycle_frame s i o pres) hps s0
@[simp ↓] theorem bestCycle_canonical (s : State) (i : Nat) (o : Nat) (pres : List (Nat × Nat)) (h : canonical s) : canonical (bestCycle s i o pres) := by
  unfold bestCycle
  dsimp only
  (repeat' split) <;> simp (maxDischargeDepth := 60) (contextual := true) [h]
theorem bestCycle_low (s : State) (i : Nat) (o : Nat) (pres : List (Nat × Nat)) :
    belowKept 0x100000 s (bestCycle s i o pres) := by
  unfold bestCycle
  dsimp only
  (repeat' split) <;> simp (maxDischargeDepth := 60)
@[simp ↓] theorem bestCycle_below (L : Nat) (hL : L ≤ 0x100000) (s0 : State) (s : State) (i : Nat) (o : Nat) (pres : List (Nat × Nat)) :
    belowKept L s0 (bestCycle s i o pres) ↔ belowKept L s0 s :=
  belowKept_iff (belowKept_mono (bestCycle_low s i o pres) hL) s0

theorem markLate_frame (s : State) (f : Flit) :
    sameExcept [.lateGua] s (markLate s f) := by
  unfold markLate
  simp (disch := decide)
@[simp ↓] theorem markLate_through (ps : List Piece) (hps : ([.lateGua] : List Piece).all (ps.contains ·) = true) (s0 : State)
    (s : State) (f : Flit) :
    sameExcept ps s0 (markLate s f) ↔ sameExcept ps s0 s :=
  sameExcept_through (markLate_frame s f) hps s0
@[simp ↓] theorem markLate_canonical (s : State) (f : Flit) : canonical (markLate s f) ↔ canonical s :=
  canonical_same (markLate_frame s f) (by decide)
@[simp ↓] theorem markLate_below (L : Nat) (s0 : State) (s : State) (f : Flit) :
    belowKept L s0 (markLate s f) ↔ belowKept L s0 s :=
  belowKept_iff (belowKept_same (markLate_frame s f) (by decide)) s0

theorem markFront_frame (i : Nat) (p : Nat) (s : State) :
    sameExcept [.lateGua] s (markFront i p s) := by
  unfold markFront
  (repeat' split) <;> simp (disch := decide)
@[simp ↓] theorem markFront_through (ps : List Piece) (hps : ([.lateGua] : List Piece).all (ps.contains ·) = true) (s0 : State)
    (i : Nat) (p : Nat) (s : State) :
    sameExcept ps s0 (markFront i p s) ↔ sameExcept ps s0 s :=
  sameExcept_through (markFront_frame i p s) hps s0
@[simp ↓] theorem markFront_canonical (i : Nat) (p : Nat) (s : State) : canonical (markFront i p s) ↔ canonical s :=
  canonical_same (markFront_frame i p s) (by decide)
@[simp ↓] theorem markFront_below (L : Nat) (s0 : State) (i : Nat) (p : Nat) (s : State) :
    belowKept L s0 (markFront i p s) ↔ belowKept L s0 s :=
  belowKept_iff (belowKept_same (markFront_frame i p s) (by decide)) s0

theorem collide_frame (s : State) (i : Nat) (o : Nat) (asked : List Nat) (waits : List Nat) :
    sameExcept [.regs, .rt, .al, .lateGua] s (collide s i o asked waits) := by
  unfold collide
  simp (disch := first | decide | (intro _ _; (repeat' split) <;> simp (disch := decide))) [sameExcept_foldl, sameExcept_foldl1, sameExcept_foldl2, sameExcept_forEach, sameExcept_forRange]
@[simp ↓] theorem collide_through (ps : List Piece) (hps : ([.regs, .rt, .al, .lateGua] : List Piece).all (ps.contains ·) = true) (s0 : State)
    (s : State) (i : Nat) (o : Nat) (asked : List Nat) (waits : List Nat) :
    sameExcept ps s0 (collide s i o asked waits) ↔ sameExcept ps s0 s :=
  sameExcept_through (collide_frame s i o asked waits) hps s0
@[simp ↓] theorem collide_canonical (s : State) (i : Nat) (o : Nat) (asked : List Nat) (waits : List Nat) (h : canonical s) : canonical (collide s i o asked waits) := by
  unfold collide
  simp (maxDischargeDepth := 60) (contextual := true) [h]
theorem collide_low (s : State) (i : Nat) (o : Nat) (asked : List Nat) (waits : List Nat) :
    belowKept 0x100000 s (collide s i o asked waits) := by
  unfold collide
  simp (maxDischargeDepth := 60) [belowKept_foldl, belowKept_foldl1, belowKept_foldl2, belowKept_forEach, belowKept_forRange]
@[simp ↓] theorem collide_below (L : Nat) (hL : L ≤ 0x100000) (s0 : State) (s : State) (i : Nat) (o : Nat) (asked : List Nat) (waits : List Nat) :
    belowKept L s0 (collide s i o asked waits) ↔ belowKept L s0 s :=
  belowKept_iff (belowKept_mono (collide_low s i o asked waits) hL) s0

theorem guaCycle_frame (s : State) (i : Nat) (o : Nat) (askers : List Nat) :
    sameExcept [.regs, .hg, .rt, .wires, .credits, .pr, .al, .lateGua] s (guaCycle s i o askers).2 := by
  unfold guaCycle
  dsimp only
  (repeat' split) <;> simp (disch := decide)
@[simp ↓] theorem guaCycle_through (ps : List Piece) (hps : ([.regs, .hg, .rt, .wires, .credits, .pr, .al, .lateGua] : List Piece).all (ps.contains ·) = true) (s0 : State)
    (s : State) (i : Nat) (o : Nat) (askers : List Nat) :
    sameExcept ps s0 (guaCycle s i o askers).2 ↔ sameExcept ps s0 s :=
  sameExcept_through (guaCycle_frame s i o askers) hps s0
@[simp ↓] theorem guaCycle_canonical (s : State) (i : Nat) (o : Nat) (askers : List Nat) (h : canonical s) : canonical (guaCycle s i o askers).2 := by
  unfold guaCycle
  dsimp only
  (repeat' split) <;> simp (maxDischargeDepth := 60) (contextual := true) [h]
theorem guaCycle_low (s : State) (i : Nat) (o : Nat) (askers : List Nat) :
    belowKept 0x100000 s (guaCycle s i o askers).2 := by
  unfold guaCycle
  dsimp only
  (repeat' split) <;> simp (maxDischargeDepth := 60)
@[simp ↓] theorem guaCycle_below (L : Nat) (hL : L ≤ 0x100000) (s0 : State) (s : State) (i : Nat) (o : Nat) (askers : List Nat) :
    belowKept L s0 (guaCycle s i o askers).2 ↔ belowKept L s0 s :=
  belowKept_iff (belowKept_mono (guaCycle_low s i o askers) hL) s0

theorem sendHeartbeat_frame (s : State) (i : Nat) (o : Nat) :
    sameExcept [.hg, .rt, .wires, .pr] s (sendHeartbeat s i o) := by
  unfold sendHeartbeat
  (repeat' split) <;> simp (disch := decide)
@[simp ↓] theorem sendHeartbeat_through (ps : List Piece) (hps : ([.hg, .rt, .wires, .pr] : List Piece).all (ps.contains ·) = true) (s0 : State)
    (s : State) (i : Nat) (o : Nat) :
    sameExcept ps s0 (sendHeartbeat s i o) ↔ sameExcept ps s0 s :=
  sameExcept_through (sendHeartbeat_frame s i o) hps s0
@[simp ↓] theorem sendHeartbeat_canonical (s : State) (i : Nat) (o : Nat) : canonical (sendHeartbeat s i o) ↔ canonical s :=
  canonical_same (sendHeartbeat_frame s i o) (by decide)
@[simp ↓] theorem sendHeartbeat_below (L : Nat) (s0 : State) (s : State) (i : Nat) (o : Nat) :
    belowKept L s0 (sendHeartbeat s i o) ↔ belowKept L s0 s :=
  belowKept_iff (belowKept_same (sendHeartbeat_frame s i o) (by decide)) s0

theorem arbitrateOut_frame (s : State) (i : Nat) (o : Nat) :
    sameExcept [.regs, .hg, .rt, .wires, .credits, .pr, .al, .lateGua] s (arbitrateOut s i o) := by
  unfold arbitrateOut
  dsimp only
  (repeat' split) <;> simp (disch := first | decide | (intro _ _; (repeat' split) <;> simp (disch := decide))) [sameExcept_foldl, sameExcept_foldl1, sameExcept_foldl2, sameExcept_forEach, sameExcept_forRange]
@[simp ↓] theorem arbitrateOut_through (ps : List Piece) (hps : ([.regs, .hg, .rt, .wires, .credits, .pr, .al, .lateGua] : List Piece).all (ps.contains ·) = true) (s0 : State)
    (s : State) (i : Nat) (o : Nat) :
    sameExcept ps s0 (arbitrateOut s i o) ↔ sameExcept ps s0 s :=
  sameExcept_through (arbitrateOut_frame s i o) hps s0
@[simp ↓] theorem arbitrateOut_canonical (s : State) (i : Nat) (o : Nat) (h : canonical s) : canonical (arbitrateOut s i o) := by
  unfold arbitrateOut
  simp (maxDischargeDepth := 60) (contextual := true) [h]
theorem arbitrateOut_low (s : State) (i : Nat) (o : Nat) :
    belowKept 0x100000 s (arbitrateOut s i o) := by
  unfold arbitrateOut
  dsimp only
  (repeat' split) <;> simp (maxDischargeDepth := 60) [belowKept_foldl, belowKept_foldl1, belowKept_foldl2, belowKept_forEach, belowKept_forRange]
@[simp ↓] theorem arbitrateOut_below (L : Nat) (hL : L ≤ 0x100000) (s0 : State) (s : State) (i : Nat) (o : Nat) :
    belowKept L s0 (arbitrateOut s i o) ↔ belowKept L s0 s :=
  belowKept_iff (belowKept_mono (arbitrateOut_low s i o) hL) s0

theorem hopErrors_frame (s : State) (e : LEnd) (k : Nat) :
    sameExcept [.regs, .hg, .rt, .wires, .credits, .al] s (hopErrors s e k) := by
  unfold hopErrors
  dsimp only
  (repeat' split) <;> simp (disch := decide)
@[simp ↓] theorem hopErrors_through (ps : List Piece) (hps : ([.regs, .hg, .rt, .wires, .credits, .al] : List Piece).all (ps.contains ·) = true) (s0 : State)
    (s : State) (e : LEnd) (k : Nat) :
    sameExcept ps s0 (hopErrors s e k) ↔ sameExcept ps s0 s :=
  sameExcept_through (hopErrors_frame s e k) hps s0
@[simp ↓] theorem hopErrors_canonical (s : State) (e : LEnd) (k : Nat) (h : canonical s) : canonical (hopErrors s e k) := by
  unfold hopErrors
  dsimp only
  (repeat' split) <;> simp (maxDischargeDepth := 60) (contextual := true) [h]
theorem hopErrors_low (s : State) (e : LEnd) (k : Nat) :
    belowKept 0x100000 s (hopErrors s e k) := by
  unfold hopErrors
  dsimp only
  (repeat' split) <;> simp (maxDischargeDepth := 60)
@[simp ↓] theorem hopErrors_below (L : Nat) (hL : L ≤ 0x100000) (s0 : State) (s : State) (e : LEnd) (k : Nat) :
    belowKept L s0 (hopErrors s e k) ↔ belowKept L s0 s :=
  belowKept_iff (belowKept_mono (hopErrors_low s e k) hL) s0

theorem controlFlit_frame (s : State) (e : LEnd) (f : Flit) :
    sameExcept [.regs, .hg, .rt, .wires, .credits, .al] s (controlFlit s e f) := by
  unfold controlFlit
  simp (disch := decide)
@[simp ↓] theorem controlFlit_through (ps : List Piece) (hps : ([.regs, .hg, .rt, .wires, .credits, .al] : List Piece).all (ps.contains ·) = true) (s0 : State)
    (s : State) (e : LEnd) (f : Flit) :
    sameExcept ps s0 (controlFlit s e f) ↔ sameExcept ps s0 s :=
  sameExcept_through (controlFlit_frame s e f) hps s0
@[simp ↓] theorem controlFlit_canonical (s : State) (e : LEnd) (f : Flit) (h : canonical s) : canonical (controlFlit s e f) := by
  unfold controlFlit
  simp (maxDischargeDepth := 60) (contextual := true) [h]
theorem controlFlit_low (s : State) (e : LEnd) (f : Flit) :
    belowKept 0x100000 s (controlFlit s e f) := by
  unfold controlFlit
  simp (maxDischargeDepth := 60)
@[simp ↓] theorem controlFlit_below (L : Nat) (hL : L ≤ 0x100000) (s0 : State) (s : State) (e : LEnd) (f : Flit) :
    belowKept L s0 (controlFlit s e f) ↔ belowKept L s0 s :=
  belowKept_iff (belowKept_mono (controlFlit_low s e f) hL) s0

theorem refuseFlit_frame (s : State) (e : LEnd) (f : Flit) :
    sameExcept [.credits] s (refuseFlit s e f) := by
  unfold refuseFlit
  simp (disch := decide)
@[simp ↓] theorem refuseFlit_through (ps : List Piece) (hps : ([.credits] : List Piece).all (ps.contains ·) = true) (s0 : State)
    (s : State) (e : LEnd) (f : Flit) :
    sameExcept ps s0 (refuseFlit s e f) ↔ sameExcept ps s0 s :=
  sameExcept_through (refuseFlit_frame s e f) hps s0
@[simp ↓] theorem refuseFlit_canonical (s : State) (e : LEnd) (f : Flit) : canonical (refuseFlit s e f) ↔ canonical s :=
  canonical_same (refuseFlit_frame s e f) (by decide)
@[simp ↓] theorem refuseFlit_below (L : Nat) (s0 : State) (s : State) (e : LEnd) (f : Flit) :
    belowKept L s0 (refuseFlit s e f) ↔ belowKept L s0 s :=
  belowKept_iff (belowKept_same (refuseFlit_frame s e f) (by decide)) s0

theorem storeRaw_frame (s : State) (n : Nat) (fs : List Flit) (vc : Nat) (stored : Bool) :
    sameExcept [.hg, .al] s (storeRaw s n fs vc stored) := by
  unfold storeRaw
  (repeat' split) <;> simp (disch := decide)
@[simp ↓] theorem storeRaw_through (ps : List Piece) (hps : ([.hg, .al] : List Piece).all (ps.contains ·) = true) (s0 : State)
    (s : State) (n : Nat) (fs : List Flit) (vc : Nat) (stored : Bool) :
    sameExcept ps s0 (storeRaw s n fs vc stored) ↔ sameExcept ps s0 s :=
  sameExcept_through (storeRaw_frame s n fs vc stored) hps s0
@[simp ↓] theorem storeRaw_canonical (s : State) (n : Nat) (fs : List Flit) (vc : Nat) (stored : Bool) : canonical (storeRaw s n fs vc stored) ↔ canonical s :=
  canonical_same (storeRaw_frame s n fs vc stored) (by decide)
@[simp ↓] theorem storeRaw_below (L : Nat) (s0 : State) (s : State) (n : Nat) (fs : List Flit) (vc : Nat) (stored : Bool) :
    belowKept L s0 (storeRaw s n fs vc stored) ↔ belowKept L s0 s :=
  belowKept_iff (belowKept_same (storeRaw_frame s n fs vc stored) (by decide)) s0

theorem headgateFlit_frame (s : State) (n : Nat) (l : Nat) (f : Flit) :
    sameExcept [.regs, .hg, .rt, .wires, .credits, .pr, .al] s (headgateFlit s n l f) := by
  unfold headgateFlit
  simp (disch := decide)
@[simp ↓] theorem headgateFlit_through (ps : List Piece) (hps : ([.regs, .hg, .rt, .wires, .credits, .pr, .al] : List Piece).all (ps.contains ·) = true) (s0 : State)
    (s : State) (n : Nat) (l : Nat) (f : Flit) :
    sameExcept ps s0 (headgateFlit s n l f) ↔ sameExcept ps s0 s :=
  sameExcept_through (headgateFlit_frame s n l f) hps s0
@[simp ↓] theorem headgateFlit_canonical (s : State) (n : Nat) (l : Nat) (f : Flit) (h : canonical s) : canonical (headgateFlit s n l f) := by
  unfold headgateFlit
  simp (maxDischargeDepth := 60) (contextual := true) [h]
theorem headgateFlit_low (s : State) (n : Nat) (l : Nat) (f : Flit) :
    belowKept 0x100000 s (headgateFlit s n l f) := by
  unfold headgateFlit
  simp (maxDischargeDepth := 60)
@[simp ↓] theorem headgateFlit_below (L : Nat) (hL : L ≤ 0x100000) (s0 : State) (s : State) (n : Nat) (l : Nat) (f : Flit) :
    belowKept L s0 (headgateFlit s n l f) ↔ belowKept L s0 s :=
  belowKept_iff (belowKept_mono (headgateFlit_low s n l f) hL) s0

theorem bufferWord_frame (s : State) (i : Nat) (p : Nat) (f : Flit) (err : MemErr) :
    sameExcept [.regs, .al, .freeCtr] s (bufferWord s i p f err).2 := by
  cases err <;> simp (disch := decide) [bufferWord]
@[simp ↓] theorem bufferWord_through (ps : List Piece) (hps : ([.regs, .al, .freeCtr] : List Piece).all (ps.contains ·) = true) (s0 : State)
    (s : State) (i : Nat) (p : Nat) (f : Flit) (err : MemErr) :
    sameExcept ps s0 (bufferWord s i p f err).2 ↔ sameExcept ps s0 s :=
  sameExcept_through (bufferWord_frame s i p f err) hps s0
@[simp ↓] theorem bufferWord_canonical (s : State) (i : Nat) (p : Nat) (f : Flit) (err : MemErr) (h : canonical s) : canonical (bufferWord s i p f err).2 := by
  unfold bufferWord
  dsimp only
  (repeat' split) <;> simp (maxDischargeDepth := 60) (contextual := true) [h]
theorem bufferWord_low (s : State) (i : Nat) (p : Nat) (f : Flit) (err : MemErr) :
    belowKept 0x100000 s (bufferWord s i p f err).2 := by
  cases err <;> simp (maxDischargeDepth := 60) [bufferWord]
@[simp ↓] theorem bufferWord_below (L : Nat) (hL : L ≤ 0x100000) (s0 : State) (s : State) (i : Nat) (p : Nat) (f : Flit) (err : MemErr) :
    belowKept L s0 (bufferWord s i p f err).2 ↔ belowKept L s0 s :=
  belowKept_iff (belowKept_mono (bufferWord_low s i p f err) hL) s0

theorem routeMiss_frame (s : State) (i : Nat) (p : Nat) (d : Nat) :
    sameExcept [.regs, .al] s (routeMiss s i p d) := by
  unfold routeMiss
  simp (disch := decide)
@[simp ↓] theorem routeMiss_through (ps : List Piece) (hps : ([.regs, .al] : List Piece).all (ps.contains ·) = true) (s0 : State)
    (s : State) (i : Nat) (p : Nat) (d : Nat) :
    sameExcept ps s0 (routeMiss s i p d) ↔ sameExcept ps s0 s :=
  sameExcept_through (routeMiss_frame s i p d) hps s0
@[simp ↓] theorem routeMiss_canonical (s : State) (i : Nat) (p : Nat) (d : Nat) (h : canonical s) : canonical (routeMiss s i p d) := by
  unfold routeMiss
  simp (maxDischargeDepth := 60) (contextual := true) [h]
theorem routeMiss_low (s : State) (i : Nat) (p : Nat) (d : Nat) :
    belowKept 0x100000 s (routeMiss s i p d) := by
  unfold routeMiss
  simp (maxDischargeDepth := 60)
@[simp ↓] theorem routeMiss_below (L : Nat) (hL : L ≤ 0x100000) (s0 : State) (s : State) (i : Nat) (p : Nat) (d : Nat) :
    belowKept L s0 (routeMiss s i p d) ↔ belowKept L s0 s :=
  belowKept_iff (belowKept_mono (routeMiss_low s i p d) hL) s0

theorem multicastRoute_frame (s : State) (i : Nat) (p : Nat) (f : Flit) :
    sameExcept [.regs, .al] s (multicastRoute s i p f).2 := by
  unfold multicastRoute
  simp (disch := first | decide | (intro _ _; (repeat' split) <;> simp (disch := decide))) [sameExcept_foldl, sameExcept_foldl1, sameExcept_foldl2, sameExcept_forEach, sameExcept_forRange]
@[simp ↓] theorem multicastRoute_through (ps : List Piece) (hps : ([.regs, .al] : List Piece).all (ps.contains ·) = true) (s0 : State)
    (s : State) (i : Nat) (p : Nat) (f : Flit) :
    sameExcept ps s0 (multicastRoute s i p f).2 ↔ sameExcept ps s0 s :=
  sameExcept_through (multicastRoute_frame s i p f) hps s0
@[simp ↓] theorem multicastRoute_canonical (s : State) (i : Nat) (p : Nat) (f : Flit) (h : canonical s) : canonical (multicastRoute s i p f).2 := by
  unfold multicastRoute
  refine canonical_foldl2 _ _ _ h (fun t x ht => ?_)
  dsimp only
  (repeat' split) <;> simp (maxDischargeDepth := 60) (contextual := true) [ht]
theorem multicastRoute_low (s : State) (i : Nat) (p : Nat) (f : Flit) :
    belowKept 0x100000 s (multicastRoute s i p f).2 := by
  unfold multicastRoute
  rw [belowKept_foldl2]
  · simp (maxDischargeDepth := 60)
  · intro t x
    dsimp only
    (repeat' split) <;> simp (maxDischargeDepth := 60)
@[simp ↓] theorem multicastRoute_below (L : Nat) (hL : L ≤ 0x100000) (s0 : State) (s : State) (i : Nat) (p : Nat) (f : Flit) :
    belowKept L s0 (multicastRoute s i p f).2 ↔ belowKept L s0 s :=
  belowKept_iff (belowKept_mono (multicastRoute_low s i p f) hL) s0

theorem storeBadHead_frame (s : State) (i : Nat) (p : Nat) (f : Flit) :
    sameExcept [.regs, .rt, .credits, .al] s (storeBadHead s i p f) := by
  unfold storeBadHead
  simp (disch := decide)
@[simp ↓] theorem storeBadHead_through (ps : List Piece) (hps : ([.regs, .rt, .credits, .al] : List Piece).all (ps.contains ·) = true) (s0 : State)
    (s : State) (i : Nat) (p : Nat) (f : Flit) :
    sameExcept ps s0 (storeBadHead s i p f) ↔ sameExcept ps s0 s :=
  sameExcept_through (storeBadHead_frame s i p f) hps s0
@[simp ↓] theorem storeBadHead_canonical (s : State) (i : Nat) (p : Nat) (f : Flit) (h : canonical s) : canonical (storeBadHead s i p f) := by
  unfold storeBadHead
  simp (maxDischargeDepth := 60) (contextual := true) [h]
theorem storeBadHead_low (s : State) (i : Nat) (p : Nat) (f : Flit) :
    belowKept 0x100000 s (storeBadHead s i p f) := by
  unfold storeBadHead
  simp (maxDischargeDepth := 60)
@[simp ↓] theorem storeBadHead_below (L : Nat) (hL : L ≤ 0x100000) (s0 : State) (s : State) (i : Nat) (p : Nat) (f : Flit) :
    belowKept L s0 (storeBadHead s i p f) ↔ belowKept L s0 s :=
  belowKept_iff (belowKept_mono (storeBadHead_low s i p f) hL) s0

theorem storeData_frame (s : State) (i : Nat) (p : Nat) (f : Flit) (stored : Flit) (o : OpenPkt) :
    sameExcept [.regs, .rt, .credits] s (storeData s i p f stored o) := by
  unfold storeData
  (repeat' split) <;> simp (disch := decide)
@[simp ↓] theorem storeData_through (ps : List Piece) (hps : ([.regs, .rt, .credits] : List Piece).all (ps.contains ·) = true) (s0 : State)
    (s : State) (i : Nat) (p : Nat) (f : Flit) (stored : Flit) (o : OpenPkt) :
    sameExcept ps s0 (storeData s i p f stored o) ↔ sameExcept ps s0 s :=
  sameExcept_through (storeData_frame s i p f stored o) hps s0
@[simp ↓] theorem storeData_canonical (s : State) (i : Nat) (p : Nat) (f : Flit) (stored : Flit) (o : OpenPkt) (h : canonical s) : canonical (storeData s i p f stored o) := by
  unfold storeData
  (repeat' split) <;> simp (maxDischargeDepth := 60) (contextual := true) [h]
theorem storeData_low (s : State) (i : Nat) (p : Nat) (f : Flit) (stored : Flit) (o : OpenPkt) :
    belowKept 0x100000 s (storeData s i p f stored o) := by
  unfold storeData
  (repeat' split) <;> simp (maxDischargeDepth := 60)
@[simp ↓] theorem storeData_below (L : Nat) (hL : L ≤ 0x100000) (s0 : State) (s : State) (i : Nat) (p : Nat) (f : Flit) (stored : Flit) (o : OpenPkt) :
    belowKept L s0 (storeData s i p f stored o) ↔ belowKept L s0 s :=
  belowKept_iff (belowKept_mono (storeData_low s i p f stored o) hL) s0

theorem unicastRoute_frame (s : State) (i : Nat) (p : Nat) (f : Flit) :
    sameExcept [.regs, .al, .lateGua] s (unicastRoute s i p f).2 := by
  unfold unicastRoute
  dsimp only
  (repeat' split) <;> simp (disch := decide)
@[simp ↓] theorem unicastRoute_through (ps : List Piece) (hps : ([.regs, .al, .lateGua] : List Piece).all (ps.contains ·) = true) (s0 : State)
    (s : State) (i : Nat) (p : Nat) (f : Flit) :
    sameExcept ps s0 (unicastRoute s i p f).2 ↔ sameExcept ps s0 s :=
  sameExcept_through (unicastRoute_frame s i p f) hps s0
@[simp ↓] theorem unicastRoute_canonical (s : State) (i : Nat) (p : Nat) (f : Flit) (h : canonical s) : canonical (unicastRoute s i p f).2 := by
  unfold unicastRoute
  dsimp only
  (repeat' split) <;> simp (maxDischargeDepth := 60) (contextual := true) [h]
theorem unicastRoute_low (s : State) (i : Nat) (p : Nat) (f : Flit) :
    belowKept 0x100000 s (unicastRoute s i p f).2 := by
  unfold unicastRoute
  dsimp only
  (repeat' split) <;> simp (maxDischargeDepth := 60)
@[simp ↓] theorem unicastRoute_below (L : Nat) (hL : L ≤ 0x100000) (s0 : State) (s : State) (i : Nat) (p : Nat) (f : Flit) :
    belowKept L s0 (unicastRoute s i p f).2 ↔ belowKept L s0 s :=
  belowKept_iff (belowKept_mono (unicastRoute_low s i p f) hL) s0

theorem storeHead_frame (s : State) (i : Nat) (p : Nat) (f : Flit) (stored : Flit) :
    sameExcept [.regs, .rt, .credits, .al, .lateGua] s (storeHead s i p f stored) := by
  unfold storeHead
  simp (disch := decide)
@[simp ↓] theorem storeHead_through (ps : List Piece) (hps : ([.regs, .rt, .credits, .al, .lateGua] : List Piece).all (ps.contains ·) = true) (s0 : State)
    (s : State) (i : Nat) (p : Nat) (f : Flit) (stored : Flit) :
    sameExcept ps s0 (storeHead s i p f stored) ↔ sameExcept ps s0 s :=
  sameExcept_through (storeHead_frame s i p f stored) hps s0
@[simp ↓] theorem storeHead_canonical (s : State) (i : Nat) (p : Nat) (f : Flit) (stored : Flit) (h : canonical s) : canonical (storeHead s i p f stored) := by
  unfold storeHead
  simp (maxDischargeDepth := 60) (contextual := true) [h]
theorem storeHead_low (s : State) (i : Nat) (p : Nat) (f : Flit) (stored : Flit) :
    belowKept 0x100000 s (storeHead s i p f stored) := by
  unfold storeHead
  simp (maxDischargeDepth := 60)
@[simp ↓] theorem storeHead_below (L : Nat) (hL : L ≤ 0x100000) (s0 : State) (s : State) (i : Nat) (p : Nat) (f : Flit) (stored : Flit) :
    belowKept L s0 (storeHead s i p f stored) ↔ belowKept L s0 s :=
  belowKept_iff (belowKept_mono (storeHead_low s i p f stored) hL) s0

theorem routerFlit_frame (s : State) (i : Nat) (p : Nat) (f : Flit) (err : MemErr) :
    sameExcept [.regs, .hg, .rt, .wires, .credits, .al, .lateGua, .freeCtr] s (routerFlit s i p f err) := by
  unfold routerFlit
  extract_lets s1 o bad
  have h1 : sameExcept [.regs, .hg, .rt, .wires, .credits, .al, .lateGua, .freeCtr] s s1 := by simp only [s1]; split <;> simp (disch := decide)
  clear_value s1 o bad
  split
  · simp (disch := decide) [h1]
  · split
    · simp (disch := decide) [h1]
    · split <;> (rename_i heq; rw [Prod.ext_iff] at heq; rcases heq with ⟨_, rfl⟩; (repeat' split) <;> simp (disch := decide) [h1])
@[simp ↓] theorem routerFlit_through (ps : List Piece) (hps : ([.regs, .hg, .rt, .wires, .credits, .al, .lateGua, .freeCtr] : List Piece).all (ps.contains ·) = true) (s0 : State)
    (s : State) (i : Nat) (p : Nat) (f : Flit) (err : MemErr) :
    sameExcept ps s0 (routerFlit s i p f err) ↔ sameExcept ps s0 s :=
  sameExcept_through (routerFlit_frame s i p f err) hps s0
@[simp ↓] theorem routerFlit_canonical (s : State) (i : Nat) (p : Nat) (f : Flit) (err : MemErr) (h : canonical s) : canonical (routerFlit s i p f err) := by
  unfold routerFlit
  extract_lets s1 o bad
  have h1 : canonical s1 := by simp only [s1]; split <;> simp (maxDischargeDepth := 60) (contextual := true) [h]
  clear_value s1 o bad
  split
  · simp (maxDischargeDepth := 60) (contextual := true) [h1]
  · split
    · simp (maxDischargeDepth := 60) (contextual := true) [h1]
    · split <;> (rename_i heq; rw [Prod.ext_iff] at heq; rcases heq with ⟨_, rfl⟩; (repeat' split) <;> simp (maxDischargeDepth := 60) (contextual := true) [h1])
theorem routerFlit_low (s : State) (i : Nat) (p : Nat) (f : Flit) (err : MemErr) :
    belowKept 0x100000 s (routerFlit s i p f err) := by
  unfold routerFlit
  extract_lets s1 o bad
  have h1 : belowKept 0x100000 s s1 := by simp only [s1]; split <;> simp (maxDischargeDepth := 60)
  clear_value s1 o bad
  split
  · simp (maxDischargeDepth := 60) [h1]
  · split
    · simp (maxDischargeDepth := 60) [h1]
    · split <;> (rename_i heq; rw [Prod.ext_iff] at heq; rcases heq with ⟨_, rfl⟩; (repeat' split) <;> simp (maxDischargeDepth := 60) [h1])
@[simp ↓] theorem routerFlit_below (L : Nat) (hL : L ≤ 0x100000) (s0 : State) (s : State) (i : Nat) (p : Nat) (f : Flit) (err : MemErr) :
    belowKept L s0 (routerFlit s i p f err) ↔ belowKept L s0 s :=
  belowKept_iff (belowKept_mono (routerFlit_low s i p f err) hL) s0

theorem arriveBits_frame (s : State) (e : LEnd) (f : Flit) (err : MemErr) :
    sameExcept [.regs, .hg, .rt, .wires, .credits, .pr, .al, .lateGua, .freeCtr] s (arriveBits s e f err) := by
  unfold arriveBits
  (repeat' split) <;> simp (disch := decide)
@[simp ↓] theorem arriveBits_through (ps : List Piece) (hps : ([.regs, .hg, .rt, .wires, .credits, .pr, .al, .lateGua, .freeCtr] : List Piece).all (ps.contains ·) = true) (s0 : State)
    (s : State) (e : LEnd) (f : Flit) (err : MemErr) :
    sameExcept ps s0 (arriveBits s e f err) ↔ sameExcept ps s0 s :=
  sameExcept_through (arriveBits_frame s e f err) hps s0
@[simp ↓] theorem arriveBits_canonical (s : State) (e : LEnd) (f : Flit) (err : MemErr) (h : canonical s) : canonical (arriveBits s e f err) := by
  unfold arriveBits
  (repeat' split) <;> simp (maxDischargeDepth := 60) (contextual := true) [h]
theorem arriveBits_low (s : State) (e : LEnd) (f : Flit) (err : MemErr) :
    belowKept 0x100000 s (arriveBits s e f err) := by
  unfold arriveBits
  (repeat' split) <;> simp (maxDischargeDepth := 60)
@[simp ↓] theorem arriveBits_below (L : Nat) (hL : L ≤ 0x100000) (s0 : State) (s : State) (e : LEnd) (f : Flit) (err : MemErr) :
    belowKept L s0 (arriveBits s e f err) ↔ belowKept L s0 s :=
  belowKept_iff (belowKept_mono (arriveBits_low s e f err) hL) s0

theorem nextOnWire_some {s t : State} {e : LEnd} {f : Flit} (h : nextOnWire s e = some (f, t)) :
    sameExcept [.wires, .hg, .rt] s t := by
  unfold nextOnWire at h
  dsimp only at h
  (repeat' split at h) <;> cases h <;> simp (disch := decide)
theorem arrive_frame (s : State) (e : LEnd) (damage : BitVec 576) (err : MemErr) (hb : Bool) :
    sameExcept [.regs, .hg, .rt, .wires, .credits, .pr, .al, .lateGua, .freeCtr] s (arrive s e damage err hb) := by
  unfold arrive
  split
  · simp
  · rename_i f t heq
    have hw := sameExcept_mono (nextOnWire_some heq) (qs := [.regs, .hg, .rt, .wires, .credits, .pr, .al, .lateGua, .freeCtr]) (by decide)
    split
    · exact sameExcept_trans hw (by simp (disch := decide))
    · simp
@[simp ↓] theorem arrive_through (ps : List Piece) (hps : ([.regs, .hg, .rt, .wires, .credits, .pr, .al, .lateGua, .freeCtr] : List Piece).all (ps.contains ·) = true) (s0 : State)
    (s : State) (e : LEnd) (damage : BitVec 576) (err : MemErr) (hb : Bool) :
    sameExcept ps s0 (arrive s e damage err hb) ↔ sameExcept ps s0 s :=
  sameExcept_through (arrive_frame s e damage err hb) hps s0
@[simp ↓] theorem arrive_canonical (s : State) (e : LEnd) (damage : BitVec 576) (err : MemErr) (hb : Bool) (h : canonical s) : canonical (arrive s e damage err hb) := by
  unfold arrive
  split
  · exact h
  · rename_i heq
    have hw := (canonical_same (nextOnWire_some heq) (by decide)).mpr h
    split
    · simp (maxDischargeDepth := 60) (contextual := true) [hw]
    · exact h
theorem arrive_low (s : State) (e : LEnd) (damage : BitVec 576) (err : MemErr) (hb : Bool) :
    belowKept 0x100000 s (arrive s e damage err hb) := by
  unfold arrive
  split
  · simp (maxDischargeDepth := 60)
  · rename_i heq
    have hw := belowKept_same (L := 0x100000) (nextOnWire_some heq) (by decide)
    split
    · simp (maxDischargeDepth := 60) [hw]
    · simp (maxDischargeDepth := 60)
@[simp ↓] theorem arrive_below (L : Nat) (hL : L ≤ 0x100000) (s0 : State) (s : State) (e : LEnd) (damage : BitVec 576) (err : MemErr) (hb : Bool) :
    belowKept L s0 (arrive s e damage err hb) ↔ belowKept L s0 s :=
  belowKept_iff (belowKept_mono (arrive_low s e damage err hb) hL) s0

theorem creditIn_frame (s : State) (e : LEnd) (damage : BitVec 6) :
    sameExcept [.regs, .hg, .rt, .wires, .credits, .al] s (creditIn s e damage) := by
  unfold creditIn
  (repeat' split) <;> simp (disch := decide)
@[simp ↓] theorem creditIn_through (ps : List Piece) (hps : ([.regs, .hg, .rt, .wires, .credits, .al] : List Piece).all (ps.contains ·) = true) (s0 : State)
    (s : State) (e : LEnd) (damage : BitVec 6) :
    sameExcept ps s0 (creditIn s e damage) ↔ sameExcept ps s0 s :=
  sameExcept_through (creditIn_frame s e damage) hps s0
@[simp ↓] theorem creditIn_canonical (s : State) (e : LEnd) (damage : BitVec 6) (h : canonical s) : canonical (creditIn s e damage) := by
  unfold creditIn
  (repeat' split) <;> simp (maxDischargeDepth := 60) (contextual := true) [h]
theorem creditIn_low (s : State) (e : LEnd) (damage : BitVec 6) :
    belowKept 0x100000 s (creditIn s e damage) := by
  unfold creditIn
  (repeat' split) <;> simp (maxDischargeDepth := 60)
@[simp ↓] theorem creditIn_below (L : Nat) (hL : L ≤ 0x100000) (s0 : State) (s : State) (e : LEnd) (damage : BitVec 6) :
    belowKept L s0 (creditIn s e damage) ↔ belowKept L s0 s :=
  belowKept_iff (belowKept_mono (creditIn_low s e damage) hL) s0

theorem heartbeatDue_frame (s : State) (e : LEnd) :
    sameExcept [.hg, .rt, .wires] s (heartbeatDue s e) := by
  unfold heartbeatDue
  (repeat' split) <;> simp (disch := decide)
@[simp ↓] theorem heartbeatDue_through (ps : List Piece) (hps : ([.hg, .rt, .wires] : List Piece).all (ps.contains ·) = true) (s0 : State)
    (s : State) (e : LEnd) :
    sameExcept ps s0 (heartbeatDue s e) ↔ sameExcept ps s0 s :=
  sameExcept_through (heartbeatDue_frame s e) hps s0
@[simp ↓] theorem heartbeatDue_canonical (s : State) (e : LEnd) : canonical (heartbeatDue s e) ↔ canonical s :=
  canonical_same (heartbeatDue_frame s e) (by decide)
@[simp ↓] theorem heartbeatDue_below (L : Nat) (s0 : State) (s : State) (e : LEnd) :
    belowKept L s0 (heartbeatDue s e) ↔ belowKept L s0 s :=
  belowKept_iff (belowKept_same (heartbeatDue_frame s e) (by decide)) s0

theorem silenceExpire_frame (s : State) (e : LEnd) :
    sameExcept [.fclk, .regs, .hg, .rt, .wires, .credits, .al] s (silenceExpire s e) := by
  unfold silenceExpire
  simp (disch := decide)
@[simp ↓] theorem silenceExpire_through (ps : List Piece) (hps : ([.fclk, .regs, .hg, .rt, .wires, .credits, .al] : List Piece).all (ps.contains ·) = true) (s0 : State)
    (s : State) (e : LEnd) :
    sameExcept ps s0 (silenceExpire s e) ↔ sameExcept ps s0 s :=
  sameExcept_through (silenceExpire_frame s e) hps s0
@[simp ↓] theorem silenceExpire_canonical (s : State) (e : LEnd) (h : canonical s) : canonical (silenceExpire s e) := by
  unfold silenceExpire
  simp (maxDischargeDepth := 60) (contextual := true) [h]
theorem silenceExpire_low (s : State) (e : LEnd) :
    belowKept 0x100000 s (silenceExpire s e) := by
  unfold silenceExpire
  simp (maxDischargeDepth := 60)
@[simp ↓] theorem silenceExpire_below (L : Nat) (hL : L ≤ 0x100000) (s0 : State) (s : State) (e : LEnd) :
    belowKept L s0 (silenceExpire s e) ↔ belowKept L s0 s :=
  belowKept_iff (belowKept_mono (silenceExpire_low s e) hL) s0

end Sys2Proof.Machine
end

