-- ==== Sys2Proof/Laws/FrameFaults.lean ====
section
/-! SUPPORT. What each operation of `Machine/Faults.lean` can change, in the pieces of `Safety.lean`: `<operation>_frame` says it once,
`<operation>_through` carries it past the operation, `<operation>_canonical` says that it keeps the canonical form, and
`<operation>_low`, `<operation>_below` that it keeps the registers below the blocks it works on. -/

open Sys2Proof

namespace Sys2Proof.Machine

set_option linter.unusedSimpArgs false
set_option linter.unusedVariables false

theorem restartLink_frame (s : State) (e : LEnd) :
    sameExcept [.hg, .rt] s (restartLink s e) := by
  unfold restartLink
  simp (disch := decide)
@[simp ↓] theorem restartLink_through (ps : List Piece) (hps : ([.hg, .rt] : List Piece).all (ps.contains ·) = true) (s0 : State)
    (s : State) (e : LEnd) :
    sameExcept ps s0 (restartLink s e) ↔ sameExcept ps s0 s :=
  sameExcept_through (restartLink_frame s e) hps s0
@[simp ↓] theorem restartLink_canonical (s : State) (e : LEnd) : canonical (restartLink s e) ↔ canonical s :=
  canonical_same (restartLink_frame s e) (by decide)
@[simp ↓] theorem restartLink_below (L : Nat) (s0 : State) (s : State) (e : LEnd) :
    belowKept L s0 (restartLink s e) ↔ belowKept L s0 s :=
  belowKept_iff (belowKept_same (restartLink_frame s e) (by decide)) s0

theorem clearPort_frame (s : State) (e : LEnd) :
    sameExcept [.regs, .hg, .rt, .wires, .credits] s (clearPort s e) := by
  unfold clearPort
  (repeat' split) <;> simp (disch := decide)
@[simp ↓] theorem clearPort_through (ps : List Piece) (hps : ([.regs, .hg, .rt, .wires, .credits] : List Piece).all (ps.contains ·) = true) (s0 : State)
    (s : State) (e : LEnd) :
    sameExcept ps s0 (clearPort s e) ↔ sameExcept ps s0 s :=
  sameExcept_through (clearPort_frame s e) hps s0
@[simp ↓] theorem clearPort_canonical (s : State) (e : LEnd) (h : canonical s) : canonical (clearPort s e) := by
  unfold clearPort
  (repeat' split) <;> simp (maxDischargeDepth := 60) (contextual := true) [h]
theorem clearPort_low (s : State) (e : LEnd) :
    belowKept 0x100000 s (clearPort s e) := by
  unfold clearPort
  (repeat' split) <;> simp (maxDischargeDepth := 60)
@[simp ↓] theorem clearPort_below (L : Nat) (hL : L ≤ 0x100000) (s0 : State) (s : State) (e : LEnd) :
    belowKept L s0 (clearPort s e) ↔ belowKept L s0 s :=
  belowKept_iff (belowKept_mono (clearPort_low s e) hL) s0

theorem dropPartial_frame (s : State) (e : LEnd) :
    sameExcept [.regs, .hg, .rt, .credits] s (dropPartial s e) := by
  unfold dropPartial
  (repeat' split) <;> simp (disch := first | decide | (intro _ _; (repeat' split) <;> simp (disch := decide))) [sameExcept_foldl, sameExcept_foldl1, sameExcept_foldl2, sameExcept_forEach, sameExcept_forRange]
@[simp ↓] theorem dropPartial_through (ps : List Piece) (hps : ([.regs, .hg, .rt, .credits] : List Piece).all (ps.contains ·) = true) (s0 : State)
    (s : State) (e : LEnd) :
    sameExcept ps s0 (dropPartial s e) ↔ sameExcept ps s0 s :=
  sameExcept_through (dropPartial_frame s e) hps s0
@[simp ↓] theorem dropPartial_canonical (s : State) (e : LEnd) (h : canonical s) : canonical (dropPartial s e) := by
  unfold dropPartial
  (repeat' split) <;> simp (maxDischargeDepth := 60) (contextual := true) [h]
theorem dropPartial_low (s : State) (e : LEnd) :
    belowKept 0x100000 s (dropPartial s e) := by
  unfold dropPartial
  (repeat' split) <;> simp (maxDischargeDepth := 60) [belowKept_foldl, belowKept_foldl1, belowKept_foldl2, belowKept_forEach, belowKept_forRange]
@[simp ↓] theorem dropPartial_below (L : Nat) (hL : L ≤ 0x100000) (s0 : State) (s : State) (e : LEnd) :
    belowKept L s0 (dropPartial s e) ↔ belowKept L s0 s :=
  belowKept_iff (belowKept_mono (dropPartial_low s e) hL) s0

theorem setEnabled_frame (s : State) (e : LEnd) (b : Bool) :
    sameExcept [.regs] s (setEnabled s e b) := by
  unfold setEnabled
  (repeat' split) <;> simp (disch := decide)
@[simp ↓] theorem setEnabled_through (ps : List Piece) (hps : ([.regs] : List Piece).all (ps.contains ·) = true) (s0 : State)
    (s : State) (e : LEnd) (b : Bool) :
    sameExcept ps s0 (setEnabled s e b) ↔ sameExcept ps s0 s :=
  sameExcept_through (setEnabled_frame s e b) hps s0
@[simp ↓] theorem setEnabled_canonical (s : State) (e : LEnd) (b : Bool) (h : canonical s) : canonical (setEnabled s e b) := by
  unfold setEnabled
  (repeat' split) <;> simp (maxDischargeDepth := 60) (contextual := true) [h]
theorem setEnabled_low (s : State) (e : LEnd) (b : Bool) :
    belowKept 0x100000 s (setEnabled s e b) := by
  unfold setEnabled
  (repeat' split) <;> simp (maxDischargeDepth := 60)
@[simp ↓] theorem setEnabled_below (L : Nat) (hL : L ≤ 0x100000) (s0 : State) (s : State) (e : LEnd) (b : Bool) :
    belowKept L s0 (setEnabled s e b) ↔ belowKept L s0 s :=
  belowKept_iff (belowKept_mono (setEnabled_low s e b) hL) s0

theorem writeEnable_frame (s : State) (e : LEnd) (b : Bool) :
    sameExcept [.regs, .hg, .rt, .wires, .credits, .al] s (writeEnable s e b) := by
  unfold writeEnable
  (repeat' split) <;> simp (disch := decide)
@[simp ↓] theorem writeEnable_through (ps : List Piece) (hps : ([.regs, .hg, .rt, .wires, .credits, .al] : List Piece).all (ps.contains ·) = true) (s0 : State)
    (s : State) (e : LEnd) (b : Bool) :
    sameExcept ps s0 (writeEnable s e b) ↔ sameExcept ps s0 s :=
  sameExcept_through (writeEnable_frame s e b) hps s0
@[simp ↓] theorem writeEnable_canonical (s : State) (e : LEnd) (b : Bool) (h : canonical s) : canonical (writeEnable s e b) := by
  unfold writeEnable
  (repeat' split) <;> simp (maxDischargeDepth := 60) (contextual := true) [h]
theorem writeEnable_low (s : State) (e : LEnd) (b : Bool) :
    belowKept 0x100000 s (writeEnable s e b) := by
  unfold writeEnable
  (repeat' split) <;> simp (maxDischargeDepth := 60)
@[simp ↓] theorem writeEnable_below (L : Nat) (hL : L ≤ 0x100000) (s0 : State) (s : State) (e : LEnd) (b : Bool) :
    belowKept L s0 (writeEnable s e b) ↔ belowKept L s0 s :=
  belowKept_iff (belowKept_mono (writeEnable_low s e b) hL) s0

theorem writeUse_frame (s : State) (n : Nat) (use : Bool) :
    sameExcept [.regs, .hg] s (writeUse s n use) := by
  unfold writeUse
  simp (disch := decide)
@[simp ↓] theorem writeUse_through (ps : List Piece) (hps : ([.regs, .hg] : List Piece).all (ps.contains ·) = true) (s0 : State)
    (s : State) (n : Nat) (use : Bool) :
    sameExcept ps s0 (writeUse s n use) ↔ sameExcept ps s0 s :=
  sameExcept_through (writeUse_frame s n use) hps s0
@[simp ↓] theorem writeUse_canonical (s : State) (n : Nat) (use : Bool) (h : canonical s) : canonical (writeUse s n use) := by
  unfold writeUse
  simp (maxDischargeDepth := 60) (contextual := true) [h]
theorem writeUse_low (s : State) (n : Nat) (use : Bool) :
    belowKept 0x200000 s (writeUse s n use) := by
  unfold writeUse
  simp (maxDischargeDepth := 60)
@[simp ↓] theorem writeUse_below (L : Nat) (hL : L ≤ 0x200000) (s0 : State) (s : State) (n : Nat) (use : Bool) :
    belowKept L s0 (writeUse s n use) ↔ belowKept L s0 s :=
  belowKept_iff (belowKept_mono (writeUse_low s n use) hL) s0

theorem deadMemory_frame (s : State) (k : Nat) (d : Nat) :
    sameExcept [.regs, .hg, .hs, .wires, .pr, .al, .freeCtr] s (deadMemory s k d) := by
  unfold deadMemory
  dsimp only
  rw [sameExcept_forEach]
  · simp
  · intro t x
    (repeat' split) <;> simp (disch := decide)
@[simp ↓] theorem deadMemory_through (ps : List Piece) (hps : ([.regs, .hg, .hs, .wires, .pr, .al, .freeCtr] : List Piece).all (ps.contains ·) = true) (s0 : State)
    (s : State) (k : Nat) (d : Nat) :
    sameExcept ps s0 (deadMemory s k d) ↔ sameExcept ps s0 s :=
  sameExcept_through (deadMemory_frame s k d) hps s0
@[simp ↓] theorem deadMemory_canonical (s : State) (k : Nat) (d : Nat) (h : canonical s) : canonical (deadMemory s k d) := by
  unfold deadMemory
  simp (maxDischargeDepth := 60) (contextual := true) [h]
theorem deadMemory_low (s : State) (k : Nat) (d : Nat) :
    belowKept 0x80000 s (deadMemory s k d) := by
  unfold deadMemory
  simp (maxDischargeDepth := 60) [belowKept_foldl, belowKept_foldl1, belowKept_foldl2, belowKept_forEach, belowKept_forRange]
@[simp ↓] theorem deadMemory_below (L : Nat) (hL : L ≤ 0x80000) (s0 : State) (s : State) (k : Nat) (d : Nat) :
    belowKept L s0 (deadMemory s k d) ↔ belowKept L s0 s :=
  belowKept_iff (belowKept_mono (deadMemory_low s k d) hL) s0

theorem setRemote_frame (s : State) (n : Nat) (d : Nat) :
    sameExcept [.regs, .hg, .hs, .wires, .pr, .al, .freeCtr] s (setRemote s n d) := by
  unfold setRemote
  simp (disch := first | decide | (intro _ _; (repeat' split) <;> simp (disch := decide))) [sameExcept_foldl, sameExcept_foldl1, sameExcept_foldl2, sameExcept_forEach, sameExcept_forRange]
@[simp ↓] theorem setRemote_through (ps : List Piece) (hps : ([.regs, .hg, .hs, .wires, .pr, .al, .freeCtr] : List Piece).all (ps.contains ·) = true) (s0 : State)
    (s : State) (n : Nat) (d : Nat) :
    sameExcept ps s0 (setRemote s n d) ↔ sameExcept ps s0 s :=
  sameExcept_through (setRemote_frame s n d) hps s0
@[simp ↓] theorem setRemote_canonical (s : State) (n : Nat) (d : Nat) (h : canonical s) : canonical (setRemote s n d) := by
  unfold setRemote
  simp (maxDischargeDepth := 60) (contextual := true) [h]
theorem setRemote_low (s : State) (n : Nat) (d : Nat) :
    belowKept 0x80000 s (setRemote s n d) := by
  unfold setRemote
  simp (maxDischargeDepth := 60) [belowKept_foldl, belowKept_foldl1, belowKept_foldl2, belowKept_forEach, belowKept_forRange]
@[simp ↓] theorem setRemote_below (L : Nat) (hL : L ≤ 0x80000) (s0 : State) (s : State) (n : Nat) (d : Nat) :
    belowKept L s0 (setRemote s n d) ↔ belowKept L s0 s :=
  belowKept_iff (belowKept_mono (setRemote_low s n d) hL) s0

theorem clearLevee_frame (s : State) (n : Nat) :
    sameExcept [.regs, .hg, .wires, .pr, .al] s (clearLevee s n) := by
  unfold clearLevee
  simp (disch := first | decide | (intro _ _; (repeat' split) <;> simp (disch := decide))) [sameExcept_foldl, sameExcept_foldl1, sameExcept_foldl2, sameExcept_forEach, sameExcept_forRange]
@[simp ↓] theorem clearLevee_through (ps : List Piece) (hps : ([.regs, .hg, .wires, .pr, .al] : List Piece).all (ps.contains ·) = true) (s0 : State)
    (s : State) (n : Nat) :
    sameExcept ps s0 (clearLevee s n) ↔ sameExcept ps s0 s :=
  sameExcept_through (clearLevee_frame s n) hps s0
@[simp ↓] theorem clearLevee_canonical (s : State) (n : Nat) (h : canonical s) : canonical (clearLevee s n) := by
  unfold clearLevee
  simp (maxDischargeDepth := 60) (contextual := true) [h]
theorem clearLevee_low (s : State) (n : Nat) :
    belowKept 0xD0000 s (clearLevee s n) := by
  unfold clearLevee
  simp (maxDischargeDepth := 60) [belowKept_foldl, belowKept_foldl1, belowKept_foldl2, belowKept_forEach, belowKept_forRange]
@[simp ↓] theorem clearLevee_below (L : Nat) (hL : L ≤ 0xD0000) (s0 : State) (s : State) (n : Nat) :
    belowKept L s0 (clearLevee s n) ↔ belowKept L s0 s :=
  belowKept_iff (belowKept_mono (clearLevee_low s n) hL) s0

theorem setIso_frame (s : State) (n : Nat) :
    sameExcept [.regs, .hg, .wires, .pr] s (setIso s n) := by
  unfold setIso
  simp (disch := decide)
@[simp ↓] theorem setIso_through (ps : List Piece) (hps : ([.regs, .hg, .wires, .pr] : List Piece).all (ps.contains ·) = true) (s0 : State)
    (s : State) (n : Nat) :
    sameExcept ps s0 (setIso s n) ↔ sameExcept ps s0 s :=
  sameExcept_through (setIso_frame s n) hps s0
@[simp ↓] theorem setIso_canonical (s : State) (n : Nat) (h : canonical s) : canonical (setIso s n) := by
  unfold setIso
  simp (maxDischargeDepth := 60) (contextual := true) [h]
theorem setIso_low (s : State) (n : Nat) :
    belowKept 0x10000 s (setIso s n) := by
  unfold setIso
  simp (maxDischargeDepth := 60)
@[simp ↓] theorem setIso_below (L : Nat) (hL : L ≤ 0x10000) (s0 : State) (s : State) (n : Nat) :
    belowKept L s0 (setIso s n) ↔ belowKept L s0 s :=
  belowKept_iff (belowKept_mono (setIso_low s n) hL) s0

theorem setLevee_frame (s : State) (n : Nat) (byHardware : Bool) :
    sameExcept [.regs, .hg, .al] s (setLevee s n byHardware) := by
  unfold setLevee
  simp (disch := decide)
@[simp ↓] theorem setLevee_through (ps : List Piece) (hps : ([.regs, .hg, .al] : List Piece).all (ps.contains ·) = true) (s0 : State)
    (s : State) (n : Nat) (byHardware : Bool) :
    sameExcept ps s0 (setLevee s n byHardware) ↔ sameExcept ps s0 s :=
  sameExcept_through (setLevee_frame s n byHardware) hps s0
@[simp ↓] theorem setLevee_canonical (s : State) (n : Nat) (byHardware : Bool) (h : canonical s) : canonical (setLevee s n byHardware) := by
  unfold setLevee
  simp (maxDischargeDepth := 60) (contextual := true) [h]
theorem setLevee_low (s : State) (n : Nat) (byHardware : Bool) :
    belowKept 0x200000 s (setLevee s n byHardware) := by
  unfold setLevee
  simp (maxDischargeDepth := 60)
@[simp ↓] theorem setLevee_below (L : Nat) (hL : L ≤ 0x200000) (s0 : State) (s : State) (n : Nat) (byHardware : Bool) :
    belowKept L s0 (setLevee s n byHardware) ↔ belowKept L s0 s :=
  belowKept_iff (belowKept_mono (setLevee_low s n byHardware) hL) s0

theorem pairReset_frame (s : State) (n : Nat) (d : Nat) (held : Bool) :
    sameExcept [.regs, .hg] s (pairReset s n d held) := by
  unfold pairReset
  simp (disch := decide)
@[simp ↓] theorem pairReset_through (ps : List Piece) (hps : ([.regs, .hg] : List Piece).all (ps.contains ·) = true) (s0 : State)
    (s : State) (n : Nat) (d : Nat) (held : Bool) :
    sameExcept ps s0 (pairReset s n d held) ↔ sameExcept ps s0 s :=
  sameExcept_through (pairReset_frame s n d held) hps s0
@[simp ↓] theorem pairReset_canonical (s : State) (n : Nat) (d : Nat) (held : Bool) (h : canonical s) : canonical (pairReset s n d held) := by
  unfold pairReset
  simp (maxDischargeDepth := 60) (contextual := true) [h]
theorem pairReset_low (s : State) (n : Nat) (d : Nat) (held : Bool) :
    belowKept 0x200000 s (pairReset s n d held) := by
  unfold pairReset
  simp (maxDischargeDepth := 60)
@[simp ↓] theorem pairReset_below (L : Nat) (hL : L ≤ 0x200000) (s0 : State) (s : State) (n : Nat) (d : Nat) (held : Bool) :
    belowKept L s0 (pairReset s n d held) ↔ belowKept L s0 s :=
  belowKept_iff (belowKept_mono (pairReset_low s n d held) hL) s0

theorem selfCheck_frame (s : State) (n : Nat) (table : BitVec 8) :
    sameExcept [.al] s (selfCheck s n table) := by
  unfold selfCheck
  simp (disch := decide)
@[simp ↓] theorem selfCheck_through (ps : List Piece) (hps : ([.al] : List Piece).all (ps.contains ·) = true) (s0 : State)
    (s : State) (n : Nat) (table : BitVec 8) :
    sameExcept ps s0 (selfCheck s n table) ↔ sameExcept ps s0 s :=
  sameExcept_through (selfCheck_frame s n table) hps s0
@[simp ↓] theorem selfCheck_canonical (s : State) (n : Nat) (table : BitVec 8) : canonical (selfCheck s n table) ↔ canonical s :=
  canonical_same (selfCheck_frame s n table) (by decide)
@[simp ↓] theorem selfCheck_below (L : Nat) (s0 : State) (s : State) (n : Nat) (table : BitVec 8) :
    belowKept L s0 (selfCheck s n table) ↔ belowKept L s0 s :=
  belowKept_iff (belowKept_same (selfCheck_frame s n table) (by decide)) s0

theorem pairHold_frame (s : State) (n : Nat) (d : Nat) (hold : Bool) :
    sameExcept [.regs] s (pairHold s n d hold) := by
  unfold pairHold
  simp (disch := decide)
@[simp ↓] theorem pairHold_through (ps : List Piece) (hps : ([.regs] : List Piece).all (ps.contains ·) = true) (s0 : State)
    (s : State) (n : Nat) (d : Nat) (hold : Bool) :
    sameExcept ps s0 (pairHold s n d hold) ↔ sameExcept ps s0 s :=
  sameExcept_through (pairHold_frame s n d hold) hps s0
@[simp ↓] theorem pairHold_canonical (s : State) (n : Nat) (d : Nat) (hold : Bool) (h : canonical s) : canonical (pairHold s n d hold) := by
  unfold pairHold
  simp (maxDischargeDepth := 60) (contextual := true) [h]
theorem pairHold_low (s : State) (n : Nat) (d : Nat) (hold : Bool) :
    belowKept 0x200000 s (pairHold s n d hold) := by
  unfold pairHold
  simp (maxDischargeDepth := 60)
@[simp ↓] theorem pairHold_below (L : Nat) (hL : L ≤ 0x200000) (s0 : State) (s : State) (n : Nat) (d : Nat) (hold : Bool) :
    belowKept L s0 (pairHold s n d hold) ↔ belowKept L s0 s :=
  belowKept_iff (belowKept_mono (pairHold_low s n d hold) hL) s0

theorem siphonAnswer_frame (s : State) (n : Nat) :
    sameExcept [.regs, .hg, .wires, .pr, .al] s (siphonAnswer s n) := by
  unfold siphonAnswer
  (repeat' split) <;> simp (disch := decide)
@[simp ↓] theorem siphonAnswer_through (ps : List Piece) (hps : ([.regs, .hg, .wires, .pr, .al] : List Piece).all (ps.contains ·) = true) (s0 : State)
    (s : State) (n : Nat) :
    sameExcept ps s0 (siphonAnswer s n) ↔ sameExcept ps s0 s :=
  sameExcept_through (siphonAnswer_frame s n) hps s0
@[simp ↓] theorem siphonAnswer_canonical (s : State) (n : Nat) (h : canonical s) : canonical (siphonAnswer s n) := by
  unfold siphonAnswer
  (repeat' split) <;> simp (maxDischargeDepth := 60) (contextual := true) [h]
theorem siphonAnswer_low (s : State) (n : Nat) :
    belowKept 0xD0000 s (siphonAnswer s n) := by
  unfold siphonAnswer
  (repeat' split) <;> simp (maxDischargeDepth := 60)
@[simp ↓] theorem siphonAnswer_below (L : Nat) (hL : L ≤ 0xD0000) (s0 : State) (s : State) (n : Nat) :
    belowKept L s0 (siphonAnswer s n) ↔ belowKept L s0 s :=
  belowKept_iff (belowKept_mono (siphonAnswer_low s n) hL) s0

theorem targetExpire_frame (s : State) (n : Nat) (id : Option (BitVec 9)) :
    sameExcept [.fclk, .regs, .hg, .al] s (targetExpire s n id) := by
  unfold targetExpire
  dsimp only
  (repeat' split) <;> simp (disch := decide)
@[simp ↓] theorem targetExpire_through (ps : List Piece) (hps : ([.fclk, .regs, .hg, .al] : List Piece).all (ps.contains ·) = true) (s0 : State)
    (s : State) (n : Nat) (id : Option (BitVec 9)) :
    sameExcept ps s0 (targetExpire s n id) ↔ sameExcept ps s0 s :=
  sameExcept_through (targetExpire_frame s n id) hps s0
@[simp ↓] theorem targetExpire_canonical (s : State) (n : Nat) (id : Option (BitVec 9)) (h : canonical s) : canonical (targetExpire s n id) := by
  unfold targetExpire
  dsimp only
  (repeat' split) <;> simp (maxDischargeDepth := 60) (contextual := true) [h]
theorem targetExpire_low (s : State) (n : Nat) (id : Option (BitVec 9)) :
    belowKept 0x200000 s (targetExpire s n id) := by
  unfold targetExpire
  dsimp only
  (repeat' split) <;> simp (maxDischargeDepth := 60)
@[simp ↓] theorem targetExpire_below (L : Nat) (hL : L ≤ 0x200000) (s0 : State) (s : State) (n : Nat) (id : Option (BitVec 9)) :
    belowKept L s0 (targetExpire s n id) ↔ belowKept L s0 s :=
  belowKept_iff (belowKept_mono (targetExpire_low s n id) hL) s0

end Sys2Proof.Machine
end

