-- ==== Sys2Proof/Laws/FramePaceline.lean ====
section
/-! SUPPORT. What each operation of `Machine/Paceline.lean` can change, in the pieces of `Safety.lean`: `<operation>_frame` says it once,
`<operation>_through` carries it past the operation, `<operation>_canonical` says that it keeps the canonical form, and
`<operation>_low`, `<operation>_below` that it keeps the registers below the blocks it works on. -/

open Sys2Proof

namespace Sys2Proof.Machine

set_option linter.unusedSimpArgs false
set_option linter.unusedVariables false

theorem takeSnapshot_frame (s : State) :
    sameExcept [.regs] s (takeSnapshot s) := by
  unfold takeSnapshot
  simp (disch := first | decide | (intro _ _; (repeat' split) <;> simp (disch := decide))) [sameExcept_foldl, sameExcept_foldl1, sameExcept_foldl2, sameExcept_forEach, sameExcept_forRange]
@[simp ↓] theorem takeSnapshot_through (ps : List Piece) (hps : ([.regs] : List Piece).all (ps.contains ·) = true) (s0 : State)
    (s : State) :
    sameExcept ps s0 (takeSnapshot s) ↔ sameExcept ps s0 s :=
  sameExcept_through (takeSnapshot_frame s) hps s0
@[simp ↓] theorem takeSnapshot_canonical (s : State) (h : canonical s) : canonical (takeSnapshot s) := by
  unfold takeSnapshot
  simp (maxDischargeDepth := 60) (contextual := true) [h]
theorem snapReg_from (L k : Nat) (h : L ≤ 0x40000) : L ≤ snapReg k := by
  unfold snapReg
  (repeat' split) <;> simp [h]
theorem takeSnapshot_low (s : State) :
    belowKept 0x40000 s (takeSnapshot s) := by
  unfold takeSnapshot
  simp (maxDischargeDepth := 60)
  rw [belowKept_forEach]
  · simp (maxDischargeDepth := 60)
  · intro t x
    simp (maxDischargeDepth := 60) [snapReg_from]
@[simp ↓] theorem takeSnapshot_below (L : Nat) (hL : L ≤ 0x40000) (s0 : State) (s : State) :
    belowKept L s0 (takeSnapshot s) ↔ belowKept L s0 s :=
  belowKept_iff (belowKept_mono (takeSnapshot_low s) hL) s0

theorem updStaged_frame (s : State) (n : Nat) (c : Nat) (f : StPkt → StPkt) :
    sameExcept [.hg, .lateGua] s (updStaged s n c f) := by
  unfold updStaged
  simp (disch := decide)
@[simp ↓] theorem updStaged_through (ps : List Piece) (hps : ([.hg, .lateGua] : List Piece).all (ps.contains ·) = true) (s0 : State)
    (s : State) (n : Nat) (c : Nat) (f : StPkt → StPkt) :
    sameExcept ps s0 (updStaged s n c f) ↔ sameExcept ps s0 s :=
  sameExcept_through (updStaged_frame s n c f) hps s0
@[simp ↓] theorem updStaged_canonical (s : State) (n : Nat) (c : Nat) (f : StPkt → StPkt) : canonical (updStaged s n c f) ↔ canonical s :=
  canonical_same (updStaged_frame s n c f) (by decide)
@[simp ↓] theorem updStaged_below (L : Nat) (s0 : State) (s : State) (n : Nat) (c : Nat) (f : StPkt → StPkt) :
    belowKept L s0 (updStaged s n c f) ↔ belowKept L s0 s :=
  belowKept_iff (belowKept_same (updStaged_frame s n c f) (by decide)) s0

theorem chanCommit_frame (s : State) (n : Nat) :
    sameExcept [.regs, .hg, .lateGua] s (chanCommit s n) := by
  unfold chanCommit
  dsimp only
  (repeat' split) <;> simp (disch := decide)
@[simp ↓] theorem chanCommit_through (ps : List Piece) (hps : ([.regs, .hg, .lateGua] : List Piece).all (ps.contains ·) = true) (s0 : State)
    (s : State) (n : Nat) :
    sameExcept ps s0 (chanCommit s n) ↔ sameExcept ps s0 s :=
  sameExcept_through (chanCommit_frame s n) hps s0
@[simp ↓] theorem chanCommit_canonical (s : State) (n : Nat) (h : canonical s) : canonical (chanCommit s n) := by
  unfold chanCommit
  dsimp only
  (repeat' split) <;> simp (maxDischargeDepth := 60) (contextual := true) [h]
theorem chanCommit_low (s : State) (n : Nat) :
    belowKept 0x200000 s (chanCommit s n) := by
  unfold chanCommit
  dsimp only
  (repeat' split) <;> simp (maxDischargeDepth := 60)
@[simp ↓] theorem chanCommit_below (L : Nat) (hL : L ≤ 0x200000) (s0 : State) (s : State) (n : Nat) :
    belowKept L s0 (chanCommit s n) ↔ belowKept L s0 s :=
  belowKept_iff (belowKept_mono (chanCommit_low s n) hL) s0

theorem chanDrop_frame (s : State) (n : Nat) (i : Nat) (full : Bool) :
    sameExcept [.regs, .hg] s (chanDrop s n i full) := by
  unfold chanDrop
  simp (disch := decide)
@[simp ↓] theorem chanDrop_through (ps : List Piece) (hps : ([.regs, .hg] : List Piece).all (ps.contains ·) = true) (s0 : State)
    (s : State) (n : Nat) (i : Nat) (full : Bool) :
    sameExcept ps s0 (chanDrop s n i full) ↔ sameExcept ps s0 s :=
  sameExcept_through (chanDrop_frame s n i full) hps s0
@[simp ↓] theorem chanDrop_canonical (s : State) (n : Nat) (i : Nat) (full : Bool) (h : canonical s) : canonical (chanDrop s n i full) := by
  unfold chanDrop
  simp (maxDischargeDepth := 60) (contextual := true) [h]
theorem chanDrop_low (s : State) (n : Nat) (i : Nat) (full : Bool) :
    belowKept 0x200000 s (chanDrop s n i full) := by
  unfold chanDrop
  simp (maxDischargeDepth := 60)
@[simp ↓] theorem chanDrop_below (L : Nat) (hL : L ≤ 0x200000) (s0 : State) (s : State) (n : Nat) (i : Nat) (full : Bool) :
    belowKept L s0 (chanDrop s n i full) ↔ belowKept L s0 s :=
  belowKept_iff (belowKept_mono (chanDrop_low s n i full) hL) s0

theorem sendChanEcmt_frame (s : State) (n : Nat) (i : Nat) (src : Nat) (rec : Word) :
    sameExcept [.regs, .hg, .wires, .pr] s (sendChanEcmt s n i src rec) := by
  unfold sendChanEcmt
  simp (disch := decide)
@[simp ↓] theorem sendChanEcmt_through (ps : List Piece) (hps : ([.regs, .hg, .wires, .pr] : List Piece).all (ps.contains ·) = true) (s0 : State)
    (s : State) (n : Nat) (i : Nat) (src : Nat) (rec : Word) :
    sameExcept ps s0 (sendChanEcmt s n i src rec) ↔ sameExcept ps s0 s :=
  sameExcept_through (sendChanEcmt_frame s n i src rec) hps s0
@[simp ↓] theorem sendChanEcmt_canonical (s : State) (n : Nat) (i : Nat) (src : Nat) (rec : Word) (h : canonical s) : canonical (sendChanEcmt s n i src rec) := by
  unfold sendChanEcmt
  simp (maxDischargeDepth := 60) (contextual := true) [h]
theorem sendChanEcmt_low (s : State) (n : Nat) (i : Nat) (src : Nat) (rec : Word) :
    belowKept 0x200000 s (sendChanEcmt s n i src rec) := by
  unfold sendChanEcmt
  simp (maxDischargeDepth := 60)
@[simp ↓] theorem sendChanEcmt_below (L : Nat) (hL : L ≤ 0x200000) (s0 : State) (s : State) (n : Nat) (i : Nat) (src : Nat) (rec : Word) :
    belowKept L s0 (sendChanEcmt s n i src rec) ↔ belowKept L s0 s :=
  belowKept_iff (belowKept_mono (sendChanEcmt_low s n i src rec) hL) s0

theorem commitGua_frame (s : State) (n : Nat) (i : Nat) (rec : Word) (p : Pkt) :
    sameExcept [.regs, .hg, .wires, .pr] s (commitGua s n i rec p) := by
  unfold commitGua
  simp (disch := decide)
@[simp ↓] theorem commitGua_through (ps : List Piece) (hps : ([.regs, .hg, .wires, .pr] : List Piece).all (ps.contains ·) = true) (s0 : State)
    (s : State) (n : Nat) (i : Nat) (rec : Word) (p : Pkt) :
    sameExcept ps s0 (commitGua s n i rec p) ↔ sameExcept ps s0 s :=
  sameExcept_through (commitGua_frame s n i rec p) hps s0
@[simp ↓] theorem commitGua_canonical (s : State) (n : Nat) (i : Nat) (rec : Word) (p : Pkt) (h : canonical s) : canonical (commitGua s n i rec p) := by
  unfold commitGua
  simp (maxDischargeDepth := 60) (contextual := true) [h]
theorem commitGua_low (s : State) (n : Nat) (i : Nat) (rec : Word) (p : Pkt) :
    belowKept 0x200000 s (commitGua s n i rec p) := by
  unfold commitGua
  simp (maxDischargeDepth := 60)
@[simp ↓] theorem commitGua_below (L : Nat) (hL : L ≤ 0x200000) (s0 : State) (s : State) (n : Nat) (i : Nat) (rec : Word) (p : Pkt) :
    belowKept L s0 (commitGua s n i rec p) ↔ belowKept L s0 s :=
  belowKept_iff (belowKept_mono (commitGua_low s n i rec p) hL) s0

theorem commitSucc_frame (n : Nat) (i : Nat) (rec : Word) (a3 : Nat) (a4 : State) :
    sameExcept [.regs, .hg, .wires, .pr] a4 (commitSucc n i rec a3 a4) := by
  induction a3 generalizing a4 with
  | zero => simp [commitSucc]
  | succ k ih =>
    unfold commitSucc
    dsimp only
    split
    · simp
    · exact (sameExcept_iff (ih _) a4).mpr (by simp (disch := decide))
@[simp ↓] theorem commitSucc_through (ps : List Piece) (hps : ([.regs, .hg, .wires, .pr] : List Piece).all (ps.contains ·) = true) (s0 : State)
    (n : Nat) (i : Nat) (rec : Word) (a3 : Nat) (a4 : State) :
    sameExcept ps s0 (commitSucc n i rec a3 a4) ↔ sameExcept ps s0 a4 :=
  sameExcept_through (commitSucc_frame n i rec a3 a4) hps s0
@[simp ↓] theorem commitSucc_canonical (n : Nat) (i : Nat) (rec : Word) (a3 : Nat) (a4 : State) (h : canonical a4) : canonical (commitSucc n i rec a3 a4) := by
  induction a3 generalizing a4 with
  | zero => exact h
  | succ k ih =>
    unfold commitSucc
    dsimp only
    split
    · exact h
    · apply ih; simp (maxDischargeDepth := 60) (contextual := true) [h]
theorem commitSucc_low (n : Nat) (i : Nat) (rec : Word) (a3 : Nat) (a4 : State) :
    belowKept 0x200000 a4 (commitSucc n i rec a3 a4) := by
  induction a3 generalizing a4 with
  | zero => simp [commitSucc]
  | succ k ih =>
    unfold commitSucc
    dsimp only
    split
    · simp
    · exact (belowKept_iff (ih _) a4).mpr (by simp (maxDischargeDepth := 60))
@[simp ↓] theorem commitSucc_below (L : Nat) (hL : L ≤ 0x200000) (s0 : State) (n : Nat) (i : Nat) (rec : Word) (a3 : Nat) (a4 : State) :
    belowKept L s0 (commitSucc n i rec a3 a4) ↔ belowKept L s0 a4 :=
  belowKept_iff (belowKept_mono (commitSucc_low n i rec a3 a4) hL) s0

theorem fireFlits_frame (s : State) (n : Nat) (e : Nat) (fs : List Flit) :
    sameExcept [.regs, .hg, .wires, .pr, .al, .lateGua] s (fireFlits s n e fs) := by
  unfold fireFlits
  (repeat' split) <;> simp (disch := decide)
@[simp ↓] theorem fireFlits_through (ps : List Piece) (hps : ([.regs, .hg, .wires, .pr, .al, .lateGua] : List Piece).all (ps.contains ·) = true) (s0 : State)
    (s : State) (n : Nat) (e : Nat) (fs : List Flit) :
    sameExcept ps s0 (fireFlits s n e fs) ↔ sameExcept ps s0 s :=
  sameExcept_through (fireFlits_frame s n e fs) hps s0
@[simp ↓] theorem fireFlits_canonical (s : State) (n : Nat) (e : Nat) (fs : List Flit) (h : canonical s) : canonical (fireFlits s n e fs) := by
  unfold fireFlits
  (repeat' split) <;> simp (maxDischargeDepth := 60) (contextual := true) [h]
theorem fireFlits_low (s : State) (n : Nat) (e : Nat) (fs : List Flit) :
    belowKept 0x200000 s (fireFlits s n e fs) := by
  unfold fireFlits
  (repeat' split) <;> simp (maxDischargeDepth := 60)
@[simp ↓] theorem fireFlits_below (L : Nat) (hL : L ≤ 0x200000) (s0 : State) (s : State) (n : Nat) (e : Nat) (fs : List Flit) :
    belowKept L s0 (fireFlits s n e fs) ↔ belowKept L s0 s :=
  belowKept_iff (belowKept_mono (fireFlits_low s n e fs) hL) s0

theorem fireRelay_frame (s : State) (n : Nat) (e : Nat) (w : Word) :
    sameExcept [.regs, .hg, .wires, .pr, .al, .lateGua] s (fireRelay s n e w) := by
  unfold fireRelay
  dsimp only
  (repeat' split) <;> simp (disch := decide)
@[simp ↓] theorem fireRelay_through (ps : List Piece) (hps : ([.regs, .hg, .wires, .pr, .al, .lateGua] : List Piece).all (ps.contains ·) = true) (s0 : State)
    (s : State) (n : Nat) (e : Nat) (w : Word) :
    sameExcept ps s0 (fireRelay s n e w) ↔ sameExcept ps s0 s :=
  sameExcept_through (fireRelay_frame s n e w) hps s0
@[simp ↓] theorem fireRelay_canonical (s : State) (n : Nat) (e : Nat) (w : Word) (h : canonical s) : canonical (fireRelay s n e w) := by
  unfold fireRelay
  dsimp only
  (repeat' split) <;> simp (maxDischargeDepth := 60) (contextual := true) [h]
theorem fireRelay_low (s : State) (n : Nat) (e : Nat) (w : Word) :
    belowKept 0x200000 s (fireRelay s n e w) := by
  unfold fireRelay
  dsimp only
  (repeat' split) <;> simp (maxDischargeDepth := 60)
@[simp ↓] theorem fireRelay_below (L : Nat) (hL : L ≤ 0x200000) (s0 : State) (s : State) (n : Nat) (e : Nat) (w : Word) :
    belowKept L s0 (fireRelay s n e w) ↔ belowKept L s0 s :=
  belowKept_iff (belowKept_mono (fireRelay_low s n e w) hL) s0

theorem fireStaged_frame (s : State) (n : Nat) (e : Nat) (k : Nat) (w : Word) (i : Nat) (rec : Word) (pulse : Nat) :
    sameExcept [.regs, .hg, .wires, .pr, .al, .lateGua] s (fireStaged s n e k w i rec pulse) := by
  unfold fireStaged
  (repeat' split) <;> simp (disch := decide)
@[simp ↓] theorem fireStaged_through (ps : List Piece) (hps : ([.regs, .hg, .wires, .pr, .al, .lateGua] : List Piece).all (ps.contains ·) = true) (s0 : State)
    (s : State) (n : Nat) (e : Nat) (k : Nat) (w : Word) (i : Nat) (rec : Word) (pulse : Nat) :
    sameExcept ps s0 (fireStaged s n e k w i rec pulse) ↔ sameExcept ps s0 s :=
  sameExcept_through (fireStaged_frame s n e k w i rec pulse) hps s0
@[simp ↓] theorem fireStaged_canonical (s : State) (n : Nat) (e : Nat) (k : Nat) (w : Word) (i : Nat) (rec : Word) (pulse : Nat) (h : canonical s) : canonical (fireStaged s n e k w i rec pulse) := by
  unfold fireStaged
  (repeat' split) <;> simp (maxDischargeDepth := 60) (contextual := true) [h]
theorem fireStaged_low (s : State) (n : Nat) (e : Nat) (k : Nat) (w : Word) (i : Nat) (rec : Word) (pulse : Nat) :
    belowKept 0x200000 s (fireStaged s n e k w i rec pulse) := by
  unfold fireStaged
  (repeat' split) <;> simp (maxDischargeDepth := 60)
@[simp ↓] theorem fireStaged_below (L : Nat) (hL : L ≤ 0x200000) (s0 : State) (s : State) (n : Nat) (e : Nat) (k : Nat) (w : Word) (i : Nat) (rec : Word) (pulse : Nat) :
    belowKept L s0 (fireStaged s n e k w i rec pulse) ↔ belowKept L s0 s :=
  belowKept_iff (belowKept_mono (fireStaged_low s n e k w i rec pulse) hL) s0

theorem fireEntry_frame (s : State) (n : Nat) (e : Nat) :
    sameExcept [.fclk, .regs, .hg, .wires, .pr, .al, .lateGua] s (fireEntry s n e) := by
  unfold fireEntry
  dsimp only
  (repeat' split) <;> simp (disch := decide)
@[simp ↓] theorem fireEntry_through (ps : List Piece) (hps : ([.fclk, .regs, .hg, .wires, .pr, .al, .lateGua] : List Piece).all (ps.contains ·) = true) (s0 : State)
    (s : State) (n : Nat) (e : Nat) :
    sameExcept ps s0 (fireEntry s n e) ↔ sameExcept ps s0 s :=
  sameExcept_through (fireEntry_frame s n e) hps s0
@[simp ↓] theorem fireEntry_canonical (s : State) (n : Nat) (e : Nat) (h : canonical s) : canonical (fireEntry s n e) := by
  unfold fireEntry
  dsimp only
  (repeat' split) <;> simp (maxDischargeDepth := 60) (contextual := true) [h]
theorem fireEntry_low (s : State) (n : Nat) (e : Nat) :
    belowKept 0x200000 s (fireEntry s n e) := by
  unfold fireEntry
  dsimp only
  (repeat' split) <;> simp (maxDischargeDepth := 60)
@[simp ↓] theorem fireEntry_below (L : Nat) (hL : L ≤ 0x200000) (s0 : State) (s : State) (n : Nat) (e : Nat) :
    belowKept L s0 (fireEntry s n e) ↔ belowKept L s0 s :=
  belowKept_iff (belowKept_mono (fireEntry_low s n e) hL) s0

theorem guaDuplicate_frame (s : State) (n : Nat) (i : Nat) (rec : Word) (src : Nat) :
    sameExcept [.regs, .hg, .wires, .pr] s (guaDuplicate s n i rec src) := by
  unfold guaDuplicate
  simp (disch := decide)
@[simp ↓] theorem guaDuplicate_through (ps : List Piece) (hps : ([.regs, .hg, .wires, .pr] : List Piece).all (ps.contains ·) = true) (s0 : State)
    (s : State) (n : Nat) (i : Nat) (rec : Word) (src : Nat) :
    sameExcept ps s0 (guaDuplicate s n i rec src) ↔ sameExcept ps s0 s :=
  sameExcept_through (guaDuplicate_frame s n i rec src) hps s0
@[simp ↓] theorem guaDuplicate_canonical (s : State) (n : Nat) (i : Nat) (rec : Word) (src : Nat) (h : canonical s) : canonical (guaDuplicate s n i rec src) := by
  unfold guaDuplicate
  simp (maxDischargeDepth := 60) (contextual := true) [h]
theorem guaDuplicate_low (s : State) (n : Nat) (i : Nat) (rec : Word) (src : Nat) :
    belowKept 0x200000 s (guaDuplicate s n i rec src) := by
  unfold guaDuplicate
  simp (maxDischargeDepth := 60)
@[simp ↓] theorem guaDuplicate_below (L : Nat) (hL : L ≤ 0x200000) (s0 : State) (s : State) (n : Nat) (i : Nat) (rec : Word) (src : Nat) :
    belowKept L s0 (guaDuplicate s n i rec src) ↔ belowKept L s0 s :=
  belowKept_iff (belowKept_mono (guaDuplicate_low s n i rec src) hL) s0

theorem guaArrives_frame (s : State) (n : Nat) :
    sameExcept [.regs, .hg, .wires, .pr, .al] s (guaArrives s n) := by
  unfold guaArrives
  split
  · simp
  · extract_lets s1 src s2
    have h1 : sameExcept [.regs, .hg, .wires, .pr, .al] s s1 := by simp (disch := decide) [s1]
    have h2 : sameExcept [.regs, .hg, .wires, .pr, .al] s s2 := by simp (disch := decide) [s2, h1]
    clear_value s1 s2
    split
    · simp (disch := decide) [h1]
    · dsimp only
      (repeat' split) <;> simp (disch := decide) [h1, h2]
@[simp ↓] theorem guaArrives_through (ps : List Piece) (hps : ([.regs, .hg, .wires, .pr, .al] : List Piece).all (ps.contains ·) = true) (s0 : State)
    (s : State) (n : Nat) :
    sameExcept ps s0 (guaArrives s n) ↔ sameExcept ps s0 s :=
  sameExcept_through (guaArrives_frame s n) hps s0
@[simp ↓] theorem guaArrives_canonical (s : State) (n : Nat) (h : canonical s) : canonical (guaArrives s n) := by
  unfold guaArrives
  split
  · exact h
  · extract_lets s1 src s2
    have h1 : canonical s1 := by simp (maxDischargeDepth := 60) (contextual := true) [s1, h]
    have h2 : canonical s2 := by simp (maxDischargeDepth := 60) (contextual := true) [s2, h1]
    clear_value s1 s2
    split
    · simp (maxDischargeDepth := 60) (contextual := true) [h1]
    · dsimp only
      (repeat' split) <;> simp (maxDischargeDepth := 60) (contextual := true) [h1, h2]
theorem guaArrives_low (s : State) (n : Nat) :
    belowKept 0x200000 s (guaArrives s n) := by
  unfold guaArrives
  split
  · simp (maxDischargeDepth := 60)
  · extract_lets s1 src s2
    have h1 : belowKept 0x200000 s s1 := by simp (maxDischargeDepth := 60) [s1]
    have h2 : belowKept 0x200000 s s2 := by simp (maxDischargeDepth := 60) [s2, h1]
    clear_value s1 s2
    split
    · simp (maxDischargeDepth := 60) [h1]
    · dsimp only
      (repeat' split) <;> simp (maxDischargeDepth := 60) [h1, h2]
@[simp ↓] theorem guaArrives_below (L : Nat) (hL : L ≤ 0x200000) (s0 : State) (s : State) (n : Nat) :
    belowKept L s0 (guaArrives s n) ↔ belowKept L s0 s :=
  belowKept_iff (belowKept_mono (guaArrives_low s n) hL) s0

theorem timeValid_frame (s : State) (valid : Bool) (sec : BitVec 48) (ns : BitVec 32) :
    sameExcept [.regs, .bd] s (timeValid s valid sec ns) := by
  unfold timeValid
  simp (disch := decide)
@[simp ↓] theorem timeValid_through (ps : List Piece) (hps : ([.regs, .bd] : List Piece).all (ps.contains ·) = true) (s0 : State)
    (s : State) (valid : Bool) (sec : BitVec 48) (ns : BitVec 32) :
    sameExcept ps s0 (timeValid s valid sec ns) ↔ sameExcept ps s0 s :=
  sameExcept_through (timeValid_frame s valid sec ns) hps s0
@[simp ↓] theorem timeValid_canonical (s : State) (valid : Bool) (sec : BitVec 48) (ns : BitVec 32) (h : canonical s) : canonical (timeValid s valid sec ns) := by
  unfold timeValid
  simp (maxDischargeDepth := 60) (contextual := true) [h]
theorem timeValid_low (s : State) (valid : Bool) (sec : BitVec 48) (ns : BitVec 32) :
    belowKept 0x10000 s (timeValid s valid sec ns) := by
  unfold timeValid
  simp (maxDischargeDepth := 60)
@[simp ↓] theorem timeValid_below (L : Nat) (hL : L ≤ 0x10000) (s0 : State) (s : State) (valid : Bool) (sec : BitVec 48) (ns : BitVec 32) :
    belowKept L s0 (timeValid s valid sec ns) ↔ belowKept L s0 s :=
  belowKept_iff (belowKept_mono (timeValid_low s valid sec ns) hL) s0

theorem turnMiss_frame (s : State) (n : Nat) :
    sameExcept [.fclk, .regs, .al] s (turnMiss s n) := by
  unfold turnMiss
  simp (disch := decide)
@[simp ↓] theorem turnMiss_through (ps : List Piece) (hps : ([.fclk, .regs, .al] : List Piece).all (ps.contains ·) = true) (s0 : State)
    (s : State) (n : Nat) :
    sameExcept ps s0 (turnMiss s n) ↔ sameExcept ps s0 s :=
  sameExcept_through (turnMiss_frame s n) hps s0
@[simp ↓] theorem turnMiss_canonical (s : State) (n : Nat) (h : canonical s) : canonical (turnMiss s n) := by
  unfold turnMiss
  simp (maxDischargeDepth := 60) (contextual := true) [h]
theorem turnMiss_low (s : State) (n : Nat) :
    belowKept 0x200000 s (turnMiss s n) := by
  unfold turnMiss
  simp (maxDischargeDepth := 60)
@[simp ↓] theorem turnMiss_below (L : Nat) (hL : L ≤ 0x200000) (s0 : State) (s : State) (n : Nat) :
    belowKept L s0 (turnMiss s n) ↔ belowKept L s0 s :=
  belowKept_iff (belowKept_mono (turnMiss_low s n) hL) s0

theorem pulseAt_frame (j : Nat) (bad : BitVec 160) (n : Nat) (s : State) :
    sameExcept [.regs, .hg, .al] s (pulseAt j bad n s) := by
  unfold pulseAt
  simp (disch := decide)
@[simp ↓] theorem pulseAt_through (ps : List Piece) (hps : ([.regs, .hg, .al] : List Piece).all (ps.contains ·) = true) (s0 : State)
    (j : Nat) (bad : BitVec 160) (n : Nat) (s : State) :
    sameExcept ps s0 (pulseAt j bad n s) ↔ sameExcept ps s0 s :=
  sameExcept_through (pulseAt_frame j bad n s) hps s0
@[simp ↓] theorem pulseAt_canonical (j : Nat) (bad : BitVec 160) (n : Nat) (s : State) (h : canonical s) : canonical (pulseAt j bad n s) := by
  unfold pulseAt
  simp (maxDischargeDepth := 60) (contextual := true) [h]
theorem pulseAt_low (j : Nat) (bad : BitVec 160) (n : Nat) (s : State) :
    belowKept 0x200000 s (pulseAt j bad n s) := by
  unfold pulseAt
  simp (maxDischargeDepth := 60)
@[simp ↓] theorem pulseAt_below (L : Nat) (hL : L ≤ 0x200000) (s0 : State) (j : Nat) (bad : BitVec 160) (n : Nat) (s : State) :
    belowKept L s0 (pulseAt j bad n s) ↔ belowKept L s0 s :=
  belowKept_iff (belowKept_mono (pulseAt_low j bad n s) hL) s0

theorem turnArrives_frame (s : State) (bad : BitVec 160) :
    sameExcept [.regs, .hg, .bd, .al] s (turnArrives s bad) := by
  unfold turnArrives
  (repeat' split) <;> simp (disch := first | decide | (intro _ _; (repeat' split) <;> simp (disch := decide))) [sameExcept_foldl, sameExcept_foldl1, sameExcept_foldl2, sameExcept_forEach, sameExcept_forRange]
@[simp ↓] theorem turnArrives_through (ps : List Piece) (hps : ([.regs, .hg, .bd, .al] : List Piece).all (ps.contains ·) = true) (s0 : State)
    (s : State) (bad : BitVec 160) :
    sameExcept ps s0 (turnArrives s bad) ↔ sameExcept ps s0 s :=
  sameExcept_through (turnArrives_frame s bad) hps s0
@[simp ↓] theorem turnArrives_canonical (s : State) (bad : BitVec 160) (h : canonical s) : canonical (turnArrives s bad) := by
  unfold turnArrives
  (repeat' split) <;> simp (maxDischargeDepth := 60) (contextual := true) [h]
theorem turnArrives_low (s : State) (bad : BitVec 160) :
    belowKept 0x40000 s (turnArrives s bad) := by
  unfold turnArrives
  (repeat' split) <;> simp (maxDischargeDepth := 60) [belowKept_foldl, belowKept_foldl1, belowKept_foldl2, belowKept_forEach, belowKept_forRange]
@[simp ↓] theorem turnArrives_below (L : Nat) (hL : L ≤ 0x40000) (s0 : State) (s : State) (bad : BitVec 160) :
    belowKept L s0 (turnArrives s bad) ↔ belowKept L s0 s :=
  belowKept_iff (belowKept_mono (turnArrives_low s bad) hL) s0

theorem holdoverTime_frame (s : State) (sec : BitVec 48) (ns : BitVec 32) :
    sameExcept [.fclk, .bd] s (holdoverTime s sec ns) := by
  unfold holdoverTime
  simp (disch := decide)
@[simp ↓] theorem holdoverTime_through (ps : List Piece) (hps : ([.fclk, .bd] : List Piece).all (ps.contains ·) = true) (s0 : State)
    (s : State) (sec : BitVec 48) (ns : BitVec 32) :
    sameExcept ps s0 (holdoverTime s sec ns) ↔ sameExcept ps s0 s :=
  sameExcept_through (holdoverTime_frame s sec ns) hps s0
@[simp ↓] theorem holdoverTime_canonical (s : State) (sec : BitVec 48) (ns : BitVec 32) : canonical (holdoverTime s sec ns) ↔ canonical s :=
  canonical_same (holdoverTime_frame s sec ns) (by decide)
@[simp ↓] theorem holdoverTime_below (L : Nat) (s0 : State) (s : State) (sec : BitVec 48) (ns : BitVec 32) :
    belowKept L s0 (holdoverTime s sec ns) ↔ belowKept L s0 s :=
  belowKept_iff (belowKept_same (holdoverTime_frame s sec ns) (by decide)) s0

theorem generatorTime_frame (s : State) (sec : BitVec 48) (ns : BitVec 32) :
    sameExcept [.fclk, .bd] s (generatorTime s sec ns) := by
  unfold generatorTime
  simp (disch := decide)
@[simp ↓] theorem generatorTime_through (ps : List Piece) (hps : ([.fclk, .bd] : List Piece).all (ps.contains ·) = true) (s0 : State)
    (s : State) (sec : BitVec 48) (ns : BitVec 32) :
    sameExcept ps s0 (generatorTime s sec ns) ↔ sameExcept ps s0 s :=
  sameExcept_through (generatorTime_frame s sec ns) hps s0
@[simp ↓] theorem generatorTime_canonical (s : State) (sec : BitVec 48) (ns : BitVec 32) : canonical (generatorTime s sec ns) ↔ canonical s :=
  canonical_same (generatorTime_frame s sec ns) (by decide)
@[simp ↓] theorem generatorTime_below (L : Nat) (s0 : State) (s : State) (sec : BitVec 48) (ns : BitVec 32) :
    belowKept L s0 (generatorTime s sec ns) ↔ belowKept L s0 s :=
  belowKept_iff (belowKept_same (generatorTime_frame s sec ns) (by decide)) s0

theorem issuePulse_frame (s : State) (sec : Nat) (j : Nat) :
    sameExcept [.fclk, .regs, .bd] s (issuePulse s sec j) := by
  unfold issuePulse
  dsimp only
  (repeat' split) <;> simp (disch := decide)
@[simp ↓] theorem issuePulse_through (ps : List Piece) (hps : ([.fclk, .regs, .bd] : List Piece).all (ps.contains ·) = true) (s0 : State)
    (s : State) (sec : Nat) (j : Nat) :
    sameExcept ps s0 (issuePulse s sec j) ↔ sameExcept ps s0 s :=
  sameExcept_through (issuePulse_frame s sec j) hps s0
@[simp ↓] theorem issuePulse_canonical (s : State) (sec : Nat) (j : Nat) (h : canonical s) : canonical (issuePulse s sec j) := by
  unfold issuePulse
  dsimp only
  (repeat' split) <;> simp (maxDischargeDepth := 60) (contextual := true) [h]
theorem issuePulse_low (s : State) (sec : Nat) (j : Nat) :
    belowKept 0x10000 s (issuePulse s sec j) := by
  unfold issuePulse
  dsimp only
  (repeat' split) <;> simp (maxDischargeDepth := 60)
@[simp ↓] theorem issuePulse_below (L : Nat) (hL : L ≤ 0x10000) (s0 : State) (s : State) (sec : Nat) (j : Nat) :
    belowKept L s0 (issuePulse s sec j) ↔ belowKept L s0 s :=
  belowKept_iff (belowKept_mono (issuePulse_low s sec j) hL) s0

theorem issueTurn_frame (s : State) (sec : BitVec 48) (ns : BitVec 32) :
    sameExcept [.fclk, .regs, .bd] s (issueTurn s sec ns) := by
  unfold issueTurn
  dsimp only
  (repeat' split) <;> simp (disch := decide)
@[simp ↓] theorem issueTurn_through (ps : List Piece) (hps : ([.fclk, .regs, .bd] : List Piece).all (ps.contains ·) = true) (s0 : State)
    (s : State) (sec : BitVec 48) (ns : BitVec 32) :
    sameExcept ps s0 (issueTurn s sec ns) ↔ sameExcept ps s0 s :=
  sameExcept_through (issueTurn_frame s sec ns) hps s0
@[simp ↓] theorem issueTurn_canonical (s : State) (sec : BitVec 48) (ns : BitVec 32) (h : canonical s) : canonical (issueTurn s sec ns) := by
  unfold issueTurn
  dsimp only
  (repeat' split) <;> simp (maxDischargeDepth := 60) (contextual := true) [h]
theorem issueTurn_low (s : State) (sec : BitVec 48) (ns : BitVec 32) :
    belowKept 0x10000 s (issueTurn s sec ns) := by
  unfold issueTurn
  dsimp only
  (repeat' split) <;> simp (maxDischargeDepth := 60)
@[simp ↓] theorem issueTurn_below (L : Nat) (hL : L ≤ 0x10000) (s0 : State) (s : State) (sec : BitVec 48) (ns : BitVec 32) :
    belowKept L s0 (issueTurn s sec ns) ↔ belowKept L s0 s :=
  belowKept_iff (belowKept_mono (issueTurn_low s sec ns) hL) s0

theorem wheelEnds_frame (s : State) (n : Nat) :
    sameExcept [.fclk, .regs, .hg, .wires, .pr] s (wheelEnds s n) := by
  unfold wheelEnds
  (repeat' split) <;> simp (disch := first | decide | (intro _ _; (repeat' split) <;> simp (disch := decide))) [sameExcept_foldl, sameExcept_foldl1, sameExcept_foldl2, sameExcept_forEach, sameExcept_forRange]
@[simp ↓] theorem wheelEnds_through (ps : List Piece) (hps : ([.fclk, .regs, .hg, .wires, .pr] : List Piece).all (ps.contains ·) = true) (s0 : State)
    (s : State) (n : Nat) :
    sameExcept ps s0 (wheelEnds s n) ↔ sameExcept ps s0 s :=
  sameExcept_through (wheelEnds_frame s n) hps s0
@[simp ↓] theorem wheelEnds_canonical (s : State) (n : Nat) (h : canonical s) : canonical (wheelEnds s n) := by
  unfold wheelEnds
  (repeat' split) <;> simp (maxDischargeDepth := 60) (contextual := true) [h]
theorem wheelEnds_low (s : State) (n : Nat) :
    belowKept 0x200000 s (wheelEnds s n) := by
  unfold wheelEnds
  (repeat' split) <;> simp (maxDischargeDepth := 60) [belowKept_foldl, belowKept_foldl1, belowKept_foldl2, belowKept_forEach, belowKept_forRange]
@[simp ↓] theorem wheelEnds_below (L : Nat) (hL : L ≤ 0x200000) (s0 : State) (s : State) (n : Nat) :
    belowKept L s0 (wheelEnds s n) ↔ belowKept L s0 s :=
  belowKept_iff (belowKept_mono (wheelEnds_low s n) hL) s0

end Sys2Proof.Machine
end

