-- ==== Sys2Proof/Laws/FrameReservoir.lean ====
section
/-! SUPPORT. What each operation of `Machine/Reservoir.lean` can change, in the pieces of `Safety.lean`: `<operation>_frame` says it once,
`<operation>_through` carries it past the operation, `<operation>_canonical` says that it keeps the canonical form, and
`<operation>_low`, `<operation>_below` that it keeps the registers below the blocks it works on. -/

open Sys2Proof

namespace Sys2Proof.Machine

set_option linter.unusedSimpArgs false
set_option linter.unusedVariables false

theorem releaseBank_frame (s : State) (e : Entry) (oc : BitVec 4) :
    sameExcept [.regs, .rv] s (releaseBank s e oc) := by
  unfold releaseBank
  (repeat' split) <;> simp (disch := decide)
@[simp ↓] theorem releaseBank_through (ps : List Piece) (hps : ([.regs, .rv] : List Piece).all (ps.contains ·) = true) (s0 : State)
    (s : State) (e : Entry) (oc : BitVec 4) :
    sameExcept ps s0 (releaseBank s e oc) ↔ sameExcept ps s0 s :=
  sameExcept_through (releaseBank_frame s e oc) hps s0
@[simp ↓] theorem releaseBank_canonical (s : State) (e : Entry) (oc : BitVec 4) (h : canonical s) : canonical (releaseBank s e oc) := by
  unfold releaseBank
  (repeat' split) <;> simp (maxDischargeDepth := 60) (contextual := true) [h]
theorem releaseBank_low (s : State) (e : Entry) (oc : BitVec 4) :
    belowKept 0xD0000 s (releaseBank s e oc) := by
  unfold releaseBank
  (repeat' split) <;> simp (maxDischargeDepth := 60)
@[simp ↓] theorem releaseBank_below (L : Nat) (hL : L ≤ 0xD0000) (s0 : State) (s : State) (e : Entry) (oc : BitVec 4) :
    belowKept L s0 (releaseBank s e oc) ↔ belowKept L s0 s :=
  belowKept_iff (belowKept_mono (releaseBank_low s e oc) hL) s0

theorem finishPort_frame (s : State) (p : Nat) (id : Nat) :
    sameExcept [.regs, .hg, .rv, .wires, .pr, .al] s (finishPort s p id) := by
  unfold finishPort
  dsimp only
  (repeat' split) <;> simp (disch := decide)
@[simp ↓] theorem finishPort_through (ps : List Piece) (hps : ([.regs, .hg, .rv, .wires, .pr, .al] : List Piece).all (ps.contains ·) = true) (s0 : State)
    (s : State) (p : Nat) (id : Nat) :
    sameExcept ps s0 (finishPort s p id) ↔ sameExcept ps s0 s :=
  sameExcept_through (finishPort_frame s p id) hps s0
@[simp ↓] theorem finishPort_canonical (s : State) (p : Nat) (id : Nat) (h : canonical s) : canonical (finishPort s p id) := by
  unfold finishPort
  dsimp only
  (repeat' split) <;> simp (maxDischargeDepth := 60) (contextual := true) [h]
theorem finishPort_low (s : State) (p : Nat) (id : Nat) :
    belowKept 0xD0000 s (finishPort s p id) := by
  unfold finishPort
  dsimp only
  (repeat' split) <;> simp (maxDischargeDepth := 60)
@[simp ↓] theorem finishPort_below (L : Nat) (hL : L ≤ 0xD0000) (s0 : State) (s : State) (p : Nat) (id : Nat) :
    belowKept L s0 (finishPort s p id) ↔ belowKept L s0 s :=
  belowKept_iff (belowKept_mono (finishPort_low s p id) hL) s0

theorem updChunk_frame (s : State) (p : Nat) (id : Nat) (c : Nat) (f : Chunk → Chunk) :
    sameExcept [.hg] s (updChunk s p id c f) := by
  unfold updChunk
  simp (disch := decide)
@[simp ↓] theorem updChunk_through (ps : List Piece) (hps : ([.hg] : List Piece).all (ps.contains ·) = true) (s0 : State)
    (s : State) (p : Nat) (id : Nat) (c : Nat) (f : Chunk → Chunk) :
    sameExcept ps s0 (updChunk s p id c f) ↔ sameExcept ps s0 s :=
  sameExcept_through (updChunk_frame s p id c f) hps s0
@[simp ↓] theorem updChunk_canonical (s : State) (p : Nat) (id : Nat) (c : Nat) (f : Chunk → Chunk) : canonical (updChunk s p id c f) ↔ canonical s :=
  canonical_same (updChunk_frame s p id c f) (by decide)
@[simp ↓] theorem updChunk_below (L : Nat) (s0 : State) (s : State) (p : Nat) (id : Nat) (c : Nat) (f : Chunk → Chunk) :
    belowKept L s0 (updChunk s p id c f) ↔ belowKept L s0 s :=
  belowKept_iff (belowKept_same (updChunk_frame s p id c f) (by decide)) s0

theorem answerChunk_frame (s : State) (p : Nat) (id : Nat) (c : Nat) (oc : BitVec 4) :
    sameExcept [.regs, .hg, .rv, .wires, .pr, .al] s (answerChunk s p id c oc) := by
  unfold answerChunk
  simp (disch := decide)
@[simp ↓] theorem answerChunk_through (ps : List Piece) (hps : ([.regs, .hg, .rv, .wires, .pr, .al] : List Piece).all (ps.contains ·) = true) (s0 : State)
    (s : State) (p : Nat) (id : Nat) (c : Nat) (oc : BitVec 4) :
    sameExcept ps s0 (answerChunk s p id c oc) ↔ sameExcept ps s0 s :=
  sameExcept_through (answerChunk_frame s p id c oc) hps s0
@[simp ↓] theorem answerChunk_canonical (s : State) (p : Nat) (id : Nat) (c : Nat) (oc : BitVec 4) (h : canonical s) : canonical (answerChunk s p id c oc) := by
  unfold answerChunk
  simp (maxDischargeDepth := 60) (contextual := true) [h]
theorem answerChunk_low (s : State) (p : Nat) (id : Nat) (c : Nat) (oc : BitVec 4) :
    belowKept 0xD0000 s (answerChunk s p id c oc) := by
  unfold answerChunk
  simp (maxDischargeDepth := 60)
@[simp ↓] theorem answerChunk_below (L : Nat) (hL : L ≤ 0xD0000) (s0 : State) (s : State) (p : Nat) (id : Nat) (c : Nat) (oc : BitVec 4) :
    belowKept L s0 (answerChunk s p id c oc) ↔ belowKept L s0 s :=
  belowKept_iff (belowKept_mono (answerChunk_low s p id c oc) hL) s0

theorem grantBeat_frame (s : State) (b : Nat) (p : Nat) (arb : BankBeat → Arb) :
    sameExcept [.hg, .rv] s (grantBeat s b p arb) := by
  unfold grantBeat
  dsimp only
  (repeat' split) <;> simp (disch := decide)
@[simp ↓] theorem grantBeat_through (ps : List Piece) (hps : ([.hg, .rv] : List Piece).all (ps.contains ·) = true) (s0 : State)
    (s : State) (b : Nat) (p : Nat) (arb : BankBeat → Arb) :
    sameExcept ps s0 (grantBeat s b p arb) ↔ sameExcept ps s0 s :=
  sameExcept_through (grantBeat_frame s b p arb) hps s0
@[simp ↓] theorem grantBeat_canonical (s : State) (b : Nat) (p : Nat) (arb : BankBeat → Arb) (h : canonical s) : canonical (grantBeat s b p arb) := by
  unfold grantBeat
  dsimp only
  (repeat' split) <;> simp (maxDischargeDepth := 60) (contextual := true) [h]
@[simp ↓] theorem grantBeat_below (L : Nat) (s0 : State) (s : State) (b : Nat) (p : Nat) (arb : BankBeat → Arb) :
    belowKept L s0 (grantBeat s b p arb) ↔ belowKept L s0 s :=
  belowKept_iff (belowKept_same (grantBeat_frame s b p arb) (by decide)) s0

theorem bankArbitrate_frame (s : State) (b : Nat) :
    sameExcept [.hg, .rv] s (bankArbitrate s b) := by
  unfold bankArbitrate
  dsimp only
  (repeat' split) <;> simp (disch := decide)
@[simp ↓] theorem bankArbitrate_through (ps : List Piece) (hps : ([.hg, .rv] : List Piece).all (ps.contains ·) = true) (s0 : State)
    (s : State) (b : Nat) :
    sameExcept ps s0 (bankArbitrate s b) ↔ sameExcept ps s0 s :=
  sameExcept_through (bankArbitrate_frame s b) hps s0
@[simp ↓] theorem bankArbitrate_canonical (s : State) (b : Nat) (h : canonical s) : canonical (bankArbitrate s b) := by
  unfold bankArbitrate
  dsimp only
  (repeat' split) <;> simp (maxDischargeDepth := 60) (contextual := true) [h]
@[simp ↓] theorem bankArbitrate_below (L : Nat) (s0 : State) (s : State) (b : Nat) :
    belowKept L s0 (bankArbitrate s b) ↔ belowKept L s0 s :=
  belowKept_iff (belowKept_same (bankArbitrate_frame s b) (by decide)) s0

theorem bankErr_frame (s : State) (b : Nat) (l : Nat) (err : MemErr) :
    sameExcept [.regs, .al] s (bankErr s b l err).2 := by
  unfold bankErr
  (repeat' split) <;> simp (disch := decide)
@[simp ↓] theorem bankErr_through (ps : List Piece) (hps : ([.regs, .al] : List Piece).all (ps.contains ·) = true) (s0 : State)
    (s : State) (b : Nat) (l : Nat) (err : MemErr) :
    sameExcept ps s0 (bankErr s b l err).2 ↔ sameExcept ps s0 s :=
  sameExcept_through (bankErr_frame s b l err) hps s0
@[simp ↓] theorem bankErr_canonical (s : State) (b : Nat) (l : Nat) (err : MemErr) (h : canonical s) : canonical (bankErr s b l err).2 := by
  unfold bankErr
  (repeat' split) <;> simp (maxDischargeDepth := 60) (contextual := true) [h]
theorem bankErr_low (s : State) (b : Nat) (l : Nat) (err : MemErr) :
    belowKept 0xD0000 s (bankErr s b l err).2 := by
  unfold bankErr
  (repeat' split) <;> simp (maxDischargeDepth := 60)
@[simp ↓] theorem bankErr_below (L : Nat) (hL : L ≤ 0xD0000) (s0 : State) (s : State) (b : Nat) (l : Nat) (err : MemErr) :
    belowKept L s0 (bankErr s b l err).2 ↔ belowKept L s0 s :=
  belowKept_iff (belowKept_mono (bankErr_low s b l err) hL) s0

theorem beatDone_frame (s : State) (x : BankBeat) (d : Option DBeat) (oc : BitVec 4) :
    sameExcept [.regs, .hg, .rv, .wires, .pr, .al] s (beatDone s x d oc) := by
  unfold beatDone
  simp (disch := decide)
@[simp ↓] theorem beatDone_through (ps : List Piece) (hps : ([.regs, .hg, .rv, .wires, .pr, .al] : List Piece).all (ps.contains ·) = true) (s0 : State)
    (s : State) (x : BankBeat) (d : Option DBeat) (oc : BitVec 4) :
    sameExcept ps s0 (beatDone s x d oc) ↔ sameExcept ps s0 s :=
  sameExcept_through (beatDone_frame s x d oc) hps s0
@[simp ↓] theorem beatDone_canonical (s : State) (x : BankBeat) (d : Option DBeat) (oc : BitVec 4) (h : canonical s) : canonical (beatDone s x d oc) := by
  unfold beatDone
  simp (maxDischargeDepth := 60) (contextual := true) [h]
theorem beatDone_low (s : State) (x : BankBeat) (d : Option DBeat) (oc : BitVec 4) :
    belowKept 0xD0000 s (beatDone s x d oc) := by
  unfold beatDone
  simp (maxDischargeDepth := 60)
@[simp ↓] theorem beatDone_below (L : Nat) (hL : L ≤ 0xD0000) (s0 : State) (s : State) (x : BankBeat) (d : Option DBeat) (oc : BitVec 4) :
    belowKept L s0 (beatDone s x d oc) ↔ belowKept L s0 s :=
  belowKept_iff (belowKept_mono (beatDone_low s x d oc) hL) s0

theorem readBeat_frame (s : State) (l : Nat) (bad : Bool) :
    sameExcept [.freeCtr] s (readBeat s l bad).2 := by
  unfold readBeat
  simp (disch := decide)
@[simp ↓] theorem readBeat_through (ps : List Piece) (hps : ([.freeCtr] : List Piece).all (ps.contains ·) = true) (s0 : State)
    (s : State) (l : Nat) (bad : Bool) :
    sameExcept ps s0 (readBeat s l bad).2 ↔ sameExcept ps s0 s :=
  sameExcept_through (readBeat_frame s l bad) hps s0
@[simp ↓] theorem readBeat_canonical (s : State) (l : Nat) (bad : Bool) : canonical (readBeat s l bad).2 ↔ canonical s :=
  canonical_same (readBeat_frame s l bad) (by decide)
@[simp ↓] theorem readBeat_below (L : Nat) (s0 : State) (s : State) (l : Nat) (bad : Bool) :
    belowKept L s0 (readBeat s l bad).2 ↔ belowKept L s0 s :=
  belowKept_iff (belowKept_same (readBeat_frame s l bad) (by decide)) s0

theorem writeBeat_frame (s : State) (l : Nat) (d : Line) (be : BitVec 64) (poison : Bool) :
    sameExcept [.rv] s (writeBeat s l d be poison) := by
  unfold writeBeat
  simp (disch := decide)
@[simp ↓] theorem writeBeat_through (ps : List Piece) (hps : ([.rv] : List Piece).all (ps.contains ·) = true) (s0 : State)
    (s : State) (l : Nat) (d : Line) (be : BitVec 64) (poison : Bool) :
    sameExcept ps s0 (writeBeat s l d be poison) ↔ sameExcept ps s0 s :=
  sameExcept_through (writeBeat_frame s l d be poison) hps s0
@[simp ↓] theorem writeBeat_canonical (s : State) (l : Nat) (d : Line) (be : BitVec 64) (poison : Bool) (h : canonical s) : canonical (writeBeat s l d be poison) := by
  unfold writeBeat
  exact canonical_setRv _ _ h (Memory.wf_writeLine _ _ _ _ h.2)
@[simp ↓] theorem writeBeat_below (L : Nat) (s0 : State) (s : State) (l : Nat) (d : Line) (be : BitVec 64) (poison : Bool) :
    belowKept L s0 (writeBeat s l d be poison) ↔ belowKept L s0 s :=
  belowKept_iff (belowKept_same (writeBeat_frame s l d be poison) (by decide)) s0

theorem performAtom_frame (s : State) (b : Nat) (x : BankBeat) (err : MemErr) :
    sameExcept [.regs, .hg, .rv, .wires, .pr, .al, .freeCtr] s (performAtom s b x err) := by
  unfold performAtom
  dsimp only
  (repeat' split) <;> simp (disch := decide)
@[simp ↓] theorem performAtom_through (ps : List Piece) (hps : ([.regs, .hg, .rv, .wires, .pr, .al, .freeCtr] : List Piece).all (ps.contains ·) = true) (s0 : State)
    (s : State) (b : Nat) (x : BankBeat) (err : MemErr) :
    sameExcept ps s0 (performAtom s b x err) ↔ sameExcept ps s0 s :=
  sameExcept_through (performAtom_frame s b x err) hps s0
@[simp ↓] theorem performAtom_canonical (s : State) (b : Nat) (x : BankBeat) (err : MemErr) (h : canonical s) : canonical (performAtom s b x err) := by
  unfold performAtom
  dsimp only
  (repeat' split) <;> simp (maxDischargeDepth := 60) (contextual := true) [h]
theorem performAtom_low (s : State) (b : Nat) (x : BankBeat) (err : MemErr) :
    belowKept 0xD0000 s (performAtom s b x err) := by
  unfold performAtom
  dsimp only
  (repeat' split) <;> simp (maxDischargeDepth := 60)
@[simp ↓] theorem performAtom_below (L : Nat) (hL : L ≤ 0xD0000) (s0 : State) (s : State) (b : Nat) (x : BankBeat) (err : MemErr) :
    belowKept L s0 (performAtom s b x err) ↔ belowKept L s0 s :=
  belowKept_iff (belowKept_mono (performAtom_low s b x err) hL) s0

theorem performWrite_frame (s : State) (b : Nat) (x : BankBeat) (err : MemErr) :
    sameExcept [.regs, .hg, .rv, .wires, .pr, .al] s (performWrite s b x err) := by
  unfold performWrite
  simp (disch := decide)
@[simp ↓] theorem performWrite_through (ps : List Piece) (hps : ([.regs, .hg, .rv, .wires, .pr, .al] : List Piece).all (ps.contains ·) = true) (s0 : State)
    (s : State) (b : Nat) (x : BankBeat) (err : MemErr) :
    sameExcept ps s0 (performWrite s b x err) ↔ sameExcept ps s0 s :=
  sameExcept_through (performWrite_frame s b x err) hps s0
@[simp ↓] theorem performWrite_canonical (s : State) (b : Nat) (x : BankBeat) (err : MemErr) (h : canonical s) : canonical (performWrite s b x err) := by
  unfold performWrite
  simp (maxDischargeDepth := 60) (contextual := true) [h]
theorem performWrite_low (s : State) (b : Nat) (x : BankBeat) (err : MemErr) :
    belowKept 0xD0000 s (performWrite s b x err) := by
  unfold performWrite
  simp (maxDischargeDepth := 60)
@[simp ↓] theorem performWrite_below (L : Nat) (hL : L ≤ 0xD0000) (s0 : State) (s : State) (b : Nat) (x : BankBeat) (err : MemErr) :
    belowKept L s0 (performWrite s b x err) ↔ belowKept L s0 s :=
  belowKept_iff (belowKept_mono (performWrite_low s b x err) hL) s0

theorem bankPerform_frame (s : State) (b : Nat) (err : MemErr) :
    sameExcept [.regs, .hg, .rv, .wires, .pr, .al, .freeCtr] s (bankPerform s b err) := by
  unfold bankPerform
  dsimp only
  (repeat' split) <;> simp (disch := decide)
@[simp ↓] theorem bankPerform_through (ps : List Piece) (hps : ([.regs, .hg, .rv, .wires, .pr, .al, .freeCtr] : List Piece).all (ps.contains ·) = true) (s0 : State)
    (s : State) (b : Nat) (err : MemErr) :
    sameExcept ps s0 (bankPerform s b err) ↔ sameExcept ps s0 s :=
  sameExcept_through (bankPerform_frame s b err) hps s0
@[simp ↓] theorem bankPerform_canonical (s : State) (b : Nat) (err : MemErr) (h : canonical s) : canonical (bankPerform s b err) := by
  unfold bankPerform
  dsimp only
  (repeat' split) <;> simp (maxDischargeDepth := 60) (contextual := true) [h]
theorem bankPerform_low (s : State) (b : Nat) (err : MemErr) :
    belowKept 0xD0000 s (bankPerform s b err) := by
  unfold bankPerform
  dsimp only
  (repeat' split) <;> simp (maxDischargeDepth := 60)
@[simp ↓] theorem bankPerform_below (L : Nat) (hL : L ≤ 0xD0000) (s0 : State) (s : State) (b : Nat) (err : MemErr) :
    belowKept L s0 (bankPerform s b err) ↔ belowKept L s0 s :=
  belowKept_iff (belowKept_mono (bankPerform_low s b err) hL) s0

theorem bankScrub_frame (s : State) (b : Nat) (err : MemErr) :
    sameExcept [.regs, .rv, .al] s (bankScrub s b err) := by
  unfold bankScrub
  simp (disch := first | decide | (intro _ _; (repeat' split) <;> simp (disch := decide))) [sameExcept_foldl, sameExcept_foldl1, sameExcept_foldl2, sameExcept_forEach, sameExcept_forRange]
@[simp ↓] theorem bankScrub_through (ps : List Piece) (hps : ([.regs, .rv, .al] : List Piece).all (ps.contains ·) = true) (s0 : State)
    (s : State) (b : Nat) (err : MemErr) :
    sameExcept ps s0 (bankScrub s b err) ↔ sameExcept ps s0 s :=
  sameExcept_through (bankScrub_frame s b err) hps s0
@[simp ↓] theorem bankScrub_canonical (s : State) (b : Nat) (err : MemErr) (h : canonical s) : canonical (bankScrub s b err) := by
  unfold bankScrub
  simp (maxDischargeDepth := 60) (contextual := true) [h]
theorem bankScrub_low (s : State) (b : Nat) (err : MemErr) :
    belowKept 0xD0000 s (bankScrub s b err) := by
  unfold bankScrub
  simp (maxDischargeDepth := 60) [belowKept_foldl, belowKept_foldl1, belowKept_foldl2, belowKept_forEach, belowKept_forRange]
@[simp ↓] theorem bankScrub_below (L : Nat) (hL : L ≤ 0xD0000) (s0 : State) (s : State) (b : Nat) (err : MemErr) :
    belowKept L s0 (bankScrub s b err) ↔ belowKept L s0 s :=
  belowKept_iff (belowKept_mono (bankScrub_low s b err) hL) s0

theorem stopLockTimer_frame (s : State) (m : Nat × Ctx) :
    sameExcept [.rv] s (stopLockTimer s m) := by
  unfold stopLockTimer
  (repeat' split) <;> simp (disch := decide)
@[simp ↓] theorem stopLockTimer_through (ps : List Piece) (hps : ([.rv] : List Piece).all (ps.contains ·) = true) (s0 : State)
    (s : State) (m : Nat × Ctx) :
    sameExcept ps s0 (stopLockTimer s m) ↔ sameExcept ps s0 s :=
  sameExcept_through (stopLockTimer_frame s m) hps s0
@[simp ↓] theorem stopLockTimer_canonical (s : State) (m : Nat × Ctx) (h : canonical s) : canonical (stopLockTimer s m) := by
  unfold stopLockTimer
  (repeat' split) <;> simp (maxDischargeDepth := 60) (contextual := true) [h]
@[simp ↓] theorem stopLockTimer_below (L : Nat) (s0 : State) (s : State) (m : Nat × Ctx) :
    belowKept L s0 (stopLockTimer s m) ↔ belowKept L s0 s :=
  belowKept_iff (belowKept_same (stopLockTimer_frame s m) (by decide)) s0

theorem reachManager_frame (s : State) (p : Nat) (e : Entry) (c : Nat) :
    sameExcept [.hg, .rv] s (reachManager s p e c) := by
  unfold reachManager
  dsimp only
  (repeat' split) <;> simp (disch := decide)
@[simp ↓] theorem reachManager_through (ps : List Piece) (hps : ([.hg, .rv] : List Piece).all (ps.contains ·) = true) (s0 : State)
    (s : State) (p : Nat) (e : Entry) (c : Nat) :
    sameExcept ps s0 (reachManager s p e c) ↔ sameExcept ps s0 s :=
  sameExcept_through (reachManager_frame s p e c) hps s0
@[simp ↓] theorem reachManager_canonical (s : State) (p : Nat) (e : Entry) (c : Nat) (h : canonical s) : canonical (reachManager s p e c) := by
  unfold reachManager
  extract_lets no s1 s2 r3 s3 home
  have h1 : canonical s1 := by simp (maxDischargeDepth := 60) (contextual := true) [s1, h]
  have h2 : canonical s2 := by simp (maxDischargeDepth := 60) (contextual := true) [s2, h1]
  have h3 : canonical s3 := canonical_setRv _ _ h2 h2.2
  clear_value s1 s2 s3
  split <;> simp (maxDischargeDepth := 60) (contextual := true) [h3]
@[simp ↓] theorem reachManager_below (L : Nat) (s0 : State) (s : State) (p : Nat) (e : Entry) (c : Nat) :
    belowKept L s0 (reachManager s p e c) ↔ belowKept L s0 s :=
  belowKept_iff (belowKept_same (reachManager_frame s p e c) (by decide)) s0

theorem holdChunk_frame (s : State) (x : Nat × Entry × Nat × Chunk) :
    sameExcept [.regs, .hg] s (holdChunk s x) := by
  unfold holdChunk
  simp (disch := decide)
@[simp ↓] theorem holdChunk_through (ps : List Piece) (hps : ([.regs, .hg] : List Piece).all (ps.contains ·) = true) (s0 : State)
    (s : State) (x : Nat × Entry × Nat × Chunk) :
    sameExcept ps s0 (holdChunk s x) ↔ sameExcept ps s0 s :=
  sameExcept_through (holdChunk_frame s x) hps s0
@[simp ↓] theorem holdChunk_canonical (s : State) (x : Nat × Entry × Nat × Chunk) (h : canonical s) : canonical (holdChunk s x) := by
  unfold holdChunk
  simp (maxDischargeDepth := 60) (contextual := true) [h]
theorem holdChunk_low (s : State) (x : Nat × Entry × Nat × Chunk) :
    belowKept 0xD0000 s (holdChunk s x) := by
  unfold holdChunk
  simp (maxDischargeDepth := 60)
@[simp ↓] theorem holdChunk_below (L : Nat) (hL : L ≤ 0xD0000) (s0 : State) (s : State) (x : Nat × Entry × Nat × Chunk) :
    belowKept L s0 (holdChunk s x) ↔ belowKept L s0 s :=
  belowKept_iff (belowKept_mono (holdChunk_low s x) hL) s0

theorem grantBank_frame (s : State) (p : Nat) (e : Entry) (b : Nat) :
    sameExcept [.regs, .hg, .rv] s (grantBank s p e b) := by
  unfold grantBank
  simp (disch := decide)
@[simp ↓] theorem grantBank_through (ps : List Piece) (hps : ([.regs, .hg, .rv] : List Piece).all (ps.contains ·) = true) (s0 : State)
    (s : State) (p : Nat) (e : Entry) (b : Nat) :
    sameExcept ps s0 (grantBank s p e b) ↔ sameExcept ps s0 s :=
  sameExcept_through (grantBank_frame s p e b) hps s0
@[simp ↓] theorem grantBank_canonical (s : State) (p : Nat) (e : Entry) (b : Nat) (h : canonical s) : canonical (grantBank s p e b) := by
  unfold grantBank
  simp (maxDischargeDepth := 60) (contextual := true) [h]
theorem grantBank_low (s : State) (p : Nat) (e : Entry) (b : Nat) :
    belowKept 0xD0000 s (grantBank s p e b) := by
  unfold grantBank
  simp (maxDischargeDepth := 60)
@[simp ↓] theorem grantBank_below (L : Nat) (hL : L ≤ 0xD0000) (s0 : State) (s : State) (p : Nat) (e : Entry) (b : Nat) :
    belowKept L s0 (grantBank s p e b) ↔ belowKept L s0 s :=
  belowKept_iff (belowKept_mono (grantBank_low s p e b) hL) s0

theorem passChunk_frame (s : State) (p : Nat) (e : Entry) (c : Nat) (x : Chunk) :
    sameExcept [.regs, .hg, .rv, .wires, .pr, .al] s (passChunk s p e c x) := by
  unfold passChunk
  simp (disch := decide)
@[simp ↓] theorem passChunk_through (ps : List Piece) (hps : ([.regs, .hg, .rv, .wires, .pr, .al] : List Piece).all (ps.contains ·) = true) (s0 : State)
    (s : State) (p : Nat) (e : Entry) (c : Nat) (x : Chunk) :
    sameExcept ps s0 (passChunk s p e c x) ↔ sameExcept ps s0 s :=
  sameExcept_through (passChunk_frame s p e c x) hps s0
@[simp ↓] theorem passChunk_canonical (s : State) (p : Nat) (e : Entry) (c : Nat) (x : Chunk) (h : canonical s) : canonical (passChunk s p e c x) := by
  unfold passChunk
  simp (maxDischargeDepth := 60) (contextual := true) [h]
theorem passChunk_low (s : State) (p : Nat) (e : Entry) (c : Nat) (x : Chunk) :
    belowKept 0xD0000 s (passChunk s p e c x) := by
  unfold passChunk
  simp (maxDischargeDepth := 60)
@[simp ↓] theorem passChunk_below (L : Nat) (hL : L ≤ 0xD0000) (s0 : State) (s : State) (p : Nat) (e : Entry) (c : Nat) (x : Chunk) :
    belowKept L s0 (passChunk s p e c x) ↔ belowKept L s0 s :=
  belowKept_iff (belowKept_mono (passChunk_low s p e c x) hL) s0

theorem sendChunk_frame (s : State) (p : Nat) (e : Entry) (c : Nat) (x : Chunk) :
    sameExcept [.hg, .rv] s (sendChunk s p e c x) := by
  unfold sendChunk
  simp (disch := decide)
@[simp ↓] theorem sendChunk_through (ps : List Piece) (hps : ([.hg, .rv] : List Piece).all (ps.contains ·) = true) (s0 : State)
    (s : State) (p : Nat) (e : Entry) (c : Nat) (x : Chunk) :
    sameExcept ps s0 (sendChunk s p e c x) ↔ sameExcept ps s0 s :=
  sameExcept_through (sendChunk_frame s p e c x) hps s0
@[simp ↓] theorem sendChunk_canonical (s : State) (p : Nat) (e : Entry) (c : Nat) (x : Chunk) (h : canonical s) : canonical (sendChunk s p e c x) := by
  unfold sendChunk
  simp (maxDischargeDepth := 60) (contextual := true) [h]
@[simp ↓] theorem sendChunk_below (L : Nat) (s0 : State) (s : State) (p : Nat) (e : Entry) (c : Nat) (x : Chunk) :
    belowKept L s0 (sendChunk s p e c x) ↔ belowKept L s0 s :=
  belowKept_iff (belowKept_same (sendChunk_frame s p e c x) (by decide)) s0

theorem moveChunk_some {s t : State} {p : Nat} {e : Entry} {c : Nat} {x : Chunk} (h : moveChunk s p e c x = some t) :
    sameExcept [.regs, .hg, .rv, .wires, .pr, .al] s t := by
  unfold moveChunk at h
  (repeat' split at h) <;> cases h <;> simp (disch := decide)
theorem moveChunks_frame (a0 : Nat) (a1 : State) :
    sameExcept [.regs, .hg, .rv, .wires, .pr, .al] a1 (moveChunks a0 a1) := by
  induction a0 generalizing a1 with
  | zero => simp [moveChunks]
  | succ k ih =>
    unfold moveChunks
    split
    · rename_i t heq
      obtain ⟨x, _, hx⟩ := List.exists_of_findSome?_eq_some heq
      exact sameExcept_trans (sameExcept_mono (moveChunk_some hx) (qs := [.regs, .hg, .rv, .wires, .pr, .al]) (by decide)) (ih t)
    · rw [sameExcept_foldl]
      · simp
      · intro t x; simp (disch := decide)
@[simp ↓] theorem moveChunks_through (ps : List Piece) (hps : ([.regs, .hg, .rv, .wires, .pr, .al] : List Piece).all (ps.contains ·) = true) (s0 : State)
    (a0 : Nat) (a1 : State) :
    sameExcept ps s0 (moveChunks a0 a1) ↔ sameExcept ps s0 a1 :=
  sameExcept_through (moveChunks_frame a0 a1) hps s0
theorem moveChunk_canonical {s t : State} {p : Nat} {e : Entry} {c : Nat} {x : Chunk} (h : moveChunk s p e c x = some t)
    (hc : canonical s) : canonical t := by
  unfold moveChunk at h
  (repeat' split at h) <;> cases h <;> simp (maxDischargeDepth := 60) (contextual := true) [hc]
@[simp ↓] theorem moveChunks_canonical (a0 : Nat) (a1 : State) (h : canonical a1) : canonical (moveChunks a0 a1) := by
  induction a0 generalizing a1 with
  | zero => exact h
  | succ k ih =>
    unfold moveChunks
    split
    · rename_i t heq
      obtain ⟨x, _, hx⟩ := List.exists_of_findSome?_eq_some heq
      exact ih t (moveChunk_canonical hx h)
    · exact canonical_foldl _ _ _ h (fun t x ht => by simp (maxDischargeDepth := 60) (contextual := true) [ht])
theorem moveChunk_low {s t : State} {p : Nat} {e : Entry} {c : Nat} {x : Chunk} (h : moveChunk s p e c x = some t) :
    belowKept 0xD0000 s t := by
  unfold moveChunk at h
  (repeat' split at h) <;> cases h <;> simp (maxDischargeDepth := 60)
theorem moveChunks_low (a0 : Nat) (a1 : State) :
    belowKept 0xD0000 a1 (moveChunks a0 a1) := by
  induction a0 generalizing a1 with
  | zero => simp [moveChunks]
  | succ k ih =>
    unfold moveChunks
    split
    · rename_i t heq
      obtain ⟨x, _, hx⟩ := List.exists_of_findSome?_eq_some heq
      exact belowKept_trans (moveChunk_low hx) (ih t)
    · rw [belowKept_foldl]
      · simp (maxDischargeDepth := 60)
      · intro t x; simp (maxDischargeDepth := 60)
@[simp ↓] theorem moveChunks_below (L : Nat) (hL : L ≤ 0xD0000) (s0 : State) (a0 : Nat) (a1 : State) :
    belowKept L s0 (moveChunks a0 a1) ↔ belowKept L s0 a1 :=
  belowKept_iff (belowKept_mono (moveChunks_low a0 a1) hL) s0

theorem settleBanks_frame (s : State) :
    sameExcept [.regs, .hg, .rv, .wires, .pr, .al] s (settleBanks s) := by
  unfold settleBanks
  simp (disch := first | decide | (intro _ _; (repeat' split) <;> simp (disch := decide))) [sameExcept_foldl, sameExcept_foldl1, sameExcept_foldl2, sameExcept_forEach, sameExcept_forRange]
@[simp ↓] theorem settleBanks_through (ps : List Piece) (hps : ([.regs, .hg, .rv, .wires, .pr, .al] : List Piece).all (ps.contains ·) = true) (s0 : State)
    (s : State) :
    sameExcept ps s0 (settleBanks s) ↔ sameExcept ps s0 s :=
  sameExcept_through (settleBanks_frame s) hps s0
@[simp ↓] theorem settleBanks_canonical (s : State) (h : canonical s) : canonical (settleBanks s) := by
  unfold settleBanks
  simp (maxDischargeDepth := 60) (contextual := true) [h]
theorem settleBanks_low (s : State) :
    belowKept 0xD0000 s (settleBanks s) := by
  unfold settleBanks
  simp (maxDischargeDepth := 60) [belowKept_foldl, belowKept_foldl1, belowKept_foldl2, belowKept_forEach, belowKept_forRange]
@[simp ↓] theorem settleBanks_below (L : Nat) (hL : L ≤ 0xD0000) (s0 : State) (s : State) :
    belowKept L s0 (settleBanks s) ↔ belowKept L s0 s :=
  belowKept_iff (belowKept_mono (settleBanks_low s) hL) s0

theorem chunkSend_frame (s : State) (p k : Nat) :
    sameExcept [.regs, .hg, .rv, .wires, .pr, .al] s (chunkSend s p k) := by
  unfold chunkSend
  dsimp only
  (repeat' split) <;> simp (disch := decide)
@[simp ↓] theorem chunkSend_through (ps : List Piece) (hps : ([.regs, .hg, .rv, .wires, .pr, .al] : List Piece).all (ps.contains ·) = true) (s0 : State)
    (s : State) (p k : Nat) :
    sameExcept ps s0 (chunkSend s p k) ↔ sameExcept ps s0 s :=
  sameExcept_through (chunkSend_frame s p k) hps s0
@[simp ↓] theorem chunkSend_canonical (s : State) (p k : Nat) (h : canonical s) : canonical (chunkSend s p k) := by
  unfold chunkSend
  dsimp only
  (repeat' split) <;> simp (maxDischargeDepth := 60) (contextual := true) [h]
theorem chunkSend_low (s : State) (p k : Nat) :
    belowKept 0xD0000 s (chunkSend s p k) := by
  unfold chunkSend
  dsimp only
  (repeat' split) <;> simp (maxDischargeDepth := 60)
@[simp ↓] theorem chunkSend_below (L : Nat) (hL : L ≤ 0xD0000) (s0 : State) (s : State) (p k : Nat) :
    belowKept L s0 (chunkSend s p k) ↔ belowKept L s0 s :=
  belowKept_iff (belowKept_mono (chunkSend_low s p k) hL) s0

theorem lockExpire_frame (s : State) (at_ : LockAt) :
    sameExcept [.fclk, .regs, .hg, .rv, .wires, .pr, .al] s (lockExpire s at_) := by
  unfold lockExpire
  dsimp only
  (repeat' split) <;> simp (disch := decide)
@[simp ↓] theorem lockExpire_through (ps : List Piece) (hps : ([.fclk, .regs, .hg, .rv, .wires, .pr, .al] : List Piece).all (ps.contains ·) = true) (s0 : State)
    (s : State) (at_ : LockAt) :
    sameExcept ps s0 (lockExpire s at_) ↔ sameExcept ps s0 s :=
  sameExcept_through (lockExpire_frame s at_) hps s0
@[simp ↓] theorem lockExpire_canonical (s : State) (at_ : LockAt) (h : canonical s) : canonical (lockExpire s at_) := by
  unfold lockExpire
  dsimp only
  (repeat' split) <;> simp (maxDischargeDepth := 60) (contextual := true) [h]
theorem lockExpire_low (s : State) (at_ : LockAt) :
    belowKept 0xD0000 s (lockExpire s at_) := by
  unfold lockExpire
  dsimp only
  (repeat' split) <;> simp (maxDischargeDepth := 60)
@[simp ↓] theorem lockExpire_below (L : Nat) (hL : L ≤ 0xD0000) (s0 : State) (s : State) (at_ : LockAt) :
    belowKept L s0 (lockExpire s at_) ↔ belowKept L s0 s :=
  belowKept_iff (belowKept_mono (lockExpire_low s at_) hL) s0

/-! ### Managers with nothing waiting (R292) -/

theorem mem_byReach (x y : Nat × Entry × Nat × Chunk) (l : List (Nat × Entry × Nat × Chunk)) :
    y ∈ byReach x l ↔ y = x ∨ y ∈ l := by
  induction l with
  | nil => simp [byReach]
  | cons z zs ih =>
    unfold byReach
    split
    · simp
    · simp only [List.mem_cons, ih]; exact or_left_comm
theorem mem_waitingChunks (s : State) (y : Nat × Entry × Nat × Chunk) : y ∈ waitingChunks s ↔ y ∈ reachedChunks s := by
  unfold waitingChunks
  induction reachedChunks s with
  | nil => simp
  | cons z zs ih => simp [mem_byReach, ih]
theorem holdChunks_passed (l : List (Nat × Entry × Nat × Chunk)) (s : State) (h : ∀ x ∈ l, x.2.2.2.passed = true) :
    l.foldl holdChunk s = s := by
  induction l with
  | nil => rfl
  | cons x xs ih =>
    have hx : holdChunk s x = s := by simp [holdChunk, h x (by simp)]
    rw [List.foldl_cons, hx]
    exact ih (fun y hy => h y (by simp [hy]))
/-- Chunks that have all gone to their banks leave the managers nothing to do. -/
theorem moveChunks_quiet (k : Nat) (s : State) (h : ∀ x ∈ reachedChunks s, x.2.2.2.passed = true ∧ x.2.2.2.sent = true) :
    moveChunks k s = s := by
  cases k with
  | zero => rfl
  | succ k =>
    have hn : (waitingChunks s).findSome? (fun x => moveChunk s x.1 x.2.1 x.2.2.1 x.2.2.2) = none := by
      rw [List.findSome?_eq_none_iff]
      intro x hx
      simp [moveChunk, (h x ((mem_waitingChunks s x).1 hx)).2]
    rw [moveChunks, hn]
    exact holdChunks_passed _ _ (fun x hx => (h x ((mem_waitingChunks s x).1 hx)).1)
theorem dueBanks_none (l : List Nat) (s : State) (h : ∀ b ∈ l, (s.bankAt b).lock.due s.fclk = false) :
    l.foldl (fun t b => dueBank b t) s = s := by
  induction l with
  | nil => rfl
  | cons b bs ih =>
    have hb : dueBank b s = s := by simp [dueBank, h b (by simp)]
    rw [List.foldl_cons, hb]
    exact ih (fun c hc => h c (by simp [hc]))
/-- With nothing waiting the managers leave the state as it is. -/
theorem settleBanks_quiet (s : State) (h : banksQuiet s) : settleBanks s = s := by
  have hd : forRange 32 dueBank s = s :=
    dueBanks_none _ _ (fun b hb => h.1 ⟨b, by simpa using hb⟩)
  unfold settleBanks
  rw [hd]
  exact moveChunks_quiet _ _ h.2

end Sys2Proof.Machine
end

