-- ==== Sys2Proof/Laws/FrameMailbox.lean ====
section
/-! SUPPORT. What each operation of `Machine/Mailbox.lean` can change, in the pieces of `Safety.lean`: `<operation>_frame` says it once,
`<operation>_through` carries it past the operation, `<operation>_canonical` says that it keeps the canonical form, and
`<operation>_low`, `<operation>_below` that it keeps the registers below the blocks it works on. -/

open Sys2Proof

namespace Sys2Proof.Machine

set_option linter.unusedSimpArgs false
set_option linter.unusedVariables false

theorem mbAck_frame (s : State) (m : Nat) (overrun : Bool) (rider : Bool) :
    sameExcept [.mb] s (mbAck s m overrun rider) := by
  unfold mbAck
  simp (disch := decide)
@[simp ↓] theorem mbAck_through (ps : List Piece) (hps : ([.mb] : List Piece).all (ps.contains ·) = true) (s0 : State)
    (s : State) (m : Nat) (overrun : Bool) (rider : Bool) :
    sameExcept ps s0 (mbAck s m overrun rider) ↔ sameExcept ps s0 s :=
  sameExcept_through (mbAck_frame s m overrun rider) hps s0
@[simp ↓] theorem mbAck_canonical (s : State) (m : Nat) (overrun : Bool) (rider : Bool) : canonical (mbAck s m overrun rider) ↔ canonical s :=
  canonical_same (mbAck_frame s m overrun rider) (by decide)
@[simp ↓] theorem mbAck_below (L : Nat) (s0 : State) (s : State) (m : Nat) (overrun : Bool) (rider : Bool) :
    belowKept L s0 (mbAck s m overrun rider) ↔ belowKept L s0 s :=
  belowKept_iff (belowKept_same (mbAck_frame s m overrun rider) (by decide)) s0

theorem mbIeWr_frame (s : State) (m : Nat) (ie : BitVec 4) :
    sameExcept [.mb] s (mbIeWr s m ie) := by
  unfold mbIeWr
  simp (disch := decide)
@[simp ↓] theorem mbIeWr_through (ps : List Piece) (hps : ([.mb] : List Piece).all (ps.contains ·) = true) (s0 : State)
    (s : State) (m : Nat) (ie : BitVec 4) :
    sameExcept ps s0 (mbIeWr s m ie) ↔ sameExcept ps s0 s :=
  sameExcept_through (mbIeWr_frame s m ie) hps s0
@[simp ↓] theorem mbIeWr_canonical (s : State) (m : Nat) (ie : BitVec 4) : canonical (mbIeWr s m ie) ↔ canonical s :=
  canonical_same (mbIeWr_frame s m ie) (by decide)
@[simp ↓] theorem mbIeWr_below (L : Nat) (s0 : State) (s : State) (m : Nat) (ie : BitVec 4) :
    belowKept L s0 (mbIeWr s m ie) ↔ belowKept L s0 s :=
  belowKept_iff (belowKept_same (mbIeWr_frame s m ie) (by decide)) s0

theorem mbPop_frame (s : State) (m : Nat) :
    sameExcept [.mb] s (mbPop s m) := by
  unfold mbPop
  simp (disch := decide)
@[simp ↓] theorem mbPop_through (ps : List Piece) (hps : ([.mb] : List Piece).all (ps.contains ·) = true) (s0 : State)
    (s : State) (m : Nat) :
    sameExcept ps s0 (mbPop s m) ↔ sameExcept ps s0 s :=
  sameExcept_through (mbPop_frame s m) hps s0
@[simp ↓] theorem mbPop_canonical (s : State) (m : Nat) : canonical (mbPop s m) ↔ canonical s :=
  canonical_same (mbPop_frame s m) (by decide)
@[simp ↓] theorem mbPop_below (L : Nat) (s0 : State) (s : State) (m : Nat) :
    belowKept L s0 (mbPop s m) ↔ belowKept L s0 s :=
  belowKept_iff (belowKept_same (mbPop_frame s m) (by decide)) s0

theorem mbPush_frame (s : State) (m : Nat) :
    sameExcept [.regs, .mb] s (mbPush s m) := by
  unfold mbPush
  simp (disch := decide)
@[simp ↓] theorem mbPush_through (ps : List Piece) (hps : ([.regs, .mb] : List Piece).all (ps.contains ·) = true) (s0 : State)
    (s : State) (m : Nat) :
    sameExcept ps s0 (mbPush s m) ↔ sameExcept ps s0 s :=
  sameExcept_through (mbPush_frame s m) hps s0
@[simp ↓] theorem mbPush_canonical (s : State) (m : Nat) (h : canonical s) : canonical (mbPush s m) := by
  unfold mbPush
  simp (maxDischargeDepth := 60) (contextual := true) [h]
theorem mbPush_low (s : State) (m : Nat) :
    belowKept 0x20000 s (mbPush s m) := by
  unfold mbPush
  simp (maxDischargeDepth := 60)
@[simp ↓] theorem mbPush_below (L : Nat) (hL : L ≤ 0x20000) (s0 : State) (s : State) (m : Nat) :
    belowKept L s0 (mbPush s m) ↔ belowKept L s0 s :=
  belowKept_iff (belowKept_mono (mbPush_low s m) hL) s0

theorem doorbell_frame (s : State) (m : Nat) (v : Word) :
    sameExcept [.regs, .mb] s (doorbell s m v) := by
  unfold doorbell
  simp (disch := decide)
@[simp ↓] theorem doorbell_through (ps : List Piece) (hps : ([.regs, .mb] : List Piece).all (ps.contains ·) = true) (s0 : State)
    (s : State) (m : Nat) (v : Word) :
    sameExcept ps s0 (doorbell s m v) ↔ sameExcept ps s0 s :=
  sameExcept_through (doorbell_frame s m v) hps s0
@[simp ↓] theorem doorbell_canonical (s : State) (m : Nat) (v : Word) (h : canonical s) : canonical (doorbell s m v) := by
  unfold doorbell
  simp (maxDischargeDepth := 60) (contextual := true) [h]
theorem doorbell_low (s : State) (m : Nat) (v : Word) :
    belowKept 0x20000 s (doorbell s m v) := by
  unfold doorbell
  simp (maxDischargeDepth := 60)
@[simp ↓] theorem doorbell_below (L : Nat) (hL : L ≤ 0x20000) (s0 : State) (s : State) (m : Nat) (v : Word) :
    belowKept L s0 (doorbell s m v) ↔ belowKept L s0 s :=
  belowKept_iff (belowKept_mono (doorbell_low s m v) hL) s0

theorem haltedAnswer_frame (s : State) :
    sameExcept [.mb] s (haltedAnswer s) := by
  unfold haltedAnswer
  dsimp only
  (repeat' split) <;> simp (disch := decide)
@[simp ↓] theorem haltedAnswer_through (ps : List Piece) (hps : ([.mb] : List Piece).all (ps.contains ·) = true) (s0 : State)
    (s : State) :
    sameExcept ps s0 (haltedAnswer s) ↔ sameExcept ps s0 s :=
  sameExcept_through (haltedAnswer_frame s) hps s0
@[simp ↓] theorem haltedAnswer_canonical (s : State) : canonical (haltedAnswer s) ↔ canonical s :=
  canonical_same (haltedAnswer_frame s) (by decide)
@[simp ↓] theorem haltedAnswer_below (L : Nat) (s0 : State) (s : State) :
    belowKept L s0 (haltedAnswer s) ↔ belowKept L s0 s :=
  belowKept_iff (belowKept_same (haltedAnswer_frame s) (by decide)) s0

end Sys2Proof.Machine
end

