-- ==== Sys2Proof/Laws/FrameClocks.lean ====
section
/-! SUPPORT. What each operation of `Machine/Clocks.lean` can change, in the pieces of `Safety.lean`: `<operation>_frame` says it once,
`<operation>_through` carries it past the operation, `<operation>_canonical` says that it keeps the canonical form, and
`<operation>_low`, `<operation>_below` that it keeps the registers below the blocks it works on. -/

open Sys2Proof

namespace Sys2Proof.Machine

set_option linter.unusedSimpArgs false
set_option linter.unusedVariables false

theorem setHgHold_frame (b : Bool) (n : Nat) (s : State) :
    sameExcept [.hg] s (setHgHold b n s) := by
  unfold setHgHold
  simp (disch := decide)
@[simp ↓] theorem setHgHold_through (ps : List Piece) (hps : ([.hg] : List Piece).all (ps.contains ·) = true) (s0 : State)
    (b : Bool) (n : Nat) (s : State) :
    sameExcept ps s0 (setHgHold b n s) ↔ sameExcept ps s0 s :=
  sameExcept_through (setHgHold_frame b n s) hps s0
@[simp ↓] theorem setHgHold_canonical (b : Bool) (n : Nat) (s : State) : canonical (setHgHold b n s) ↔ canonical s :=
  canonical_same (setHgHold_frame b n s) (by decide)
@[simp ↓] theorem setHgHold_below (L : Nat) (s0 : State) (b : Bool) (n : Nat) (s : State) :
    belowKept L s0 (setHgHold b n s) ↔ belowKept L s0 s :=
  belowKept_iff (belowKept_same (setHgHold_frame b n s) (by decide)) s0

theorem applyHold_frame (s : State) :
    sameExcept [.regs, .hg] s (applyHold s) := by
  unfold applyHold
  simp (disch := first | decide | (intro _ _; (repeat' split) <;> simp (disch := decide))) [sameExcept_foldl, sameExcept_foldl1, sameExcept_foldl2, sameExcept_forEach, sameExcept_forRange]
@[simp ↓] theorem applyHold_through (ps : List Piece) (hps : ([.regs, .hg] : List Piece).all (ps.contains ·) = true) (s0 : State)
    (s : State) :
    sameExcept ps s0 (applyHold s) ↔ sameExcept ps s0 s :=
  sameExcept_through (applyHold_frame s) hps s0
@[simp ↓] theorem applyHold_canonical (s : State) (h : canonical s) : canonical (applyHold s) := by
  unfold applyHold
  simp (maxDischargeDepth := 60) (contextual := true) [h]
theorem applyHold_low (s : State) :
    belowKept 0x10000 s (applyHold s) := by
  unfold applyHold
  simp (maxDischargeDepth := 60) [belowKept_foldl, belowKept_foldl1, belowKept_foldl2, belowKept_forEach, belowKept_forRange]
@[simp ↓] theorem applyHold_below (L : Nat) (hL : L ≤ 0x10000) (s0 : State) (s : State) :
    belowKept L s0 (applyHold s) ↔ belowKept L s0 s :=
  belowKept_iff (belowKept_mono (applyHold_low s) hL) s0

theorem setCmdHold_frame (s : State) (b : Bool) :
    sameExcept [.regs, .hg, .bd, .al] s (setCmdHold s b) := by
  unfold setCmdHold
  simp (disch := decide)
@[simp ↓] theorem setCmdHold_through (ps : List Piece) (hps : ([.regs, .hg, .bd, .al] : List Piece).all (ps.contains ·) = true) (s0 : State)
    (s : State) (b : Bool) :
    sameExcept ps s0 (setCmdHold s b) ↔ sameExcept ps s0 s :=
  sameExcept_through (setCmdHold_frame s b) hps s0
@[simp ↓] theorem setCmdHold_canonical (s : State) (b : Bool) (h : canonical s) : canonical (setCmdHold s b) := by
  unfold setCmdHold
  simp (maxDischargeDepth := 60) (contextual := true) [h]
theorem setCmdHold_low (s : State) (b : Bool) :
    belowKept 0x10000 s (setCmdHold s b) := by
  unfold setCmdHold
  simp (maxDischargeDepth := 60)
@[simp ↓] theorem setCmdHold_below (L : Nat) (hL : L ≤ 0x10000) (s0 : State) (s : State) (b : Bool) :
    belowKept L s0 (setCmdHold s b) ↔ belowKept L s0 s :=
  belowKept_iff (belowKept_mono (setCmdHold_low s b) hL) s0

theorem startScrub_frame (n : Nat) (s : State) :
    sameExcept [.hg] s (startScrub n s) := by
  unfold startScrub
  simp (disch := decide)
@[simp ↓] theorem startScrub_through (ps : List Piece) (hps : ([.hg] : List Piece).all (ps.contains ·) = true) (s0 : State)
    (n : Nat) (s : State) :
    sameExcept ps s0 (startScrub n s) ↔ sameExcept ps s0 s :=
  sameExcept_through (startScrub_frame n s) hps s0
@[simp ↓] theorem startScrub_canonical (n : Nat) (s : State) : canonical (startScrub n s) ↔ canonical s :=
  canonical_same (startScrub_frame n s) (by decide)
@[simp ↓] theorem startScrub_below (L : Nat) (s0 : State) (n : Nat) (s : State) :
    belowKept L s0 (startScrub n s) ↔ belowKept L s0 s :=
  belowKept_iff (belowKept_same (startScrub_frame n s) (by decide)) s0

theorem holdRelease_frame (s : State) :
    sameExcept [.fclk, .regs, .hg, .bd] s (holdRelease s) := by
  unfold holdRelease
  (repeat' split) <;> simp (disch := first | decide | (intro _ _; (repeat' split) <;> simp (disch := decide))) [sameExcept_foldl, sameExcept_foldl1, sameExcept_foldl2, sameExcept_forEach, sameExcept_forRange]
@[simp ↓] theorem holdRelease_through (ps : List Piece) (hps : ([.fclk, .regs, .hg, .bd] : List Piece).all (ps.contains ·) = true) (s0 : State)
    (s : State) :
    sameExcept ps s0 (holdRelease s) ↔ sameExcept ps s0 s :=
  sameExcept_through (holdRelease_frame s) hps s0
@[simp ↓] theorem holdRelease_canonical (s : State) (h : canonical s) : canonical (holdRelease s) := by
  unfold holdRelease
  (repeat' split) <;> simp (maxDischargeDepth := 60) (contextual := true) [h]
theorem holdRelease_low (s : State) :
    belowKept 0x10000 s (holdRelease s) := by
  unfold holdRelease
  (repeat' split) <;> simp (maxDischargeDepth := 60) [belowKept_foldl, belowKept_foldl1, belowKept_foldl2, belowKept_forEach, belowKept_forRange]
@[simp ↓] theorem holdRelease_below (L : Nat) (hL : L ≤ 0x10000) (s0 : State) (s : State) :
    belowKept L s0 (holdRelease s) ↔ belowKept L s0 s :=
  belowKept_iff (belowKept_mono (holdRelease_low s) hL) s0

theorem warnCrosses_frame (s : State) :
    sameExcept [.regs, .hg, .bd, .al] s (warnCrosses s) := by
  unfold warnCrosses
  simp (disch := decide)
@[simp ↓] theorem warnCrosses_through (ps : List Piece) (hps : ([.regs, .hg, .bd, .al] : List Piece).all (ps.contains ·) = true) (s0 : State)
    (s : State) :
    sameExcept ps s0 (warnCrosses s) ↔ sameExcept ps s0 s :=
  sameExcept_through (warnCrosses_frame s) hps s0
@[simp ↓] theorem warnCrosses_canonical (s : State) (h : canonical s) : canonical (warnCrosses s) := by
  unfold warnCrosses
  simp (maxDischargeDepth := 60) (contextual := true) [h]
theorem warnCrosses_low (s : State) :
    belowKept 0x10000 s (warnCrosses s) := by
  unfold warnCrosses
  simp (maxDischargeDepth := 60)
@[simp ↓] theorem warnCrosses_below (L : Nat) (hL : L ≤ 0x10000) (s0 : State) (s : State) :
    belowKept L s0 (warnCrosses s) ↔ belowKept L s0 s :=
  belowKept_iff (belowKept_mono (warnCrosses_low s) hL) s0

theorem rootRise_frame (s : State) :
    sameExcept [.regs, .bd] s (rootRise s) := by
  unfold rootRise
  simp (disch := decide)
@[simp ↓] theorem rootRise_through (ps : List Piece) (hps : ([.regs, .bd] : List Piece).all (ps.contains ·) = true) (s0 : State)
    (s : State) :
    sameExcept ps s0 (rootRise s) ↔ sameExcept ps s0 s :=
  sameExcept_through (rootRise_frame s) hps s0
@[simp ↓] theorem rootRise_canonical (s : State) (h : canonical s) : canonical (rootRise s) := by
  unfold rootRise
  simp (maxDischargeDepth := 60) (contextual := true) [h]
theorem rootRise_low (s : State) :
    belowKept 0x10000 s (rootRise s) := by
  unfold rootRise
  simp (maxDischargeDepth := 60)
@[simp ↓] theorem rootRise_below (L : Nat) (hL : L ≤ 0x10000) (s0 : State) (s : State) :
    belowKept L s0 (rootRise s) ↔ belowKept L s0 s :=
  belowKept_iff (belowKept_mono (rootRise_low s) hL) s0

theorem scrubFree_frame (s : State) (n : Nat) (which : Nat) (err : MemErr) :
    sameExcept [.regs, .al, .freeCtr] s (scrubFree s n which err) := by
  unfold scrubFree
  simp (disch := decide)
@[simp ↓] theorem scrubFree_through (ps : List Piece) (hps : ([.regs, .al, .freeCtr] : List Piece).all (ps.contains ·) = true) (s0 : State)
    (s : State) (n : Nat) (which : Nat) (err : MemErr) :
    sameExcept ps s0 (scrubFree s n which err) ↔ sameExcept ps s0 s :=
  sameExcept_through (scrubFree_frame s n which err) hps s0
@[simp ↓] theorem scrubFree_canonical (s : State) (n : Nat) (which : Nat) (err : MemErr) (h : canonical s) : canonical (scrubFree s n which err) := by
  unfold scrubFree
  simp (maxDischargeDepth := 60) (contextual := true) [h]
theorem scrubFree_low (s : State) (n : Nat) (which : Nat) (err : MemErr) :
    belowKept 0x200000 s (scrubFree s n which err) := by
  unfold scrubFree
  simp (maxDischargeDepth := 60)
@[simp ↓] theorem scrubFree_below (L : Nat) (hL : L ≤ 0x200000) (s0 : State) (s : State) (n : Nat) (which : Nat) (err : MemErr) :
    belowKept L s0 (scrubFree s n which err) ↔ belowKept L s0 s :=
  belowKept_iff (belowKept_mono (scrubFree_low s n which err) hL) s0

theorem scrubReplayWord_frame (s : State) (n : Nat) (w : Nat) (err : MemErr) :
    sameExcept [.regs, .hg, .al, .freeCtr] s (scrubReplayWord s n w err) := by
  unfold scrubReplayWord
  dsimp only
  (repeat' split) <;> simp (disch := decide)
@[simp ↓] theorem scrubReplayWord_through (ps : List Piece) (hps : ([.regs, .hg, .al, .freeCtr] : List Piece).all (ps.contains ·) = true) (s0 : State)
    (s : State) (n : Nat) (w : Nat) (err : MemErr) :
    sameExcept ps s0 (scrubReplayWord s n w err) ↔ sameExcept ps s0 s :=
  sameExcept_through (scrubReplayWord_frame s n w err) hps s0
@[simp ↓] theorem scrubReplayWord_canonical (s : State) (n : Nat) (w : Nat) (err : MemErr) (h : canonical s) : canonical (scrubReplayWord s n w err) := by
  unfold scrubReplayWord
  dsimp only
  (repeat' split) <;> simp (maxDischargeDepth := 60) (contextual := true) [h]
theorem scrubReplayWord_low (s : State) (n : Nat) (w : Nat) (err : MemErr) :
    belowKept 0x200000 s (scrubReplayWord s n w err) := by
  unfold scrubReplayWord
  dsimp only
  (repeat' split) <;> simp (maxDischargeDepth := 60)
@[simp ↓] theorem scrubReplayWord_below (L : Nat) (hL : L ≤ 0x200000) (s0 : State) (s : State) (n : Nat) (w : Nat) (err : MemErr) :
    belowKept L s0 (scrubReplayWord s n w err) ↔ belowKept L s0 s :=
  belowKept_iff (belowKept_mono (scrubReplayWord_low s n w err) hL) s0

theorem scrubReseqWord_frame (s : State) (n : Nat) (w : Nat) (err : MemErr) :
    sameExcept [.regs, .hg, .al, .freeCtr] s (scrubReseqWord s n w err) := by
  unfold scrubReseqWord
  dsimp only
  (repeat' split) <;> simp (disch := decide)
@[simp ↓] theorem scrubReseqWord_through (ps : List Piece) (hps : ([.regs, .hg, .al, .freeCtr] : List Piece).all (ps.contains ·) = true) (s0 : State)
    (s : State) (n : Nat) (w : Nat) (err : MemErr) :
    sameExcept ps s0 (scrubReseqWord s n w err) ↔ sameExcept ps s0 s :=
  sameExcept_through (scrubReseqWord_frame s n w err) hps s0
@[simp ↓] theorem scrubReseqWord_canonical (s : State) (n : Nat) (w : Nat) (err : MemErr) (h : canonical s) : canonical (scrubReseqWord s n w err) := by
  unfold scrubReseqWord
  dsimp only
  (repeat' split) <;> simp (maxDischargeDepth := 60) (contextual := true) [h]
theorem scrubReseqWord_low (s : State) (n : Nat) (w : Nat) (err : MemErr) :
    belowKept 0x200000 s (scrubReseqWord s n w err) := by
  unfold scrubReseqWord
  dsimp only
  (repeat' split) <;> simp (maxDischargeDepth := 60)
@[simp ↓] theorem scrubReseqWord_below (L : Nat) (hL : L ≤ 0x200000) (s0 : State) (s : State) (n : Nat) (w : Nat) (err : MemErr) :
    belowKept L s0 (scrubReseqWord s n w err) ↔ belowKept L s0 s :=
  belowKept_iff (belowKept_mono (scrubReseqWord_low s n w err) hL) s0

theorem scrubWord_frame (s : State) (n : Nat) (reseq : Bool) (err : MemErr) :
    sameExcept [.regs, .hg, .al, .freeCtr] s (scrubWord s n reseq err) := by
  unfold scrubWord
  dsimp only
  (repeat' split) <;> simp (disch := decide)
@[simp ↓] theorem scrubWord_through (ps : List Piece) (hps : ([.regs, .hg, .al, .freeCtr] : List Piece).all (ps.contains ·) = true) (s0 : State)
    (s : State) (n : Nat) (reseq : Bool) (err : MemErr) :
    sameExcept ps s0 (scrubWord s n reseq err) ↔ sameExcept ps s0 s :=
  sameExcept_through (scrubWord_frame s n reseq err) hps s0
@[simp ↓] theorem scrubWord_canonical (s : State) (n : Nat) (reseq : Bool) (err : MemErr) (h : canonical s) : canonical (scrubWord s n reseq err) := by
  unfold scrubWord
  dsimp only
  (repeat' split) <;> simp (maxDischargeDepth := 60) (contextual := true) [h]
theorem scrubWord_low (s : State) (n : Nat) (reseq : Bool) (err : MemErr) :
    belowKept 0x10000 s (scrubWord s n reseq err) := by
  unfold scrubWord
  dsimp only
  (repeat' split) <;> simp (maxDischargeDepth := 60)
@[simp ↓] theorem scrubWord_below (L : Nat) (hL : L ≤ 0x10000) (s0 : State) (s : State) (n : Nat) (reseq : Bool) (err : MemErr) :
    belowKept L s0 (scrubWord s n reseq err) ↔ belowKept L s0 s :=
  belowKept_iff (belowKept_mono (scrubWord_low s n reseq err) hL) s0

theorem supplyFall_frame (s : State) :
    sameExcept [.regs, .bd] s (supplyFall s) := by
  unfold supplyFall
  simp (disch := decide)
@[simp ↓] theorem supplyFall_through (ps : List Piece) (hps : ([.regs, .bd] : List Piece).all (ps.contains ·) = true) (s0 : State)
    (s : State) :
    sameExcept ps s0 (supplyFall s) ↔ sameExcept ps s0 s :=
  sameExcept_through (supplyFall_frame s) hps s0
@[simp ↓] theorem supplyFall_canonical (s : State) (h : canonical s) : canonical (supplyFall s) := by
  unfold supplyFall
  simp (maxDischargeDepth := 60) (contextual := true) [h]
theorem supplyFall_low (s : State) :
    belowKept 0x10000 s (supplyFall s) := by
  unfold supplyFall
  simp (maxDischargeDepth := 60)
@[simp ↓] theorem supplyFall_below (L : Nat) (hL : L ≤ 0x10000) (s0 : State) (s : State) :
    belowKept L s0 (supplyFall s) ↔ belowKept L s0 s :=
  belowKept_iff (belowKept_mono (supplyFall_low s) hL) s0

theorem supplyRise_frame (s : State) :
    sameExcept [.regs, .hg, .bd, .al] s (supplyRise s) := by
  unfold supplyRise
  simp (disch := decide)
@[simp ↓] theorem supplyRise_through (ps : List Piece) (hps : ([.regs, .hg, .bd, .al] : List Piece).all (ps.contains ·) = true) (s0 : State)
    (s : State) :
    sameExcept ps s0 (supplyRise s) ↔ sameExcept ps s0 s :=
  sameExcept_through (supplyRise_frame s) hps s0
@[simp ↓] theorem supplyRise_canonical (s : State) (h : canonical s) : canonical (supplyRise s) := by
  unfold supplyRise
  simp (maxDischargeDepth := 60) (contextual := true) [h]
theorem supplyRise_low (s : State) :
    belowKept 0x10000 s (supplyRise s) := by
  unfold supplyRise
  simp (maxDischargeDepth := 60)
@[simp ↓] theorem supplyRise_below (L : Nat) (hL : L ≤ 0x10000) (s0 : State) (s : State) :
    belowKept L s0 (supplyRise s) ↔ belowKept L s0 s :=
  belowKept_iff (belowKept_mono (supplyRise_low s) hL) s0

end Sys2Proof.Machine
end

