-- ==== Sys2Proof/Laws/FrameDetours.lean ====
section
/-! SUPPORT. What each operation of `Machine/Detours.lean` can change, in the pieces of `Safety.lean`: `<operation>_frame` says it once,
`<operation>_through` carries it past the operation, `<operation>_canonical` says that it keeps the canonical form, and
`<operation>_low`, `<operation>_below` that it keeps the registers below the blocks it works on. -/

open Sys2Proof

namespace Sys2Proof.Machine

set_option linter.unusedSimpArgs false
set_option linter.unusedVariables false

theorem waypointWords_frame (s : State) (av : Avoid) (n : Nat) :
    sameExcept [.freeCtr] s (waypointWords s av n).2 := by
  unfold waypointWords
  simp (disch := decide)
@[simp ↓] theorem waypointWords_through (ps : List Piece) (hps : ([.freeCtr] : List Piece).all (ps.contains ·) = true) (s0 : State)
    (s : State) (av : Avoid) (n : Nat) :
    sameExcept ps s0 (waypointWords s av n).2 ↔ sameExcept ps s0 s :=
  sameExcept_through (waypointWords_frame s av n) hps s0
@[simp ↓] theorem waypointWords_canonical (s : State) (av : Avoid) (n : Nat) : canonical (waypointWords s av n).2 ↔ canonical s :=
  canonical_same (waypointWords_frame s av n) (by decide)
@[simp ↓] theorem waypointWords_below (L : Nat) (s0 : State) (s : State) (av : Avoid) (n : Nat) :
    belowKept L s0 (waypointWords s av n).2 ↔ belowKept L s0 s :=
  belowKept_iff (belowKept_same (waypointWords_frame s av n) (by decide)) s0

end Sys2Proof.Machine
end

