-- ==== Sys2Proof/Laws/FrameLifecycle.lean ====
section
/-! SUPPORT. What each operation of `Machine/Lifecycle.lean` can change, in the pieces of `Safety.lean`: `<operation>_frame` says it once,
`<operation>_through` carries it past the operation, `<operation>_canonical` says that it keeps the canonical form, and
`<operation>_low`, `<operation>_below` that it keeps the registers below the blocks it works on. -/

open Sys2Proof

namespace Sys2Proof.Machine

set_option linter.unusedSimpArgs false
set_option linter.unusedVariables false

theorem setStage_frame (s : State) (k : Nat) :
    sameExcept [.regs] s (setStage s k) := by
  unfold setStage
  simp (disch := decide)
@[simp ↓] theorem setStage_through (ps : List Piece) (hps : ([.regs] : List Piece).all (ps.contains ·) = true) (s0 : State)
    (s : State) (k : Nat) :
    sameExcept ps s0 (setStage s k) ↔ sameExcept ps s0 s :=
  sameExcept_through (setStage_frame s k) hps s0
@[simp ↓] theorem setStage_canonical (s : State) (k : Nat) (h : canonical s) : canonical (setStage s k) := by
  unfold setStage
  simp (maxDischargeDepth := 60) (contextual := true) [h]

theorem clearPair_frame (n : Nat) (k : Nat) (s : State) :
    sameExcept [.regs] s (clearPair n k s) := by
  unfold clearPair
  simp (disch := decide)
@[simp ↓] theorem clearPair_through (ps : List Piece) (hps : ([.regs] : List Piece).all (ps.contains ·) = true) (s0 : State)
    (n : Nat) (k : Nat) (s : State) :
    sameExcept ps s0 (clearPair n k s) ↔ sameExcept ps s0 s :=
  sameExcept_through (clearPair_frame n k s) hps s0
@[simp ↓] theorem clearPair_canonical (n : Nat) (k : Nat) (s : State) (h : canonical s) : canonical (clearPair n k s) := by
  unfold clearPair
  simp (maxDischargeDepth := 60) (contextual := true) [h]
theorem clearPair_low (n : Nat) (k : Nat) (s : State) :
    belowKept 0x200000 s (clearPair n k s) := by
  unfold clearPair
  simp (maxDischargeDepth := 60)
@[simp ↓] theorem clearPair_below (L : Nat) (hL : L ≤ 0x200000) (s0 : State) (n : Nat) (k : Nat) (s : State) :
    belowKept L s0 (clearPair n k s) ↔ belowKept L s0 s :=
  belowKept_iff (belowKept_mono (clearPair_low n k s) hL) s0

theorem unitRequest_frame (s : State) (kind : Bool) (unit : Nat) (refused : Bool) :
    sameExcept [.regs] s (unitRequest s kind unit refused) := by
  unfold unitRequest
  simp (disch := decide)
@[simp ↓] theorem unitRequest_through (ps : List Piece) (hps : ([.regs] : List Piece).all (ps.contains ·) = true) (s0 : State)
    (s : State) (kind : Bool) (unit : Nat) (refused : Bool) :
    sameExcept ps s0 (unitRequest s kind unit refused) ↔ sameExcept ps s0 s :=
  sameExcept_through (unitRequest_frame s kind unit refused) hps s0
@[simp ↓] theorem unitRequest_canonical (s : State) (kind : Bool) (unit : Nat) (refused : Bool) (h : canonical s) : canonical (unitRequest s kind unit refused) := by
  unfold unitRequest
  simp (maxDischargeDepth := 60) (contextual := true) [h]

theorem unitStart_frame (s : State) (kind : Bool) (unit : Nat) (len : Nat) :
    sameExcept [.regs, .bd] s (unitStart s kind unit len) := by
  unfold unitStart
  simp (disch := decide)
@[simp ↓] theorem unitStart_through (ps : List Piece) (hps : ([.regs, .bd] : List Piece).all (ps.contains ·) = true) (s0 : State)
    (s : State) (kind : Bool) (unit : Nat) (len : Nat) :
    sameExcept ps s0 (unitStart s kind unit len) ↔ sameExcept ps s0 s :=
  sameExcept_through (unitStart_frame s kind unit len) hps s0
@[simp ↓] theorem unitStart_canonical (s : State) (kind : Bool) (unit : Nat) (len : Nat) (h : canonical s) : canonical (unitStart s kind unit len) := by
  unfold unitStart
  simp (maxDischargeDepth := 60) (contextual := true) [h]

theorem weirToBurst_frame (n : Nat) (k : Nat) (s : State) :
    sameExcept [.regs] s (weirToBurst n k s) := by
  unfold weirToBurst
  simp (disch := decide)
@[simp ↓] theorem weirToBurst_through (ps : List Piece) (hps : ([.regs] : List Piece).all (ps.contains ·) = true) (s0 : State)
    (n : Nat) (k : Nat) (s : State) :
    sameExcept ps s0 (weirToBurst n k s) ↔ sameExcept ps s0 s :=
  sameExcept_through (weirToBurst_frame n k s) hps s0
@[simp ↓] theorem weirToBurst_canonical (n : Nat) (k : Nat) (s : State) (h : canonical s) : canonical (weirToBurst n k s) := by
  unfold weirToBurst
  simp (maxDischargeDepth := 60) (contextual := true) [h]
theorem weirToBurst_low (n : Nat) (k : Nat) (s : State) :
    belowKept 0x200000 s (weirToBurst n k s) := by
  unfold weirToBurst
  simp (maxDischargeDepth := 60)
@[simp ↓] theorem weirToBurst_below (L : Nat) (hL : L ≤ 0x200000) (s0 : State) (n : Nat) (k : Nat) (s : State) :
    belowKept L s0 (weirToBurst n k s) ↔ belowKept L s0 s :=
  belowKept_iff (belowKept_mono (weirToBurst_low n k s) hL) s0

theorem headgateReset_frame (s : State) (n : Nat) :
    sameExcept [.regs, .hg, .bd] s (headgateReset s n) := by
  unfold headgateReset
  simp (disch := first | decide | (intro _ _; (repeat' split) <;> simp (disch := decide))) [sameExcept_foldl, sameExcept_foldl1, sameExcept_foldl2, sameExcept_forEach, sameExcept_forRange]
@[simp ↓] theorem headgateReset_through (ps : List Piece) (hps : ([.regs, .hg, .bd] : List Piece).all (ps.contains ·) = true) (s0 : State)
    (s : State) (n : Nat) :
    sameExcept ps s0 (headgateReset s n) ↔ sameExcept ps s0 s :=
  sameExcept_through (headgateReset_frame s n) hps s0
@[simp ↓] theorem headgateReset_canonical (s : State) (n : Nat) (h : canonical s) : canonical (headgateReset s n) := by
  unfold headgateReset
  simp (maxDischargeDepth := 60) (contextual := true) [h]

theorem clearRouter_frame (s : State) (i : Nat) :
    sameExcept [.regs, .rt] s (clearRouter s i) := by
  unfold clearRouter
  simp (disch := decide)
@[simp ↓] theorem clearRouter_through (ps : List Piece) (hps : ([.regs, .rt] : List Piece).all (ps.contains ·) = true) (s0 : State)
    (s : State) (i : Nat) :
    sameExcept ps s0 (clearRouter s i) ↔ sameExcept ps s0 s :=
  sameExcept_through (clearRouter_frame s i) hps s0
@[simp ↓] theorem clearRouter_canonical (s : State) (i : Nat) (h : canonical s) : canonical (clearRouter s i) := by
  unfold clearRouter
  simp (maxDischargeDepth := 60) (contextual := true) [h]
theorem clearRouter_low (s : State) (i : Nat) :
    belowKept 0x100000 s (clearRouter s i) := by
  unfold clearRouter
  simp (maxDischargeDepth := 60)
@[simp ↓] theorem clearRouter_below (L : Nat) (hL : L ≤ 0x100000) (s0 : State) (s : State) (i : Nat) :
    belowKept L s0 (clearRouter s i) ↔ belowKept L s0 s :=
  belowKept_iff (belowKept_mono (clearRouter_low s i) hL) s0

theorem routerReset_frame (s : State) (i : Nat) :
    sameExcept [.regs, .rt, .bd] s (routerReset s i) := by
  unfold routerReset
  simp (disch := decide)
@[simp ↓] theorem routerReset_through (ps : List Piece) (hps : ([.regs, .rt, .bd] : List Piece).all (ps.contains ·) = true) (s0 : State)
    (s : State) (i : Nat) :
    sameExcept ps s0 (routerReset s i) ↔ sameExcept ps s0 s :=
  sameExcept_through (routerReset_frame s i) hps s0
@[simp ↓] theorem routerReset_canonical (s : State) (i : Nat) (h : canonical s) : canonical (routerReset s i) := by
  unfold routerReset
  simp (maxDischargeDepth := 60) (contextual := true) [h]

theorem riderEvent_frame (s : State) :
    sameExcept [.mb] s (riderEvent s) := by
  unfold riderEvent
  simp (disch := first | decide | (intro _ _; (repeat' split) <;> simp (disch := decide))) [sameExcept_foldl, sameExcept_foldl1, sameExcept_foldl2, sameExcept_forEach, sameExcept_forRange]
@[simp ↓] theorem riderEvent_through (ps : List Piece) (hps : ([.mb] : List Piece).all (ps.contains ·) = true) (s0 : State)
    (s : State) :
    sameExcept ps s0 (riderEvent s) ↔ sameExcept ps s0 s :=
  sameExcept_through (riderEvent_frame s) hps s0
@[simp ↓] theorem riderEvent_canonical (s : State) : canonical (riderEvent s) ↔ canonical s :=
  canonical_same (riderEvent_frame s) (by decide)
@[simp ↓] theorem riderEvent_below (L : Nat) (s0 : State) (s : State) :
    belowKept L s0 (riderEvent s) ↔ belowKept L s0 s :=
  belowKept_iff (belowKept_same (riderEvent_frame s) (by decide)) s0

theorem haltRider_frame (s : State) :
    sameExcept [.regs, .rd, .mb] s (haltRider s) := by
  unfold haltRider
  simp (disch := decide)
@[simp ↓] theorem haltRider_through (ps : List Piece) (hps : ([.regs, .rd, .mb] : List Piece).all (ps.contains ·) = true) (s0 : State)
    (s : State) :
    sameExcept ps s0 (haltRider s) ↔ sameExcept ps s0 s :=
  sameExcept_through (haltRider_frame s) hps s0
@[simp ↓] theorem haltRider_canonical (s : State) (h : canonical s) : canonical (haltRider s) := by
  unfold haltRider
  simp (maxDischargeDepth := 60) (contextual := true) [h]

theorem bootSlot_frame (t : Nat) (base : Nat) (size : Nat) (s : State) :
    sameExcept [.regs] s (bootSlot t base size s) := by
  unfold bootSlot
  simp (disch := decide)
@[simp ↓] theorem bootSlot_through (ps : List Piece) (hps : ([.regs] : List Piece).all (ps.contains ·) = true) (s0 : State)
    (t : Nat) (base : Nat) (size : Nat) (s : State) :
    sameExcept ps s0 (bootSlot t base size s) ↔ sameExcept ps s0 s :=
  sameExcept_through (bootSlot_frame t base size s) hps s0
@[simp ↓] theorem bootSlot_canonical (t : Nat) (base : Nat) (size : Nat) (s : State) (h : canonical s) : canonical (bootSlot t base size s) := by
  unfold bootSlot
  simp (maxDischargeDepth := 60) (contextual := true) [h]
theorem bootSlot_low (t : Nat) (base : Nat) (size : Nat) (s : State) :
    belowKept 0x200000 s (bootSlot t base size s) := by
  unfold bootSlot
  simp (maxDischargeDepth := 60)
@[simp ↓] theorem bootSlot_below (L : Nat) (hL : L ≤ 0x200000) (s0 : State) (t : Nat) (base : Nat) (size : Nat) (s : State) :
    belowKept L s0 (bootSlot t base size s) ↔ belowKept L s0 s :=
  belowKept_iff (belowKept_mono (bootSlot_low t base size s) hL) s0

theorem bootPair_frame (n : Nat) (t : Nat) (s : State) :
    sameExcept [.regs, .hg] s (bootPair n t s) := by
  unfold bootPair
  split
  simp (disch := decide)
@[simp ↓] theorem bootPair_through (ps : List Piece) (hps : ([.regs, .hg] : List Piece).all (ps.contains ·) = true) (s0 : State)
    (n : Nat) (t : Nat) (s : State) :
    sameExcept ps s0 (bootPair n t s) ↔ sameExcept ps s0 s :=
  sameExcept_through (bootPair_frame n t s) hps s0
@[simp ↓] theorem bootPair_canonical (n : Nat) (t : Nat) (s : State) (h : canonical s) : canonical (bootPair n t s) := by
  unfold bootPair
  simp (maxDischargeDepth := 60) (contextual := true) [h]
theorem bootPair_low (n : Nat) (t : Nat) (s : State) :
    belowKept 0x200000 s (bootPair n t s) := by
  unfold bootPair
  simp (maxDischargeDepth := 60)
@[simp ↓] theorem bootPair_below (L : Nat) (hL : L ≤ 0x200000) (s0 : State) (n : Nat) (t : Nat) (s : State) :
    belowKept L s0 (bootPair n t s) ↔ belowKept L s0 s :=
  belowKept_iff (belowKept_mono (bootPair_low n t s) hL) s0

theorem bringUp_frame (badHgs : List Nat) (badRts : List Nat) (e : LEnd) (s : State) :
    sameExcept [.regs, .hg, .rt, .wires, .credits, .al] s (bringUp badHgs badRts e s) := by
  unfold bringUp
  (repeat' split) <;> simp (disch := decide)
@[simp ↓] theorem bringUp_through (ps : List Piece) (hps : ([.regs, .hg, .rt, .wires, .credits, .al] : List Piece).all (ps.contains ·) = true) (s0 : State)
    (badHgs : List Nat) (badRts : List Nat) (e : LEnd) (s : State) :
    sameExcept ps s0 (bringUp badHgs badRts e s) ↔ sameExcept ps s0 s :=
  sameExcept_through (bringUp_frame badHgs badRts e s) hps s0
@[simp ↓] theorem bringUp_canonical (badHgs : List Nat) (badRts : List Nat) (e : LEnd) (s : State) (h : canonical s) : canonical (bringUp badHgs badRts e s) := by
  unfold bringUp
  (repeat' split) <;> simp (maxDischargeDepth := 60) (contextual := true) [h]
theorem bringUp_low (badHgs : List Nat) (badRts : List Nat) (e : LEnd) (s : State) :
    belowKept 0x100000 s (bringUp badHgs badRts e s) := by
  unfold bringUp
  (repeat' split) <;> simp (maxDischargeDepth := 60)
@[simp ↓] theorem bringUp_below (L : Nat) (hL : L ≤ 0x100000) (s0 : State) (badHgs : List Nat) (badRts : List Nat) (e : LEnd) (s : State) :
    belowKept L s0 (bringUp badHgs badRts e s) ↔ belowKept L s0 s :=
  belowKept_iff (belowKept_mono (bringUp_low badHgs badRts e s) hL) s0

theorem coldReset_frame (s : State) (cause : ColdCause) :
    sameExcept [.fclk, .regs, .hg, .rt, .hs, .rv, .wires, .credits, .bd, .pr, .al, .rd, .mb, .tap, .fcsRead, .lateGua] s (coldReset s cause) := by
  intro p hp; cases p <;> first | rfl | (simp at hp)
@[simp ↓] theorem coldReset_through (ps : List Piece) (hps : ([.fclk, .regs, .hg, .rt, .hs, .rv, .wires, .credits, .bd, .pr, .al, .rd, .mb, .tap, .fcsRead, .lateGua] : List Piece).all (ps.contains ·) = true) (s0 : State)
    (s : State) (cause : ColdCause) :
    sameExcept ps s0 (coldReset s cause) ↔ sameExcept ps s0 s :=
  sameExcept_through (coldReset_frame s cause) hps s0
@[simp ↓] theorem coldReset_canonical (s : State) (cause : ColdCause) (h : canonical s) : canonical (coldReset s cause) := by
  have hr : canonical (({ State.reset with
      bd := { Boundary.reset with
        time := s.bd.time, everValid := s.bd.time.valid, ownSec := s.bd.time.sec, ownNs := s.bd.time.ns
        rootLock := s.bd.rootLock && decide (cause ≠ .rootLockFall), supplyWarn := s.bd.supplyWarn }
      tap := { Tap.reset with testMode := decide (cause = .testEntry) }
      freeCtr := s.freeCtr, pending := s.pending } : State)) := ⟨rfl, rfl⟩
  exact canonical_setF _ _ _ _ _ hr

theorem unitDone_frame (s : State) (kind : Bool) :
    sameExcept [.fclk, .regs, .bd] s (unitDone s kind) := by
  unfold unitDone
  (repeat' split) <;> simp (disch := decide)
@[simp ↓] theorem unitDone_through (ps : List Piece) (hps : ([.fclk, .regs, .bd] : List Piece).all (ps.contains ·) = true) (s0 : State)
    (s : State) (kind : Bool) :
    sameExcept ps s0 (unitDone s kind) ↔ sameExcept ps s0 s :=
  sameExcept_through (unitDone_frame s kind) hps s0
@[simp ↓] theorem unitDone_canonical (s : State) (kind : Bool) (h : canonical s) : canonical (unitDone s kind) := by
  unfold unitDone
  (repeat' split) <;> simp (maxDischargeDepth := 60) (contextual := true) [h]

theorem progDone_frame (s : State) :
    sameExcept [.regs, .bd] s (progDone s) := by
  unfold progDone
  simp (disch := decide)
@[simp ↓] theorem progDone_through (ps : List Piece) (hps : ([.regs, .bd] : List Piece).all (ps.contains ·) = true) (s0 : State)
    (s : State) :
    sameExcept ps s0 (progDone s) ↔ sameExcept ps s0 s :=
  sameExcept_through (progDone_frame s) hps s0
@[simp ↓] theorem progDone_canonical (s : State) (h : canonical s) : canonical (progDone s) := by
  unfold progDone
  simp (maxDischargeDepth := 60) (contextual := true) [h]

theorem meshDone_frame (s : State) :
    sameExcept [.fclk, .regs, .hg, .rd] s (meshDone s) := by
  have hb : ∀ t : State, sameExcept [.fclk, .regs, .hg, .rd] t
      (forEach [149, 150] (fun n t => forEach bootTargets (bootPair n) t) t) := by
    intro t
    rw [sameExcept_forEach]
    · simp
    · intro t x
      rw [sameExcept_forEach]
      · simp
      · intro t x; simp (disch := decide)
  unfold meshDone
  split
  · simp
  · dsimp only
    split <;> simp (disch := decide) [sameExcept_iff (hb _)]
@[simp ↓] theorem meshDone_through (ps : List Piece) (hps : ([.fclk, .regs, .hg, .rd] : List Piece).all (ps.contains ·) = true) (s0 : State)
    (s : State) :
    sameExcept ps s0 (meshDone s) ↔ sameExcept ps s0 s :=
  sameExcept_through (meshDone_frame s) hps s0
@[simp ↓] theorem meshDone_canonical (s : State) (h : canonical s) : canonical (meshDone s) := by
  unfold meshDone
  simp (maxDischargeDepth := 60) (contextual := true) [h]

theorem resetRelease_frame (s : State) (lc : BitVec 2) (revoked : BitVec 4) (minSvn : BitVec 16) :
    sameExcept [.regs, .hg, .bd, .al] s (resetRelease s lc revoked minSvn) := by
  unfold resetRelease
  simp (disch := decide)
@[simp ↓] theorem resetRelease_through (ps : List Piece) (hps : ([.regs, .hg, .bd, .al] : List Piece).all (ps.contains ·) = true) (s0 : State)
    (s : State) (lc : BitVec 2) (revoked : BitVec 4) (minSvn : BitVec 16) :
    sameExcept ps s0 (resetRelease s lc revoked minSvn) ↔ sameExcept ps s0 s :=
  sameExcept_through (resetRelease_frame s lc revoked minSvn) hps s0
@[simp ↓] theorem resetRelease_canonical (s : State) (lc : BitVec 2) (revoked : BitVec 4) (minSvn : BitVec 16) (h : canonical s) : canonical (resetRelease s lc revoked minSvn) := by
  unfold resetRelease
  simp (maxDischargeDepth := 60) (contextual := true) [h]

theorem writeAttach_frame (bad : List Nat) (n : Nat) (s : State) :
    sameExcept [.regs] s (writeAttach bad n s) := by
  unfold writeAttach
  simp (disch := first | decide | (intro _ _; (repeat' split) <;> simp (disch := decide))) [sameExcept_foldl, sameExcept_foldl1, sameExcept_foldl2, sameExcept_forEach, sameExcept_forRange]
@[simp ↓] theorem writeAttach_through (ps : List Piece) (hps : ([.regs] : List Piece).all (ps.contains ·) = true) (s0 : State)
    (bad : List Nat) (n : Nat) (s : State) :
    sameExcept ps s0 (writeAttach bad n s) ↔ sameExcept ps s0 s :=
  sameExcept_through (writeAttach_frame bad n s) hps s0
@[simp ↓] theorem writeAttach_canonical (bad : List Nat) (n : Nat) (s : State) (h : canonical s) : canonical (writeAttach bad n s) := by
  unfold writeAttach
  simp (maxDischargeDepth := 60) (contextual := true) [h]
theorem writeAttach_low (bad : List Nat) (n : Nat) (s : State) :
    belowKept 0x200000 s (writeAttach bad n s) := by
  unfold writeAttach
  simp (maxDischargeDepth := 60) [belowKept_foldl, belowKept_foldl1, belowKept_foldl2, belowKept_forEach, belowKept_forRange]
@[simp ↓] theorem writeAttach_below (L : Nat) (hL : L ≤ 0x200000) (s0 : State) (bad : List Nat) (n : Nat) (s : State) :
    belowKept L s0 (writeAttach bad n s) ↔ belowKept L s0 s :=
  belowKept_iff (belowKept_mono (writeAttach_low bad n s) hL) s0

theorem writeMaps_frame (i : Nat) (s : State) :
    sameExcept [.regs] s (writeMaps i s) := by
  unfold writeMaps
  simp (disch := first | decide | (intro _ _; (repeat' split) <;> simp (disch := decide))) [sameExcept_foldl, sameExcept_foldl1, sameExcept_foldl2, sameExcept_forEach, sameExcept_forRange]
@[simp ↓] theorem writeMaps_through (ps : List Piece) (hps : ([.regs] : List Piece).all (ps.contains ·) = true) (s0 : State)
    (i : Nat) (s : State) :
    sameExcept ps s0 (writeMaps i s) ↔ sameExcept ps s0 s :=
  sameExcept_through (writeMaps_frame i s) hps s0
@[simp ↓] theorem writeMaps_canonical (i : Nat) (s : State) (h : canonical s) : canonical (writeMaps i s) := by
  unfold writeMaps
  apply canonical_forRange
  · simp (maxDischargeDepth := 60) (contextual := true) [h]
  · intro t x ht; split <;> simp (maxDischargeDepth := 60) (contextual := true) [ht]
theorem writeMaps_low (i : Nat) (s : State) :
    belowKept 0x100000 s (writeMaps i s) := by
  unfold writeMaps
  rw [belowKept_forRange]
  · simp (maxDischargeDepth := 60)
  · intro t x; split <;> simp (maxDischargeDepth := 60)
@[simp ↓] theorem writeMaps_below (L : Nat) (hL : L ≤ 0x100000) (s0 : State) (i : Nat) (s : State) :
    belowKept L s0 (writeMaps i s) ↔ belowKept L s0 s :=
  belowKept_iff (belowKept_mono (writeMaps_low i s) hL) s0

theorem writeWaypoints_frame (av : Avoid) (n : Nat) (s : State) :
    sameExcept [.regs, .freeCtr] s (writeWaypoints av n s) := by
  unfold writeWaypoints
  simp (disch := first | decide | (intro _ _; (repeat' split) <;> simp (disch := decide))) [sameExcept_foldl, sameExcept_foldl1, sameExcept_foldl2, sameExcept_forEach, sameExcept_forRange]
@[simp ↓] theorem writeWaypoints_through (ps : List Piece) (hps : ([.regs, .freeCtr] : List Piece).all (ps.contains ·) = true) (s0 : State)
    (av : Avoid) (n : Nat) (s : State) :
    sameExcept ps s0 (writeWaypoints av n s) ↔ sameExcept ps s0 s :=
  sameExcept_through (writeWaypoints_frame av n s) hps s0
@[simp ↓] theorem writeWaypoints_canonical (av : Avoid) (n : Nat) (s : State) (h : canonical s) : canonical (writeWaypoints av n s) := by
  unfold writeWaypoints
  simp (maxDischargeDepth := 60) (contextual := true) [h]
theorem writeWaypoints_low (av : Avoid) (n : Nat) (s : State) :
    belowKept 0x200000 s (writeWaypoints av n s) := by
  unfold writeWaypoints
  simp (maxDischargeDepth := 60) [belowKept_foldl, belowKept_foldl1, belowKept_foldl2, belowKept_forEach, belowKept_forRange]
@[simp ↓] theorem writeWaypoints_below (L : Nat) (hL : L ≤ 0x200000) (s0 : State) (av : Avoid) (n : Nat) (s : State) :
    belowKept L s0 (writeWaypoints av n s) ↔ belowKept L s0 s :=
  belowKept_iff (belowKept_mono (writeWaypoints_low av n s) hL) s0

theorem meshBringup_frame (s : State) (fs : List TestFail) :
    sameExcept [.regs, .hg, .rt, .hs, .wires, .credits, .pr, .al, .rd, .freeCtr] s (meshBringup s fs) := by
  unfold meshBringup
  simp (disch := first | decide | (intro _ _; (repeat' split) <;> simp (disch := decide))) [sameExcept_foldl, sameExcept_foldl1, sameExcept_foldl2, sameExcept_forEach, sameExcept_forRange]
@[simp ↓] theorem meshBringup_through (ps : List Piece) (hps : ([.regs, .hg, .rt, .hs, .wires, .credits, .pr, .al, .rd, .freeCtr] : List Piece).all (ps.contains ·) = true) (s0 : State)
    (s : State) (fs : List TestFail) :
    sameExcept ps s0 (meshBringup s fs) ↔ sameExcept ps s0 s :=
  sameExcept_through (meshBringup_frame s fs) hps s0
@[simp ↓] theorem meshBringup_canonical (s : State) (fs : List TestFail) (h : canonical s) : canonical (meshBringup s fs) := by
  unfold meshBringup
  simp (maxDischargeDepth := 60) (contextual := true) [h]

theorem selfTestDone_frame (s : State) (fails : List TestFail) :
    sameExcept [.regs, .hg, .rt, .hs, .wires, .credits, .bd, .pr, .al, .rd, .mb, .freeCtr] s (selfTestDone s fails) := by
  unfold selfTestDone
  simp (disch := decide)
@[simp ↓] theorem selfTestDone_through (ps : List Piece) (hps : ([.regs, .hg, .rt, .hs, .wires, .credits, .bd, .pr, .al, .rd, .mb, .freeCtr] : List Piece).all (ps.contains ·) = true) (s0 : State)
    (s : State) (fails : List TestFail) :
    sameExcept ps s0 (selfTestDone s fails) ↔ sameExcept ps s0 s :=
  sameExcept_through (selfTestDone_frame s fails) hps s0
@[simp ↓] theorem selfTestDone_canonical (s : State) (fails : List TestFail) (h : canonical s) : canonical (selfTestDone s fails) := by
  unfold selfTestDone
  simp (maxDischargeDepth := 60) (contextual := true) [h]

theorem warmReset_frame (s : State) (cause : Nat) :
    sameExcept [.fclk, .regs, .hg, .rt, .hs, .rv, .wires, .credits, .bd, .pr, .al, .rd, .mb, .fcsRead, .lateGua] s (warmReset s cause) := by
  unfold warmReset
  split
  · simp
  · rw [sameExcept_forRange]
    · dsimp only
      rw [sameExcept_setB _ (by decide), sameExcept_setF _ (by decide), sameExcept_setF _ (by decide), sameExcept_setReg _ (by decide),
        sameExcept_setReg _ (by decide), sameExcept_setReg _ (by decide)]
      intro p hp; cases p <;> first | rfl | (simp at hp)
    · intro t x; unfold keepFailed; split <;> simp (disch := decide)
@[simp ↓] theorem warmReset_through (ps : List Piece) (hps : ([.fclk, .regs, .hg, .rt, .hs, .rv, .wires, .credits, .bd, .pr, .al, .rd, .mb, .fcsRead, .lateGua] : List Piece).all (ps.contains ·) = true) (s0 : State)
    (s : State) (cause : Nat) :
    sameExcept ps s0 (warmReset s cause) ↔ sameExcept ps s0 s :=
  sameExcept_through (warmReset_frame s cause) hps s0
@[simp ↓] theorem warmReset_canonical (s : State) (cause : Nat) (h : canonical s) : canonical (warmReset s cause) := by
  unfold warmReset
  split
  · exact h
  · apply canonical_forRange
    · dsimp only
      apply canonical_setB
      apply canonical_setF
      apply canonical_setF
      apply canonical_setReg
      apply canonical_setReg
      apply canonical_setReg
      exact ⟨rfl, h.2⟩
    · intro t x ht
      unfold keepFailed
      split <;> simp (maxDischargeDepth := 60) (contextual := true) [ht]

end Sys2Proof.Machine
end

