-- ==== Sys2Proof/Laws/FrameOnce.lean ====
section
/-! SUPPORT. What each operation of `Machine/Once.lean` can change, in the pieces of `Safety.lean`: `<operation>_frame` says it once,
`<operation>_through` carries it past the operation, `<operation>_canonical` says that it keeps the canonical form, and
`<operation>_low`, `<operation>_below` that it keeps the registers below the blocks it works on. -/

open Sys2Proof

namespace Sys2Proof.Machine

set_option linter.unusedSimpArgs false
set_option linter.unusedVariables false

theorem replayNotice_frame (s : State) (n : Nat) (dest : Nat) (all : Bool) :
    sameExcept [.regs, .hg] s (replayNotice s n dest all) := by
  unfold replayNotice
  simp (disch := decide)
@[simp ↓] theorem replayNotice_through (ps : List Piece) (hps : ([.regs, .hg] : List Piece).all (ps.contains ·) = true) (s0 : State)
    (s : State) (n : Nat) (dest : Nat) (all : Bool) :
    sameExcept ps s0 (replayNotice s n dest all) ↔ sameExcept ps s0 s :=
  sameExcept_through (replayNotice_frame s n dest all) hps s0
@[simp ↓] theorem replayNotice_canonical (s : State) (n : Nat) (dest : Nat) (all : Bool) (h : canonical s) : canonical (replayNotice s n dest all) := by
  unfold replayNotice
  simp (maxDischargeDepth := 60) (contextual := true) [h]
theorem replayNotice_low (s : State) (n : Nat) (dest : Nat) (all : Bool) :
    belowKept 0x200000 s (replayNotice s n dest all) := by
  unfold replayNotice
  simp (maxDischargeDepth := 60)
@[simp ↓] theorem replayNotice_below (L : Nat) (hL : L ≤ 0x200000) (s0 : State) (s : State) (n : Nat) (dest : Nat) (all : Bool) :
    belowKept L s0 (replayNotice s n dest all) ↔ belowKept L s0 s :=
  belowKept_iff (belowKept_mono (replayNotice_low s n dest all) hL) s0

theorem credDue_frame (s : State) (t : Nat) (src : Nat) :
    sameExcept [.fclk, .regs, .hg, .wires, .pr] s (credDue s t src) := by
  unfold credDue
  (repeat' split) <;> simp (disch := decide)
@[simp ↓] theorem credDue_through (ps : List Piece) (hps : ([.fclk, .regs, .hg, .wires, .pr] : List Piece).all (ps.contains ·) = true) (s0 : State)
    (s : State) (t : Nat) (src : Nat) :
    sameExcept ps s0 (credDue s t src) ↔ sameExcept ps s0 s :=
  sameExcept_through (credDue_frame s t src) hps s0
@[simp ↓] theorem credDue_canonical (s : State) (t : Nat) (src : Nat) (h : canonical s) : canonical (credDue s t src) := by
  unfold credDue
  (repeat' split) <;> simp (maxDischargeDepth := 60) (contextual := true) [h]
theorem credDue_low (s : State) (t : Nat) (src : Nat) :
    belowKept 0x200000 s (credDue s t src) := by
  unfold credDue
  (repeat' split) <;> simp (maxDischargeDepth := 60)
@[simp ↓] theorem credDue_below (L : Nat) (hL : L ≤ 0x200000) (s0 : State) (s : State) (t : Nat) (src : Nat) :
    belowKept L s0 (credDue s t src) ↔ belowKept L s0 s :=
  belowKept_iff (belowKept_mono (credDue_low s t src) hL) s0

theorem credKeepalive_frame (s : State) (t : Nat) (src : Nat) :
    sameExcept [.fclk, .regs, .hg, .wires, .pr] s (credKeepalive s t src) := by
  unfold credKeepalive
  dsimp only
  (repeat' split) <;> simp (disch := decide)
@[simp ↓] theorem credKeepalive_through (ps : List Piece) (hps : ([.fclk, .regs, .hg, .wires, .pr] : List Piece).all (ps.contains ·) = true) (s0 : State)
    (s : State) (t : Nat) (src : Nat) :
    sameExcept ps s0 (credKeepalive s t src) ↔ sameExcept ps s0 s :=
  sameExcept_through (credKeepalive_frame s t src) hps s0
@[simp ↓] theorem credKeepalive_canonical (s : State) (t : Nat) (src : Nat) (h : canonical s) : canonical (credKeepalive s t src) := by
  unfold credKeepalive
  dsimp only
  (repeat' split) <;> simp (maxDischargeDepth := 60) (contextual := true) [h]
theorem credKeepalive_low (s : State) (t : Nat) (src : Nat) :
    belowKept 0x200000 s (credKeepalive s t src) := by
  unfold credKeepalive
  dsimp only
  (repeat' split) <;> simp (maxDischargeDepth := 60)
@[simp ↓] theorem credKeepalive_below (L : Nat) (hL : L ≤ 0x200000) (s0 : State) (s : State) (t : Nat) (src : Nat) :
    belowKept L s0 (credKeepalive s t src) ↔ belowKept L s0 s :=
  belowKept_iff (belowKept_mono (credKeepalive_low s t src) hL) s0

theorem ecmtDue_frame (s : State) (n : Nat) (src : Nat) :
    sameExcept [.fclk, .regs, .hg, .wires, .pr] s (ecmtDue s n src) := by
  unfold ecmtDue
  (repeat' split) <;> simp (disch := decide)
@[simp ↓] theorem ecmtDue_through (ps : List Piece) (hps : ([.fclk, .regs, .hg, .wires, .pr] : List Piece).all (ps.contains ·) = true) (s0 : State)
    (s : State) (n : Nat) (src : Nat) :
    sameExcept ps s0 (ecmtDue s n src) ↔ sameExcept ps s0 s :=
  sameExcept_through (ecmtDue_frame s n src) hps s0
@[simp ↓] theorem ecmtDue_canonical (s : State) (n : Nat) (src : Nat) (h : canonical s) : canonical (ecmtDue s n src) := by
  unfold ecmtDue
  (repeat' split) <;> simp (maxDischargeDepth := 60) (contextual := true) [h]
theorem ecmtDue_low (s : State) (n : Nat) (src : Nat) :
    belowKept 0x200000 s (ecmtDue s n src) := by
  unfold ecmtDue
  (repeat' split) <;> simp (maxDischargeDepth := 60)
@[simp ↓] theorem ecmtDue_below (L : Nat) (hL : L ≤ 0x200000) (s0 : State) (s : State) (n : Nat) (src : Nat) :
    belowKept L s0 (ecmtDue s n src) ↔ belowKept L s0 s :=
  belowKept_iff (belowKept_mono (ecmtDue_low s n src) hL) s0

theorem takeCred_frame (s : State) (n : Nat) :
    sameExcept [.regs, .hg] s (takeCred s n) := by
  unfold takeCred
  (repeat' split) <;> simp (disch := decide)
@[simp ↓] theorem takeCred_through (ps : List Piece) (hps : ([.regs, .hg] : List Piece).all (ps.contains ·) = true) (s0 : State)
    (s : State) (n : Nat) :
    sameExcept ps s0 (takeCred s n) ↔ sameExcept ps s0 s :=
  sameExcept_through (takeCred_frame s n) hps s0
@[simp ↓] theorem takeCred_canonical (s : State) (n : Nat) (h : canonical s) : canonical (takeCred s n) := by
  unfold takeCred
  (repeat' split) <;> simp (maxDischargeDepth := 60) (contextual := true) [h]
theorem takeCred_low (s : State) (n : Nat) :
    belowKept 0x200000 s (takeCred s n) := by
  unfold takeCred
  (repeat' split) <;> simp (maxDischargeDepth := 60)
@[simp ↓] theorem takeCred_below (L : Nat) (hL : L ≤ 0x200000) (s0 : State) (s : State) (n : Nat) :
    belowKept L s0 (takeCred s n) ↔ belowKept L s0 s :=
  belowKept_iff (belowKept_mono (takeCred_low s n) hL) s0

theorem takeEcmt_frame (s : State) (n : Nat) :
    sameExcept [.regs, .hg, .wires, .pr, .al] s (takeEcmt s n) := by
  unfold takeEcmt
  (repeat' split) <;> simp (disch := decide)
@[simp ↓] theorem takeEcmt_through (ps : List Piece) (hps : ([.regs, .hg, .wires, .pr, .al] : List Piece).all (ps.contains ·) = true) (s0 : State)
    (s : State) (n : Nat) :
    sameExcept ps s0 (takeEcmt s n) ↔ sameExcept ps s0 s :=
  sameExcept_through (takeEcmt_frame s n) hps s0
@[simp ↓] theorem takeEcmt_canonical (s : State) (n : Nat) (h : canonical s) : canonical (takeEcmt s n) := by
  unfold takeEcmt
  (repeat' split) <;> simp (maxDischargeDepth := 60) (contextual := true) [h]
theorem takeEcmt_low (s : State) (n : Nat) :
    belowKept 0xD0000 s (takeEcmt s n) := by
  unfold takeEcmt
  (repeat' split) <;> simp (maxDischargeDepth := 60)
@[simp ↓] theorem takeEcmt_below (L : Nat) (hL : L ≤ 0xD0000) (s0 : State) (s : State) (n : Nat) :
    belowKept L s0 (takeEcmt s n) ↔ belowKept L s0 s :=
  belowKept_iff (belowKept_mono (takeEcmt_low s n) hL) s0

theorem takeEnak_frame (s : State) (n : Nat) :
    sameExcept [.regs, .hg, .wires, .pr, .al] s (takeEnak s n) := by
  unfold takeEnak
  (repeat' split) <;> simp (disch := decide)
@[simp ↓] theorem takeEnak_through (ps : List Piece) (hps : ([.regs, .hg, .wires, .pr, .al] : List Piece).all (ps.contains ·) = true) (s0 : State)
    (s : State) (n : Nat) :
    sameExcept ps s0 (takeEnak s n) ↔ sameExcept ps s0 s :=
  sameExcept_through (takeEnak_frame s n) hps s0
@[simp ↓] theorem takeEnak_canonical (s : State) (n : Nat) (h : canonical s) : canonical (takeEnak s n) := by
  unfold takeEnak
  (repeat' split) <;> simp (maxDischargeDepth := 60) (contextual := true) [h]
theorem takeEnak_low (s : State) (n : Nat) :
    belowKept 0xD0000 s (takeEnak s n) := by
  unfold takeEnak
  (repeat' split) <;> simp (maxDischargeDepth := 60)
@[simp ↓] theorem takeEnak_below (L : Nat) (hL : L ≤ 0xD0000) (s0 : State) (s : State) (n : Nat) :
    belowKept L s0 (takeEnak s n) ↔ belowKept L s0 s :=
  belowKept_iff (belowKept_mono (takeEnak_low s n) hL) s0

end Sys2Proof.Machine
end

