-- ==== Sys2Proof/Laws/FrameFcs.lean ====
section
/-! SUPPORT. What each operation of `Machine/Fcs.lean` can change, in the pieces of `Safety.lean`: `<operation>_frame` says it once,
`<operation>_through` carries it past the operation, `<operation>_canonical` says that it keeps the canonical form, and
`<operation>_low`, `<operation>_below` that it keeps the registers below the blocks it works on. -/

open Sys2Proof

namespace Sys2Proof.Machine

set_option linter.unusedSimpArgs false
set_option linter.unusedVariables false

theorem storeFields_frame (s : State) (off : Nat) (v : Word) (m : Word) :
    sameExcept [.regs] s (storeFields s off v m) := by
  unfold storeFields
  (repeat' split) <;> simp (disch := decide)
@[simp ↓] theorem storeFields_through (ps : List Piece) (hps : ([.regs] : List Piece).all (ps.contains ·) = true) (s0 : State)
    (s : State) (off : Nat) (v : Word) (m : Word) :
    sameExcept ps s0 (storeFields s off v m) ↔ sameExcept ps s0 s :=
  sameExcept_through (storeFields_frame s off v m) hps s0
@[simp ↓] theorem storeFields_canonical (s : State) (off : Nat) (v : Word) (m : Word) (h : canonical s) : canonical (storeFields s off v m) := by
  unfold storeFields
  (repeat' split) <;> simp (maxDischargeDepth := 60) (contextual := true) [h]

theorem mergeClear_frame (s : State) (off : Nat) :
    sameExcept [.regs] s (mergeClear s off) := by
  unfold mergeClear
  simp (disch := decide)
@[simp ↓] theorem mergeClear_through (ps : List Piece) (hps : ([.regs] : List Piece).all (ps.contains ·) = true) (s0 : State)
    (s : State) (off : Nat) :
    sameExcept ps s0 (mergeClear s off) ↔ sameExcept ps s0 s :=
  sameExcept_through (mergeClear_frame s off) hps s0
@[simp ↓] theorem mergeClear_canonical (s : State) (off : Nat) (h : canonical s) : canonical (mergeClear s off) := by
  unfold mergeClear
  simp (maxDischargeDepth := 60) (contextual := true) [h]

theorem writeTurnCfg_frame (s : State) (v : Word) (m : Word) :
    sameExcept [.regs, .bd] s (writeTurnCfg s v m) := by
  unfold writeTurnCfg
  simp (disch := decide)
@[simp ↓] theorem writeTurnCfg_through (ps : List Piece) (hps : ([.regs, .bd] : List Piece).all (ps.contains ·) = true) (s0 : State)
    (s : State) (v : Word) (m : Word) :
    sameExcept ps s0 (writeTurnCfg s v m) ↔ sameExcept ps s0 s :=
  sameExcept_through (writeTurnCfg_frame s v m) hps s0
@[simp ↓] theorem writeTurnCfg_canonical (s : State) (v : Word) (m : Word) (h : canonical s) : canonical (writeTurnCfg s v m) := by
  unfold writeTurnCfg
  simp (maxDischargeDepth := 60) (contextual := true) [h]

theorem writeClock_frame (s : State) (off : Nat) (v : Word) (m : Word) :
    sameExcept [.regs, .bd] s (writeClock s off v m) := by
  unfold writeClock
  simp (disch := decide)
@[simp ↓] theorem writeClock_through (ps : List Piece) (hps : ([.regs, .bd] : List Piece).all (ps.contains ·) = true) (s0 : State)
    (s : State) (off : Nat) (v : Word) (m : Word) :
    sameExcept ps s0 (writeClock s off v m) ↔ sameExcept ps s0 s :=
  sameExcept_through (writeClock_frame s off v m) hps s0
@[simp ↓] theorem writeClock_canonical (s : State) (off : Nat) (v : Word) (m : Word) (h : canonical s) : canonical (writeClock s off v m) := by
  unfold writeClock
  simp (maxDischargeDepth := 60) (contextual := true) [h]

theorem kick_frame (s : State) :
    sameExcept [.rd] s (kick s) := by
  unfold kick
  simp (disch := decide)
@[simp ↓] theorem kick_through (ps : List Piece) (hps : ([.rd] : List Piece).all (ps.contains ·) = true) (s0 : State)
    (s : State) :
    sameExcept ps s0 (kick s) ↔ sameExcept ps s0 s :=
  sameExcept_through (kick_frame s) hps s0
@[simp ↓] theorem kick_canonical (s : State) : canonical (kick s) ↔ canonical s :=
  canonical_same (kick_frame s) (by decide)
@[simp ↓] theorem kick_below (L : Nat) (s0 : State) (s : State) :
    belowKept L s0 (kick s) ↔ belowKept L s0 s :=
  belowKept_iff (belowKept_same (kick_frame s) (by decide)) s0

theorem writeGlobal_frame (s : State) (off : Nat) (v : Word) (m : Word) :
    sameExcept [.regs, .hg, .rt, .bd, .rd] s (writeGlobal s off v m) := by
  unfold writeGlobal
  simp (disch := decide)
@[simp ↓] theorem writeGlobal_through (ps : List Piece) (hps : ([.regs, .hg, .rt, .bd, .rd] : List Piece).all (ps.contains ·) = true) (s0 : State)
    (s : State) (off : Nat) (v : Word) (m : Word) :
    sameExcept ps s0 (writeGlobal s off v m) ↔ sameExcept ps s0 s :=
  sameExcept_through (writeGlobal_frame s off v m) hps s0
@[simp ↓] theorem writeGlobal_canonical (s : State) (off : Nat) (v : Word) (m : Word) (h : canonical s) : canonical (writeGlobal s off v m) := by
  unfold writeGlobal
  simp (maxDischargeDepth := 60) (contextual := true) [h]

theorem writeAllot_frame (s : State) (n : Nat) (k : Nat) (v : Word) (m : Word) :
    sameExcept [.regs, .hg] s (writeAllot s n k v m) := by
  unfold writeAllot
  simp (disch := decide)
@[simp ↓] theorem writeAllot_through (ps : List Piece) (hps : ([.regs, .hg] : List Piece).all (ps.contains ·) = true) (s0 : State)
    (s : State) (n : Nat) (k : Nat) (v : Word) (m : Word) :
    sameExcept ps s0 (writeAllot s n k v m) ↔ sameExcept ps s0 s :=
  sameExcept_through (writeAllot_frame s n k v m) hps s0
@[simp ↓] theorem writeAllot_canonical (s : State) (n : Nat) (k : Nat) (v : Word) (m : Word) (h : canonical s) : canonical (writeAllot s n k v m) := by
  unfold writeAllot
  simp (maxDischargeDepth := 60) (contextual := true) [h]

theorem writeAttachReg_frame (s : State) (n : Nat) (v : Word) (m : Word) :
    sameExcept [.regs, .hg, .rt, .wires, .credits, .al] s (writeAttachReg s n v m) := by
  unfold writeAttachReg
  simp (disch := first | decide | (intro _ _; (repeat' split) <;> simp (disch := decide))) [sameExcept_foldl, sameExcept_foldl1, sameExcept_foldl2, sameExcept_forEach, sameExcept_forRange]
@[simp ↓] theorem writeAttachReg_through (ps : List Piece) (hps : ([.regs, .hg, .rt, .wires, .credits, .al] : List Piece).all (ps.contains ·) = true) (s0 : State)
    (s : State) (n : Nat) (v : Word) (m : Word) :
    sameExcept ps s0 (writeAttachReg s n v m) ↔ sameExcept ps s0 s :=
  sameExcept_through (writeAttachReg_frame s n v m) hps s0
@[simp ↓] theorem writeAttachReg_canonical (s : State) (n : Nat) (v : Word) (m : Word) (h : canonical s) : canonical (writeAttachReg s n v m) := by
  unfold writeAttachReg
  simp (maxDischargeDepth := 60) (contextual := true) [h]

theorem writeChan_frame (s : State) (n : Nat) (i : Nat) (v : Word) (m : Word) :
    sameExcept [.regs, .hg] s (writeChan s n i v m) := by
  unfold writeChan
  simp (disch := decide)
@[simp ↓] theorem writeChan_through (ps : List Piece) (hps : ([.regs, .hg] : List Piece).all (ps.contains ·) = true) (s0 : State)
    (s : State) (n : Nat) (i : Nat) (v : Word) (m : Word) :
    sameExcept ps s0 (writeChan s n i v m) ↔ sameExcept ps s0 s :=
  sameExcept_through (writeChan_frame s n i v m) hps s0
@[simp ↓] theorem writeChan_canonical (s : State) (n : Nat) (i : Nat) (v : Word) (m : Word) (h : canonical s) : canonical (writeChan s n i v m) := by
  unfold writeChan
  simp (maxDischargeDepth := 60) (contextual := true) [h]

theorem writeClose_frame (s : State) (n : Nat) (v : Word) (m : Word) :
    sameExcept [.regs, .hg, .pr, .al] s (writeClose s n v m) := by
  unfold writeClose
  simp (disch := first | decide | (intro _ _; (repeat' split) <;> simp (disch := decide))) [sameExcept_foldl, sameExcept_foldl1, sameExcept_foldl2, sameExcept_forEach, sameExcept_forRange]
@[simp ↓] theorem writeClose_through (ps : List Piece) (hps : ([.regs, .hg, .pr, .al] : List Piece).all (ps.contains ·) = true) (s0 : State)
    (s : State) (n : Nat) (v : Word) (m : Word) :
    sameExcept ps s0 (writeClose s n v m) ↔ sameExcept ps s0 s :=
  sameExcept_through (writeClose_frame s n v m) hps s0
@[simp ↓] theorem writeClose_canonical (s : State) (n : Nat) (v : Word) (m : Word) (h : canonical s) : canonical (writeClose s n v m) := by
  unfold writeClose
  simp (maxDischargeDepth := 60) (contextual := true) [h]

theorem writeDead_frame (s : State) (n : Nat) (k : Nat) (v : Word) (m : Word) :
    sameExcept [.regs, .hg, .hs, .wires, .pr, .al, .freeCtr] s (writeDead s n k v m) := by
  unfold writeDead
  simp (disch := first | decide | (intro _ _; (repeat' split) <;> simp (disch := decide))) [sameExcept_foldl, sameExcept_foldl1, sameExcept_foldl2, sameExcept_forEach, sameExcept_forRange]
@[simp ↓] theorem writeDead_through (ps : List Piece) (hps : ([.regs, .hg, .hs, .wires, .pr, .al, .freeCtr] : List Piece).all (ps.contains ·) = true) (s0 : State)
    (s : State) (n : Nat) (k : Nat) (v : Word) (m : Word) :
    sameExcept ps s0 (writeDead s n k v m) ↔ sameExcept ps s0 s :=
  sameExcept_through (writeDead_frame s n k v m) hps s0
@[simp ↓] theorem writeDead_canonical (s : State) (n : Nat) (k : Nat) (v : Word) (m : Word) (h : canonical s) : canonical (writeDead s n k v m) := by
  unfold writeDead
  simp (maxDischargeDepth := 60) (contextual := true) [h]
theorem writeDead_low (s : State) (n : Nat) (k : Nat) (v : Word) (m : Word) :
    belowKept 0x80000 s (writeDead s n k v m) := by
  unfold writeDead
  simp (maxDischargeDepth := 60) [belowKept_foldl, belowKept_foldl1, belowKept_foldl2, belowKept_forEach, belowKept_forRange]
@[simp ↓] theorem writeDead_below (L : Nat) (hL : L ≤ 0x80000) (s0 : State) (s : State) (n : Nat) (k : Nat) (v : Word) (m : Word) :
    belowKept L s0 (writeDead s n k v m) ↔ belowKept L s0 s :=
  belowKept_iff (belowKept_mono (writeDead_low s n k v m) hL) s0

theorem writeLevee_frame (s : State) (n : Nat) (v : Word) (m : Word) :
    sameExcept [.regs, .hg, .wires, .pr, .al] s (writeLevee s n v m) := by
  unfold writeLevee
  simp (disch := decide)
@[simp ↓] theorem writeLevee_through (ps : List Piece) (hps : ([.regs, .hg, .wires, .pr, .al] : List Piece).all (ps.contains ·) = true) (s0 : State)
    (s : State) (n : Nat) (v : Word) (m : Word) :
    sameExcept ps s0 (writeLevee s n v m) ↔ sameExcept ps s0 s :=
  sameExcept_through (writeLevee_frame s n v m) hps s0
@[simp ↓] theorem writeLevee_canonical (s : State) (n : Nat) (v : Word) (m : Word) (h : canonical s) : canonical (writeLevee s n v m) := by
  unfold writeLevee
  simp (maxDischargeDepth := 60) (contextual := true) [h]

theorem writePairReset_frame (s : State) (n : Nat) (v : Word) (m : Word) :
    sameExcept [.regs, .hg] s (writePairReset s n v m) := by
  unfold writePairReset
  simp (disch := decide)
@[simp ↓] theorem writePairReset_through (ps : List Piece) (hps : ([.regs, .hg] : List Piece).all (ps.contains ·) = true) (s0 : State)
    (s : State) (n : Nat) (v : Word) (m : Word) :
    sameExcept ps s0 (writePairReset s n v m) ↔ sameExcept ps s0 s :=
  sameExcept_through (writePairReset_frame s n v m) hps s0
@[simp ↓] theorem writePairReset_canonical (s : State) (n : Nat) (v : Word) (m : Word) (h : canonical s) : canonical (writePairReset s n v m) := by
  unfold writePairReset
  simp (maxDischargeDepth := 60) (contextual := true) [h]

theorem writeReplay_frame (s : State) (n : Nat) (v : Word) (m : Word) :
    sameExcept [.regs, .hg] s (writeReplay s n v m) := by
  unfold writeReplay
  simp (disch := decide)
@[simp ↓] theorem writeReplay_through (ps : List Piece) (hps : ([.regs, .hg] : List Piece).all (ps.contains ·) = true) (s0 : State)
    (s : State) (n : Nat) (v : Word) (m : Word) :
    sameExcept ps s0 (writeReplay s n v m) ↔ sameExcept ps s0 s :=
  sameExcept_through (writeReplay_frame s n v m) hps s0
@[simp ↓] theorem writeReplay_canonical (s : State) (n : Nat) (v : Word) (m : Word) (h : canonical s) : canonical (writeReplay s n v m) := by
  unfold writeReplay
  simp (maxDischargeDepth := 60) (contextual := true) [h]

theorem writeSlot_frame (s : State) (n : Nat) (lo : Nat) (v : Word) (m : Word) :
    sameExcept [.regs, .hg] s (writeSlot s n lo v m) := by
  unfold writeSlot
  simp (disch := decide)
@[simp ↓] theorem writeSlot_through (ps : List Piece) (hps : ([.regs, .hg] : List Piece).all (ps.contains ·) = true) (s0 : State)
    (s : State) (n : Nat) (lo : Nat) (v : Word) (m : Word) :
    sameExcept ps s0 (writeSlot s n lo v m) ↔ sameExcept ps s0 s :=
  sameExcept_through (writeSlot_frame s n lo v m) hps s0
@[simp ↓] theorem writeSlot_canonical (s : State) (n : Nat) (lo : Nat) (v : Word) (m : Word) (h : canonical s) : canonical (writeSlot s n lo v m) := by
  unfold writeSlot
  simp (maxDischargeDepth := 60) (contextual := true) [h]

theorem writeWeir_frame (s : State) (n : Nat) (c : Nat) (v : Word) (m : Word) :
    sameExcept [.regs] s (writeWeir s n c v m) := by
  unfold writeWeir
  simp (disch := decide)
@[simp ↓] theorem writeWeir_through (ps : List Piece) (hps : ([.regs] : List Piece).all (ps.contains ·) = true) (s0 : State)
    (s : State) (n : Nat) (c : Nat) (v : Word) (m : Word) :
    sameExcept ps s0 (writeWeir s n c v m) ↔ sameExcept ps s0 s :=
  sameExcept_through (writeWeir_frame s n c v m) hps s0
@[simp ↓] theorem writeWeir_canonical (s : State) (n : Nat) (c : Nat) (v : Word) (m : Word) (h : canonical s) : canonical (writeWeir s n c v m) := by
  unfold writeWeir
  simp (maxDischargeDepth := 60) (contextual := true) [h]

theorem writeHeadgate_frame (s : State) (n : Nat) (lo : Nat) (v : Word) (m : Word) :
    sameExcept [.regs, .hg, .rt, .hs, .wires, .credits, .pr, .al, .freeCtr] s (writeHeadgate s n lo v m) := by
  unfold writeHeadgate
  simp (disch := decide)
@[simp ↓] theorem writeHeadgate_through (ps : List Piece) (hps : ([.regs, .hg, .rt, .hs, .wires, .credits, .pr, .al, .freeCtr] : List Piece).all (ps.contains ·) = true) (s0 : State)
    (s : State) (n : Nat) (lo : Nat) (v : Word) (m : Word) :
    sameExcept ps s0 (writeHeadgate s n lo v m) ↔ sameExcept ps s0 s :=
  sameExcept_through (writeHeadgate_frame s n lo v m) hps s0
@[simp ↓] theorem writeHeadgate_canonical (s : State) (n : Nat) (lo : Nat) (v : Word) (m : Word) (h : canonical s) : canonical (writeHeadgate s n lo v m) := by
  unfold writeHeadgate
  simp (maxDischargeDepth := 60) (contextual := true) [h]

theorem writeCmd_frame (s : State) (m : Nat) (k : Nat) (v : Word) (mask : Word) :
    sameExcept [.mb] s (writeCmd s m k v mask) := by
  unfold writeCmd
  simp (disch := decide)
@[simp ↓] theorem writeCmd_through (ps : List Piece) (hps : ([.mb] : List Piece).all (ps.contains ·) = true) (s0 : State)
    (s : State) (m : Nat) (k : Nat) (v : Word) (mask : Word) :
    sameExcept ps s0 (writeCmd s m k v mask) ↔ sameExcept ps s0 s :=
  sameExcept_through (writeCmd_frame s m k v mask) hps s0
@[simp ↓] theorem writeCmd_canonical (s : State) (m : Nat) (k : Nat) (v : Word) (mask : Word) : canonical (writeCmd s m k v mask) ↔ canonical s :=
  canonical_same (writeCmd_frame s m k v mask) (by decide)
@[simp ↓] theorem writeCmd_below (L : Nat) (s0 : State) (s : State) (m : Nat) (k : Nat) (v : Word) (mask : Word) :
    belowKept L s0 (writeCmd s m k v mask) ↔ belowKept L s0 s :=
  belowKept_iff (belowKept_same (writeCmd_frame s m k v mask) (by decide)) s0

theorem writeMailbox_frame (s : State) (m : Nat) (lo : Nat) (v : Word) (mask : Word) :
    sameExcept [.regs, .mb] s (writeMailbox s m lo v mask) := by
  unfold writeMailbox
  simp (disch := decide)
@[simp ↓] theorem writeMailbox_through (ps : List Piece) (hps : ([.regs, .mb] : List Piece).all (ps.contains ·) = true) (s0 : State)
    (s : State) (m : Nat) (lo : Nat) (v : Word) (mask : Word) :
    sameExcept ps s0 (writeMailbox s m lo v mask) ↔ sameExcept ps s0 s :=
  sameExcept_through (writeMailbox_frame s m lo v mask) hps s0
@[simp ↓] theorem writeMailbox_canonical (s : State) (m : Nat) (lo : Nat) (v : Word) (mask : Word) (h : canonical s) : canonical (writeMailbox s m lo v mask) := by
  unfold writeMailbox
  simp (maxDischargeDepth := 60) (contextual := true) [h]

theorem writeProbe_frame (s : State) (p : Nat) (v : Word) (m : Word) :
    sameExcept [.regs, .pr] s (writeProbe s p v m) := by
  unfold writeProbe
  extract_lets was s1 s2
  have h1 : sameExcept [.regs, .pr] s s1 := by simp (disch := decide) [s1]
  have h2 : sameExcept [.regs, .pr] s s2 := by
    simp (disch := decide) [s2, h1]
  clear_value s1 s2
  split <;> simp (disch := decide) [h1, h2]
@[simp ↓] theorem writeProbe_through (ps : List Piece) (hps : ([.regs, .pr] : List Piece).all (ps.contains ·) = true) (s0 : State)
    (s : State) (p : Nat) (v : Word) (m : Word) :
    sameExcept ps s0 (writeProbe s p v m) ↔ sameExcept ps s0 s :=
  sameExcept_through (writeProbe_frame s p v m) hps s0
@[simp ↓] theorem writeProbe_canonical (s : State) (p : Nat) (v : Word) (m : Word) (h : canonical s) : canonical (writeProbe s p v m) := by
  unfold writeProbe
  simp (maxDischargeDepth := 60) (contextual := true) [h]

theorem writeProbes_frame (s : State) (off : Nat) (v : Word) (m : Word) :
    sameExcept [.regs, .pr] s (writeProbes s off v m) := by
  unfold writeProbes
  simp (disch := decide)
@[simp ↓] theorem writeProbes_through (ps : List Piece) (hps : ([.regs, .pr] : List Piece).all (ps.contains ·) = true) (s0 : State)
    (s : State) (off : Nat) (v : Word) (m : Word) :
    sameExcept ps s0 (writeProbes s off v m) ↔ sameExcept ps s0 s :=
  sameExcept_through (writeProbes_frame s off v m) hps s0
@[simp ↓] theorem writeProbes_canonical (s : State) (off : Nat) (v : Word) (m : Word) (h : canonical s) : canonical (writeProbes s off v m) := by
  unfold writeProbes
  simp (maxDischargeDepth := 60) (contextual := true) [h]

theorem writeRtCtrl_frame (s : State) (i : Nat) (v : Word) (m : Word) :
    sameExcept [.regs, .hg, .rt, .wires, .credits, .al] s (writeRtCtrl s i v m) := by
  unfold writeRtCtrl
  simp (disch := first | decide | (intro _ _; (repeat' split) <;> simp (disch := decide))) [sameExcept_foldl, sameExcept_foldl1, sameExcept_foldl2, sameExcept_forEach, sameExcept_forRange]
@[simp ↓] theorem writeRtCtrl_through (ps : List Piece) (hps : ([.regs, .hg, .rt, .wires, .credits, .al] : List Piece).all (ps.contains ·) = true) (s0 : State)
    (s : State) (i : Nat) (v : Word) (m : Word) :
    sameExcept ps s0 (writeRtCtrl s i v m) ↔ sameExcept ps s0 s :=
  sameExcept_through (writeRtCtrl_frame s i v m) hps s0
@[simp ↓] theorem writeRtCtrl_canonical (s : State) (i : Nat) (v : Word) (m : Word) (h : canonical s) : canonical (writeRtCtrl s i v m) := by
  unfold writeRtCtrl
  simp (maxDischargeDepth := 60) (contextual := true) [h]
theorem writeRtCtrl_low (s : State) (i : Nat) (v : Word) (m : Word) :
    belowKept 0x100000 s (writeRtCtrl s i v m) := by
  unfold writeRtCtrl
  simp (maxDischargeDepth := 60) [belowKept_foldl, belowKept_foldl1, belowKept_foldl2, belowKept_forEach, belowKept_forRange]
@[simp ↓] theorem writeRtCtrl_below (L : Nat) (hL : L ≤ 0x100000) (s0 : State) (s : State) (i : Nat) (v : Word) (m : Word) :
    belowKept L s0 (writeRtCtrl s i v m) ↔ belowKept L s0 s :=
  belowKept_iff (belowKept_mono (writeRtCtrl_low s i v m) hL) s0

theorem writeRouter_frame (s : State) (i : Nat) (lo : Nat) (v : Word) (m : Word) :
    sameExcept [.regs, .hg, .rt, .wires, .credits, .al] s (writeRouter s i lo v m) := by
  unfold writeRouter
  simp (disch := decide)
@[simp ↓] theorem writeRouter_through (ps : List Piece) (hps : ([.regs, .hg, .rt, .wires, .credits, .al] : List Piece).all (ps.contains ·) = true) (s0 : State)
    (s : State) (i : Nat) (lo : Nat) (v : Word) (m : Word) :
    sameExcept ps s0 (writeRouter s i lo v m) ↔ sameExcept ps s0 s :=
  sameExcept_through (writeRouter_frame s i lo v m) hps s0
@[simp ↓] theorem writeRouter_canonical (s : State) (i : Nat) (lo : Nat) (v : Word) (m : Word) (h : canonical s) : canonical (writeRouter s i lo v m) := by
  unfold writeRouter
  simp (maxDischargeDepth := 60) (contextual := true) [h]

theorem writeSlice_frame (s : State) (k : Nat) (lo : Nat) (v : Word) (m : Word) :
    sameExcept [.regs, .hs] s (writeSlice s k lo v m) := by
  unfold writeSlice
  simp (disch := decide)
@[simp ↓] theorem writeSlice_through (ps : List Piece) (hps : ([.regs, .hs] : List Piece).all (ps.contains ·) = true) (s0 : State)
    (s : State) (k : Nat) (lo : Nat) (v : Word) (m : Word) :
    sameExcept ps s0 (writeSlice s k lo v m) ↔ sameExcept ps s0 s :=
  sameExcept_through (writeSlice_frame s k lo v m) hps s0
@[simp ↓] theorem writeSlice_canonical (s : State) (k : Nat) (lo : Nat) (v : Word) (m : Word) (h : canonical s) : canonical (writeSlice s k lo v m) := by
  unfold writeSlice
  simp (maxDischargeDepth := 60) (contextual := true) [h]

theorem regWrite_frame (s : State) (off : Nat) (v : Word) (m : Word) :
    sameExcept [.regs, .hg, .rt, .hs, .wires, .credits, .bd, .pr, .al, .rd, .mb, .freeCtr] s (regWrite s off v m) := by
  unfold regWrite
  (repeat' split) <;> simp (disch := decide)
@[simp ↓] theorem regWrite_through (ps : List Piece) (hps : ([.regs, .hg, .rt, .hs, .wires, .credits, .bd, .pr, .al, .rd, .mb, .freeCtr] : List Piece).all (ps.contains ·) = true) (s0 : State)
    (s : State) (off : Nat) (v : Word) (m : Word) :
    sameExcept ps s0 (regWrite s off v m) ↔ sameExcept ps s0 s :=
  sameExcept_through (regWrite_frame s off v m) hps s0
@[simp ↓] theorem regWrite_canonical (s : State) (off : Nat) (v : Word) (m : Word) (h : canonical s) : canonical (regWrite s off v m) := by
  unfold regWrite
  (repeat' split) <;> simp (maxDischargeDepth := 60) (contextual := true) [h]

theorem noteRefused_frame (s : State) (off : Nat) (src : Nat) (c : Ctx) (posted : Bool) (read : Bool) :
    sameExcept [.regs] s (noteRefused s off src c posted read) := by
  unfold noteRefused
  simp (disch := decide)
@[simp ↓] theorem noteRefused_through (ps : List Piece) (hps : ([.regs] : List Piece).all (ps.contains ·) = true) (s0 : State)
    (s : State) (off : Nat) (src : Nat) (c : Ctx) (posted : Bool) (read : Bool) :
    sameExcept ps s0 (noteRefused s off src c posted read) ↔ sameExcept ps s0 s :=
  sameExcept_through (noteRefused_frame s off src c posted read) hps s0
@[simp ↓] theorem noteRefused_canonical (s : State) (off : Nat) (src : Nat) (c : Ctx) (posted : Bool) (read : Bool) (h : canonical s) : canonical (noteRefused s off src c posted read) := by
  unfold noteRefused
  simp (maxDischargeDepth := 60) (contextual := true) [h]

theorem clientWord_frame (s : State) (words : List Nat) (src : Nat) (c : Ctx) (posted : Bool) (off : Nat) (v : Word) (m : Word) :
    sameExcept [.regs, .hg, .rt, .hs, .wires, .credits, .bd, .pr, .al, .rd, .mb, .freeCtr] s (clientWord s words src c posted off v m).1 := by
  unfold clientWord
  simp (disch := decide)
@[simp ↓] theorem clientWord_through (ps : List Piece) (hps : ([.regs, .hg, .rt, .hs, .wires, .credits, .bd, .pr, .al, .rd, .mb, .freeCtr] : List Piece).all (ps.contains ·) = true) (s0 : State)
    (s : State) (words : List Nat) (src : Nat) (c : Ctx) (posted : Bool) (off : Nat) (v : Word) (m : Word) :
    sameExcept ps s0 (clientWord s words src c posted off v m).1 ↔ sameExcept ps s0 s :=
  sameExcept_through (clientWord_frame s words src c posted off v m) hps s0
@[simp ↓] theorem clientWord_canonical (s : State) (words : List Nat) (src : Nat) (c : Ctx) (posted : Bool) (off : Nat) (v : Word) (m : Word) (h : canonical s) : canonical (clientWord s words src c posted off v m).1 := by
  unfold clientWord
  simp (maxDischargeDepth := 60) (contextual := true) [h]

theorem readLatch_frame (s : State) (off : Nat) :
    sameExcept [.regs] s (readLatch s off) := by
  unfold readLatch
  simp (disch := decide)
@[simp ↓] theorem readLatch_through (ps : List Piece) (hps : ([.regs] : List Piece).all (ps.contains ·) = true) (s0 : State)
    (s : State) (off : Nat) :
    sameExcept ps s0 (readLatch s off) ↔ sameExcept ps s0 s :=
  sameExcept_through (readLatch_frame s off) hps s0
@[simp ↓] theorem readLatch_canonical (s : State) (off : Nat) (h : canonical s) : canonical (readLatch s off) := by
  unfold readLatch
  simp (maxDischargeDepth := 60) (contextual := true) [h]
theorem readLatch_low (s : State) (off : Nat) :
    belowKept 0x10000 s (readLatch s off) := by
  unfold readLatch
  simp (maxDischargeDepth := 60)
@[simp ↓] theorem readLatch_below (L : Nat) (hL : L ≤ 0x10000) (s0 : State) (s : State) (off : Nat) :
    belowKept L s0 (readLatch s off) ↔ belowKept L s0 s :=
  belowKept_iff (belowKept_mono (readLatch_low s off) hL) s0

theorem fcsReadAt_frame (s : State) (off : Nat) :
    sameExcept [.regs, .fcsRead] s (fcsReadAt s off) := by
  unfold fcsReadAt
  simp (disch := decide)
@[simp ↓] theorem fcsReadAt_through (ps : List Piece) (hps : ([.regs, .fcsRead] : List Piece).all (ps.contains ·) = true) (s0 : State)
    (s : State) (off : Nat) :
    sameExcept ps s0 (fcsReadAt s off) ↔ sameExcept ps s0 s :=
  sameExcept_through (fcsReadAt_frame s off) hps s0
@[simp ↓] theorem fcsReadAt_canonical (s : State) (off : Nat) (h : canonical s) : canonical (fcsReadAt s off) := by
  unfold fcsReadAt
  simp (maxDischargeDepth := 60) (contextual := true) [h]
theorem fcsReadAt_low (s : State) (off : Nat) :
    belowKept 0x10000 s (fcsReadAt s off) := by
  unfold fcsReadAt
  simp (maxDischargeDepth := 60)
@[simp ↓] theorem fcsReadAt_below (L : Nat) (hL : L ≤ 0x10000) (s0 : State) (s : State) (off : Nat) :
    belowKept L s0 (fcsReadAt s off) ↔ belowKept L s0 s :=
  belowKept_iff (belowKept_mono (fcsReadAt_low s off) hL) s0

theorem openLanes_frame (lo bytes : Nat) (ds : List DBeat) (s : State) :
    sameExcept [.freeCtr] s (openLanes lo bytes ds s).2 := by
  unfold openLanes
  simp (disch := first | decide | (intro _ _; (repeat' split) <;> simp (disch := decide))) [sameExcept_foldl, sameExcept_foldl1, sameExcept_foldl2, sameExcept_forEach, sameExcept_forRange]
@[simp ↓] theorem openLanes_through (ps : List Piece) (hps : ([.freeCtr] : List Piece).all (ps.contains ·) = true) (s0 : State)
    (lo bytes : Nat) (ds : List DBeat) (s : State) :
    sameExcept ps s0 (openLanes lo bytes ds s).2 ↔ sameExcept ps s0 s :=
  sameExcept_through (openLanes_frame lo bytes ds s) hps s0
@[simp ↓] theorem openLanes_canonical (lo bytes : Nat) (ds : List DBeat) (s : State) : canonical (openLanes lo bytes ds s).2 ↔ canonical s :=
  canonical_same (openLanes_frame lo bytes ds s) (by decide)
@[simp ↓] theorem openLanes_below (L : Nat) (s0 : State) (lo bytes : Nat) (ds : List DBeat) (s : State) :
    belowKept L s0 (openLanes lo bytes ds s).2 ↔ belowKept L s0 s :=
  belowKept_iff (belowKept_same (openLanes_frame lo bytes ds s) (by decide)) s0

theorem fcsRd_frame (s : State) (e : Entry) :
    sameExcept [.regs, .hg, .wires, .pr, .freeCtr] s (fcsRd s e) := by
  unfold fcsRd
  dsimp only
  have hl : ∀ (ws l : List Nat) (src : Nat) (c : Ctx) (lo len : Nat) (r : FcsRead),
      sameExcept [.regs, .hg, .wires, .pr, .freeCtr] r.state (l.foldl (readWord ws src c lo len) r).state := by
    intro ws l src c lo len
    induction l with
    | nil => intro r; exact sameExcept_refl _ _
    | cons x xs ih =>
      intro r
      refine sameExcept_trans ?_ (ih _)
      unfold readWord
      split <;> simp (disch := decide)
  have hr := hl (wordsOf (fcsOffset s e.lo.toNat) (e.bytes.toNat + 1)) (wordsOf (fcsOffset s e.lo.toNat) (e.bytes.toNat + 1)) e.pkt.hdr.src.toNat
    e.pkt.hdr.ctx (fcsOffset s e.lo.toNat) (e.bytes.toNat + 1) { state := s, words := [], done := 0, refused := false }
  (repeat' split) <;> simp (disch := decide) [hr]
@[simp ↓] theorem fcsRd_through (ps : List Piece) (hps : ([.regs, .hg, .wires, .pr, .freeCtr] : List Piece).all (ps.contains ·) = true) (s0 : State)
    (s : State) (e : Entry) :
    sameExcept ps s0 (fcsRd s e) ↔ sameExcept ps s0 s :=
  sameExcept_through (fcsRd_frame s e) hps s0
theorem canonical_readWords (ws l : List Nat) (src : Nat) (c : Ctx) (lo len : Nat) (r : FcsRead) (h : canonical r.state) :
    canonical (l.foldl (readWord ws src c lo len) r).state := by
  induction l generalizing r with
  | nil => exact h
  | cons x xs ih =>
    apply ih
    unfold readWord
    split <;> simp (maxDischargeDepth := 60) (contextual := true) [h]
@[simp ↓] theorem fcsRd_canonical (s : State) (e : Entry) (h : canonical s) : canonical (fcsRd s e) := by
  unfold fcsRd
  dsimp only
  have hr := canonical_readWords (wordsOf (fcsOffset s e.lo.toNat) (e.bytes.toNat + 1)) (wordsOf (fcsOffset s e.lo.toNat) (e.bytes.toNat + 1)) e.pkt.hdr.src.toNat
    e.pkt.hdr.ctx (fcsOffset s e.lo.toNat) (e.bytes.toNat + 1) { state := s, words := [], done := 0, refused := false } h
  (repeat' split) <;> simp (maxDischargeDepth := 60) (contextual := true) [hr]

theorem postedRefusal_frame (s : State) (src : Nat) (c : Ctx) (partly : Bool) :
    sameExcept [.al] s (postedRefusal s src c partly) := by
  unfold postedRefusal
  simp (disch := decide)
@[simp ↓] theorem postedRefusal_through (ps : List Piece) (hps : ([.al] : List Piece).all (ps.contains ·) = true) (s0 : State)
    (s : State) (src : Nat) (c : Ctx) (partly : Bool) :
    sameExcept ps s0 (postedRefusal s src c partly) ↔ sameExcept ps s0 s :=
  sameExcept_through (postedRefusal_frame s src c partly) hps s0
@[simp ↓] theorem postedRefusal_canonical (s : State) (src : Nat) (c : Ctx) (partly : Bool) : canonical (postedRefusal s src c partly) ↔ canonical s :=
  canonical_same (postedRefusal_frame s src c partly) (by decide)
@[simp ↓] theorem postedRefusal_below (L : Nat) (s0 : State) (s : State) (src : Nat) (c : Ctx) (partly : Bool) :
    belowKept L s0 (postedRefusal s src c partly) ↔ belowKept L s0 s :=
  belowKept_iff (belowKept_same (postedRefusal_frame s src c partly) (by decide)) s0

theorem fcsWr_frame (s : State) (e : Entry) :
    sameExcept [.regs, .hg, .rt, .hs, .wires, .credits, .bd, .pr, .al, .rd, .mb, .freeCtr] s (fcsWr s e) := by
  unfold fcsWr
  dsimp only
  have hl : ∀ (ws l : List Nat) (src : Nat) (c : Ctx) (posted : Bool) (lo len : Nat) (bs : List Beat) (r : FcsWrite),
      sameExcept [.regs, .hg, .rt, .hs, .wires, .credits, .bd, .pr, .al, .rd, .mb, .freeCtr] r.state (l.foldl (writeWord ws src c posted lo len bs) r).state := by
    intro ws l src c posted lo len bs
    induction l with
    | nil => intro r; exact sameExcept_refl _ _
    | cons x xs ih =>
      intro r
      refine sameExcept_trans ?_ (ih _)
      unfold writeWord
      simp (disch := decide)
  have hr := hl (wordsOf (fcsOffset s e.lo.toNat) (e.bytes.toNat + 1)) (wordsOf (fcsOffset s e.lo.toNat) (e.bytes.toNat + 1)) e.pkt.hdr.src.toNat
    e.pkt.hdr.ctx (decide (e.op = opWRP)) (fcsOffset s e.lo.toNat) (e.bytes.toNat + 1) (entryBeats e)
    { state := s, done := 0, refused := false }
  (repeat' split) <;> simp (disch := decide) [hr]
@[simp ↓] theorem fcsWr_through (ps : List Piece) (hps : ([.regs, .hg, .rt, .hs, .wires, .credits, .bd, .pr, .al, .rd, .mb, .freeCtr] : List Piece).all (ps.contains ·) = true) (s0 : State)
    (s : State) (e : Entry) :
    sameExcept ps s0 (fcsWr s e) ↔ sameExcept ps s0 s :=
  sameExcept_through (fcsWr_frame s e) hps s0
theorem canonical_writeWords (ws l : List Nat) (src : Nat) (c : Ctx) (posted : Bool) (lo len : Nat) (bs : List Beat) (r : FcsWrite)
    (h : canonical r.state) : canonical (l.foldl (writeWord ws src c posted lo len bs) r).state := by
  induction l generalizing r with
  | nil => exact h
  | cons x xs ih =>
    apply ih
    unfold writeWord
    simp (maxDischargeDepth := 60) (contextual := true) [h]
@[simp ↓] theorem fcsWr_canonical (s : State) (e : Entry) (h : canonical s) : canonical (fcsWr s e) := by
  unfold fcsWr
  dsimp only
  have hr := canonical_writeWords (wordsOf (fcsOffset s e.lo.toNat) (e.bytes.toNat + 1)) (wordsOf (fcsOffset s e.lo.toNat) (e.bytes.toNat + 1)) e.pkt.hdr.src.toNat
    e.pkt.hdr.ctx (decide (e.op = opWRP)) (fcsOffset s e.lo.toNat) (e.bytes.toNat + 1) (entryBeats e)
    { state := s, done := 0, refused := false } h
  (repeat' split) <;> simp (maxDischargeDepth := 60) (contextual := true) [hr]

theorem fcsAccess_frame (s : State) :
    sameExcept [.regs, .hg, .rt, .hs, .wires, .credits, .bd, .pr, .al, .rd, .mb, .freeCtr] s (fcsAccess s) := by
  unfold fcsAccess
  (repeat' split) <;> simp (disch := decide)
@[simp ↓] theorem fcsAccess_through (ps : List Piece) (hps : ([.regs, .hg, .rt, .hs, .wires, .credits, .bd, .pr, .al, .rd, .mb, .freeCtr] : List Piece).all (ps.contains ·) = true) (s0 : State)
    (s : State) :
    sameExcept ps s0 (fcsAccess s) ↔ sameExcept ps s0 s :=
  sameExcept_through (fcsAccess_frame s) hps s0
@[simp ↓] theorem fcsAccess_canonical (s : State) (h : canonical s) : canonical (fcsAccess s) := by
  unfold fcsAccess
  (repeat' split) <;> simp (maxDischargeDepth := 60) (contextual := true) [h]

theorem registerWrite_frame (s : State) (who : Writer) (off : Nat) (v : Word) (be : BitVec 8) :
    sameExcept [.regs, .hg, .rt, .hs, .wires, .credits, .bd, .pr, .al, .rd, .mb, .freeCtr] s (registerWrite s who off v be) := by
  unfold registerWrite
  (repeat' split) <;> simp (disch := decide)
@[simp ↓] theorem registerWrite_through (ps : List Piece) (hps : ([.regs, .hg, .rt, .hs, .wires, .credits, .bd, .pr, .al, .rd, .mb, .freeCtr] : List Piece).all (ps.contains ·) = true) (s0 : State)
    (s : State) (who : Writer) (off : Nat) (v : Word) (be : BitVec 8) :
    sameExcept ps s0 (registerWrite s who off v be) ↔ sameExcept ps s0 s :=
  sameExcept_through (registerWrite_frame s who off v be) hps s0
@[simp ↓] theorem registerWrite_canonical (s : State) (who : Writer) (off : Nat) (v : Word) (be : BitVec 8) (h : canonical s) : canonical (registerWrite s who off v be) := by
  unfold registerWrite
  (repeat' split) <;> simp (maxDischargeDepth := 60) (contextual := true) [h]

theorem riderWrite_frame (s : State) (off : Nat) (v : Word) :
    sameExcept [.regs, .hg, .rt, .hs, .wires, .credits, .bd, .pr, .al, .rd, .mb, .freeCtr] s (riderWrite s off v) := by
  unfold riderWrite
  simp (disch := decide)
@[simp ↓] theorem riderWrite_through (ps : List Piece) (hps : ([.regs, .hg, .rt, .hs, .wires, .credits, .bd, .pr, .al, .rd, .mb, .freeCtr] : List Piece).all (ps.contains ·) = true) (s0 : State)
    (s : State) (off : Nat) (v : Word) :
    sameExcept ps s0 (riderWrite s off v) ↔ sameExcept ps s0 s :=
  sameExcept_through (riderWrite_frame s off v) hps s0
@[simp ↓] theorem riderWrite_canonical (s : State) (off : Nat) (v : Word) (h : canonical s) : canonical (riderWrite s off v) := by
  unfold riderWrite
  simp (maxDischargeDepth := 60) (contextual := true) [h]

end Sys2Proof.Machine
end

