-- ==== Sys2Proof/Laws/FrameAlarmChain.lean ====
section
/-! SUPPORT. What each operation of `Machine/AlarmChain.lean` can change, in the pieces of `Safety.lean`: `<operation>_frame` says it once,
`<operation>_through` carries it past the operation, `<operation>_canonical` says that it keeps the canonical form, and
`<operation>_low`, `<operation>_below` that it keeps the registers below the blocks it works on. -/

open Sys2Proof

namespace Sys2Proof.Machine

set_option linter.unusedSimpArgs false
set_option linter.unusedVariables false

theorem openIncident_frame (s : State) :
    sameExcept [.rd] s (openIncident s) := by
  unfold openIncident
  simp (disch := decide)
@[simp ↓] theorem openIncident_through (ps : List Piece) (hps : ([.rd] : List Piece).all (ps.contains ·) = true) (s0 : State)
    (s : State) :
    sameExcept ps s0 (openIncident s) ↔ sameExcept ps s0 s :=
  sameExcept_through (openIncident_frame s) hps s0
@[simp ↓] theorem openIncident_canonical (s : State) : canonical (openIncident s) ↔ canonical s :=
  canonical_same (openIncident_frame s) (by decide)
@[simp ↓] theorem openIncident_below (L : Nat) (s0 : State) (s : State) :
    belowKept L s0 (openIncident s) ↔ belowKept L s0 s :=
  belowKept_iff (belowKept_same (openIncident_frame s) (by decide)) s0

theorem logRecord_frame (s : State) (evt : Bool) (w3 : Word) (w4 : Word) (w5 : Word) (onlyCounted : Nat) :
    sameExcept [.rd] s (logRecord s evt w3 w4 w5 onlyCounted) := by
  unfold logRecord
  simp (disch := decide)
@[simp ↓] theorem logRecord_through (ps : List Piece) (hps : ([.rd] : List Piece).all (ps.contains ·) = true) (s0 : State)
    (s : State) (evt : Bool) (w3 : Word) (w4 : Word) (w5 : Word) (onlyCounted : Nat) :
    sameExcept ps s0 (logRecord s evt w3 w4 w5 onlyCounted) ↔ sameExcept ps s0 s :=
  sameExcept_through (logRecord_frame s evt w3 w4 w5 onlyCounted) hps s0
@[simp ↓] theorem logRecord_canonical (s : State) (evt : Bool) (w3 : Word) (w4 : Word) (w5 : Word) (onlyCounted : Nat) : canonical (logRecord s evt w3 w4 w5 onlyCounted) ↔ canonical s :=
  canonical_same (logRecord_frame s evt w3 w4 w5 onlyCounted) (by decide)
@[simp ↓] theorem logRecord_below (L : Nat) (s0 : State) (s : State) (evt : Bool) (w3 : Word) (w4 : Word) (w5 : Word) (onlyCounted : Nat) :
    belowKept L s0 (logRecord s evt w3 w4 w5 onlyCounted) ↔ belowKept L s0 s :=
  belowKept_iff (belowKept_same (logRecord_frame s evt w3 w4 w5 onlyCounted) (by decide)) s0

theorem logEvent_frame (s : State) (code : Nat) (arg : Nat) :
    sameExcept [.rd] s (logEvent s code arg) := by
  unfold logEvent
  simp (disch := decide)
@[simp ↓] theorem logEvent_through (ps : List Piece) (hps : ([.rd] : List Piece).all (ps.contains ·) = true) (s0 : State)
    (s : State) (code : Nat) (arg : Nat) :
    sameExcept ps s0 (logEvent s code arg) ↔ sameExcept ps s0 s :=
  sameExcept_through (logEvent_frame s code arg) hps s0
@[simp ↓] theorem logEvent_canonical (s : State) (code : Nat) (arg : Nat) : canonical (logEvent s code arg) ↔ canonical s :=
  canonical_same (logEvent_frame s code arg) (by decide)
@[simp ↓] theorem logEvent_below (L : Nat) (s0 : State) (s : State) (code : Nat) (arg : Nat) :
    belowKept L s0 (logEvent s code arg) ↔ belowKept L s0 s :=
  belowKept_iff (belowKept_same (logEvent_frame s code arg) (by decide)) s0

theorem sendToken_frame (s : State) (typ : BitVec 8) (src : BitVec 8) (all : Bool) :
    sameExcept [.al, .rd] s (sendToken s typ src all) := by
  unfold sendToken
  simp (disch := decide)
@[simp ↓] theorem sendToken_through (ps : List Piece) (hps : ([.al, .rd] : List Piece).all (ps.contains ·) = true) (s0 : State)
    (s : State) (typ : BitVec 8) (src : BitVec 8) (all : Bool) :
    sameExcept ps s0 (sendToken s typ src all) ↔ sameExcept ps s0 s :=
  sameExcept_through (sendToken_frame s typ src all) hps s0
@[simp ↓] theorem sendToken_canonical (s : State) (typ : BitVec 8) (src : BitVec 8) (all : Bool) : canonical (sendToken s typ src all) ↔ canonical s :=
  canonical_same (sendToken_frame s typ src all) (by decide)
@[simp ↓] theorem sendToken_below (L : Nat) (s0 : State) (s : State) (typ : BitVec 8) (src : BitVec 8) (all : Bool) :
    belowKept L s0 (sendToken s typ src all) ↔ belowKept L s0 s :=
  belowKept_iff (belowKept_same (sendToken_frame s typ src all) (by decide)) s0

theorem ackToken_frame (s : State) (station : Nat) :
    sameExcept [.al] s (ackToken s station) := by
  unfold ackToken
  (repeat' split) <;> simp (disch := first | decide | (intro _ _; (repeat' split) <;> simp (disch := decide))) [sameExcept_foldl, sameExcept_foldl1, sameExcept_foldl2, sameExcept_forEach, sameExcept_forRange]
@[simp ↓] theorem ackToken_through (ps : List Piece) (hps : ([.al] : List Piece).all (ps.contains ·) = true) (s0 : State)
    (s : State) (station : Nat) :
    sameExcept ps s0 (ackToken s station) ↔ sameExcept ps s0 s :=
  sameExcept_through (ackToken_frame s station) hps s0
@[simp ↓] theorem ackToken_canonical (s : State) (station : Nat) : canonical (ackToken s station) ↔ canonical s :=
  canonical_same (ackToken_frame s station) (by decide)
@[simp ↓] theorem ackToken_below (L : Nat) (s0 : State) (s : State) (station : Nat) :
    belowKept L s0 (ackToken s station) ↔ belowKept L s0 s :=
  belowKept_iff (belowKept_same (ackToken_frame s station) (by decide)) s0

theorem alarmCopy_frame (s : State) :
    sameExcept [.regs, .al, .rd] s (alarmCopy s) := by
  unfold alarmCopy
  (repeat' split) <;> simp (disch := decide)
@[simp ↓] theorem alarmCopy_through (ps : List Piece) (hps : ([.regs, .al, .rd] : List Piece).all (ps.contains ·) = true) (s0 : State)
    (s : State) :
    sameExcept ps s0 (alarmCopy s) ↔ sameExcept ps s0 s :=
  sameExcept_through (alarmCopy_frame s) hps s0
@[simp ↓] theorem alarmCopy_canonical (s : State) (h : canonical s) : canonical (alarmCopy s) := by
  unfold alarmCopy
  (repeat' split) <;> simp (maxDischargeDepth := 60) (contextual := true) [h]
theorem alarmCopy_low (s : State) :
    belowKept 0x40000 s (alarmCopy s) := by
  unfold alarmCopy
  (repeat' split) <;> simp (maxDischargeDepth := 60)
@[simp ↓] theorem alarmCopy_below (L : Nat) (hL : L ≤ 0x40000) (s0 : State) (s : State) :
    belowKept L s0 (alarmCopy s) ↔ belowKept L s0 s :=
  belowKept_iff (belowKept_mono (alarmCopy_low s) hL) s0

theorem logAlarm_frame (s : State) (a : AlarmRec) :
    sameExcept [.rd] s (logAlarm s a) := by
  unfold logAlarm
  simp (disch := decide)
@[simp ↓] theorem logAlarm_through (ps : List Piece) (hps : ([.rd] : List Piece).all (ps.contains ·) = true) (s0 : State)
    (s : State) (a : AlarmRec) :
    sameExcept ps s0 (logAlarm s a) ↔ sameExcept ps s0 s :=
  sameExcept_through (logAlarm_frame s a) hps s0
@[simp ↓] theorem logAlarm_canonical (s : State) (a : AlarmRec) : canonical (logAlarm s a) ↔ canonical s :=
  canonical_same (logAlarm_frame s a) (by decide)
@[simp ↓] theorem logAlarm_below (L : Nat) (s0 : State) (s : State) (a : AlarmRec) :
    belowKept L s0 (logAlarm s a) ↔ belowKept L s0 s :=
  belowKept_iff (belowKept_same (logAlarm_frame s a) (by decide)) s0

theorem countRefusal_frame (s : State) (r : RingRec) :
    sameExcept [.regs, .al] s (countRefusal s r) := by
  unfold countRefusal
  simp (disch := decide)
@[simp ↓] theorem countRefusal_through (ps : List Piece) (hps : ([.regs, .al] : List Piece).all (ps.contains ·) = true) (s0 : State)
    (s : State) (r : RingRec) :
    sameExcept ps s0 (countRefusal s r) ↔ sameExcept ps s0 s :=
  sameExcept_through (countRefusal_frame s r) hps s0
@[simp ↓] theorem countRefusal_canonical (s : State) (r : RingRec) (h : canonical s) : canonical (countRefusal s r) := by
  unfold countRefusal
  simp (maxDischargeDepth := 60) (contextual := true) [h]
theorem countRefusal_low (s : State) (r : RingRec) :
    belowKept 0x200000 s (countRefusal s r) := by
  unfold countRefusal
  simp (maxDischargeDepth := 60)
@[simp ↓] theorem countRefusal_below (L : Nat) (hL : L ≤ 0x200000) (s0 : State) (s : State) (r : RingRec) :
    belowKept L s0 (countRefusal s r) ↔ belowKept L s0 s :=
  belowKept_iff (belowKept_mono (countRefusal_low s r) hL) s0

theorem recordReturn_frame (s : State) (station : Nat) :
    sameExcept [.regs, .al] s (recordReturn s station) := by
  unfold recordReturn
  (repeat' split) <;> simp (disch := decide)
@[simp ↓] theorem recordReturn_through (ps : List Piece) (hps : ([.regs, .al] : List Piece).all (ps.contains ·) = true) (s0 : State)
    (s : State) (station : Nat) :
    sameExcept ps s0 (recordReturn s station) ↔ sameExcept ps s0 s :=
  sameExcept_through (recordReturn_frame s station) hps s0
@[simp ↓] theorem recordReturn_canonical (s : State) (station : Nat) (h : canonical s) : canonical (recordReturn s station) := by
  unfold recordReturn
  (repeat' split) <;> simp (maxDischargeDepth := 60) (contextual := true) [h]
theorem recordReturn_low (s : State) (station : Nat) :
    belowKept 0x200000 s (recordReturn s station) := by
  unfold recordReturn
  (repeat' split) <;> simp (maxDischargeDepth := 60)
@[simp ↓] theorem recordReturn_below (L : Nat) (hL : L ≤ 0x200000) (s0 : State) (s : State) (station : Nat) :
    belowKept L s0 (recordReturn s station) ↔ belowKept L s0 s :=
  belowKept_iff (belowKept_mono (recordReturn_low s station) hL) s0

theorem ringEntry_frame (s : State) (station : Nat) :
    sameExcept [.al] s (ringEntry s station) := by
  unfold ringEntry
  (repeat' split) <;> simp (disch := decide)
@[simp ↓] theorem ringEntry_through (ps : List Piece) (hps : ([.al] : List Piece).all (ps.contains ·) = true) (s0 : State)
    (s : State) (station : Nat) :
    sameExcept ps s0 (ringEntry s station) ↔ sameExcept ps s0 s :=
  sameExcept_through (ringEntry_frame s station) hps s0
@[simp ↓] theorem ringEntry_canonical (s : State) (station : Nat) : canonical (ringEntry s station) ↔ canonical s :=
  canonical_same (ringEntry_frame s station) (by decide)
@[simp ↓] theorem ringEntry_below (L : Nat) (s0 : State) (s : State) (station : Nat) :
    belowKept L s0 (ringEntry s station) ↔ belowKept L s0 s :=
  belowKept_iff (belowKept_same (ringEntry_frame s station) (by decide)) s0

theorem stationPass_frame (s : State) (n : Nat) :
    sameExcept [.regs, .al] s (stationPass s n) := by
  unfold stationPass
  (repeat' split) <;> simp (disch := decide)
@[simp ↓] theorem stationPass_through (ps : List Piece) (hps : ([.regs, .al] : List Piece).all (ps.contains ·) = true) (s0 : State)
    (s : State) (n : Nat) :
    sameExcept ps s0 (stationPass s n) ↔ sameExcept ps s0 s :=
  sameExcept_through (stationPass_frame s n) hps s0
@[simp ↓] theorem stationPass_canonical (s : State) (n : Nat) (h : canonical s) : canonical (stationPass s n) := by
  unfold stationPass
  (repeat' split) <;> simp (maxDischargeDepth := 60) (contextual := true) [h]
theorem stationPass_low (s : State) (n : Nat) :
    belowKept 0x200000 s (stationPass s n) := by
  unfold stationPass
  (repeat' split) <;> simp (maxDischargeDepth := 60)
@[simp ↓] theorem stationPass_below (L : Nat) (hL : L ≤ 0x200000) (s0 : State) (s : State) (n : Nat) :
    belowKept L s0 (stationPass s n) ↔ belowKept L s0 s :=
  belowKept_iff (belowKept_mono (stationPass_low s n) hL) s0

theorem incidentClose_frame (s : State) :
    sameExcept [.fclk, .rd] s (incidentClose s) := by
  unfold incidentClose
  simp (disch := decide)
@[simp ↓] theorem incidentClose_through (ps : List Piece) (hps : ([.fclk, .rd] : List Piece).all (ps.contains ·) = true) (s0 : State)
    (s : State) :
    sameExcept ps s0 (incidentClose s) ↔ sameExcept ps s0 s :=
  sameExcept_through (incidentClose_frame s) hps s0
@[simp ↓] theorem incidentClose_canonical (s : State) : canonical (incidentClose s) ↔ canonical s :=
  canonical_same (incidentClose_frame s) (by decide)
@[simp ↓] theorem incidentClose_below (L : Nat) (s0 : State) (s : State) :
    belowKept L s0 (incidentClose s) ↔ belowKept L s0 s :=
  belowKept_iff (belowKept_same (incidentClose_frame s) (by decide)) s0

end Sys2Proof.Machine
end

