-- ==== Sys2Proof/Laws/FrameProbes.lean ====
section
/-! SUPPORT. What each operation of `Machine/Probes.lean` can change, in the pieces of `Safety.lean`: `<operation>_frame` says it once,
`<operation>_through` carries it past the operation, `<operation>_canonical` says that it keeps the canonical form, and
`<operation>_low`, `<operation>_below` that it keeps the registers below the blocks it works on. -/

open Sys2Proof

namespace Sys2Proof.Machine

set_option linter.unusedSimpArgs false
set_option linter.unusedVariables false

theorem captureHead_frame (s : State) (p : Nat) (o : Obs) (multi : Bool) :
    sameExcept [.regs, .pr] s (captureHead s p o multi) := by
  unfold captureHead
  simp (disch := decide)
@[simp ↓] theorem captureHead_through (ps : List Piece) (hps : ([.regs, .pr] : List Piece).all (ps.contains ·) = true) (s0 : State)
    (s : State) (p : Nat) (o : Obs) (multi : Bool) :
    sameExcept ps s0 (captureHead s p o multi) ↔ sameExcept ps s0 s :=
  sameExcept_through (captureHead_frame s p o multi) hps s0
@[simp ↓] theorem captureHead_canonical (s : State) (p : Nat) (o : Obs) (multi : Bool) (h : canonical s) : canonical (captureHead s p o multi) := by
  unfold captureHead
  simp (maxDischargeDepth := 60) (contextual := true) [h]
theorem captureHead_low (s : State) (p : Nat) (o : Obs) (multi : Bool) :
    belowKept 0x40000 s (captureHead s p o multi) := by
  unfold captureHead
  simp (maxDischargeDepth := 60)
@[simp ↓] theorem captureHead_below (L : Nat) (hL : L ≤ 0x40000) (s0 : State) (s : State) (p : Nat) (o : Obs) (multi : Bool) :
    belowKept L s0 (captureHead s p o multi) ↔ belowKept L s0 s :=
  belowKept_iff (belowKept_mono (captureHead_low s p o multi) hL) s0

theorem traceBeat_frame (s : State) :
    sameExcept [.regs, .pr] s (traceBeat s) := by
  unfold traceBeat
  (repeat' split) <;> simp (disch := decide)
@[simp ↓] theorem traceBeat_through (ps : List Piece) (hps : ([.regs, .pr] : List Piece).all (ps.contains ·) = true) (s0 : State)
    (s : State) :
    sameExcept ps s0 (traceBeat s) ↔ sameExcept ps s0 s :=
  sameExcept_through (traceBeat_frame s) hps s0
@[simp ↓] theorem traceBeat_canonical (s : State) (h : canonical s) : canonical (traceBeat s) := by
  unfold traceBeat
  (repeat' split) <;> simp (maxDischargeDepth := 60) (contextual := true) [h]
theorem traceBeat_low (s : State) :
    belowKept 0x40000 s (traceBeat s) := by
  unfold traceBeat
  (repeat' split) <;> simp (maxDischargeDepth := 60)
@[simp ↓] theorem traceBeat_below (L : Nat) (hL : L ≤ 0x40000) (s0 : State) (s : State) :
    belowKept L s0 (traceBeat s) ↔ belowKept L s0 s :=
  belowKept_iff (belowKept_mono (traceBeat_low s) hL) s0

theorem padRecord_frame (s : State) (r : TraceRec) :
    sameExcept [.freeCtr] s (padRecord s r).2 := by
  unfold padRecord
  simp (disch := first | decide | (intro _ _; (repeat' split) <;> simp (disch := decide))) [sameExcept_foldl, sameExcept_foldl1, sameExcept_foldl2, sameExcept_forEach, sameExcept_forRange]
@[simp ↓] theorem padRecord_through (ps : List Piece) (hps : ([.freeCtr] : List Piece).all (ps.contains ·) = true) (s0 : State)
    (s : State) (r : TraceRec) :
    sameExcept ps s0 (padRecord s r).2 ↔ sameExcept ps s0 s :=
  sameExcept_through (padRecord_frame s r) hps s0
@[simp ↓] theorem padRecord_canonical (s : State) (r : TraceRec) : canonical (padRecord s r).2 ↔ canonical s :=
  canonical_same (padRecord_frame s r) (by decide)
@[simp ↓] theorem padRecord_below (L : Nat) (s0 : State) (s : State) (r : TraceRec) :
    belowKept L s0 (padRecord s r).2 ↔ belowKept L s0 s :=
  belowKept_iff (belowKept_same (padRecord_frame s r) (by decide)) s0

theorem followFlit_frame (s : State) (b : Nat) (o : Obs) :
    sameExcept [.pr, .freeCtr] s (followFlit s b o) := by
  unfold followFlit
  simp (disch := first | decide | (intro _ _; (repeat' split) <;> simp (disch := decide))) [sameExcept_foldl, sameExcept_foldl1, sameExcept_foldl2, sameExcept_forEach, sameExcept_forRange]
@[simp ↓] theorem followFlit_through (ps : List Piece) (hps : ([.pr, .freeCtr] : List Piece).all (ps.contains ·) = true) (s0 : State)
    (s : State) (b : Nat) (o : Obs) :
    sameExcept ps s0 (followFlit s b o) ↔ sameExcept ps s0 s :=
  sameExcept_through (followFlit_frame s b o) hps s0
@[simp ↓] theorem followFlit_canonical (s : State) (b : Nat) (o : Obs) : canonical (followFlit s b o) ↔ canonical s :=
  canonical_same (followFlit_frame s b o) (by decide)
@[simp ↓] theorem followFlit_below (L : Nat) (s0 : State) (s : State) (b : Nat) (o : Obs) :
    belowKept L s0 (followFlit s b o) ↔ belowKept L s0 s :=
  belowKept_iff (belowKept_same (followFlit_frame s b o) (by decide)) s0

theorem triggerPulse_frame (s : State) (p : Nat) :
    sameExcept [.regs, .bd, .pr, .rd, .freeCtr] s (triggerPulse s p) := by
  unfold triggerPulse
  simp (disch := decide)
@[simp ↓] theorem triggerPulse_through (ps : List Piece) (hps : ([.regs, .bd, .pr, .rd, .freeCtr] : List Piece).all (ps.contains ·) = true) (s0 : State)
    (s : State) (p : Nat) :
    sameExcept ps s0 (triggerPulse s p) ↔ sameExcept ps s0 s :=
  sameExcept_through (triggerPulse_frame s p) hps s0
@[simp ↓] theorem triggerPulse_canonical (s : State) (p : Nat) (h : canonical s) : canonical (triggerPulse s p) := by
  unfold triggerPulse
  simp (maxDischargeDepth := 60) (contextual := true) [h]
theorem triggerPulse_low (s : State) (p : Nat) :
    belowKept 0x10000 s (triggerPulse s p) := by
  unfold triggerPulse
  simp (maxDischargeDepth := 60)
@[simp ↓] theorem triggerPulse_below (L : Nat) (hL : L ≤ 0x10000) (s0 : State) (s : State) (p : Nat) :
    belowKept L s0 (triggerPulse s p) ↔ belowKept L s0 s :=
  belowKept_iff (belowKept_mono (triggerPulse_low s p) hL) s0

theorem traceCapture_frame (s : State) (b : Nat) :
    sameExcept [.regs, .bd, .pr, .rd, .freeCtr] s (traceCapture s b) := by
  unfold traceCapture
  dsimp only
  (repeat' split) <;> simp (disch := first | decide | (intro _ _; (repeat' split) <;> simp (disch := decide))) [sameExcept_foldl, sameExcept_foldl1, sameExcept_foldl2, sameExcept_forEach, sameExcept_forRange]
@[simp ↓] theorem traceCapture_through (ps : List Piece) (hps : ([.regs, .bd, .pr, .rd, .freeCtr] : List Piece).all (ps.contains ·) = true) (s0 : State)
    (s : State) (b : Nat) :
    sameExcept ps s0 (traceCapture s b) ↔ sameExcept ps s0 s :=
  sameExcept_through (traceCapture_frame s b) hps s0
@[simp ↓] theorem traceCapture_canonical (s : State) (b : Nat) (h : canonical s) : canonical (traceCapture s b) := by
  unfold traceCapture
  dsimp only
  (repeat' split) <;> simp (maxDischargeDepth := 60) (contextual := true) [h]
theorem traceCapture_low (s : State) (b : Nat) :
    belowKept 0x10000 s (traceCapture s b) := by
  unfold traceCapture
  dsimp only
  (repeat' split) <;> simp (maxDischargeDepth := 60) [belowKept_foldl, belowKept_foldl1, belowKept_foldl2, belowKept_forEach, belowKept_forRange]
@[simp ↓] theorem traceCapture_below (L : Nat) (hL : L ≤ 0x10000) (s0 : State) (s : State) (b : Nat) :
    belowKept L s0 (traceCapture s b) ↔ belowKept L s0 s :=
  belowKept_iff (belowKept_mono (traceCapture_low s b) hL) s0

theorem setProbeLevel_frame (s : State) (p : Nat) (l : Int) :
    sameExcept [.regs] s (setProbeLevel s p l) := by
  unfold setProbeLevel
  simp (disch := decide)
@[simp ↓] theorem setProbeLevel_through (ps : List Piece) (hps : ([.regs] : List Piece).all (ps.contains ·) = true) (s0 : State)
    (s : State) (p : Nat) (l : Int) :
    sameExcept ps s0 (setProbeLevel s p l) ↔ sameExcept ps s0 s :=
  sameExcept_through (setProbeLevel_frame s p l) hps s0
@[simp ↓] theorem setProbeLevel_canonical (s : State) (p : Nat) (l : Int) (h : canonical s) : canonical (setProbeLevel s p l) := by
  unfold setProbeLevel
  simp (maxDischargeDepth := 60) (contextual := true) [h]
theorem setProbeLevel_low (s : State) (p : Nat) (l : Int) :
    belowKept 0x40000 s (setProbeLevel s p l) := by
  unfold setProbeLevel
  simp (maxDischargeDepth := 60)
@[simp ↓] theorem setProbeLevel_below (L : Nat) (hL : L ≤ 0x40000) (s0 : State) (s : State) (p : Nat) (l : Int) :
    belowKept L s0 (setProbeLevel s p l) ↔ belowKept L s0 s :=
  belowKept_iff (belowKept_mono (setProbeLevel_low s p l) hL) s0

theorem recordDrain_frame (s : State) :
    sameExcept [.regs, .pr] s (recordDrain s) := by
  unfold recordDrain
  (repeat' split) <;> simp (disch := decide)
@[simp ↓] theorem recordDrain_through (ps : List Piece) (hps : ([.regs, .pr] : List Piece).all (ps.contains ·) = true) (s0 : State)
    (s : State) :
    sameExcept ps s0 (recordDrain s) ↔ sameExcept ps s0 s :=
  sameExcept_through (recordDrain_frame s) hps s0
@[simp ↓] theorem recordDrain_canonical (s : State) (h : canonical s) : canonical (recordDrain s) := by
  unfold recordDrain
  (repeat' split) <;> simp (maxDischargeDepth := 60) (contextual := true) [h]
theorem recordDrain_low (s : State) :
    belowKept 0x40000 s (recordDrain s) := by
  unfold recordDrain
  (repeat' split) <;> simp (maxDischargeDepth := 60)
@[simp ↓] theorem recordDrain_below (L : Nat) (hL : L ≤ 0x40000) (s0 : State) (s : State) :
    belowKept L s0 (recordDrain s) ↔ belowKept L s0 s :=
  belowKept_iff (belowKept_mono (recordDrain_low s) hL) s0

theorem traceRefill_frame (s : State) :
    sameExcept [.regs, .pr] s (traceRefill s) := by
  unfold traceRefill
  simp (disch := first | decide | (intro _ _; (repeat' split) <;> simp (disch := decide))) [sameExcept_foldl, sameExcept_foldl1, sameExcept_foldl2, sameExcept_forEach, sameExcept_forRange]
@[simp ↓] theorem traceRefill_through (ps : List Piece) (hps : ([.regs, .pr] : List Piece).all (ps.contains ·) = true) (s0 : State)
    (s : State) :
    sameExcept ps s0 (traceRefill s) ↔ sameExcept ps s0 s :=
  sameExcept_through (traceRefill_frame s) hps s0
@[simp ↓] theorem traceRefill_canonical (s : State) (h : canonical s) : canonical (traceRefill s) := by
  unfold traceRefill
  simp (maxDischargeDepth := 60) (contextual := true) [h]
theorem traceRefill_low (s : State) :
    belowKept 0x40000 s (traceRefill s) := by
  unfold traceRefill
  simp (maxDischargeDepth := 60) [belowKept_foldl, belowKept_foldl1, belowKept_foldl2, belowKept_forEach, belowKept_forRange]
@[simp ↓] theorem traceRefill_below (L : Nat) (hL : L ≤ 0x40000) (s0 : State) (s : State) :
    belowKept L s0 (traceRefill s) ↔ belowKept L s0 s :=
  belowKept_iff (belowKept_mono (traceRefill_low s) hL) s0

end Sys2Proof.Machine
end

