-- ==== Sys2Proof/Laws/FrameTimetable.lean ====
section
/-! SUPPORT. What each operation of `Machine/Timetable.lean` can change, in the pieces of `Safety.lean`: `<operation>_frame` says it once,
`<operation>_through` carries it past the operation, `<operation>_canonical` says that it keeps the canonical form, and
`<operation>_low`, `<operation>_below` that it keeps the registers below the blocks it works on. -/

open Sys2Proof

namespace Sys2Proof.Machine

set_option linter.unusedSimpArgs false
set_option linter.unusedVariables false

theorem placeActs_frame (s : State) (cs : List Chan) :
    sameExcept [.rd, .freeCtr] s (placeActs s cs).2 := by
  unfold placeActs
  simp (disch := first | decide | (intro _ _; (repeat' split) <;> simp (disch := decide))) [sameExcept_foldl, sameExcept_foldl1, sameExcept_foldl2, sameExcept_forEach, sameExcept_forRange]
@[simp ↓] theorem placeActs_through (ps : List Piece) (hps : ([.rd, .freeCtr] : List Piece).all (ps.contains ·) = true) (s0 : State)
    (s : State) (cs : List Chan) :
    sameExcept ps s0 (placeActs s cs).2 ↔ sameExcept ps s0 s :=
  sameExcept_through (placeActs_frame s cs) hps s0
@[simp ↓] theorem placeActs_canonical (s : State) (cs : List Chan) : canonical (placeActs s cs).2 ↔ canonical s :=
  canonical_same (placeActs_frame s cs) (by decide)
@[simp ↓] theorem placeActs_below (L : Nat) (s0 : State) (s : State) (cs : List Chan) :
    belowKept L s0 (placeActs s cs).2 ↔ belowKept L s0 s :=
  belowKept_iff (belowKept_same (placeActs_frame s cs) (by decide)) s0

end Sys2Proof.Machine
end

