-- ==== Sys2Proof/Laws/FrameRiderImage.lean ====
section
/-! SUPPORT. What each operation of `Machine/RiderImage.lean` can change, in the pieces of `Safety.lean`: `<operation>_frame` says it once,
`<operation>_through` carries it past the operation, `<operation>_canonical` says that it keeps the canonical form, and
`<operation>_low`, `<operation>_below` that it keeps the registers below the blocks it works on. -/

open Sys2Proof

namespace Sys2Proof.Machine

set_option linter.unusedSimpArgs false
set_option linter.unusedVariables false

theorem copyImage_frame (s : State) (off : Nat) (len : Nat) :
    sameExcept [.rd] s (copyImage s off len) := by
  unfold copyImage
  simp (disch := decide)
@[simp ↓] theorem copyImage_through (ps : List Piece) (hps : ([.rd] : List Piece).all (ps.contains ·) = true) (s0 : State)
    (s : State) (off : Nat) (len : Nat) :
    sameExcept ps s0 (copyImage s off len) ↔ sameExcept ps s0 s :=
  sameExcept_through (copyImage_frame s off len) hps s0
@[simp ↓] theorem copyImage_canonical (s : State) (off : Nat) (len : Nat) : canonical (copyImage s off len) ↔ canonical s :=
  canonical_same (copyImage_frame s off len) (by decide)
@[simp ↓] theorem copyImage_below (L : Nat) (s0 : State) (s : State) (off : Nat) (len : Nat) :
    belowKept L s0 (copyImage s off len) ↔ belowKept L s0 s :=
  belowKept_iff (belowKept_same (copyImage_frame s off len) (by decide)) s0

theorem restartRider_frame (s : State) (cause : Nat) :
    sameExcept [.regs, .rd, .mb] s (restartRider s cause) := by
  unfold restartRider
  simp (disch := decide)
@[simp ↓] theorem restartRider_through (ps : List Piece) (hps : ([.regs, .rd, .mb] : List Piece).all (ps.contains ·) = true) (s0 : State)
    (s : State) (cause : Nat) :
    sameExcept ps s0 (restartRider s cause) ↔ sameExcept ps s0 s :=
  sameExcept_through (restartRider_frame s cause) hps s0
@[simp ↓] theorem restartRider_canonical (s : State) (cause : Nat) (h : canonical s) : canonical (restartRider s cause) := by
  unfold restartRider
  simp (maxDischargeDepth := 60) (contextual := true) [h]

theorem lockstepMismatch_frame (s : State) :
    sameExcept [.regs, .rd, .mb] s (lockstepMismatch s) := by
  unfold lockstepMismatch
  simp (disch := decide)
@[simp ↓] theorem lockstepMismatch_through (ps : List Piece) (hps : ([.regs, .rd, .mb] : List Piece).all (ps.contains ·) = true) (s0 : State)
    (s : State) :
    sameExcept ps s0 (lockstepMismatch s) ↔ sameExcept ps s0 s :=
  sameExcept_through (lockstepMismatch_frame s) hps s0
@[simp ↓] theorem lockstepMismatch_canonical (s : State) (h : canonical s) : canonical (lockstepMismatch s) := by
  unfold lockstepMismatch
  simp (maxDischargeDepth := 60) (contextual := true) [h]

theorem watchdogExpiry_frame (s : State) :
    sameExcept [.fclk, .regs, .rd, .mb] s (watchdogExpiry s) := by
  unfold watchdogExpiry
  simp (disch := decide)
@[simp ↓] theorem watchdogExpiry_through (ps : List Piece) (hps : ([.fclk, .regs, .rd, .mb] : List Piece).all (ps.contains ·) = true) (s0 : State)
    (s : State) :
    sameExcept ps s0 (watchdogExpiry s) ↔ sameExcept ps s0 s :=
  sameExcept_through (watchdogExpiry_frame s) hps s0
@[simp ↓] theorem watchdogExpiry_canonical (s : State) (h : canonical s) : canonical (watchdogExpiry s) := by
  unfold watchdogExpiry
  simp (maxDischargeDepth := 60) (contextual := true) [h]

end Sys2Proof.Machine
end

