-- ==== Sys2Proof/Laws/FrameRiderPlans.lean ====
section
/-! SUPPORT. What each operation of `Machine/RiderPlans.lean` can change, in the pieces of `Safety.lean`: `<operation>_frame` says it once,
`<operation>_through` carries it past the operation, `<operation>_canonical` says that it keeps the canonical form, and
`<operation>_low`, `<operation>_below` that it keeps the registers below the blocks it works on. -/

open Sys2Proof

namespace Sys2Proof.Machine

set_option linter.unusedSimpArgs false
set_option linter.unusedVariables false

theorem placeBackActs_frame (s : State) :
    sameExcept [.rd, .freeCtr] s (placeBackActs s).2 := by
  unfold placeBackActs
  simp (disch := decide)
@[simp ↓] theorem placeBackActs_through (ps : List Piece) (hps : ([.rd, .freeCtr] : List Piece).all (ps.contains ·) = true) (s0 : State)
    (s : State) :
    sameExcept ps s0 (placeBackActs s).2 ↔ sameExcept ps s0 s :=
  sameExcept_through (placeBackActs_frame s) hps s0
@[simp ↓] theorem placeBackActs_canonical (s : State) : canonical (placeBackActs s).2 ↔ canonical s :=
  canonical_same (placeBackActs_frame s) (by decide)
@[simp ↓] theorem placeBackActs_below (L : Nat) (s0 : State) (s : State) :
    belowKept L s0 (placeBackActs s).2 ↔ belowKept L s0 s :=
  belowKept_iff (belowKept_same (placeBackActs_frame s) (by decide)) s0

theorem placeCutActs_frame (s : State) (key : Option Nat) :
    sameExcept [.rd, .freeCtr] s (placeCutActs s key).2 := by
  unfold placeCutActs
  simp (disch := decide)
@[simp ↓] theorem placeCutActs_through (ps : List Piece) (hps : ([.rd, .freeCtr] : List Piece).all (ps.contains ·) = true) (s0 : State)
    (s : State) (key : Option Nat) :
    sameExcept ps s0 (placeCutActs s key).2 ↔ sameExcept ps s0 s :=
  sameExcept_through (placeCutActs_frame s key) hps s0
@[simp ↓] theorem placeCutActs_canonical (s : State) (key : Option Nat) : canonical (placeCutActs s key).2 ↔ canonical s :=
  canonical_same (placeCutActs_frame s key) (by decide)
@[simp ↓] theorem placeCutActs_below (L : Nat) (s0 : State) (s : State) (key : Option Nat) :
    belowKept L s0 (placeCutActs s key).2 ↔ belowKept L s0 s :=
  belowKept_iff (belowKept_same (placeCutActs_frame s key) (by decide)) s0

theorem mapsToBe_frame (s : State) (hs : List Nat) :
    sameExcept [.regs] s (mapsToBe s hs) := by
  unfold mapsToBe
  rw [sameExcept_forRange]
  · simp
  · intro t x; rw [sameExcept_forEach]
    · simp
    · intro t x; simp (disch := decide)
@[simp ↓] theorem mapsToBe_through (ps : List Piece) (hps : ([.regs] : List Piece).all (ps.contains ·) = true) (s0 : State)
    (s : State) (hs : List Nat) :
    sameExcept ps s0 (mapsToBe s hs) ↔ sameExcept ps s0 s :=
  sameExcept_through (mapsToBe_frame s hs) hps s0
@[simp ↓] theorem mapsToBe_canonical (s : State) (hs : List Nat) (h : canonical s) : canonical (mapsToBe s hs) := by
  unfold mapsToBe
  simp (maxDischargeDepth := 60) (contextual := true) [h]
theorem mapsToBe_low (s : State) (hs : List Nat) :
    belowKept 0x200000 s (mapsToBe s hs) := by
  unfold mapsToBe
  rw [belowKept_forRange]
  · simp
  · intro t x; rw [belowKept_forEach]
    · simp
    · intro t x; simp (maxDischargeDepth := 60)
@[simp ↓] theorem mapsToBe_below (L : Nat) (hL : L ≤ 0x200000) (s0 : State) (s : State) (hs : List Nat) :
    belowKept L s0 (mapsToBe s hs) ↔ belowKept L s0 s :=
  belowKept_iff (belowKept_mono (mapsToBe_low s hs) hL) s0

theorem routeWrites_same (s1 : State) (b : Avoid) (hs : List Nat) (notice : Bool) (n : Nat) (s : State) :
    sameExcept [.freeCtr] s (routeWrites s1 b hs notice n s).2 := by
  unfold routeWrites
  dsimp only
  split <;> simp (disch := decide)
theorem routeActs_frame (s : State) (notice : Bool) (step : Bool) :
    sameExcept [.regs, .freeCtr] s (routeActs s notice step).2 := by
  unfold routeActs
  dsimp only
  suffices h : ∀ (l : List Nat) (g : List RAct × List Nat × State → Nat → List RAct × List Nat × State)
      (hg : ∀ a n, sameExcept [.regs, .freeCtr] a.2.2 (g a n).2.2) (a : List RAct × List Nat × State),
      sameExcept [.regs, .freeCtr] a.2.2 (l.foldl g a).2.2 from
    h _ _ (fun a n => sameExcept_mono (routeWrites_same _ _ _ _ _ _) (by decide)) ([], [], s)
  intro l g hg
  induction l with
  | nil => intro a; exact sameExcept_refl _ _
  | cons x xs ih => intro a; exact sameExcept_trans (hg a x) (ih _)
@[simp ↓] theorem routeActs_through (ps : List Piece) (hps : ([.regs, .freeCtr] : List Piece).all (ps.contains ·) = true) (s0 : State)
    (s : State) (notice : Bool) (step : Bool) :
    sameExcept ps s0 (routeActs s notice step).2 ↔ sameExcept ps s0 s :=
  sameExcept_through (routeActs_frame s notice step) hps s0
@[simp ↓] theorem routeActs_canonical (s : State) (notice : Bool) (step : Bool) (h : canonical s) : canonical (routeActs s notice step).2 := by
  unfold routeActs
  dsimp only
  suffices hl : ∀ (l : List Nat) (g : List RAct × List Nat × State → Nat → List RAct × List Nat × State)
      (hg : ∀ a n, canonical a.2.2 → canonical (g a n).2.2) (a : List RAct × List Nat × State),
      canonical a.2.2 → canonical (l.foldl g a).2.2 from
    hl _ _ (fun a n ha => (canonical_same (routeWrites_same _ _ _ _ _ _) (by decide)).mpr ha) ([], [], s) h
  intro l g hg
  induction l with
  | nil => intro a ha; exact ha
  | cons x xs ih => intro a ha; exact ih _ (hg a x ha)

theorem expandPlan_frame (s : State) (a1 : Plan) :
    sameExcept [.regs, .rd, .freeCtr] s (expandPlan s a1).2 := by
  unfold expandPlan
  (repeat' split) <;> simp (disch := decide)
@[simp ↓] theorem expandPlan_through (ps : List Piece) (hps : ([.regs, .rd, .freeCtr] : List Piece).all (ps.contains ·) = true) (s0 : State)
    (s : State) (a1 : Plan) :
    sameExcept ps s0 (expandPlan s a1).2 ↔ sameExcept ps s0 s :=
  sameExcept_through (expandPlan_frame s a1) hps s0
@[simp ↓] theorem expandPlan_canonical (s : State) (a1 : Plan) (h : canonical s) : canonical (expandPlan s a1).2 := by
  unfold expandPlan
  (repeat' split) <;> simp (maxDischargeDepth := 60) (contextual := true) [h]

end Sys2Proof.Machine
end

