-- ==== Sys2Proof/Laws/FrameRiderRun.lean ====
section
/-! SUPPORT. What each operation of `Machine/RiderRun.lean` can change, in the pieces of `Safety.lean`: `<operation>_frame` says it once,
`<operation>_through` carries it past the operation, `<operation>_canonical` says that it keeps the canonical form, and
`<operation>_low`, `<operation>_below` that it keeps the registers below the blocks it works on. -/

open Sys2Proof

namespace Sys2Proof.Machine

set_option linter.unusedSimpArgs false
set_option linter.unusedVariables false

theorem serveAgain_frame (s : State) :
    sameExcept [.regs] s (serveAgain s) := by
  unfold serveAgain
  simp (disch := decide)
@[simp ↓] theorem serveAgain_through (ps : List Piece) (hps : ([.regs] : List Piece).all (ps.contains ·) = true) (s0 : State)
    (s : State) :
    sameExcept ps s0 (serveAgain s) ↔ sameExcept ps s0 s :=
  sameExcept_through (serveAgain_frame s) hps s0
@[simp ↓] theorem serveAgain_canonical (s : State) (h : canonical s) : canonical (serveAgain s) := by
  unfold serveAgain
  simp (maxDischargeDepth := 60) (contextual := true) [h]

theorem respond_frame (s : State) (m : Nat) (c : Running) :
    sameExcept [.regs, .rd, .mb] s (respond s m c) := by
  unfold respond
  simp (disch := decide)
@[simp ↓] theorem respond_through (ps : List Piece) (hps : ([.regs, .rd, .mb] : List Piece).all (ps.contains ·) = true) (s0 : State)
    (s : State) (m : Nat) (c : Running) :
    sameExcept ps s0 (respond s m c) ↔ sameExcept ps s0 s :=
  sameExcept_through (respond_frame s m c) hps s0
@[simp ↓] theorem respond_canonical (s : State) (m : Nat) (c : Running) (h : canonical s) : canonical (respond s m c) := by
  unfold respond
  simp (maxDischargeDepth := 60) (contextual := true) [h]

theorem checkFails_frame (s : State) :
    sameExcept [.regs] s (checkFails s) := by
  unfold checkFails
  simp (disch := decide)
@[simp ↓] theorem checkFails_through (ps : List Piece) (hps : ([.regs] : List Piece).all (ps.contains ·) = true) (s0 : State)
    (s : State) :
    sameExcept ps s0 (checkFails s) ↔ sameExcept ps s0 s :=
  sameExcept_through (checkFails_frame s) hps s0
@[simp ↓] theorem checkFails_canonical (s : State) (h : canonical s) : canonical (checkFails s) := by
  unfold checkFails
  simp (maxDischargeDepth := 60) (contextual := true) [h]

theorem beginImage_frame (s : State) (off : Nat) (len : Nat) :
    sameExcept [.regs, .rd] s (beginImage s off len) := by
  unfold beginImage
  simp (disch := decide)
@[simp ↓] theorem beginImage_through (ps : List Piece) (hps : ([.regs, .rd] : List Piece).all (ps.contains ·) = true) (s0 : State)
    (s : State) (off : Nat) (len : Nat) :
    sameExcept ps s0 (beginImage s off len) ↔ sameExcept ps s0 s :=
  sameExcept_through (beginImage_frame s off len) hps s0
@[simp ↓] theorem beginImage_canonical (s : State) (off : Nat) (len : Nat) (h : canonical s) : canonical (beginImage s off len) := by
  unfold beginImage
  simp (maxDischargeDepth := 60) (contextual := true) [h]

theorem disarmProbe_frame (s : State) (p : Nat) :
    sameExcept [.pr] s (disarmProbe s p) := by
  unfold disarmProbe
  simp (disch := decide)
@[simp ↓] theorem disarmProbe_through (ps : List Piece) (hps : ([.pr] : List Piece).all (ps.contains ·) = true) (s0 : State)
    (s : State) (p : Nat) :
    sameExcept ps s0 (disarmProbe s p) ↔ sameExcept ps s0 s :=
  sameExcept_through (disarmProbe_frame s p) hps s0
@[simp ↓] theorem disarmProbe_canonical (s : State) (p : Nat) : canonical (disarmProbe s p) ↔ canonical s :=
  canonical_same (disarmProbe_frame s p) (by decide)
@[simp ↓] theorem disarmProbe_below (L : Nat) (s0 : State) (s : State) (p : Nat) :
    belowKept L s0 (disarmProbe s p) ↔ belowKept L s0 s :=
  belowKept_iff (belowKept_same (disarmProbe_frame s p) (by decide)) s0

theorem handOver_frame (s : State) (k : Nat) :
    sameExcept [.regs, .hg, .hs] s (handOver s k) := by
  unfold handOver
  simp (disch := decide)
@[simp ↓] theorem handOver_through (ps : List Piece) (hps : ([.regs, .hg, .hs] : List Piece).all (ps.contains ·) = true) (s0 : State)
    (s : State) (k : Nat) :
    sameExcept ps s0 (handOver s k) ↔ sameExcept ps s0 s :=
  sameExcept_through (handOver_frame s k) hps s0
@[simp ↓] theorem handOver_canonical (s : State) (k : Nat) (h : canonical s) : canonical (handOver s k) := by
  unfold handOver
  simp (maxDischargeDepth := 60) (contextual := true) [h]
theorem handOver_low (s : State) (k : Nat) :
    belowKept 0x80000 s (handOver s k) := by
  unfold handOver
  simp (maxDischargeDepth := 60)
@[simp ↓] theorem handOver_below (L : Nat) (hL : L ≤ 0x80000) (s0 : State) (s : State) (k : Nat) :
    belowKept L s0 (handOver s k) ↔ belowKept L s0 s :=
  belowKept_iff (belowKept_mono (handOver_low s k) hL) s0

theorem prepareSpare_frame (s : State) (k : Nat) :
    sameExcept [.regs, .hs] s (prepareSpare s k) := by
  unfold prepareSpare
  simp (disch := first | decide | (intro _ _; (repeat' split) <;> simp (disch := decide))) [sameExcept_foldl, sameExcept_foldl1, sameExcept_foldl2, sameExcept_forEach, sameExcept_forRange]
@[simp ↓] theorem prepareSpare_through (ps : List Piece) (hps : ([.regs, .hs] : List Piece).all (ps.contains ·) = true) (s0 : State)
    (s : State) (k : Nat) :
    sameExcept ps s0 (prepareSpare s k) ↔ sameExcept ps s0 s :=
  sameExcept_through (prepareSpare_frame s k) hps s0
@[simp ↓] theorem prepareSpare_canonical (s : State) (k : Nat) (h : canonical s) : canonical (prepareSpare s k) := by
  unfold prepareSpare
  simp (maxDischargeDepth := 60) (contextual := true) [h]
theorem prepareSpare_low (s : State) (k : Nat) :
    belowKept 0x80000 s (prepareSpare s k) := by
  unfold prepareSpare
  simp (maxDischargeDepth := 60) [belowKept_foldl, belowKept_foldl1, belowKept_foldl2, belowKept_forEach, belowKept_forRange]
@[simp ↓] theorem prepareSpare_below (L : Nat) (hL : L ≤ 0x80000) (s0 : State) (s : State) (k : Nat) :
    belowKept L s0 (prepareSpare s k) ↔ belowKept L s0 s :=
  belowKept_iff (belowKept_mono (prepareSpare_low s k) hL) s0

theorem quiesceDomain_frame (s : State) (d : Nat) :
    sameExcept [.regs, .hg, .bd] s (quiesceDomain s d) := by
  unfold quiesceDomain
  simp (disch := first | decide | (intro _ _; (repeat' split) <;> simp (disch := decide))) [sameExcept_foldl, sameExcept_foldl1, sameExcept_foldl2, sameExcept_forEach, sameExcept_forRange]
@[simp ↓] theorem quiesceDomain_through (ps : List Piece) (hps : ([.regs, .hg, .bd] : List Piece).all (ps.contains ·) = true) (s0 : State)
    (s : State) (d : Nat) :
    sameExcept ps s0 (quiesceDomain s d) ↔ sameExcept ps s0 s :=
  sameExcept_through (quiesceDomain_frame s d) hps s0
@[simp ↓] theorem quiesceDomain_canonical (s : State) (d : Nat) (h : canonical s) : canonical (quiesceDomain s d) := by
  unfold quiesceDomain
  simp (maxDischargeDepth := 60) (contextual := true) [h]
theorem quiesceDomain_low (s : State) (d : Nat) :
    belowKept 0x200000 s (quiesceDomain s d) := by
  unfold quiesceDomain
  simp (maxDischargeDepth := 60) [belowKept_foldl, belowKept_foldl1, belowKept_foldl2, belowKept_forEach, belowKept_forRange]
@[simp ↓] theorem quiesceDomain_below (L : Nat) (hL : L ≤ 0x200000) (s0 : State) (s : State) (d : Nat) :
    belowKept L s0 (quiesceDomain s d) ↔ belowKept L s0 s :=
  belowKept_iff (belowKept_mono (quiesceDomain_low s d) hL) s0

theorem setDemoted_frame (s : State) (n : Nat) (c : Nat) (v : Bool) :
    sameExcept [.hg] s (setDemoted s n c v) := by
  unfold setDemoted
  (repeat' split) <;> simp (disch := decide)
@[simp ↓] theorem setDemoted_through (ps : List Piece) (hps : ([.hg] : List Piece).all (ps.contains ·) = true) (s0 : State)
    (s : State) (n : Nat) (c : Nat) (v : Bool) :
    sameExcept ps s0 (setDemoted s n c v) ↔ sameExcept ps s0 s :=
  sameExcept_through (setDemoted_frame s n c v) hps s0
@[simp ↓] theorem setDemoted_canonical (s : State) (n : Nat) (c : Nat) (v : Bool) : canonical (setDemoted s n c v) ↔ canonical s :=
  canonical_same (setDemoted_frame s n c v) (by decide)
@[simp ↓] theorem setDemoted_below (L : Nat) (s0 : State) (s : State) (n : Nat) (c : Nat) (v : Bool) :
    belowKept L s0 (setDemoted s n c v) ↔ belowKept L s0 s :=
  belowKept_iff (belowKept_same (setDemoted_frame s n c v) (by decide)) s0

theorem zeroStores_frame (s : State) :
    sameExcept [.fclk, .hg, .rv] s (zeroStores s) := by
  unfold zeroStores
  simp (disch := first | decide | (intro _ _; (repeat' split) <;> simp (disch := decide))) [sameExcept_foldl, sameExcept_foldl1, sameExcept_foldl2, sameExcept_forEach, sameExcept_forRange]
@[simp ↓] theorem zeroStores_through (ps : List Piece) (hps : ([.fclk, .hg, .rv] : List Piece).all (ps.contains ·) = true) (s0 : State)
    (s : State) :
    sameExcept ps s0 (zeroStores s) ↔ sameExcept ps s0 s :=
  sameExcept_through (zeroStores_frame s) hps s0
@[simp ↓] theorem zeroStores_canonical (s : State) (h : canonical s) : canonical (zeroStores s) := by
  unfold zeroStores
  refine canonical_setRv _ _ ?_ Memory.wf_nil
  apply canonical_forRange
  · simp [h]
  · intro t x ht; simp [ht]
@[simp ↓] theorem zeroStores_below (L : Nat) (s0 : State) (s : State) :
    belowKept L s0 (zeroStores s) ↔ belowKept L s0 s :=
  belowKept_iff (belowKept_same (zeroStores_frame s) (by decide)) s0

theorem doAct_frame (s : State) (a1 : RAct) :
    sameExcept [.fclk, .regs, .hg, .rt, .hs, .rv, .wires, .credits, .bd, .pr, .al, .rd, .mb, .freeCtr] s (doAct s a1) := by
  cases a1
  case sweep a =>
    delta doAct
    dsimp only
    rw [sameExcept_forRange]
    · simp
    · intro t x; simp (disch := decide)
  all_goals
    delta doAct
    dsimp only
    simp (disch := decide)
@[simp ↓] theorem doAct_through (ps : List Piece) (hps : ([.fclk, .regs, .hg, .rt, .hs, .rv, .wires, .credits, .bd, .pr, .al, .rd, .mb, .freeCtr] : List Piece).all (ps.contains ·) = true) (s0 : State)
    (s : State) (a1 : RAct) :
    sameExcept ps s0 (doAct s a1) ↔ sameExcept ps s0 s :=
  sameExcept_through (doAct_frame s a1) hps s0
@[simp ↓] theorem doAct_canonical (s : State) (a1 : RAct) (h : canonical s) : canonical (doAct s a1) := by
  cases a1
  all_goals
    delta doAct
    dsimp only
    simp (maxDischargeDepth := 60) (contextual := true) [h]

theorem startImage_frame (s : State) :
    sameExcept [.regs, .rd, .mb] s (startImage s) := by
  unfold startImage
  simp (disch := decide)
@[simp ↓] theorem startImage_through (ps : List Piece) (hps : ([.regs, .rd, .mb] : List Piece).all (ps.contains ·) = true) (s0 : State)
    (s : State) :
    sameExcept ps s0 (startImage s) ↔ sameExcept ps s0 s :=
  sameExcept_through (startImage_frame s) hps s0
@[simp ↓] theorem startImage_canonical (s : State) (h : canonical s) : canonical (startImage s) := by
  unfold startImage
  simp (maxDischargeDepth := 60) (contextual := true) [h]

theorem runActs_frame (a0 : Nat) (a1 : Prog) (a2 : State) :
    sameExcept [.fclk, .regs, .hg, .rt, .hs, .rv, .wires, .credits, .bd, .pr, .al, .rd, .mb, .freeCtr] a2 (runActs a0 a1 a2).2 := by
  induction a0 generalizing a1 a2 with
  | zero => exact sameExcept_refl _ _
  | succ k ih =>
    unfold runActs
    dsimp only
    have go : ∀ (q : Prog) (t : State), sameExcept [.fclk, .regs, .hg, .rt, .hs, .rv, .wires, .credits, .bd, .pr, .al, .rd, .mb, .freeCtr] a2 t → sameExcept [.fclk, .regs, .hg, .rt, .hs, .rv, .wires, .credits, .bd, .pr, .al, .rd, .mb, .freeCtr] a2 (runActs k q t).2 :=
      fun q t h => sameExcept_trans h (ih q t)
    (repeat' split) <;> first
      | exact sameExcept_refl _ _
      | (apply go; simp (disch := decide); done)
      | (simp (disch := decide); done)
@[simp ↓] theorem runActs_through (ps : List Piece) (hps : ([.fclk, .regs, .hg, .rt, .hs, .rv, .wires, .credits, .bd, .pr, .al, .rd, .mb, .freeCtr] : List Piece).all (ps.contains ·) = true) (s0 : State)
    (a0 : Nat) (a1 : Prog) (a2 : State) :
    sameExcept ps s0 (runActs a0 a1 a2).2 ↔ sameExcept ps s0 a2 :=
  sameExcept_through (runActs_frame a0 a1 a2) hps s0
@[simp ↓] theorem runActs_canonical (a0 : Nat) (a1 : Prog) (a2 : State) (h : canonical a2) : canonical (runActs a0 a1 a2).2 := by
  induction a0 generalizing a1 a2 with
  | zero => exact h
  | succ k ih =>
    unfold runActs
    dsimp only
    (repeat' split) <;> first
      | exact h
      | (apply ih; simp (maxDischargeDepth := 60) (contextual := true) [h]; done)
      | (simp (maxDischargeDepth := 60) (contextual := true) [h]; done)

theorem timerEnds_frame (s : State) (p : Prog) :
    sameExcept [.fclk] s (timerEnds s p) := by
  unfold timerEnds
  (repeat' split) <;> simp (disch := decide)
@[simp ↓] theorem timerEnds_through (ps : List Piece) (hps : ([.fclk] : List Piece).all (ps.contains ·) = true) (s0 : State)
    (s : State) (p : Prog) :
    sameExcept ps s0 (timerEnds s p) ↔ sameExcept ps s0 s :=
  sameExcept_through (timerEnds_frame s p) hps s0
@[simp ↓] theorem timerEnds_canonical (s : State) (p : Prog) : canonical (timerEnds s p) ↔ canonical s :=
  canonical_same (timerEnds_frame s p) (by decide)
@[simp ↓] theorem timerEnds_below (L : Nat) (s0 : State) (s : State) (p : Prog) :
    belowKept L s0 (timerEnds s p) ↔ belowKept L s0 s :=
  belowKept_iff (belowKept_same (timerEnds_frame s p) (by decide)) s0

theorem driveCommand_frame (s : State) (m : Nat) (c : Running) :
    sameExcept [.fclk, .regs, .hg, .rt, .hs, .rv, .wires, .credits, .bd, .pr, .al, .rd, .mb, .freeCtr] s (driveCommand s m c) := by
  unfold driveCommand
  simp (disch := decide)
@[simp ↓] theorem driveCommand_through (ps : List Piece) (hps : ([.fclk, .regs, .hg, .rt, .hs, .rv, .wires, .credits, .bd, .pr, .al, .rd, .mb, .freeCtr] : List Piece).all (ps.contains ·) = true) (s0 : State)
    (s : State) (m : Nat) (c : Running) :
    sameExcept ps s0 (driveCommand s m c) ↔ sameExcept ps s0 s :=
  sameExcept_through (driveCommand_frame s m c) hps s0
@[simp ↓] theorem driveCommand_canonical (s : State) (m : Nat) (c : Running) (h : canonical s) : canonical (driveCommand s m c) := by
  unfold driveCommand
  simp (maxDischargeDepth := 60) (contextual := true) [h]

theorem endWith_frame (s : State) (m : Nat) (c : Running) (code : Nat) :
    sameExcept [.regs, .rd, .mb] s (endWith s m c code) := by
  unfold endWith
  simp (disch := decide)
@[simp ↓] theorem endWith_through (ps : List Piece) (hps : ([.regs, .rd, .mb] : List Piece).all (ps.contains ·) = true) (s0 : State)
    (s : State) (m : Nat) (c : Running) (code : Nat) :
    sameExcept ps s0 (endWith s m c code) ↔ sameExcept ps s0 s :=
  sameExcept_through (endWith_frame s m c code) hps s0
@[simp ↓] theorem endWith_canonical (s : State) (m : Nat) (c : Running) (code : Nat) (h : canonical s) : canonical (endWith s m c code) := by
  unfold endWith
  simp (maxDischargeDepth := 60) (contextual := true) [h]

theorem steps_frame (s : State) (acts : List RAct) :
    sameExcept [] s (steps s acts).state := by
  unfold steps
  simp (disch := decide)
@[simp ↓] theorem steps_through (ps : List Piece) (hps : ([] : List Piece).all (ps.contains ·) = true) (s0 : State)
    (s : State) (acts : List RAct) :
    sameExcept ps s0 (steps s acts).state ↔ sameExcept ps s0 s :=
  sameExcept_through (steps_frame s acts) hps s0
@[simp ↓] theorem steps_canonical (s : State) (acts : List RAct) : canonical (steps s acts).state ↔ canonical s :=
  canonical_same (steps_frame s acts) (by decide)
@[simp ↓] theorem steps_below (L : Nat) (s0 : State) (s : State) (acts : List RAct) :
    belowKept L s0 (steps s acts).state ↔ belowKept L s0 s :=
  belowKept_iff (belowKept_same (steps_frame s acts) (by decide)) s0

theorem refused_frame (s : State) (code : Nat) :
    sameExcept [] s (refused s code).state := by
  unfold refused
  simp (disch := decide)
@[simp ↓] theorem refused_through (ps : List Piece) (hps : ([] : List Piece).all (ps.contains ·) = true) (s0 : State)
    (s : State) (code : Nat) :
    sameExcept ps s0 (refused s code).state ↔ sameExcept ps s0 s :=
  sameExcept_through (refused_frame s code) hps s0
@[simp ↓] theorem refused_canonical (s : State) (code : Nat) : canonical (refused s code).state ↔ canonical s :=
  canonical_same (refused_frame s code) (by decide)
@[simp ↓] theorem refused_below (L : Nat) (s0 : State) (s : State) (code : Nat) :
    belowKept L s0 (refused s code).state ↔ belowKept L s0 s :=
  belowKept_iff (belowKept_same (refused_frame s code) (by decide)) s0

/-- A command's plan leaves what planning and driving it leave. -/
theorem sameExcept_begin (ps : List Piece) (hps : ([.fclk, .regs, .hg, .rt, .hs, .rv, .wires, .credits, .bd, .pr, .al, .rd, .mb, .freeCtr] : List Piece).all (ps.contains ·) = true) (s0 s : State) (code : Nat)
    (plan : State → Nat → List Word → Bool → Planned) (hp : ∀ m w r, sameExcept ps s (plan s m w r).state) :
    sameExcept ps s0 (begin_ s code plan) ↔ sameExcept ps s0 s := by
  unfold begin_
  split
  · rfl
  · split
    · rfl
    · split
      · rfl
      · dsimp only
        split
        · rw [endWith_through _ (by simp_all)]
          exact sameExcept_iff (hp _ _ _) s0
        · rw [driveCommand_through _ hps, sameExcept_setRd _ (by simp_all)]
          exact sameExcept_iff (hp _ _ _) s0

/-- A command keeps the canonical form if its plan does. -/
theorem canonical_begin (s : State) (code : Nat) (plan : State → Nat → List Word → Bool → Planned) (h : canonical s)
    (hp : ∀ m w r, canonical (plan s m w r).state) : canonical (begin_ s code plan) := by
  unfold begin_
  dsimp only
  (repeat' split) <;> first | exact h | simp (maxDischargeDepth := 60) [hp]

end Sys2Proof.Machine
end

