-- ==== Sys2Proof/Laws/FrameRiderScreen.lean ====
section
/-! SUPPORT. What each operation of `Machine/RiderScreen.lean` can change, in the pieces of `Safety.lean`: `<operation>_frame` says it once,
`<operation>_through` carries it past the operation, `<operation>_canonical` says that it keeps the canonical form, and
`<operation>_low`, `<operation>_below` that it keeps the registers below the blocks it works on. -/

open Sys2Proof

namespace Sys2Proof.Machine

set_option linter.unusedSimpArgs false
set_option linter.unusedVariables false

theorem commandStart_frame (s : State) (m : Nat) :
    sameExcept [.regs, .rd, .mb] s (commandStart s m) := by
  unfold commandStart
  dsimp only
  (repeat' split) <;> simp (disch := decide)
@[simp ↓] theorem commandStart_through (ps : List Piece) (hps : ([.regs, .rd, .mb] : List Piece).all (ps.contains ·) = true) (s0 : State)
    (s : State) (m : Nat) :
    sameExcept ps s0 (commandStart s m) ↔ sameExcept ps s0 s :=
  sameExcept_through (commandStart_frame s m) hps s0
@[simp ↓] theorem commandStart_canonical (s : State) (m : Nat) (h : canonical s) : canonical (commandStart s m) := by
  unfold commandStart
  dsimp only
  (repeat' split) <;> simp (maxDischargeDepth := 60) (contextual := true) [h]

end Sys2Proof.Machine
end

