-- ==== Sys2Proof/Laws/FrameRiderQuery.lean ====
section
/-! SUPPORT. What each operation of `Machine/RiderQuery.lean` can change, in the pieces of `Safety.lean`: `<operation>_frame` says it once,
`<operation>_through` carries it past the operation, `<operation>_canonical` says that it keeps the canonical form, and
`<operation>_low`, `<operation>_below` that it keeps the registers below the blocks it works on. -/

open Sys2Proof

namespace Sys2Proof.Machine

set_option linter.unusedSimpArgs false
set_option linter.unusedVariables false

theorem answerQuery_frame (s : State) (m : Nat) (code : Nat) (f : State → List Word → List Word × Nat) :
    sameExcept [.regs, .mb] s (answerQuery s m code f) := by
  unfold answerQuery
  (repeat' split) <;> simp (disch := decide)
@[simp ↓] theorem answerQuery_through (ps : List Piece) (hps : ([.regs, .mb] : List Piece).all (ps.contains ·) = true) (s0 : State)
    (s : State) (m : Nat) (code : Nat) (f : State → List Word → List Word × Nat) :
    sameExcept ps s0 (answerQuery s m code f) ↔ sameExcept ps s0 s :=
  sameExcept_through (answerQuery_frame s m code f) hps s0
@[simp ↓] theorem answerQuery_canonical (s : State) (m : Nat) (code : Nat) (f : State → List Word → List Word × Nat) (h : canonical s) : canonical (answerQuery s m code f) := by
  unfold answerQuery
  (repeat' split) <;> simp (maxDischargeDepth := 60) (contextual := true) [h]

theorem planAlarmAck_frame (s : State) (a1 : Nat) (ws : List Word) (a3 : Bool) :
    sameExcept [] s (planAlarmAck s a1 ws a3).state := by
  unfold planAlarmAck
  simp (disch := decide)
@[simp ↓] theorem planAlarmAck_through (ps : List Piece) (hps : ([] : List Piece).all (ps.contains ·) = true) (s0 : State)
    (s : State) (a1 : Nat) (ws : List Word) (a3 : Bool) :
    sameExcept ps s0 (planAlarmAck s a1 ws a3).state ↔ sameExcept ps s0 s :=
  sameExcept_through (planAlarmAck_frame s a1 ws a3) hps s0
@[simp ↓] theorem planAlarmAck_canonical (s : State) (a1 : Nat) (ws : List Word) (a3 : Bool) : canonical (planAlarmAck s a1 ws a3).state ↔ canonical s :=
  canonical_same (planAlarmAck_frame s a1 ws a3) (by decide)
@[simp ↓] theorem planAlarmAck_below (L : Nat) (s0 : State) (s : State) (a1 : Nat) (ws : List Word) (a3 : Bool) :
    belowKept L s0 (planAlarmAck s a1 ws a3).state ↔ belowKept L s0 s :=
  belowKept_iff (belowKept_same (planAlarmAck_frame s a1 ws a3) (by decide)) s0

theorem planDomainSet_frame (s : State) (a1 : Nat) (ws : List Word) (rerun : Bool) :
    sameExcept [] s (planDomainSet s a1 ws rerun).state := by
  unfold planDomainSet
  dsimp only
  (repeat' split) <;> simp (disch := decide)
@[simp ↓] theorem planDomainSet_through (ps : List Piece) (hps : ([] : List Piece).all (ps.contains ·) = true) (s0 : State)
    (s : State) (a1 : Nat) (ws : List Word) (rerun : Bool) :
    sameExcept ps s0 (planDomainSet s a1 ws rerun).state ↔ sameExcept ps s0 s :=
  sameExcept_through (planDomainSet_frame s a1 ws rerun) hps s0
@[simp ↓] theorem planDomainSet_canonical (s : State) (a1 : Nat) (ws : List Word) (rerun : Bool) : canonical (planDomainSet s a1 ws rerun).state ↔ canonical s :=
  canonical_same (planDomainSet_frame s a1 ws rerun) (by decide)
@[simp ↓] theorem planDomainSet_below (L : Nat) (s0 : State) (s : State) (a1 : Nat) (ws : List Word) (rerun : Bool) :
    belowKept L s0 (planDomainSet s a1 ws rerun).state ↔ belowKept L s0 s :=
  belowKept_iff (belowKept_same (planDomainSet_frame s a1 ws rerun) (by decide)) s0

theorem planHold_frame (s : State) (a1 : Nat) (ws : List Word) (a3 : Bool) :
    sameExcept [] s (planHold s a1 ws a3).state := by
  unfold planHold
  simp (disch := decide)
@[simp ↓] theorem planHold_through (ps : List Piece) (hps : ([] : List Piece).all (ps.contains ·) = true) (s0 : State)
    (s : State) (a1 : Nat) (ws : List Word) (a3 : Bool) :
    sameExcept ps s0 (planHold s a1 ws a3).state ↔ sameExcept ps s0 s :=
  sameExcept_through (planHold_frame s a1 ws a3) hps s0
@[simp ↓] theorem planHold_canonical (s : State) (a1 : Nat) (ws : List Word) (a3 : Bool) : canonical (planHold s a1 ws a3).state ↔ canonical s :=
  canonical_same (planHold_frame s a1 ws a3) (by decide)
@[simp ↓] theorem planHold_below (L : Nat) (s0 : State) (s : State) (a1 : Nat) (ws : List Word) (a3 : Bool) :
    belowKept L s0 (planHold s a1 ws a3).state ↔ belowKept L s0 s :=
  belowKept_iff (belowKept_same (planHold_frame s a1 ws a3) (by decide)) s0

theorem logRead_frame (s : State) (m : Nat) :
    sameExcept [.regs, .mb] s (logRead s m) := by
  unfold logRead
  simp (disch := decide)
@[simp ↓] theorem logRead_through (ps : List Piece) (hps : ([.regs, .mb] : List Piece).all (ps.contains ·) = true) (s0 : State)
    (s : State) (m : Nat) :
    sameExcept ps s0 (logRead s m) ↔ sameExcept ps s0 s :=
  sameExcept_through (logRead_frame s m) hps s0
@[simp ↓] theorem logRead_canonical (s : State) (m : Nat) (h : canonical s) : canonical (logRead s m) := by
  unfold logRead
  simp (maxDischargeDepth := 60) (contextual := true) [h]

theorem planBind_frame (s : State) (m : Nat) (ws : List Word) (rerun : Bool) :
    sameExcept [] s (planBind s m ws rerun).state := by
  unfold planBind
  dsimp only
  (repeat' split) <;> simp (disch := decide)
@[simp ↓] theorem planBind_through (ps : List Piece) (hps : ([] : List Piece).all (ps.contains ·) = true) (s0 : State)
    (s : State) (m : Nat) (ws : List Word) (rerun : Bool) :
    sameExcept ps s0 (planBind s m ws rerun).state ↔ sameExcept ps s0 s :=
  sameExcept_through (planBind_frame s m ws rerun) hps s0
@[simp ↓] theorem planBind_canonical (s : State) (m : Nat) (ws : List Word) (rerun : Bool) : canonical (planBind s m ws rerun).state ↔ canonical s :=
  canonical_same (planBind_frame s m ws rerun) (by decide)
@[simp ↓] theorem planBind_below (L : Nat) (s0 : State) (s : State) (m : Nat) (ws : List Word) (rerun : Bool) :
    belowKept L s0 (planBind s m ws rerun).state ↔ belowKept L s0 s :=
  belowKept_iff (belowKept_same (planBind_frame s m ws rerun) (by decide)) s0

theorem planParam_frame (s : State) (a1 : Nat) (ws : List Word) (rerun : Bool) :
    sameExcept [] s (planParam s a1 ws rerun).state := by
  unfold planParam
  dsimp only
  (repeat' split) <;> simp (disch := decide)
@[simp ↓] theorem planParam_through (ps : List Piece) (hps : ([] : List Piece).all (ps.contains ·) = true) (s0 : State)
    (s : State) (a1 : Nat) (ws : List Word) (rerun : Bool) :
    sameExcept ps s0 (planParam s a1 ws rerun).state ↔ sameExcept ps s0 s :=
  sameExcept_through (planParam_frame s a1 ws rerun) hps s0
@[simp ↓] theorem planParam_canonical (s : State) (a1 : Nat) (ws : List Word) (rerun : Bool) : canonical (planParam s a1 ws rerun).state ↔ canonical s :=
  canonical_same (planParam_frame s a1 ws rerun) (by decide)
@[simp ↓] theorem planParam_below (L : Nat) (s0 : State) (s : State) (a1 : Nat) (ws : List Word) (rerun : Bool) :
    belowKept L s0 (planParam s a1 ws rerun).state ↔ belowKept L s0 s :=
  belowKept_iff (belowKept_same (planParam_frame s a1 ws rerun) (by decide)) s0

theorem planProbeArm_frame (s : State) (a1 : Nat) (ws : List Word) (rerun : Bool) :
    sameExcept [] s (planProbeArm s a1 ws rerun).state := by
  unfold planProbeArm
  dsimp only
  (repeat' split) <;> simp (disch := decide)
@[simp ↓] theorem planProbeArm_through (ps : List Piece) (hps : ([] : List Piece).all (ps.contains ·) = true) (s0 : State)
    (s : State) (a1 : Nat) (ws : List Word) (rerun : Bool) :
    sameExcept ps s0 (planProbeArm s a1 ws rerun).state ↔ sameExcept ps s0 s :=
  sameExcept_through (planProbeArm_frame s a1 ws rerun) hps s0
@[simp ↓] theorem planProbeArm_canonical (s : State) (a1 : Nat) (ws : List Word) (rerun : Bool) : canonical (planProbeArm s a1 ws rerun).state ↔ canonical s :=
  canonical_same (planProbeArm_frame s a1 ws rerun) (by decide)
@[simp ↓] theorem planProbeArm_below (L : Nat) (s0 : State) (s : State) (a1 : Nat) (ws : List Word) (rerun : Bool) :
    belowKept L s0 (planProbeArm s a1 ws rerun).state ↔ belowKept L s0 s :=
  belowKept_iff (belowKept_same (planProbeArm_frame s a1 ws rerun) (by decide)) s0

theorem planProbeDisarm_frame (s : State) (a1 : Nat) (ws : List Word) (rerun : Bool) :
    sameExcept [] s (planProbeDisarm s a1 ws rerun).state := by
  unfold planProbeDisarm
  dsimp only
  (repeat' split) <;> simp (disch := decide)
@[simp ↓] theorem planProbeDisarm_through (ps : List Piece) (hps : ([] : List Piece).all (ps.contains ·) = true) (s0 : State)
    (s : State) (a1 : Nat) (ws : List Word) (rerun : Bool) :
    sameExcept ps s0 (planProbeDisarm s a1 ws rerun).state ↔ sameExcept ps s0 s :=
  sameExcept_through (planProbeDisarm_frame s a1 ws rerun) hps s0
@[simp ↓] theorem planProbeDisarm_canonical (s : State) (a1 : Nat) (ws : List Word) (rerun : Bool) : canonical (planProbeDisarm s a1 ws rerun).state ↔ canonical s :=
  canonical_same (planProbeDisarm_frame s a1 ws rerun) (by decide)
@[simp ↓] theorem planProbeDisarm_below (L : Nat) (s0 : State) (s : State) (a1 : Nat) (ws : List Word) (rerun : Bool) :
    belowKept L s0 (planProbeDisarm s a1 ws rerun).state ↔ belowKept L s0 s :=
  belowKept_iff (belowKept_same (planProbeDisarm_frame s a1 ws rerun) (by decide)) s0

theorem queryState_frame (s : State) (m : Nat) :
    sameExcept [.regs, .mb] s (queryState s m) := by
  unfold queryState
  simp (disch := decide)
@[simp ↓] theorem queryState_through (ps : List Piece) (hps : ([.regs, .mb] : List Piece).all (ps.contains ·) = true) (s0 : State)
    (s : State) (m : Nat) :
    sameExcept ps s0 (queryState s m) ↔ sameExcept ps s0 s :=
  sameExcept_through (queryState_frame s m) hps s0
@[simp ↓] theorem queryState_canonical (s : State) (m : Nat) (h : canonical s) : canonical (queryState s m) := by
  unfold queryState
  simp (maxDischargeDepth := 60) (contextual := true) [h]

theorem planWeir_frame (s : State) (a1 : Nat) (ws : List Word) (a3 : Bool) :
    sameExcept [] s (planWeir s a1 ws a3).state := by
  unfold planWeir
  simp (disch := decide)
@[simp ↓] theorem planWeir_through (ps : List Piece) (hps : ([] : List Piece).all (ps.contains ·) = true) (s0 : State)
    (s : State) (a1 : Nat) (ws : List Word) (a3 : Bool) :
    sameExcept ps s0 (planWeir s a1 ws a3).state ↔ sameExcept ps s0 s :=
  sameExcept_through (planWeir_frame s a1 ws a3) hps s0
@[simp ↓] theorem planWeir_canonical (s : State) (a1 : Nat) (ws : List Word) (a3 : Bool) : canonical (planWeir s a1 ws a3).state ↔ canonical s :=
  canonical_same (planWeir_frame s a1 ws a3) (by decide)
@[simp ↓] theorem planWeir_below (L : Nat) (s0 : State) (s : State) (a1 : Nat) (ws : List Word) (a3 : Bool) :
    belowKept L s0 (planWeir s a1 ws a3).state ↔ belowKept L s0 s :=
  belowKept_iff (belowKept_same (planWeir_frame s a1 ws a3) (by decide)) s0

end Sys2Proof.Machine
end

