-- ==== Sys2Proof/Laws/FrameRiderChannels.lean ====
section
/-! SUPPORT. What each operation of `Machine/RiderChannels.lean` can change, in the pieces of `Safety.lean`: `<operation>_frame` says it once,
`<operation>_through` carries it past the operation, `<operation>_canonical` says that it keeps the canonical form, and
`<operation>_low`, `<operation>_below` that it keeps the registers below the blocks it works on. -/

open Sys2Proof

namespace Sys2Proof.Machine

set_option linter.unusedSimpArgs false
set_option linter.unusedVariables false

theorem planClose_frame (s : State) (a1 : Nat) (ws : List Word) (rerun : Bool) :
    sameExcept [] s (planClose s a1 ws rerun).state := by
  unfold planClose
  (repeat' split) <;> simp (disch := decide)
@[simp ↓] theorem planClose_through (ps : List Piece) (hps : ([] : List Piece).all (ps.contains ·) = true) (s0 : State)
    (s : State) (a1 : Nat) (ws : List Word) (rerun : Bool) :
    sameExcept ps s0 (planClose s a1 ws rerun).state ↔ sameExcept ps s0 s :=
  sameExcept_through (planClose_frame s a1 ws rerun) hps s0
@[simp ↓] theorem planClose_canonical (s : State) (a1 : Nat) (ws : List Word) (rerun : Bool) : canonical (planClose s a1 ws rerun).state ↔ canonical s :=
  canonical_same (planClose_frame s a1 ws rerun) (by decide)
@[simp ↓] theorem planClose_below (L : Nat) (s0 : State) (s : State) (a1 : Nat) (ws : List Word) (rerun : Bool) :
    belowKept L s0 (planClose s a1 ws rerun).state ↔ belowKept L s0 s :=
  belowKept_iff (belowKept_same (planClose_frame s a1 ws rerun) (by decide)) s0

theorem planOpen_frame (s : State) (a1 : Nat) (ws : List Word) (rerun : Bool) :
    sameExcept [.rd, .freeCtr] s (planOpen s a1 ws rerun).state := by
  unfold planOpen
  extract_lets rate c held c2 src s0
  have h0 : sameExcept [.rd, .freeCtr] s s0 := by simp (disch := decide) [s0]
  clear_value s0 rate c held c2
  split
  · simp
  · split
    · simp
    · split
      · simp
      · split
        · simp
        · split
          · simp
          · split
            · simp
            · dsimp only
              split
              · split
                · simp
                · simp (disch := decide) [h0]
              · simp
@[simp ↓] theorem planOpen_through (ps : List Piece) (hps : ([.rd, .freeCtr] : List Piece).all (ps.contains ·) = true) (s0 : State)
    (s : State) (a1 : Nat) (ws : List Word) (rerun : Bool) :
    sameExcept ps s0 (planOpen s a1 ws rerun).state ↔ sameExcept ps s0 s :=
  sameExcept_through (planOpen_frame s a1 ws rerun) hps s0
@[simp ↓] theorem planOpen_canonical (s : State) (a1 : Nat) (ws : List Word) (rerun : Bool) : canonical (planOpen s a1 ws rerun).state ↔ canonical s :=
  canonical_same (planOpen_frame s a1 ws rerun) (by decide)
@[simp ↓] theorem planOpen_below (L : Nat) (s0 : State) (s : State) (a1 : Nat) (ws : List Word) (rerun : Bool) :
    belowKept L s0 (planOpen s a1 ws rerun).state ↔ belowKept L s0 s :=
  belowKept_iff (belowKept_same (planOpen_frame s a1 ws rerun) (by decide)) s0

theorem planPaceline_frame (s : State) (a1 : Nat) (ws : List Word) (rerun : Bool) :
    sameExcept [] s (planPaceline s a1 ws rerun).state := by
  unfold planPaceline
  dsimp only
  (repeat' split) <;> simp (disch := decide)
@[simp ↓] theorem planPaceline_through (ps : List Piece) (hps : ([] : List Piece).all (ps.contains ·) = true) (s0 : State)
    (s : State) (a1 : Nat) (ws : List Word) (rerun : Bool) :
    sameExcept ps s0 (planPaceline s a1 ws rerun).state ↔ sameExcept ps s0 s :=
  sameExcept_through (planPaceline_frame s a1 ws rerun) hps s0
@[simp ↓] theorem planPaceline_canonical (s : State) (a1 : Nat) (ws : List Word) (rerun : Bool) : canonical (planPaceline s a1 ws rerun).state ↔ canonical s :=
  canonical_same (planPaceline_frame s a1 ws rerun) (by decide)
@[simp ↓] theorem planPaceline_below (L : Nat) (s0 : State) (s : State) (a1 : Nat) (ws : List Word) (rerun : Bool) :
    belowKept L s0 (planPaceline s a1 ws rerun).state ↔ belowKept L s0 s :=
  belowKept_iff (belowKept_same (planPaceline_frame s a1 ws rerun) (by decide)) s0

end Sys2Proof.Machine
end

