-- ==== Sys2Proof/Laws/FrameRiderSettings.lean ====
section
/-! SUPPORT. What each operation of `Machine/RiderSettings.lean` can change, in the pieces of `Safety.lean`: `<operation>_frame` says it once,
`<operation>_through` carries it past the operation, `<operation>_canonical` says that it keeps the canonical form, and
`<operation>_low`, `<operation>_below` that it keeps the registers below the blocks it works on. -/

open Sys2Proof

namespace Sys2Proof.Machine

set_option linter.unusedSimpArgs false
set_option linter.unusedVariables false

theorem settleOwed_frame (s : State) (n : Nat) (t : Nat) :
    sameExcept [.rd] s (settleOwed s n t).2 := by
  unfold settleOwed
  simp (disch := decide)
@[simp ↓] theorem settleOwed_through (ps : List Piece) (hps : ([.rd] : List Piece).all (ps.contains ·) = true) (s0 : State)
    (s : State) (n : Nat) (t : Nat) :
    sameExcept ps s0 (settleOwed s n t).2 ↔ sameExcept ps s0 s :=
  sameExcept_through (settleOwed_frame s n t) hps s0
@[simp ↓] theorem settleOwed_canonical (s : State) (n : Nat) (t : Nat) : canonical (settleOwed s n t).2 ↔ canonical s :=
  canonical_same (settleOwed_frame s n t) (by decide)
@[simp ↓] theorem settleOwed_below (L : Nat) (s0 : State) (s : State) (n : Nat) (t : Nat) :
    belowKept L s0 (settleOwed s n t).2 ↔ belowKept L s0 s :=
  belowKept_iff (belowKept_same (settleOwed_frame s n t) (by decide)) s0

theorem planAllot_frame (s : State) (a1 : Nat) (ws : List Word) (a3 : Bool) :
    sameExcept [.rd] s (planAllot s a1 ws a3).state := by
  unfold planAllot
  dsimp only
  (repeat' split) <;> simp (disch := decide)
@[simp ↓] theorem planAllot_through (ps : List Piece) (hps : ([.rd] : List Piece).all (ps.contains ·) = true) (s0 : State)
    (s : State) (a1 : Nat) (ws : List Word) (a3 : Bool) :
    sameExcept ps s0 (planAllot s a1 ws a3).state ↔ sameExcept ps s0 s :=
  sameExcept_through (planAllot_frame s a1 ws a3) hps s0
@[simp ↓] theorem planAllot_canonical (s : State) (a1 : Nat) (ws : List Word) (a3 : Bool) : canonical (planAllot s a1 ws a3).state ↔ canonical s :=
  canonical_same (planAllot_frame s a1 ws a3) (by decide)
@[simp ↓] theorem planAllot_below (L : Nat) (s0 : State) (s : State) (a1 : Nat) (ws : List Word) (a3 : Bool) :
    belowKept L s0 (planAllot s a1 ws a3).state ↔ belowKept L s0 s :=
  belowKept_iff (belowKept_same (planAllot_frame s a1 ws a3) (by decide)) s0

theorem planDecode_frame (s : State) (a1 : Nat) (ws : List Word) (a3 : Bool) :
    sameExcept [] s (planDecode s a1 ws a3).state := by
  unfold planDecode
  dsimp only
  (repeat' split) <;> simp (disch := decide)
@[simp ↓] theorem planDecode_through (ps : List Piece) (hps : ([] : List Piece).all (ps.contains ·) = true) (s0 : State)
    (s : State) (a1 : Nat) (ws : List Word) (a3 : Bool) :
    sameExcept ps s0 (planDecode s a1 ws a3).state ↔ sameExcept ps s0 s :=
  sameExcept_through (planDecode_frame s a1 ws a3) hps s0
@[simp ↓] theorem planDecode_canonical (s : State) (a1 : Nat) (ws : List Word) (a3 : Bool) : canonical (planDecode s a1 ws a3).state ↔ canonical s :=
  canonical_same (planDecode_frame s a1 ws a3) (by decide)
@[simp ↓] theorem planDecode_below (L : Nat) (s0 : State) (s : State) (a1 : Nat) (ws : List Word) (a3 : Bool) :
    belowKept L s0 (planDecode s a1 ws a3).state ↔ belowKept L s0 s :=
  belowKept_iff (belowKept_same (planDecode_frame s a1 ws a3) (by decide)) s0

theorem planRegion_frame (s : State) (m : Nat) (ws : List Word) (rerun : Bool) :
    sameExcept [] s (planRegion s m ws rerun).state := by
  unfold planRegion
  dsimp only
  (repeat' split) <;> simp (disch := decide)
@[simp ↓] theorem planRegion_through (ps : List Piece) (hps : ([] : List Piece).all (ps.contains ·) = true) (s0 : State)
    (s : State) (m : Nat) (ws : List Word) (rerun : Bool) :
    sameExcept ps s0 (planRegion s m ws rerun).state ↔ sameExcept ps s0 s :=
  sameExcept_through (planRegion_frame s m ws rerun) hps s0
@[simp ↓] theorem planRegion_canonical (s : State) (m : Nat) (ws : List Word) (rerun : Bool) : canonical (planRegion s m ws rerun).state ↔ canonical s :=
  canonical_same (planRegion_frame s m ws rerun) (by decide)
@[simp ↓] theorem planRegion_below (L : Nat) (s0 : State) (s : State) (m : Nat) (ws : List Word) (rerun : Bool) :
    belowKept L s0 (planRegion s m ws rerun).state ↔ belowKept L s0 s :=
  belowKept_iff (belowKept_same (planRegion_frame s m ws rerun) (by decide)) s0

end Sys2Proof.Machine
end

