-- ==== Sys2Proof/Laws/FrameRiderUnits.lean ====
section
/-! SUPPORT. What each operation of `Machine/RiderUnits.lean` can change, in the pieces of `Safety.lean`: `<operation>_frame` says it once,
`<operation>_through` carries it past the operation, `<operation>_canonical` says that it keeps the canonical form, and
`<operation>_low`, `<operation>_below` that it keeps the registers below the blocks it works on. -/

open Sys2Proof

namespace Sys2Proof.Machine

set_option linter.unusedSimpArgs false
set_option linter.unusedVariables false

theorem planSleep_frame (s : State) (a1 : Nat) (ws : List Word) (rerun : Bool) :
    sameExcept [] s (planSleep s a1 ws rerun).state := by
  unfold planSleep
  dsimp only
  (repeat' split) <;> simp (disch := decide)
@[simp ↓] theorem planSleep_through (ps : List Piece) (hps : ([] : List Piece).all (ps.contains ·) = true) (s0 : State)
    (s : State) (a1 : Nat) (ws : List Word) (rerun : Bool) :
    sameExcept ps s0 (planSleep s a1 ws rerun).state ↔ sameExcept ps s0 s :=
  sameExcept_through (planSleep_frame s a1 ws rerun) hps s0
@[simp ↓] theorem planSleep_canonical (s : State) (a1 : Nat) (ws : List Word) (rerun : Bool) : canonical (planSleep s a1 ws rerun).state ↔ canonical s :=
  canonical_same (planSleep_frame s a1 ws rerun) (by decide)
@[simp ↓] theorem planSleep_below (L : Nat) (s0 : State) (s : State) (a1 : Nat) (ws : List Word) (rerun : Bool) :
    belowKept L s0 (planSleep s a1 ws rerun).state ↔ belowKept L s0 s :=
  belowKept_iff (belowKept_same (planSleep_frame s a1 ws rerun) (by decide)) s0

theorem planWake_frame (s : State) (a1 : Nat) (ws : List Word) (rerun : Bool) :
    sameExcept [] s (planWake s a1 ws rerun).state := by
  unfold planWake
  dsimp only
  (repeat' split) <;> simp (disch := decide)
@[simp ↓] theorem planWake_through (ps : List Piece) (hps : ([] : List Piece).all (ps.contains ·) = true) (s0 : State)
    (s : State) (a1 : Nat) (ws : List Word) (rerun : Bool) :
    sameExcept ps s0 (planWake s a1 ws rerun).state ↔ sameExcept ps s0 s :=
  sameExcept_through (planWake_frame s a1 ws rerun) hps s0
@[simp ↓] theorem planWake_canonical (s : State) (a1 : Nat) (ws : List Word) (rerun : Bool) : canonical (planWake s a1 ws rerun).state ↔ canonical s :=
  canonical_same (planWake_frame s a1 ws rerun) (by decide)
@[simp ↓] theorem planWake_below (L : Nat) (s0 : State) (s : State) (a1 : Nat) (ws : List Word) (rerun : Bool) :
    belowKept L s0 (planWake s a1 ws rerun).state ↔ belowKept L s0 s :=
  belowKept_iff (belowKept_same (planWake_frame s a1 ws rerun) (by decide)) s0

theorem planImage_frame (s : State) (a1 : Nat) (ws : List Word) (a3 : Bool) :
    sameExcept [] s (planImage s a1 ws a3).state := by
  unfold planImage
  simp (disch := decide)
@[simp ↓] theorem planImage_through (ps : List Piece) (hps : ([] : List Piece).all (ps.contains ·) = true) (s0 : State)
    (s : State) (a1 : Nat) (ws : List Word) (a3 : Bool) :
    sameExcept ps s0 (planImage s a1 ws a3).state ↔ sameExcept ps s0 s :=
  sameExcept_through (planImage_frame s a1 ws a3) hps s0
@[simp ↓] theorem planImage_canonical (s : State) (a1 : Nat) (ws : List Word) (a3 : Bool) : canonical (planImage s a1 ws a3).state ↔ canonical s :=
  canonical_same (planImage_frame s a1 ws a3) (by decide)
@[simp ↓] theorem planImage_below (L : Nat) (s0 : State) (s : State) (a1 : Nat) (ws : List Word) (a3 : Bool) :
    belowKept L s0 (planImage s a1 ws a3).state ↔ belowKept L s0 s :=
  belowKept_iff (belowKept_same (planImage_frame s a1 ws a3) (by decide)) s0

theorem planLeveeClear_frame (s : State) (a1 : Nat) (ws : List Word) (rerun : Bool) :
    sameExcept [] s (planLeveeClear s a1 ws rerun).state := by
  unfold planLeveeClear
  dsimp only
  (repeat' split) <;> simp (disch := decide)
@[simp ↓] theorem planLeveeClear_through (ps : List Piece) (hps : ([] : List Piece).all (ps.contains ·) = true) (s0 : State)
    (s : State) (a1 : Nat) (ws : List Word) (rerun : Bool) :
    sameExcept ps s0 (planLeveeClear s a1 ws rerun).state ↔ sameExcept ps s0 s :=
  sameExcept_through (planLeveeClear_frame s a1 ws rerun) hps s0
@[simp ↓] theorem planLeveeClear_canonical (s : State) (a1 : Nat) (ws : List Word) (rerun : Bool) : canonical (planLeveeClear s a1 ws rerun).state ↔ canonical s :=
  canonical_same (planLeveeClear_frame s a1 ws rerun) (by decide)
@[simp ↓] theorem planLeveeClear_below (L : Nat) (s0 : State) (s : State) (a1 : Nat) (ws : List Word) (rerun : Bool) :
    belowKept L s0 (planLeveeClear s a1 ws rerun).state ↔ belowKept L s0 s :=
  belowKept_iff (belowKept_same (planLeveeClear_frame s a1 ws rerun) (by decide)) s0

theorem planLeveeSet_frame (s : State) (a1 : Nat) (ws : List Word) (rerun : Bool) :
    sameExcept [] s (planLeveeSet s a1 ws rerun).state := by
  unfold planLeveeSet
  dsimp only
  (repeat' split) <;> simp (disch := decide)
@[simp ↓] theorem planLeveeSet_through (ps : List Piece) (hps : ([] : List Piece).all (ps.contains ·) = true) (s0 : State)
    (s : State) (a1 : Nat) (ws : List Word) (rerun : Bool) :
    sameExcept ps s0 (planLeveeSet s a1 ws rerun).state ↔ sameExcept ps s0 s :=
  sameExcept_through (planLeveeSet_frame s a1 ws rerun) hps s0
@[simp ↓] theorem planLeveeSet_canonical (s : State) (a1 : Nat) (ws : List Word) (rerun : Bool) : canonical (planLeveeSet s a1 ws rerun).state ↔ canonical s :=
  canonical_same (planLeveeSet_frame s a1 ws rerun) (by decide)
@[simp ↓] theorem planLeveeSet_below (L : Nat) (s0 : State) (s : State) (a1 : Nat) (ws : List Word) (rerun : Bool) :
    belowKept L s0 (planLeveeSet s a1 ws rerun).state ↔ belowKept L s0 s :=
  belowKept_iff (belowKept_same (planLeveeSet_frame s a1 ws rerun) (by decide)) s0

theorem planRetire_frame (s : State) (m : Nat) (ws : List Word) (rerun : Bool) :
    sameExcept [] s (planRetire s m ws rerun).state := by
  unfold planRetire
  (repeat' split) <;> simp (disch := decide)
@[simp ↓] theorem planRetire_through (ps : List Piece) (hps : ([] : List Piece).all (ps.contains ·) = true) (s0 : State)
    (s : State) (m : Nat) (ws : List Word) (rerun : Bool) :
    sameExcept ps s0 (planRetire s m ws rerun).state ↔ sameExcept ps s0 s :=
  sameExcept_through (planRetire_frame s m ws rerun) hps s0
@[simp ↓] theorem planRetire_canonical (s : State) (m : Nat) (ws : List Word) (rerun : Bool) : canonical (planRetire s m ws rerun).state ↔ canonical s :=
  canonical_same (planRetire_frame s m ws rerun) (by decide)
@[simp ↓] theorem planRetire_below (L : Nat) (s0 : State) (s : State) (m : Nat) (ws : List Word) (rerun : Bool) :
    belowKept L s0 (planRetire s m ws rerun).state ↔ belowKept L s0 s :=
  belowKept_iff (belowKept_same (planRetire_frame s m ws rerun) (by decide)) s0

theorem planSeal_frame (s : State) (a1 : Nat) (ws : List Word) (rerun : Bool) :
    sameExcept [] s (planSeal s a1 ws rerun).state := by
  unfold planSeal
  dsimp only
  (repeat' split) <;> simp (disch := decide)
@[simp ↓] theorem planSeal_through (ps : List Piece) (hps : ([] : List Piece).all (ps.contains ·) = true) (s0 : State)
    (s : State) (a1 : Nat) (ws : List Word) (rerun : Bool) :
    sameExcept ps s0 (planSeal s a1 ws rerun).state ↔ sameExcept ps s0 s :=
  sameExcept_through (planSeal_frame s a1 ws rerun) hps s0
@[simp ↓] theorem planSeal_canonical (s : State) (a1 : Nat) (ws : List Word) (rerun : Bool) : canonical (planSeal s a1 ws rerun).state ↔ canonical s :=
  canonical_same (planSeal_frame s a1 ws rerun) (by decide)
@[simp ↓] theorem planSeal_below (L : Nat) (s0 : State) (s : State) (a1 : Nat) (ws : List Word) (rerun : Bool) :
    belowKept L s0 (planSeal s a1 ws rerun).state ↔ belowKept L s0 s :=
  belowKept_iff (belowKept_same (planSeal_frame s a1 ws rerun) (by decide)) s0

end Sys2Proof.Machine
end

