-- ==== Sys2Proof/Laws/FrameRiderRoutes.lean ====
section
/-! SUPPORT. What each operation of `Machine/RiderRoutes.lean` can change, in the pieces of `Safety.lean`: `<operation>_frame` says it once,
`<operation>_through` carries it past the operation, `<operation>_canonical` says that it keeps the canonical form, and
`<operation>_low`, `<operation>_below` that it keeps the registers below the blocks it works on. -/

open Sys2Proof

namespace Sys2Proof.Machine

set_option linter.unusedSimpArgs false
set_option linter.unusedVariables false

theorem avoiding_frame (s : State) (key : Nat) :
    sameExcept [.regs, .rd] s (avoiding s key) := by
  unfold avoiding
  dsimp only
  rw [sameExcept_forEach]
  · simp (disch := decide)
  · intro t x
    rw [sameExcept_forEach]
    · simp (disch := decide)
    · intro t x; simp (disch := decide)
@[simp ↓] theorem avoiding_through (ps : List Piece) (hps : ([.regs, .rd] : List Piece).all (ps.contains ·) = true) (s0 : State)
    (s : State) (key : Nat) :
    sameExcept ps s0 (avoiding s key) ↔ sameExcept ps s0 s :=
  sameExcept_through (avoiding_frame s key) hps s0
@[simp ↓] theorem avoiding_canonical (s : State) (key : Nat) (h : canonical s) : canonical (avoiding s key) := by
  unfold avoiding
  simp (maxDischargeDepth := 60) (contextual := true) [h]
theorem avoiding_low (s : State) (key : Nat) :
    belowKept 0x200000 s (avoiding s key) := by
  unfold avoiding
  simp (maxDischargeDepth := 60) [belowKept_foldl, belowKept_foldl1, belowKept_foldl2, belowKept_forEach, belowKept_forRange]
@[simp ↓] theorem avoiding_below (L : Nat) (hL : L ≤ 0x200000) (s0 : State) (s : State) (key : Nat) :
    belowKept L s0 (avoiding s key) ↔ belowKept L s0 s :=
  belowKept_iff (belowKept_mono (avoiding_low s key) hL) s0

theorem planMove_frame (s : State) (a1 : Nat) (ws : List Word) (rerun : Bool) :
    sameExcept [] s (planMove s a1 ws rerun).state := by
  unfold planMove
  dsimp only
  (repeat' split) <;> simp (disch := decide)
@[simp ↓] theorem planMove_through (ps : List Piece) (hps : ([] : List Piece).all (ps.contains ·) = true) (s0 : State)
    (s : State) (a1 : Nat) (ws : List Word) (rerun : Bool) :
    sameExcept ps s0 (planMove s a1 ws rerun).state ↔ sameExcept ps s0 s :=
  sameExcept_through (planMove_frame s a1 ws rerun) hps s0
@[simp ↓] theorem planMove_canonical (s : State) (a1 : Nat) (ws : List Word) (rerun : Bool) : canonical (planMove s a1 ws rerun).state ↔ canonical s :=
  canonical_same (planMove_frame s a1 ws rerun) (by decide)
@[simp ↓] theorem planMove_below (L : Nat) (s0 : State) (s : State) (a1 : Nat) (ws : List Word) (rerun : Bool) :
    belowKept L s0 (planMove s a1 ws rerun).state ↔ belowKept L s0 s :=
  belowKept_iff (belowKept_same (planMove_frame s a1 ws rerun) (by decide)) s0

theorem planDetour_frame (s : State) (a1 : Nat) (ws : List Word) (a3 : Bool) :
    sameExcept [.regs, .rd] s (planDetour s a1 ws a3).state := by
  unfold planDetour
  dsimp only
  (repeat' split) <;> simp (disch := decide)
@[simp ↓] theorem planDetour_through (ps : List Piece) (hps : ([.regs, .rd] : List Piece).all (ps.contains ·) = true) (s0 : State)
    (s : State) (a1 : Nat) (ws : List Word) (a3 : Bool) :
    sameExcept ps s0 (planDetour s a1 ws a3).state ↔ sameExcept ps s0 s :=
  sameExcept_through (planDetour_frame s a1 ws a3) hps s0
@[simp ↓] theorem planDetour_canonical (s : State) (a1 : Nat) (ws : List Word) (a3 : Bool) (h : canonical s) : canonical (planDetour s a1 ws a3).state := by
  unfold planDetour
  dsimp only
  (repeat' split) <;> simp (maxDischargeDepth := 60) (contextual := true) [h]
theorem planDetour_low (s : State) (a1 : Nat) (ws : List Word) (a3 : Bool) :
    belowKept 0x200000 s (planDetour s a1 ws a3).state := by
  unfold planDetour
  dsimp only
  (repeat' split) <;> simp (maxDischargeDepth := 60)
@[simp ↓] theorem planDetour_below (L : Nat) (hL : L ≤ 0x200000) (s0 : State) (s : State) (a1 : Nat) (ws : List Word) (a3 : Bool) :
    belowKept L s0 (planDetour s a1 ws a3).state ↔ belowKept L s0 s :=
  belowKept_iff (belowKept_mono (planDetour_low s a1 ws a3) hL) s0

theorem planRouter_frame (s : State) (a1 : Nat) (ws : List Word) (a3 : Bool) :
    sameExcept [.regs, .rd] s (planRouter s a1 ws a3).state := by
  unfold planRouter
  dsimp only
  (repeat' split) <;> simp (disch := decide)
@[simp ↓] theorem planRouter_through (ps : List Piece) (hps : ([.regs, .rd] : List Piece).all (ps.contains ·) = true) (s0 : State)
    (s : State) (a1 : Nat) (ws : List Word) (a3 : Bool) :
    sameExcept ps s0 (planRouter s a1 ws a3).state ↔ sameExcept ps s0 s :=
  sameExcept_through (planRouter_frame s a1 ws a3) hps s0
@[simp ↓] theorem planRouter_canonical (s : State) (a1 : Nat) (ws : List Word) (a3 : Bool) (h : canonical s) : canonical (planRouter s a1 ws a3).state := by
  unfold planRouter
  dsimp only
  (repeat' split) <;> simp (maxDischargeDepth := 60) (contextual := true) [h]
theorem planRouter_low (s : State) (a1 : Nat) (ws : List Word) (a3 : Bool) :
    belowKept 0x200000 s (planRouter s a1 ws a3).state := by
  unfold planRouter
  dsimp only
  (repeat' split) <;> simp (maxDischargeDepth := 60)
@[simp ↓] theorem planRouter_below (L : Nat) (hL : L ≤ 0x200000) (s0 : State) (s : State) (a1 : Nat) (ws : List Word) (a3 : Bool) :
    belowKept L s0 (planRouter s a1 ws a3).state ↔ belowKept L s0 s :=
  belowKept_iff (belowKept_mono (planRouter_low s a1 ws a3) hL) s0

theorem planRestore_frame (s : State) (a1 : Nat) (ws : List Word) (a3 : Bool) :
    sameExcept [] s (planRestore s a1 ws a3).state := by
  unfold planRestore
  simp (disch := decide)
@[simp ↓] theorem planRestore_through (ps : List Piece) (hps : ([] : List Piece).all (ps.contains ·) = true) (s0 : State)
    (s : State) (a1 : Nat) (ws : List Word) (a3 : Bool) :
    sameExcept ps s0 (planRestore s a1 ws a3).state ↔ sameExcept ps s0 s :=
  sameExcept_through (planRestore_frame s a1 ws a3) hps s0
@[simp ↓] theorem planRestore_canonical (s : State) (a1 : Nat) (ws : List Word) (a3 : Bool) : canonical (planRestore s a1 ws a3).state ↔ canonical s :=
  canonical_same (planRestore_frame s a1 ws a3) (by decide)
@[simp ↓] theorem planRestore_below (L : Nat) (s0 : State) (s : State) (a1 : Nat) (ws : List Word) (a3 : Bool) :
    belowKept L s0 (planRestore s a1 ws a3).state ↔ belowKept L s0 s :=
  belowKept_iff (belowKept_same (planRestore_frame s a1 ws a3) (by decide)) s0

end Sys2Proof.Machine
end

