-- ==== Sys2Proof/Laws/FrameRiderAlarms.lean ====
section
/-! SUPPORT. What each operation of `Machine/RiderAlarms.lean` can change, in the pieces of `Safety.lean`: `<operation>_frame` says it once,
`<operation>_through` carries it past the operation, `<operation>_canonical` says that it keeps the canonical form, and
`<operation>_low`, `<operation>_below` that it keeps the registers below the blocks it works on. -/

open Sys2Proof

namespace Sys2Proof.Machine

set_option linter.unusedSimpArgs false
set_option linter.unusedVariables false

theorem ackRecord_frame (s : State) (a : AlarmRec) :
    sameExcept [.al, .rd] s (ackRecord s a) := by
  unfold ackRecord
  simp (disch := decide)
@[simp ↓] theorem ackRecord_through (ps : List Piece) (hps : ([.al, .rd] : List Piece).all (ps.contains ·) = true) (s0 : State)
    (s : State) (a : AlarmRec) :
    sameExcept ps s0 (ackRecord s a) ↔ sameExcept ps s0 s :=
  sameExcept_through (ackRecord_frame s a) hps s0
@[simp ↓] theorem ackRecord_canonical (s : State) (a : AlarmRec) : canonical (ackRecord s a) ↔ canonical s :=
  canonical_same (ackRecord_frame s a) (by decide)
@[simp ↓] theorem ackRecord_below (L : Nat) (s0 : State) (s : State) (a : AlarmRec) :
    belowKept L s0 (ackRecord s a) ↔ belowKept L s0 s :=
  belowKept_iff (belowKept_same (ackRecord_frame s a) (by decide)) s0

theorem linkFault_frame (s : State) (a : AlarmRec) :
    sameExcept [.al, .rd] s (linkFault s a) := by
  unfold linkFault
  simp (disch := decide)
@[simp ↓] theorem linkFault_through (ps : List Piece) (hps : ([.al, .rd] : List Piece).all (ps.contains ·) = true) (s0 : State)
    (s : State) (a : AlarmRec) :
    sameExcept ps s0 (linkFault s a) ↔ sameExcept ps s0 s :=
  sameExcept_through (linkFault_frame s a) hps s0
@[simp ↓] theorem linkFault_canonical (s : State) (a : AlarmRec) : canonical (linkFault s a) ↔ canonical s :=
  canonical_same (linkFault_frame s a) (by decide)
@[simp ↓] theorem linkFault_below (L : Nat) (s0 : State) (s : State) (a : AlarmRec) :
    belowKept L s0 (linkFault s a) ↔ belowKept L s0 s :=
  belowKept_iff (belowKept_same (linkFault_frame s a) (by decide)) s0

theorem queueRecovery_frame (s : State) (k : RecKind) :
    sameExcept [.rd] s (queueRecovery s k) := by
  unfold queueRecovery
  simp (disch := decide)
@[simp ↓] theorem queueRecovery_through (ps : List Piece) (hps : ([.rd] : List Piece).all (ps.contains ·) = true) (s0 : State)
    (s : State) (k : RecKind) :
    sameExcept ps s0 (queueRecovery s k) ↔ sameExcept ps s0 s :=
  sameExcept_through (queueRecovery_frame s k) hps s0
@[simp ↓] theorem queueRecovery_canonical (s : State) (k : RecKind) : canonical (queueRecovery s k) ↔ canonical s :=
  canonical_same (queueRecovery_frame s k) (by decide)
@[simp ↓] theorem queueRecovery_below (L : Nat) (s0 : State) (s : State) (k : RecKind) :
    belowKept L s0 (queueRecovery s k) ↔ belowKept L s0 s :=
  belowKept_iff (belowKept_same (queueRecovery_frame s k) (by decide)) s0

theorem stallAlarm_frame (s : State) (a : AlarmRec) :
    sameExcept [.al, .rd] s (stallAlarm s a) := by
  unfold stallAlarm
  simp (disch := decide)
@[simp ↓] theorem stallAlarm_through (ps : List Piece) (hps : ([.al, .rd] : List Piece).all (ps.contains ·) = true) (s0 : State)
    (s : State) (a : AlarmRec) :
    sameExcept ps s0 (stallAlarm s a) ↔ sameExcept ps s0 s :=
  sameExcept_through (stallAlarm_frame s a) hps s0
@[simp ↓] theorem stallAlarm_canonical (s : State) (a : AlarmRec) : canonical (stallAlarm s a) ↔ canonical s :=
  canonical_same (stallAlarm_frame s a) (by decide)
@[simp ↓] theorem stallAlarm_below (L : Nat) (s0 : State) (s : State) (a : AlarmRec) :
    belowKept L s0 (stallAlarm s a) ↔ belowKept L s0 s :=
  belowKept_iff (belowKept_same (stallAlarm_frame s a) (by decide)) s0

theorem answerAlarm_frame (s : State) (a : AlarmRec) :
    sameExcept [.al, .rd] s (answerAlarm s a) := by
  unfold answerAlarm
  (repeat' split) <;> simp (disch := decide)
@[simp ↓] theorem answerAlarm_through (ps : List Piece) (hps : ([.al, .rd] : List Piece).all (ps.contains ·) = true) (s0 : State)
    (s : State) (a : AlarmRec) :
    sameExcept ps s0 (answerAlarm s a) ↔ sameExcept ps s0 s :=
  sameExcept_through (answerAlarm_frame s a) hps s0
@[simp ↓] theorem answerAlarm_canonical (s : State) (a : AlarmRec) : canonical (answerAlarm s a) ↔ canonical s :=
  canonical_same (answerAlarm_frame s a) (by decide)
@[simp ↓] theorem answerAlarm_below (L : Nat) (s0 : State) (s : State) (a : AlarmRec) :
    belowKept L s0 (answerAlarm s a) ↔ belowKept L s0 s :=
  belowKept_iff (belowKept_same (answerAlarm_frame s a) (by decide)) s0

theorem alarmHandling_frame (s : State) :
    sameExcept [.al, .rd] s (alarmHandling s) := by
  unfold alarmHandling
  (repeat' split) <;> simp (disch := decide)
@[simp ↓] theorem alarmHandling_through (ps : List Piece) (hps : ([.al, .rd] : List Piece).all (ps.contains ·) = true) (s0 : State)
    (s : State) :
    sameExcept ps s0 (alarmHandling s) ↔ sameExcept ps s0 s :=
  sameExcept_through (alarmHandling_frame s) hps s0
@[simp ↓] theorem alarmHandling_canonical (s : State) : canonical (alarmHandling s) ↔ canonical s :=
  canonical_same (alarmHandling_frame s) (by decide)
@[simp ↓] theorem alarmHandling_below (L : Nat) (s0 : State) (s : State) :
    belowKept L s0 (alarmHandling s) ↔ belowKept L s0 s :=
  belowKept_iff (belowKept_same (alarmHandling_frame s) (by decide)) s0

theorem windowEnd_frame (s : State) :
    sameExcept [.fclk, .rd] s (windowEnd s) := by
  unfold windowEnd
  (repeat' split) <;> simp (disch := first | decide | (intro _ _; (repeat' split) <;> simp (disch := decide))) [sameExcept_foldl, sameExcept_foldl1, sameExcept_foldl2, sameExcept_forEach, sameExcept_forRange]
@[simp ↓] theorem windowEnd_through (ps : List Piece) (hps : ([.fclk, .rd] : List Piece).all (ps.contains ·) = true) (s0 : State)
    (s : State) :
    sameExcept ps s0 (windowEnd s) ↔ sameExcept ps s0 s :=
  sameExcept_through (windowEnd_frame s) hps s0
@[simp ↓] theorem windowEnd_canonical (s : State) : canonical (windowEnd s) ↔ canonical s :=
  canonical_same (windowEnd_frame s) (by decide)
@[simp ↓] theorem windowEnd_below (L : Nat) (s0 : State) (s : State) :
    belowKept L s0 (windowEnd s) ↔ belowKept L s0 s :=
  belowKept_iff (belowKept_same (windowEnd_frame s) (by decide)) s0

end Sys2Proof.Machine
end

