-- ==== Sys2Proof/Laws/FrameRiderResume.lean ====
section
/-! SUPPORT. What each operation of `Machine/RiderResume.lean` can change, in the pieces of `Safety.lean`: `<operation>_frame` says it once,
`<operation>_through` carries it past the operation, `<operation>_canonical` says that it keeps the canonical form, and
`<operation>_low`, `<operation>_below` that it keeps the registers below the blocks it works on. -/

open Sys2Proof

namespace Sys2Proof.Machine

set_option linter.unusedSimpArgs false
set_option linter.unusedVariables false

theorem abandon_frame (s : State) (m : Nat) (c : Running) :
    sameExcept [.fclk, .regs, .hg, .rt, .hs, .rv, .wires, .credits, .bd, .pr, .al, .rd, .mb, .freeCtr] s (abandon s m c) := by
  unfold abandon
  simp (disch := decide)
@[simp ↓] theorem abandon_through (ps : List Piece) (hps : ([.fclk, .regs, .hg, .rt, .hs, .rv, .wires, .credits, .bd, .pr, .al, .rd, .mb, .freeCtr] : List Piece).all (ps.contains ·) = true) (s0 : State)
    (s : State) (m : Nat) (c : Running) :
    sameExcept ps s0 (abandon s m c) ↔ sameExcept ps s0 s :=
  sameExcept_through (abandon_frame s m c) hps s0
@[simp ↓] theorem abandon_canonical (s : State) (m : Nat) (c : Running) (h : canonical s) : canonical (abandon s m c) := by
  unfold abandon
  simp (maxDischargeDepth := 60) (contextual := true) [h]

theorem driveRecovery_frame (s : State) (r : Recovery) :
    sameExcept [.fclk, .regs, .hg, .rt, .hs, .rv, .wires, .credits, .bd, .pr, .al, .rd, .mb, .freeCtr] s (driveRecovery s r) := by
  unfold driveRecovery
  simp (disch := decide)
@[simp ↓] theorem driveRecovery_through (ps : List Piece) (hps : ([.fclk, .regs, .hg, .rt, .hs, .rv, .wires, .credits, .bd, .pr, .al, .rd, .mb, .freeCtr] : List Piece).all (ps.contains ·) = true) (s0 : State)
    (s : State) (r : Recovery) :
    sameExcept ps s0 (driveRecovery s r) ↔ sameExcept ps s0 s :=
  sameExcept_through (driveRecovery_frame s r) hps s0
@[simp ↓] theorem driveRecovery_canonical (s : State) (r : Recovery) (h : canonical s) : canonical (driveRecovery s r) := by
  unfold driveRecovery
  simp (maxDischargeDepth := 60) (contextual := true) [h]

theorem endSleep_frame (s : State) (m : Nat) (c : Running) (d : Nat) (reason : Nat) :
    sameExcept [.regs, .hg, .pr, .al, .rd, .mb] s (endSleep s m c d reason) := by
  unfold endSleep
  simp (disch := decide)
@[simp ↓] theorem endSleep_through (ps : List Piece) (hps : ([.regs, .hg, .pr, .al, .rd, .mb] : List Piece).all (ps.contains ·) = true) (s0 : State)
    (s : State) (m : Nat) (c : Running) (d : Nat) (reason : Nat) :
    sameExcept ps s0 (endSleep s m c d reason) ↔ sameExcept ps s0 s :=
  sameExcept_through (endSleep_frame s m c d reason) hps s0
@[simp ↓] theorem endSleep_canonical (s : State) (m : Nat) (c : Running) (d : Nat) (reason : Nat) (h : canonical s) : canonical (endSleep s m c d reason) := by
  unfold endSleep
  simp (maxDischargeDepth := 60) (contextual := true) [h]

theorem resumeCommand_frame (s : State) (m : Nat) (c : Running) :
    sameExcept [.fclk, .regs, .hg, .rt, .hs, .rv, .wires, .credits, .bd, .pr, .al, .rd, .mb, .freeCtr] s (resumeCommand s m c) := by
  unfold resumeCommand
  dsimp only
  (repeat' split) <;> simp (disch := decide)
@[simp ↓] theorem resumeCommand_through (ps : List Piece) (hps : ([.fclk, .regs, .hg, .rt, .hs, .rv, .wires, .credits, .bd, .pr, .al, .rd, .mb, .freeCtr] : List Piece).all (ps.contains ·) = true) (s0 : State)
    (s : State) (m : Nat) (c : Running) :
    sameExcept ps s0 (resumeCommand s m c) ↔ sameExcept ps s0 s :=
  sameExcept_through (resumeCommand_frame s m c) hps s0
@[simp ↓] theorem resumeCommand_canonical (s : State) (m : Nat) (c : Running) (h : canonical s) : canonical (resumeCommand s m c) := by
  unfold resumeCommand
  dsimp only
  (repeat' split) <;> simp (maxDischargeDepth := 60) (contextual := true) [h]

theorem settleAll_frame (s : State) :
    sameExcept [.regs, .hg, .rt, .hs, .wires, .credits, .bd, .pr, .al, .rd, .mb, .freeCtr] s (settleAll s) := by
  unfold settleAll
  simp (disch := first | decide | (intro _ _; (repeat' split) <;> simp (disch := decide))) [sameExcept_foldl, sameExcept_foldl1, sameExcept_foldl2, sameExcept_forEach, sameExcept_forRange]
@[simp ↓] theorem settleAll_through (ps : List Piece) (hps : ([.regs, .hg, .rt, .hs, .wires, .credits, .bd, .pr, .al, .rd, .mb, .freeCtr] : List Piece).all (ps.contains ·) = true) (s0 : State)
    (s : State) :
    sameExcept ps s0 (settleAll s) ↔ sameExcept ps s0 s :=
  sameExcept_through (settleAll_frame s) hps s0
@[simp ↓] theorem settleAll_canonical (s : State) (h : canonical s) : canonical (settleAll s) := by
  unfold settleAll
  simp (maxDischargeDepth := 60) (contextual := true) [h]

theorem takeWake_frame (s : State) (d : Nat) :
    sameExcept [.rd] s (takeWake s d) := by
  unfold takeWake
  simp (disch := decide)
@[simp ↓] theorem takeWake_through (ps : List Piece) (hps : ([.rd] : List Piece).all (ps.contains ·) = true) (s0 : State)
    (s : State) (d : Nat) :
    sameExcept ps s0 (takeWake s d) ↔ sameExcept ps s0 s :=
  sameExcept_through (takeWake_frame s d) hps s0
@[simp ↓] theorem takeWake_canonical (s : State) (d : Nat) : canonical (takeWake s d) ↔ canonical s :=
  canonical_same (takeWake_frame s d) (by decide)
@[simp ↓] theorem takeWake_below (L : Nat) (s0 : State) (s : State) (d : Nat) :
    belowKept L s0 (takeWake s d) ↔ belowKept L s0 s :=
  belowKept_iff (belowKept_same (takeWake_frame s d) (by decide)) s0

theorem resumeIdle_frame (s : State) :
    sameExcept [.fclk, .regs, .hg, .rt, .hs, .rv, .wires, .credits, .bd, .pr, .al, .rd, .mb, .freeCtr] s (resumeIdle s) := by
  unfold resumeIdle
  (repeat' split) <;> simp (disch := decide)
@[simp ↓] theorem resumeIdle_through (ps : List Piece) (hps : ([.fclk, .regs, .hg, .rt, .hs, .rv, .wires, .credits, .bd, .pr, .al, .rd, .mb, .freeCtr] : List Piece).all (ps.contains ·) = true) (s0 : State)
    (s : State) :
    sameExcept ps s0 (resumeIdle s) ↔ sameExcept ps s0 s :=
  sameExcept_through (resumeIdle_frame s) hps s0
@[simp ↓] theorem resumeIdle_canonical (s : State) (h : canonical s) : canonical (resumeIdle s) := by
  unfold resumeIdle
  (repeat' split) <;> simp (maxDischargeDepth := 60) (contextual := true) [h]

theorem resumeWork_frame (s : State) :
    sameExcept [.fclk, .regs, .hg, .rt, .hs, .rv, .wires, .credits, .bd, .pr, .al, .rd, .mb, .freeCtr] s (resumeWork s) := by
  unfold resumeWork
  dsimp only
  (repeat' split) <;> simp (disch := decide)
@[simp ↓] theorem resumeWork_through (ps : List Piece) (hps : ([.fclk, .regs, .hg, .rt, .hs, .rv, .wires, .credits, .bd, .pr, .al, .rd, .mb, .freeCtr] : List Piece).all (ps.contains ·) = true) (s0 : State)
    (s : State) :
    sameExcept ps s0 (resumeWork s) ↔ sameExcept ps s0 s :=
  sameExcept_through (resumeWork_frame s) hps s0
@[simp ↓] theorem resumeWork_canonical (s : State) (h : canonical s) : canonical (resumeWork s) := by
  unfold resumeWork
  dsimp only
  (repeat' split) <;> simp (maxDischargeDepth := 60) (contextual := true) [h]

theorem riderResume_frame (s : State) :
    sameExcept [.fclk, .regs, .hg, .rt, .hs, .rv, .wires, .credits, .bd, .pr, .al, .rd, .mb, .freeCtr] s (riderResume s) := by
  unfold riderResume
  (repeat' split) <;> simp (disch := decide)
@[simp ↓] theorem riderResume_through (ps : List Piece) (hps : ([.fclk, .regs, .hg, .rt, .hs, .rv, .wires, .credits, .bd, .pr, .al, .rd, .mb, .freeCtr] : List Piece).all (ps.contains ·) = true) (s0 : State)
    (s : State) :
    sameExcept ps s0 (riderResume s) ↔ sameExcept ps s0 s :=
  sameExcept_through (riderResume_frame s) hps s0
@[simp ↓] theorem riderResume_canonical (s : State) (h : canonical s) : canonical (riderResume s) := by
  unfold riderResume
  (repeat' split) <;> simp (maxDischargeDepth := 60) (contextual := true) [h]

end Sys2Proof.Machine
end

