-- ==== Sys2Proof/Laws/FrameRiderStart.lean ====
section
/-! SUPPORT. What each operation of `Machine/RiderStart.lean` can change, in the pieces of `Safety.lean`: `<operation>_frame` says it once,
`<operation>_through` carries it past the operation, `<operation>_canonical` says that it keeps the canonical form, and
`<operation>_low`, `<operation>_below` that it keeps the registers below the blocks it works on. -/

open Sys2Proof

namespace Sys2Proof.Machine

set_option linter.unusedSimpArgs false
set_option linter.unusedVariables false

theorem answerLoad_frame (s : State) :
    sameExcept [.regs, .rd, .mb] s (answerLoad s) := by
  unfold answerLoad
  (repeat' split) <;> simp (disch := decide)
@[simp ↓] theorem answerLoad_through (ps : List Piece) (hps : ([.regs, .rd, .mb] : List Piece).all (ps.contains ·) = true) (s0 : State)
    (s : State) :
    sameExcept ps s0 (answerLoad s) ↔ sameExcept ps s0 s :=
  sameExcept_through (answerLoad_frame s) hps s0
@[simp ↓] theorem answerLoad_canonical (s : State) (h : canonical s) : canonical (answerLoad s) := by
  unfold answerLoad
  (repeat' split) <;> simp (maxDischargeDepth := 60) (contextual := true) [h]

theorem runAgain_frame (m : Nat) (s : State) :
    sameExcept [.mb] s (runAgain m s) := by
  unfold runAgain
  simp (disch := decide)
@[simp ↓] theorem runAgain_through (ps : List Piece) (hps : ([.mb] : List Piece).all (ps.contains ·) = true) (s0 : State)
    (m : Nat) (s : State) :
    sameExcept ps s0 (runAgain m s) ↔ sameExcept ps s0 s :=
  sameExcept_through (runAgain_frame m s) hps s0
@[simp ↓] theorem runAgain_canonical (m : Nat) (s : State) : canonical (runAgain m s) ↔ canonical s :=
  canonical_same (runAgain_frame m s) (by decide)
@[simp ↓] theorem runAgain_below (L : Nat) (s0 : State) (m : Nat) (s : State) :
    belowKept L s0 (runAgain m s) ↔ belowKept L s0 s :=
  belowKept_iff (belowKept_same (runAgain_frame m s) (by decide)) s0

theorem noStart_frame (s : State) (any : Bool) :
    sameExcept [.regs, .rd, .mb] s (noStart s any) := by
  unfold noStart
  simp (disch := first | decide | (intro _ _; (repeat' split) <;> simp (disch := decide))) [sameExcept_foldl, sameExcept_foldl1, sameExcept_foldl2, sameExcept_forEach, sameExcept_forRange]
@[simp ↓] theorem noStart_through (ps : List Piece) (hps : ([.regs, .rd, .mb] : List Piece).all (ps.contains ·) = true) (s0 : State)
    (s : State) (any : Bool) :
    sameExcept ps s0 (noStart s any) ↔ sameExcept ps s0 s :=
  sameExcept_through (noStart_frame s any) hps s0
@[simp ↓] theorem noStart_canonical (s : State) (any : Bool) (h : canonical s) : canonical (noStart s any) := by
  unfold noStart
  simp (maxDischargeDepth := 60) (contextual := true) [h]

theorem keepOut_frame (s : State) :
    sameExcept [.regs, .hg, .rt, .hs, .wires, .credits, .bd, .pr, .al, .rd, .mb, .freeCtr] s (keepOut s) := by
  unfold keepOut
  rw [sameExcept_forEach]
  · simp
  · intro t x
    rw [sameExcept_setRd _ (by decide), sameExcept_forEach]
    · simp
    · intro t x; split <;> simp (disch := decide)
@[simp ↓] theorem keepOut_through (ps : List Piece) (hps : ([.regs, .hg, .rt, .hs, .wires, .credits, .bd, .pr, .al, .rd, .mb, .freeCtr] : List Piece).all (ps.contains ·) = true) (s0 : State)
    (s : State) :
    sameExcept ps s0 (keepOut s) ↔ sameExcept ps s0 s :=
  sameExcept_through (keepOut_frame s) hps s0
@[simp ↓] theorem keepOut_canonical (s : State) (h : canonical s) : canonical (keepOut s) := by
  unfold keepOut
  apply canonical_forEach
  · exact h
  · intro t x ht
    apply (canonical_setRd _ _).mpr
    apply canonical_forEach
    · exact ht
    · intro t x ht; split <;> simp (maxDischargeDepth := 60) (contextual := true) [ht]

theorem openAdmission_frame (s : State) :
    sameExcept [.regs, .hg, .rt, .hs, .wires, .credits, .bd, .pr, .al, .rd, .mb, .freeCtr] s (openAdmission s) := by
  unfold openAdmission
  dsimp only
  rw [sameExcept_forEach, sameExcept_forEach]
  · simp
  · intro t x
    rw [sameExcept_forEach]
    · simp
    · intro t x; simp (disch := decide)
  · intro t x; simp (disch := decide)
@[simp ↓] theorem openAdmission_through (ps : List Piece) (hps : ([.regs, .hg, .rt, .hs, .wires, .credits, .bd, .pr, .al, .rd, .mb, .freeCtr] : List Piece).all (ps.contains ·) = true) (s0 : State)
    (s : State) :
    sameExcept ps s0 (openAdmission s) ↔ sameExcept ps s0 s :=
  sameExcept_through (openAdmission_frame s) hps s0
@[simp ↓] theorem openAdmission_canonical (s : State) (h : canonical s) : canonical (openAdmission s) := by
  unfold openAdmission
  simp (maxDischargeDepth := 60) (contextual := true) [h]

theorem openClasses_frame (s : State) :
    sameExcept [.regs, .hg, .rt, .hs, .wires, .credits, .bd, .pr, .al, .rd, .mb, .freeCtr] s (openClasses s) := by
  unfold openClasses
  simp (disch := first | decide | (intro _ _; (repeat' split) <;> simp (disch := decide))) [sameExcept_foldl, sameExcept_foldl1, sameExcept_foldl2, sameExcept_forEach, sameExcept_forRange]
@[simp ↓] theorem openClasses_through (ps : List Piece) (hps : ([.regs, .hg, .rt, .hs, .wires, .credits, .bd, .pr, .al, .rd, .mb, .freeCtr] : List Piece).all (ps.contains ·) = true) (s0 : State)
    (s : State) :
    sameExcept ps s0 (openClasses s) ↔ sameExcept ps s0 s :=
  sameExcept_through (openClasses_frame s) hps s0
@[simp ↓] theorem openClasses_canonical (s : State) (h : canonical s) : canonical (openClasses s) := by
  unfold openClasses
  simp (maxDischargeDepth := 60) (contextual := true) [h]

theorem openMaps_frame (s : State) :
    sameExcept [.regs] s (openMaps s) := by
  unfold openMaps
  (repeat' split) <;> simp (disch := first | decide | (intro _ _; (repeat' split) <;> simp (disch := decide))) [sameExcept_foldl, sameExcept_foldl1, sameExcept_foldl2, sameExcept_forEach, sameExcept_forRange]
@[simp ↓] theorem openMaps_through (ps : List Piece) (hps : ([.regs] : List Piece).all (ps.contains ·) = true) (s0 : State)
    (s : State) :
    sameExcept ps s0 (openMaps s) ↔ sameExcept ps s0 s :=
  sameExcept_through (openMaps_frame s) hps s0
@[simp ↓] theorem openMaps_canonical (s : State) (h : canonical s) : canonical (openMaps s) := by
  unfold openMaps
  (repeat' split) <;> simp (maxDischargeDepth := 60) (contextual := true) [h]
theorem openMaps_low (s : State) :
    belowKept 0x200000 s (openMaps s) := by
  unfold openMaps
  (repeat' split) <;> simp (maxDischargeDepth := 60) [belowKept_foldl, belowKept_foldl1, belowKept_foldl2, belowKept_forEach, belowKept_forRange]
@[simp ↓] theorem openMaps_below (L : Nat) (hL : L ≤ 0x200000) (s0 : State) (s : State) :
    belowKept L s0 (openMaps s) ↔ belowKept L s0 s :=
  belowKept_iff (belowKept_mono (openMaps_low s) hL) s0

theorem openWindows_frame (n : Nat) (s : State) :
    sameExcept [.regs, .hg, .rt, .hs, .wires, .credits, .bd, .pr, .al, .rd, .mb, .freeCtr] s (openWindows n s) := by
  unfold openWindows
  simp (disch := first | decide | (intro _ _; (repeat' split) <;> simp (disch := decide))) [sameExcept_foldl, sameExcept_foldl1, sameExcept_foldl2, sameExcept_forEach, sameExcept_forRange]
@[simp ↓] theorem openWindows_through (ps : List Piece) (hps : ([.regs, .hg, .rt, .hs, .wires, .credits, .bd, .pr, .al, .rd, .mb, .freeCtr] : List Piece).all (ps.contains ·) = true) (s0 : State)
    (n : Nat) (s : State) :
    sameExcept ps s0 (openWindows n s) ↔ sameExcept ps s0 s :=
  sameExcept_through (openWindows_frame n s) hps s0
@[simp ↓] theorem openWindows_canonical (n : Nat) (s : State) (h : canonical s) : canonical (openWindows n s) := by
  unfold openWindows
  apply canonical_forEach
  · exact h
  · intro t x ht; split <;> simp (maxDischargeDepth := 60) (contextual := true) [ht]

theorem writeStep_frame (ws : List (Nat × Word)) (k : Nat) (s : State) :
    sameExcept [.regs, .hg, .rt, .hs, .wires, .credits, .bd, .pr, .al, .rd, .mb, .freeCtr] s (writeStep ws k s) := by
  unfold writeStep
  simp (disch := first | decide | (intro _ _; (repeat' split) <;> simp (disch := decide))) [sameExcept_foldl, sameExcept_foldl1, sameExcept_foldl2, sameExcept_forEach, sameExcept_forRange]
@[simp ↓] theorem writeStep_through (ps : List Piece) (hps : ([.regs, .hg, .rt, .hs, .wires, .credits, .bd, .pr, .al, .rd, .mb, .freeCtr] : List Piece).all (ps.contains ·) = true) (s0 : State)
    (ws : List (Nat × Word)) (k : Nat) (s : State) :
    sameExcept ps s0 (writeStep ws k s) ↔ sameExcept ps s0 s :=
  sameExcept_through (writeStep_frame ws k s) hps s0
@[simp ↓] theorem writeStep_canonical (ws : List (Nat × Word)) (k : Nat) (s : State) (h : canonical s) : canonical (writeStep ws k s) := by
  unfold writeStep
  simp (maxDischargeDepth := 60) (contextual := true) [h]

theorem openDecode_frame (ws : List (Nat × Word)) (s : State) :
    sameExcept [.regs, .hg, .rt, .hs, .wires, .credits, .bd, .pr, .al, .rd, .mb, .freeCtr] s (openDecode ws s) := by
  unfold openDecode
  rw [openMaps_through _ (by decide)]
  exact (sameExcept_forEach _ allHgs openWindows (fun t x => openWindows_frame x t) s _).mpr (by simp (disch := decide))
@[simp ↓] theorem openDecode_through (ps : List Piece) (hps : ([.regs, .hg, .rt, .hs, .wires, .credits, .bd, .pr, .al, .rd, .mb, .freeCtr] : List Piece).all (ps.contains ·) = true) (s0 : State)
    (ws : List (Nat × Word)) (s : State) :
    sameExcept ps s0 (openDecode ws s) ↔ sameExcept ps s0 s :=
  sameExcept_through (openDecode_frame ws s) hps s0
@[simp ↓] theorem openDecode_canonical (ws : List (Nat × Word)) (s : State) (h : canonical s) : canonical (openDecode ws s) := by
  unfold openDecode
  apply openMaps_canonical
  exact canonical_forEach _ _ _ (by simp (maxDischargeDepth := 60) (contextual := true) [h]) (fun t x ht => openWindows_canonical x t ht)

theorem openPairs_frame (t : Nat) (s : State) :
    sameExcept [.regs, .hg, .rt, .hs, .wires, .credits, .bd, .pr, .al, .rd, .mb, .freeCtr] s (openPairs t s) := by
  unfold openPairs
  simp (disch := first | decide | (intro _ _; (repeat' split) <;> simp (disch := decide))) [sameExcept_foldl, sameExcept_foldl1, sameExcept_foldl2, sameExcept_forEach, sameExcept_forRange]
@[simp ↓] theorem openPairs_through (ps : List Piece) (hps : ([.regs, .hg, .rt, .hs, .wires, .credits, .bd, .pr, .al, .rd, .mb, .freeCtr] : List Piece).all (ps.contains ·) = true) (s0 : State)
    (t : Nat) (s : State) :
    sameExcept ps s0 (openPairs t s) ↔ sameExcept ps s0 s :=
  sameExcept_through (openPairs_frame t s) hps s0
@[simp ↓] theorem openPairs_canonical (t : Nat) (s : State) (h : canonical s) : canonical (openPairs t s) := by
  unfold openPairs
  simp (maxDischargeDepth := 60) (contextual := true) [h]

theorem openSlices_frame (ws : List (Nat × Word)) (s : State) :
    sameExcept [.regs, .hg, .rt, .hs, .wires, .credits, .bd, .pr, .al, .rd, .mb, .freeCtr] s (openSlices ws s) := by
  unfold openSlices
  dsimp only
  (repeat' split) <;> simp (disch := first | decide | (intro _ _; (repeat' split) <;> simp (disch := decide))) [sameExcept_foldl, sameExcept_foldl1, sameExcept_foldl2, sameExcept_forEach, sameExcept_forRange]
@[simp ↓] theorem openSlices_through (ps : List Piece) (hps : ([.regs, .hg, .rt, .hs, .wires, .credits, .bd, .pr, .al, .rd, .mb, .freeCtr] : List Piece).all (ps.contains ·) = true) (s0 : State)
    (ws : List (Nat × Word)) (s : State) :
    sameExcept ps s0 (openSlices ws s) ↔ sameExcept ps s0 s :=
  sameExcept_through (openSlices_frame ws s) hps s0
@[simp ↓] theorem openSlices_canonical (ws : List (Nat × Word)) (s : State) (h : canonical s) : canonical (openSlices ws s) := by
  unfold openSlices
  dsimp only
  (repeat' split) <;> simp (maxDischargeDepth := 60) (contextual := true) [h]

theorem openTurns_frame (ws : List (Nat × Word)) (s : State) :
    sameExcept [.regs, .hg, .rt, .hs, .wires, .credits, .bd, .pr, .al, .rd, .mb, .freeCtr] s (openTurns ws s) := by
  unfold openTurns
  simp (disch := decide)
@[simp ↓] theorem openTurns_through (ps : List Piece) (hps : ([.regs, .hg, .rt, .hs, .wires, .credits, .bd, .pr, .al, .rd, .mb, .freeCtr] : List Piece).all (ps.contains ·) = true) (s0 : State)
    (ws : List (Nat × Word)) (s : State) :
    sameExcept ps s0 (openTurns ws s) ↔ sameExcept ps s0 s :=
  sameExcept_through (openTurns_frame ws s) hps s0
@[simp ↓] theorem openTurns_canonical (ws : List (Nat × Word)) (s : State) (h : canonical s) : canonical (openTurns ws s) := by
  unfold openTurns
  simp (maxDischargeDepth := 60) (contextual := true) [h]

theorem openFabric_frame (s : State) (img : List Byte) :
    sameExcept [.regs, .hg, .rt, .hs, .wires, .credits, .bd, .pr, .al, .rd, .mb, .freeCtr] s (openFabric s img) := by
  unfold openFabric
  simp (disch := first | decide | (intro _ _; (repeat' split) <;> simp (disch := decide))) [sameExcept_foldl, sameExcept_foldl1, sameExcept_foldl2, sameExcept_forEach, sameExcept_forRange]
@[simp ↓] theorem openFabric_through (ps : List Piece) (hps : ([.regs, .hg, .rt, .hs, .wires, .credits, .bd, .pr, .al, .rd, .mb, .freeCtr] : List Piece).all (ps.contains ·) = true) (s0 : State)
    (s : State) (img : List Byte) :
    sameExcept ps s0 (openFabric s img) ↔ sameExcept ps s0 s :=
  sameExcept_through (openFabric_frame s img) hps s0
@[simp ↓] theorem openFabric_canonical (s : State) (img : List Byte) (h : canonical s) : canonical (openFabric s img) := by
  unfold openFabric
  simp (maxDischargeDepth := 60) (contextual := true) [h]

theorem rebuild_frame (s : State) :
    sameExcept [.rd] s (rebuild s) := by
  unfold rebuild
  simp (disch := first | decide | (intro _ _; (repeat' split) <;> simp (disch := decide))) [sameExcept_foldl, sameExcept_foldl1, sameExcept_foldl2, sameExcept_forEach, sameExcept_forRange]
@[simp ↓] theorem rebuild_through (ps : List Piece) (hps : ([.rd] : List Piece).all (ps.contains ·) = true) (s0 : State)
    (s : State) :
    sameExcept ps s0 (rebuild s) ↔ sameExcept ps s0 s :=
  sameExcept_through (rebuild_frame s) hps s0
@[simp ↓] theorem rebuild_canonical (s : State) : canonical (rebuild s) ↔ canonical s :=
  canonical_same (rebuild_frame s) (by decide)
@[simp ↓] theorem rebuild_below (L : Nat) (s0 : State) (s : State) :
    belowKept L s0 (rebuild s) ↔ belowKept L s0 s :=
  belowKept_iff (belowKept_same (rebuild_frame s) (by decide)) s0

theorem startFirmware_frame (s : State) (img : List Byte) (unsigned : Bool) (load : Bool) :
    sameExcept [.regs, .hg, .rt, .hs, .wires, .credits, .bd, .pr, .al, .rd, .mb, .freeCtr] s (startFirmware s img unsigned load) := by
  unfold startFirmware
  simp (disch := first | decide | (intro _ _; (repeat' split) <;> simp (disch := decide))) [sameExcept_foldl, sameExcept_foldl1, sameExcept_foldl2, sameExcept_forEach, sameExcept_forRange]
@[simp ↓] theorem startFirmware_through (ps : List Piece) (hps : ([.regs, .hg, .rt, .hs, .wires, .credits, .bd, .pr, .al, .rd, .mb, .freeCtr] : List Piece).all (ps.contains ·) = true) (s0 : State)
    (s : State) (img : List Byte) (unsigned : Bool) (load : Bool) :
    sameExcept ps s0 (startFirmware s img unsigned load) ↔ sameExcept ps s0 s :=
  sameExcept_through (startFirmware_frame s img unsigned load) hps s0
@[simp ↓] theorem startFirmware_canonical (s : State) (img : List Byte) (unsigned : Bool) (load : Bool) (h : canonical s) : canonical (startFirmware s img unsigned load) := by
  unfold startFirmware
  simp (maxDischargeDepth := 60) (contextual := true) [h]

theorem restartDone_frame (s : State) :
    sameExcept [.regs, .hg, .rt, .hs, .wires, .credits, .bd, .pr, .al, .rd, .mb, .freeCtr] s (restartDone s) := by
  unfold restartDone
  simp (disch := decide)
@[simp ↓] theorem restartDone_through (ps : List Piece) (hps : ([.regs, .hg, .rt, .hs, .wires, .credits, .bd, .pr, .al, .rd, .mb, .freeCtr] : List Piece).all (ps.contains ·) = true) (s0 : State)
    (s : State) :
    sameExcept ps s0 (restartDone s) ↔ sameExcept ps s0 s :=
  sameExcept_through (restartDone_frame s) hps s0
@[simp ↓] theorem restartDone_canonical (s : State) (h : canonical s) : canonical (restartDone s) := by
  unfold restartDone
  simp (maxDischargeDepth := 60) (contextual := true) [h]

end Sys2Proof.Machine
end

