-- ==== Sys2Proof/Laws/FrameTap.lean ====
section
/-! SUPPORT. What each operation of `Machine/Tap.lean` can change, in the pieces of `Safety.lean`: `<operation>_frame` says it once,
`<operation>_through` carries it past the operation, `<operation>_canonical` says that it keeps the canonical form, and
`<operation>_low`, `<operation>_below` that it keeps the registers below the blocks it works on. -/

open Sys2Proof

namespace Sys2Proof.Machine

set_option linter.unusedSimpArgs false
set_option linter.unusedVariables false

theorem tapShows_frame (s : State) (code : BitVec 8) (dr : List Bool) :
    sameExcept [.tap] s (tapShows s code dr) := by
  unfold tapShows
  simp (disch := decide)
@[simp ↓] theorem tapShows_through (ps : List Piece) (hps : ([.tap] : List Piece).all (ps.contains ·) = true) (s0 : State)
    (s : State) (code : BitVec 8) (dr : List Bool) :
    sameExcept ps s0 (tapShows s code dr) ↔ sameExcept ps s0 s :=
  sameExcept_through (tapShows_frame s code dr) hps s0
@[simp ↓] theorem tapShows_canonical (s : State) (code : BitVec 8) (dr : List Bool) : canonical (tapShows s code dr) ↔ canonical s :=
  canonical_same (tapShows_frame s code dr) (by decide)
@[simp ↓] theorem tapShows_below (L : Nat) (s0 : State) (s : State) (code : BitVec 8) (dr : List Bool) :
    belowKept L s0 (tapShows s code dr) ↔ belowKept L s0 s :=
  belowKept_iff (belowKept_same (tapShows_frame s code dr) (by decide)) s0

theorem tapBypass_frame (s : State) (code : BitVec 8) (tdi : Bool) :
    sameExcept [.tap] s (tapBypass s code tdi) := by
  unfold tapBypass
  simp (disch := decide)
@[simp ↓] theorem tapBypass_through (ps : List Piece) (hps : ([.tap] : List Piece).all (ps.contains ·) = true) (s0 : State)
    (s : State) (code : BitVec 8) (tdi : Bool) :
    sameExcept ps s0 (tapBypass s code tdi) ↔ sameExcept ps s0 s :=
  sameExcept_through (tapBypass_frame s code tdi) hps s0
@[simp ↓] theorem tapBypass_canonical (s : State) (code : BitVec 8) (tdi : Bool) : canonical (tapBypass s code tdi) ↔ canonical s :=
  canonical_same (tapBypass_frame s code tdi) (by decide)
@[simp ↓] theorem tapBypass_below (L : Nat) (s0 : State) (s : State) (code : BitVec 8) (tdi : Bool) :
    belowKept L s0 (tapBypass s code tdi) ↔ belowKept L s0 s :=
  belowKept_iff (belowKept_same (tapBypass_frame s code tdi) (by decide)) s0

theorem tapIdcode_frame (s : State) :
    sameExcept [.tap] s (tapIdcode s) := by
  unfold tapIdcode
  simp (disch := decide)
@[simp ↓] theorem tapIdcode_through (ps : List Piece) (hps : ([.tap] : List Piece).all (ps.contains ·) = true) (s0 : State)
    (s : State) :
    sameExcept ps s0 (tapIdcode s) ↔ sameExcept ps s0 s :=
  sameExcept_through (tapIdcode_frame s) hps s0
@[simp ↓] theorem tapIdcode_canonical (s : State) : canonical (tapIdcode s) ↔ canonical s :=
  canonical_same (tapIdcode_frame s) (by decide)
@[simp ↓] theorem tapIdcode_below (L : Nat) (s0 : State) (s : State) :
    belowKept L s0 (tapIdcode s) ↔ belowKept L s0 s :=
  belowKept_iff (belowKept_same (tapIdcode_frame s) (by decide)) s0

theorem regacc_frame (s : State) (dr : BitVec 96) :
    sameExcept [.regs, .hg, .rt, .hs, .wires, .credits, .bd, .pr, .al, .rd, .mb, .tap, .freeCtr] s (regacc s dr) := by
  unfold regacc
  simp (disch := decide)
@[simp ↓] theorem regacc_through (ps : List Piece) (hps : ([.regs, .hg, .rt, .hs, .wires, .credits, .bd, .pr, .al, .rd, .mb, .tap, .freeCtr] : List Piece).all (ps.contains ·) = true) (s0 : State)
    (s : State) (dr : BitVec 96) :
    sameExcept ps s0 (regacc s dr) ↔ sameExcept ps s0 s :=
  sameExcept_through (regacc_frame s dr) hps s0
@[simp ↓] theorem regacc_canonical (s : State) (dr : BitVec 96) (h : canonical s) : canonical (regacc s dr) := by
  unfold regacc
  simp (maxDischargeDepth := 60) (contextual := true) [h]

theorem riderDbg_frame (s : State) (op : DbgOp) :
    sameExcept [.rd, .tap, .freeCtr] s (riderDbg s op) := by
  unfold riderDbg
  (repeat' split) <;> simp (disch := decide)
@[simp ↓] theorem riderDbg_through (ps : List Piece) (hps : ([.rd, .tap, .freeCtr] : List Piece).all (ps.contains ·) = true) (s0 : State)
    (s : State) (op : DbgOp) :
    sameExcept ps s0 (riderDbg s op) ↔ sameExcept ps s0 s :=
  sameExcept_through (riderDbg_frame s op) hps s0
@[simp ↓] theorem riderDbg_canonical (s : State) (op : DbgOp) : canonical (riderDbg s op) ↔ canonical s :=
  canonical_same (riderDbg_frame s op) (by decide)
@[simp ↓] theorem riderDbg_below (L : Nat) (s0 : State) (s : State) (op : DbgOp) :
    belowKept L s0 (riderDbg s op) ↔ belowKept L s0 s :=
  belowKept_iff (belowKept_same (riderDbg_frame s op) (by decide)) s0

theorem tapStatus_frame (s : State) :
    sameExcept [.tap] s (tapStatus s) := by
  unfold tapStatus
  simp (disch := decide)
@[simp ↓] theorem tapStatus_through (ps : List Piece) (hps : ([.tap] : List Piece).all (ps.contains ·) = true) (s0 : State)
    (s : State) :
    sameExcept ps s0 (tapStatus s) ↔ sameExcept ps s0 s :=
  sameExcept_through (tapStatus_frame s) hps s0
@[simp ↓] theorem tapStatus_canonical (s : State) : canonical (tapStatus s) ↔ canonical s :=
  canonical_same (tapStatus_frame s) (by decide)
@[simp ↓] theorem tapStatus_below (L : Nat) (s0 : State) (s : State) :
    belowKept L s0 (tapStatus s) ↔ belowKept L s0 s :=
  belowKept_iff (belowKept_same (tapStatus_frame s) (by decide)) s0

/-- An instruction leaves what its effect and showing its register leave. -/
theorem sameExcept_tapOpen (ps : List Piece) (hp : ps.contains .tap = true) (s0 s : State) (code : BitVec 8) (f : State → State)
    (hf : sameExcept ps s (f s)) : sameExcept ps s0 (tapOpen s code f) ↔ sameExcept ps s0 s := by
  unfold tapOpen
  split
  · exact sameExcept_iff hf s0
  · exact tapShows_through ps (by simpa using hp) s0 s _ _

/-- An instruction keeps the canonical form if its effect does. -/
theorem canonical_tapOpen (s : State) (code : BitVec 8) (f : State → State) (h : canonical s) (hf : canonical (f s)) :
    canonical (tapOpen s code f) := by
  unfold tapOpen
  split
  · exact hf
  · simp [h]

end Sys2Proof.Machine
end

