-- ==== Sys2Proof/Laws/Ops.lean ====
section
/-! SUPPORT. What a loop over headgates, mailboxes or registers leaves in each of them. -/

namespace Sys2Proof.Machine

/-- A loop with one more round. -/
theorem forRange_succ (n : Nat) (f : Nat → State → State) (s : State) : forRange (n + 1) f s = f n (forRange n f s) := by
  simp only [forRange, List.range_succ, List.foldl_append, List.foldl_cons, List.foldl_nil]

@[simp] theorem forRange_zero (f : Nat → State → State) (s : State) : forRange 0 f s = s := rfl

/-- A loop of changes, each of its own headgate, leaves each headgate below the bound changed once. -/
theorem hgAt_forRange (N : Nat) (g : Nat → State → State) (f : Nat → Headgate → Headgate)
    (hs : ∀ k t, (g k t).hgAt k = f k (t.hgAt k)) (ho : ∀ k t n, n ≠ k → (g k t).hgAt n = t.hgAt n) (s : State) (n : Nat) :
    (forRange N g s).hgAt n = if n < N then f n (s.hgAt n) else s.hgAt n := by
  induction N with
  | zero => simp
  | succ N ih =>
    rw [forRange_succ]
    by_cases h : n = N
    · subst h
      rw [hs, ih]
      simp
    · rw [ho _ _ _ h, ih]
      have : n < N + 1 ↔ n < N := by omega
      simp [this]

/-- A loop of changes, each of its own mailbox, leaves each mailbox below the bound changed once. -/
theorem mbAt_forRange (N : Nat) (g : Nat → State → State) (f : Nat → Mailbox → Mailbox)
    (hs : ∀ k t, (g k t).mbAt k = f k (t.mbAt k)) (ho : ∀ k t n, n ≠ k → (g k t).mbAt n = t.mbAt n) (s : State) (n : Nat) :
    (forRange N g s).mbAt n = if n < N then f n (s.mbAt n) else s.mbAt n := by
  induction N with
  | zero => simp
  | succ N ih =>
    rw [forRange_succ]
    by_cases h : n = N
    · subst h
      rw [hs, ih]
      simp
    · rw [ho _ _ _ h, ih]
      have : n < N + 1 ↔ n < N := by omega
      simp [this]

/-- A loop whose rounds leave register `o` leaves it. -/
theorem reg_forRange_other (N : Nat) (g : Nat → State → State) (o : Nat) (h : ∀ k t, k < N → (g k t).reg o = t.reg o) (s : State) :
    (forRange N g s).reg o = s.reg o := by
  induction N with
  | zero => simp
  | succ N ih => rw [forRange_succ, h _ _ (by omega), ih (fun k t hk => h k t (by omega))]

/-- A loop whose rounds leave every headgate leaves it. -/
theorem hgAt_forRange_other (N : Nat) (g : Nat → State → State) (n : Nat) (h : ∀ k t, k < N → (g k t).hgAt n = t.hgAt n)
    (s : State) : (forRange N g s).hgAt n = s.hgAt n := by
  induction N with
  | zero => simp
  | succ N ih => rw [forRange_succ, h _ _ (by omega), ih (fun k t hk => h k t (by omega))]

/-- Round `i` of a loop is the last to change what `P` reads: after it the other rounds leave it. -/
theorem forRange_last {α : Type} (N i : Nat) (g : Nat → State → State) (P : State → α) (hi : i < N)
    (h : ∀ k t, i < k → k < N → P (g k t) = P t) (s : State) : P (forRange N g s) = P (g i (forRange i g s)) := by
  induction N with
  | zero => omega
  | succ N ih =>
    rw [forRange_succ]
    by_cases e : i = N
    · subst e; rfl
    · rw [h _ _ (by omega) (by omega), ih (by omega) (fun k t h1 h2 => h k t h1 (by omega))]

end Sys2Proof.Machine
end

