-- ==== Sys2Proof/Tests/Slice0.lean ====
section
/-! SUPPORT. Small tests: a term each check of WellFormed refuses, facts written out from the manual, and for every statement with hypotheses
a state and operands that meet them. -/

open Sys2Proof Sys2Proof.Machine

namespace Sys2Proof.Tests

set_option Elab.async false

/-! ### Ill-formed commands (R13, R27, R28, R39, R463, Table 17-5) -/

theorem test_wf_hai : Instr.wf (.wdataAbort 151) = false ∧
    Instr.wf (.acceptance 100) = false ∧
    Instr.wf (.fenceComplete 124 0) = false ∧
    Instr.wf (.rspTransfer 151 ⟨0, .ok⟩) = false ∧
    Instr.wf (.msginTransfer 151) = false ∧
    Instr.wf (.treqPresent 110) = false ∧
    Instr.wf (.twdataTransfer 110) = false ∧
    Instr.wf (.trspReceived 110 0 0 []) = false ∧
    Instr.wf (.agentPortLiveFall 151) = false ∧
    Instr.wf (.agentPortLiveRise 151) = false ∧
    Instr.wf (.siphonAbsorb 151 0) = false ∧
    Instr.wf (.pwrAckRise 151) = false ∧
    Instr.wf (.aclkEnChange 151 true) = false ∧
    Instr.wf (.wakeLimitExpiry 151) = false ∧
    Instr.wf (.pwrAckFall 151) = false := by decide
theorem test_wf_req (r : Req) : Instr.wf (.reqTransfer 151 r) = false := rfl
theorem test_wf_wdata (b : WdataBeat) : Instr.wf (.wdataBeat 100 b) = false := rfl
theorem test_wf_beats (b : DBeat) : Instr.wf (.trspReceived 40 0 0 (List.replicate 9 b)) = false := rfl
theorem test_wf_caching (d : Line) : Instr.wf (.snpTransfer 39) = false ∧ Instr.wf (.cack 56 0 0) = false ∧
    Instr.wf (.snprspItem 39 0x34 0 false 0 d true) = false := ⟨rfl, rfl, rfl⟩
theorem test_wf_reply (d : Line) : Instr.wf (.snprspItem 40 0x31 0 false 0 d true) = false := rfl
theorem test_wf_links : Instr.wf (.flitArrival (.router 0 4) 0 .ok) = false ∧
    Instr.wf (.creditReturn (.router 0 5) 0) = false ∧
    Instr.wf (.heartbeatTimer (.router 99 6)) = false ∧
    Instr.wf (.heartbeatReceived (.router 99 7) 0) = false ∧
    Instr.wf (.linkSilenceTimeout (.router 0 1)) = false ∧
    Instr.wf (.linkPortLiveFall (.router 0 2)) = false ∧
    Instr.wf (.portEnWrite (.router 0 3) true) = false ∧
    Instr.wf (.portClear (.router 9 3)) = false := by decide
theorem test_wf_nanoseconds : Instr.wf (.turnPulseIssue 0 1000000000) = false ∧ Instr.wf (.timeValidChange true 0 1000000000) = false := by decide
theorem test_wf_regacc : Instr.wf (.tapRegacc 0x4) = false := by decide
theorem test_wf_bypass : Instr.wf (.tapBypass 0x01 true) = false ∧ Instr.wf (.tapBypass 0x10 true) = false := by decide
theorem test_wf_ok : Instr.wf (.acceptance 0) = true ∧ Instr.wf (.snpTransfer 40) = true ∧ Instr.wf (.portClear (.router 45 4)) = true := by decide

/-! ### Facts of the manual -/

/-- The header of the worked example of chapter 3: a WR of headgate 40 to target 117. -/
theorem test_header_worked : (Header.decode 0x0228753700180FA0020A587F000000000000001000000100).op = opWR ∧
    (Header.decode 0x0228753700180FA0020A587F000000000000001000000100).src = 0x28 ∧
    (Header.decode 0x0228753700180FA0020A587F000000000000001000000100).dst = 0x75 ∧
    (Header.decode 0x0228753700180FA0020A587F000000000000001000000100).dnode = 0x37 ∧
    (Header.decode 0x0228753700180FA0020A587F000000000000001000000100).ctx = 5 ∧
    (Header.decode 0x0228753700180FA0020A587F000000000000001000000100).tag = 0x2C ∧
    (Header.decode 0x0228753700180FA0020A587F000000000000001000000100).bytes = 127 ∧
    (Header.decode 0x0228753700180FA0020A587F000000000000001000000100).addr = 0x001000000100 := by decide
/-- R16: headgate 117 sits on L1 of the router with index 37. -/
theorem test_attach : attachOf 117 0 = (37, 1) ∧ attachOf 42 0 = (42, 0) := by decide
theorem test_no_word (nbits w : Nat) : decodeTableWord nbits w = none := rfl
theorem test_reset_canonical : canonical State.reset := ⟨by decide, by decide⟩

/-! ### Hypotheses met -/

/-- A mailbox with `k` empty commands queued. -/
def mbWith (k : Nat) (cur : Option Running) : State :=
  State.reset.setMb 3 { Mailbox.reset with queue := List.replicate k [0x42], cur := cur, rsp := [[7]] }
theorem meets_mbPush : ((mbWith 2 none).mbAt 3).queue.length < 64 := by decide
theorem meets_mbPush_full : 64 ≤ ((mbWith 64 none).mbAt 3).queue.length := by decide
theorem meets_mbPop : ((mbWith 2 none).mbAt 3).rsp = [7] :: [] := by decide
theorem meets_mbPop_empty : (State.reset.mbAt 0).rsp = [] := by decide
/-- The same with the Rider halted. -/
def halted (k : Nat) (cur : Option Running) : State := (mbWith k cur).setB Reg.GL_RIDER_STATUS 1 true
theorem meets_haltedAnswer : (halted 1 none).getB Reg.GL_RIDER_STATUS 1 = true ∧ ((halted 1 none).mbAt 3).cur = none ∧
    ((halted 1 none).mbAt 3).queue = [0x42] :: [] ∧ ((halted 1 none).mbAt 3).rsp.length < 64 ∧
    (∀ k : Mbx, k < 3 → ((halted 1 none).mbAt k).cur = none ∧ ((halted 1 none).mbAt k).queue = [] ∨
      64 ≤ ((halted 1 none).mbAt k).rsp.length) := by decide
/-- A command that is running. -/
def someRun : Running := { words := [0x42], prog := Prog.start [], planned := false, rerun := false }
theorem meets_haltedAnswer_running : (halted 1 (some someRun)).getB Reg.GL_RIDER_STATUS 1 = true ∧
    ((halted 1 (some someRun)).mbAt 3).cur = some someRun ∧ ((halted 1 (some someRun)).mbAt 3).rsp.length < 64 ∧
    (∀ k : Mbx, k < 3 → ((halted 1 (some someRun)).mbAt k).cur = none ∧ ((halted 1 (some someRun)).mbAt k).queue = [] ∨
      64 ≤ ((halted 1 (some someRun)).mbAt k).rsp.length) := by decide
/-- A fabric out of cold reset with lifecycle state `st`. -/
def live (st : Nat) : State :=
  (State.reset.setBd { Boundary.reset with inColdReset := false, rootLock := true }).setF Reg.GL_LIFECYCLE 0 2 st
/-- The same halted by debug. -/
def debugHalted : State := (live 0).setRd { Rider.reset with debugHalt := true }
theorem meets_tapStatus : (live 0).getF Reg.GL_LIFECYCLE 0 2 ≠ 2 := by decide
theorem meets_tapStatus_retired : (live 2).getF Reg.GL_LIFECYCLE 0 2 = 2 := by decide
theorem meets_tapBypass : (0xFF : BitVec 8) ≠ 0x01 ∧ (0xFF : BitVec 8) ≠ 0x10 ∧
    ((0xFF : BitVec 8) ≠ 0x20 ∧ (0xFF : BitVec 8) ≠ 0x30 ∧ (0xFF : BitVec 8) ≠ 0x40 ∧ (0xFF : BitVec 8) ≠ 0x41) := by decide
theorem meets_tapBypass_barred : (0x20 : BitVec 8) ≠ 0x01 ∧ (0x20 : BitVec 8) ≠ 0x10 ∧ (live 1).getF Reg.GL_LIFECYCLE 0 2 ≠ 0 := by
  decide
theorem meets_tapBarred : (live 1).getF Reg.GL_LIFECYCLE 0 2 ≠ 0 ∨ (live 1).bd.inColdReset = true := by decide
theorem meets_tapRegacc_write : (live 0).getF Reg.GL_LIFECYCLE 0 2 = 0 ∧ (live 0).bd.inColdReset = false ∧
    bit (0x1010018#96) 24 = true ∧ field (0x1010018#96) 0 3 = 0 := by decide
theorem meets_tapRegacc_read : bit (0x0010008#96) 24 = false ∧ field (0x0010008#96) 0 3 = 0 := by decide
theorem meets_tapRegacc_misaligned : field (0x0010009#96) 0 3 ≠ 0 := by decide
theorem meets_tapRiderDbg : (live 0).rd.debugHalt = false ∧ (live 0).getF Reg.GL_LIFECYCLE 0 2 = 0 ∧
    (live 0).bd.inColdReset = false := by decide
theorem meets_tapRiderDbg_halted : debugHalted.rd.debugHalt = true ∧ debugHalted.bd.inColdReset = false ∧
    debugHalted.getF Reg.GL_LIFECYCLE 0 2 = 0 := by decide
theorem meets_tapRiderDbg_words : (0x100 : Nat) < 0x180000 ∧ (0x108 : Nat) < 0x180000 ∧ (0x100 : Nat) ≠ 0x108 := by decide
theorem meets_supplyRise : (live 0).bd.supplyWarn = false ∧ (live 0).bd.inColdReset = false ∧ (live 0).bd.inWarmReset = false ∧
    (live 0).bd.supplyHold = false ∧ (live 0).getB Reg.CK_STATUS 5 = false := by decide
/-- In supply hold as CK_STATUS shows it, with SUPPLY_WARN at `warn` and low since cycle 7 where it is low. -/
def held (warn : Bool) : State :=
  ((live 0).setB Reg.CK_STATUS 5 true).setBd
    { (live 0).bd with supplyWarn := warn, supplyHold := true, warnLowAt := if warn then none else some 7 }
theorem meets_supplyRise_again : (held false).bd.supplyWarn = false ∧ (held false).bd.inColdReset = false ∧
    (held false).bd.inWarmReset = false ∧ (held false).bd.supplyHold = true ∧ (held false).bd.warnLowAt = some 7 ∧
    (held false).getB Reg.CK_STATUS 5 = true := by decide
theorem meets_supplyRise_reset : State.reset.bd.supplyWarn = false ∧ State.reset.bd.inColdReset = true := by decide
theorem meets_supplyFall : (held true).bd.supplyWarn = true ∧ (held true).bd.inColdReset = false ∧
    (held true).bd.inWarmReset = false := by decide
theorem meets_holdRelease : (held false).bd.warnLowAt = some 7 ∧ (held false).bd.supplyHold = true ∧
    (held false).getB Reg.CK_STATUS 5 = true := by decide
/-- Headgate 5 at word `w` of both scrubs, its stores empty. -/
def scrubAt (w : Nat) : State := (live 0).setHg 5 { Headgate.reset with scrubReplay := some w, scrubReseq := some w }
theorem meets_scrub : ((scrubAt 8191).hgAt 5).scrubReplay = some 8191 ∧ ((scrubAt 8191).hgAt 5).store = [] ∧
    ((((scrubAt 8191).hgAt 5).store.map (fun p => p.pkt.blocks)).sum ≤ 8191 / 8) := by decide
theorem meets_scrub_reseq : ((scrubAt 4095).hgAt 5).scrubReseq = some 4095 ∧ ((scrubAt 4095).hgAt 5).rx = [] := by decide
theorem meets_warmReset : (live 0).bd.inColdReset = false ∧ State.reset.bd.inColdReset = true := by decide
/-- Cold reset as it stands with ROOT_LOCK high. -/
def locked : State := State.reset.setBd { Boundary.reset with rootLock := true }
theorem meets_resetRelease : locked.bd.inColdReset = true ∧ locked.bd.rootLock = true ∧ locked.bd.supplyWarn = false := by decide
theorem meets_resetRelease_warm : ((live 0).setBd { (live 0).bd with inWarmReset := true }).bd.inColdReset = false ∧
    ((live 0).setBd { (live 0).bd with inWarmReset := true }).bd.inWarmReset = true ∧
    ((live 0).setBd { (live 0).bd with inWarmReset := true }).bd.supplyWarn = false := by decide
theorem meets_resetRelease_unlocked : State.reset.bd.inColdReset = true ∧ State.reset.bd.rootLock = false := by decide
/-- Start-up in stage `k`, with lifecycle state `st`. -/
def stageAt (k st : Nat) : State := (live st).setF Reg.GL_BOOT 0 4 k
theorem meets_selfTest : (stageAt 2 0).getF Reg.GL_BOOT 0 4 = 2 ∧ (stageAt 2 0).bd.inColdReset = false ∧
    (stageAt 2 0).bd.inWarmReset = false ∧ (stageAt 2 0).getB Reg.GL_BOOT 7 = false ∧ (stageAt 2 0).tap.testMode = false ∧
    (stageAt 2 0).getF Reg.GL_LIFECYCLE 0 2 ≠ 2 ∧ (stageAt 2 0).getB Reg.GL_RIDER_STATUS 1 = false ∧
    (∀ f ∈ [TestFail.routerBuffers 45, TestFail.headgateStore 152],
      (∀ n, f ≠ .reservoirBank n) ∧ f ≠ .riderSram ∧ ∀ n : Hg, f = .headgateStore n → n.val < 149 ∨ 151 < n.val) := by
  refine ⟨by decide, by decide, by decide, by decide, by decide, by decide, by decide, ?_⟩
  intro f hf
  simp only [List.mem_cons, List.not_mem_nil, or_false] at hf
  rcases hf with rfl | rfl
  · simp
  · refine ⟨by simp, by simp, fun n h => ?_⟩
    cases h
    exact .inr (by decide)
theorem meets_selfTest_fatal : ∃ f ∈ [TestFail.routerBuffers 45, TestFail.riderSram],
    (∃ n, f = TestFail.reservoirBank n) ∨ f = .riderSram ∨ ∃ n : Hg, f = .headgateStore n ∧ 149 ≤ n.val ∧ n.val ≤ 151 :=
  ⟨_, by decide, .inr (.inl rfl)⟩
theorem meets_selfTest_retired : (stageAt 2 2).getF Reg.GL_BOOT 0 4 = 2 ∧ (stageAt 2 2).bd.inColdReset = false ∧
    (stageAt 2 2).bd.inWarmReset = false ∧ (stageAt 2 2).tap.testMode = false ∧ (stageAt 2 2).getF Reg.GL_LIFECYCLE 0 2 = 2 := by decide
theorem meets_selfTest_test : ((stageAt 2 0).setTap { Tap.reset with testMode := true }).getF Reg.GL_BOOT 0 4 = 2 ∧
    ((stageAt 2 0).setTap { Tap.reset with testMode := true }).bd.inColdReset = false ∧
    ((stageAt 2 0).setTap { Tap.reset with testMode := true }).bd.inWarmReset = false ∧
    ((stageAt 2 0).setTap { Tap.reset with testMode := true }).tap.testMode = true := by decide
theorem meets_meshDone : (stageAt 4 0).getF Reg.GL_BOOT 0 4 = 4 ∧ (stageAt 4 0).getB Reg.GL_BOOT 7 = false := by decide
theorem meets_routerReset : (live 0).bd.unitBusy = none ∧
    (∀ p : Port, (live 0).enabled (.rt 45 p) = false ∧ ∀ f, (LEnd.rt 45 p).far = some f → (live 0).enabled f = false) := by
  refine ⟨rfl, fun p => ⟨by revert p; decide, ?_⟩⟩
  have h : ∀ p : Port, ((LEnd.rt 45 p).far).all (fun f => !(live 0).enabled f) = true := by decide
  intro f hf
  simpa [hf] using h p
theorem meets_routerReset_refused : ∃ p : Port, ((live 0).setB (Reg.RT_CTRL 45) 6 true).enabled (.rt 45 p) = true :=
  ⟨6, by decide⟩
/-- Headgate 7 fully isolated, its links disabled. -/
def isolated : State := ((live 0).setB (Reg.HG_LEVEE 7) 0 true).setB (Reg.HG_LEVEE 7) 2 true
theorem meets_headgateReset : isolated.bd.unitBusy = none ∧ isolated.getB (Reg.HG_LEVEE 7) 0 = true ∧
    isolated.getB (Reg.HG_LEVEE 7) 2 = true ∧ isolated.enabled (.hg 7 0) = false ∧ isolated.enabled (.hg 7 1) = false := by decide
theorem meets_headgateReset_refused : (live 0).getB (Reg.HG_LEVEE 7) 0 = false := by decide
theorem meets_unitDone (kind : Bool) : ((live 0).setBd { Boundary.reset with unitBusy := some (kind, 45, 64) }).bd.unitBusy =
    some (kind, 45, 64) := rfl
theorem meets_lcProgDone : ((live 0).setBd { Boundary.reset with lcProgReq := true, lcProgVal := 1 }).bd.lcProgReq = true := rfl
theorem meets_triggers : canonical (live 0) := ⟨by decide, by decide⟩
theorem meets_triggers_bits : bit (0x750 : Word) 4 = true ∧ bit (0x720 : Word) 9 = true ∧ bit (0x5720 : Word) 8 = true ∧
    bit (0x5420 : Word) 4 = false ∧ bit (0x5420 : Word) 8 = false ∧ bit (0x10010 : Word) 16 = true := by decide
theorem meets_registerWrite : (0xD0000 : BitVec 24).toNat % 8 = 0 ∧ (regAt (0xD0000 : BitVec 24).toNat).isSome = true ∧
    (regAt (0x42000 : BitVec 24).toNat).isSome = true := by decide
theorem meets_registerWrite_none : (0xC4000 : BitVec 24).toNat < 0x800000 ∧ (0x7FFFFF : BitVec 24).toNat < 0x800000 := by decide
theorem meets_lockedSlot : ((live 0).setB (Reg.HG_PROT_CTRL 7) 1 true).getB (Reg.HG_PROT_CTRL 7) 1 = true ∧
    Reg.HG_PROT_CTRL 7 / 0x1000 = (BitVec.ofNat 24 (Reg.HG_PROT_RIGHTS 7 31)).toNat / 0x1000 := by decide
theorem meets_sealed : (live 1).getF Reg.GL_LIFECYCLE 0 2 ≠ 0 ∧ (regAt (0x44000 : BitVec 24).toNat).isSome = true ∧
    (regAt (0x200000 : BitVec 24).toNat).isSome = true := by decide
theorem meets_snapshot : (((live 0).setPr { Probes.reset with live := [(0, 5), (2479, 7)] }).pr.live.map Prod.fst).Nodup ∧
    ∀ x ∈ ((live 0).setPr { Probes.reset with live := [(0, 5), (2479, 7)] }).pr.live, x.1 < 2480 := by decide
/-- A request-store entry that passed its slot, with one data beat. -/
def entryOf (id : Nat) (op : BitVec 8) (lo : Addr) (bytes : BitVec 9) : Entry :=
  { id := id, pkt := { hdr := { Header.zero with op := op, dst := 151, src := 7, addr := lo, bytes := bytes }, ext := 0,
                       data := [{ data := 0x55, poison := false }] },
    lo := lo, bytes := bytes, partDenied := false, checked := true, marked := false, phase := .waiting, treqId := none,
    beatsLeft := 0, arrivedAt := 0, presentedAt := none, broken := false, chunks := [], outcome := 0, doneBytes := 0,
    rdata := [], noWrite := false }
/-- A fabric with the entries `es` at headgate `n`. -/
def withEntries (n : Nat) (es : List Entry) : State := (live 0).updHg n (fun h => { h with entries := es })
/-- A fabric with the entries `es` at headgate 151 and the FCS window decoded where Table 1-6 places it. -/
def fcsHolds (es : List Entry) : State := (withEntries 151 es).setReg (Reg.HG_DEC_SLOT_w0 151 151) (0x800000FF00000000)
theorem meets_fcsRead : (fcsHolds [entryOf 3 opRD 0xFF00044000 7]).getB (Reg.HG_LEVEE 151) 0 = false ∧
    ((fcsHolds [entryOf 3 opRD 0xFF00044000 7]).hgAt 151).entries.find?
      (fun e => e.checked && decide (e.phase = .waiting)) = some (entryOf 3 opRD 0xFF00044000 7) ∧
    boundWord (fcsOffset (fcsHolds []) 0xFF00044000) = false ∧ fcsOffset (fcsHolds []) 0xFF00044000 ≠ Reg.CK_TIME_SEC := by decide
theorem meets_fcsWrite : ((fcsHolds [entryOf 3 opWR 0xFF00044000 7]).hgAt 151).entries.find?
      (fun e => e.checked && decide (e.phase = .waiting)) = some (entryOf 3 opWR 0xFF00044000 7) ∧
    classAllows (fcsHolds []) (fcsOffset (fcsHolds []) 0xFF00044000) = true ∧ (entryBeats (entryOf 3 opWR 0xFF00044000 7)).length = 1 ∧
    (∀ b ∈ entryBeats (entryOf 3 opWR 0xFF00044000 7), b.poison = false) := by decide
theorem meets_fcsIdle : (∀ e ∈ ((live 0).hgAt 151).entries, e.checked = true → e.phase ≠ .waiting) ∧
    ((live 0).setB (Reg.HG_LEVEE 151) 0 true).getB (Reg.HG_LEVEE 151) 0 = true := by decide
theorem meets_hai : hasHai 7 = true ∧ (100 ≤ (100 : Hg).val ∧ (100 : Hg).val ≤ 124) ∧ (151 : Hg).val = 151 ∧
    ¬((100 ≤ (150 : Hg).val ∧ (150 : Hg).val ≤ 124) ∨ (150 : Hg).val = 151) ∧ ((39 : Hg).val < 40 ∨ 55 < (39 : Hg).val) ∧
    (40 ≤ (55 : Hg).val ∧ (55 : Hg).val ≤ 55) := by decide
/-- Headgate 7 changed by `f`, its interface running. -/
def running (f : Headgate → Headgate) : State :=
  (live 0).updHg 7 (fun h => f { h with portLive := true, aclkEn := true })
/-- A request of context 0 with no beats. -/
def anyReq (op : BitVec 8) : Req := { op := op, ctx := 0, addr := 5, bytes := 63, aop := 0, secret := false }
/-- A request held in the headgate, its beats in. -/
def heldReq (op : BitVec 8) (v : Verdict) (ps : List Part) : PendReq :=
  { req := anyReq op, beats := [], need := 0, whole := true, verdict := v, parts := ps, absorb := false }
/-- Headgate 7 admitting, its pair to 5 enabled. -/
def admitting : State :=
  (((running id).setB (Reg.HG_ADMIT 7) 0 true).setB (Reg.HG_ALLOT 7 5) 36 true).setB (Reg.HG_ATTACH_k 7 5) 63 true
theorem meets_reqReady : (admitting.hgAt 7).portLive = true ∧ (admitting.hgAt 7).aclkEn = true ∧ inDead admitting 7 = false ∧
    reqReady admitting 7 (planReq admitting 7 (anyReq opMSG)) = true ∧
    (planReq admitting 7 (anyReq opMSG)).verdict = .ok := by decide
theorem meets_reqReady_held :
    (planReq (((admitting.setReg (Reg.CK_HG_DOM 5) 0x23).setB (Reg.HG_DOM_CLOSE 7) 3 true).setB (Reg.CK_DOM 3) 0 true) 7
      (anyReq opMSG)).verdict = .held [3] := by decide
theorem meets_reqNotReady : reqReady ((running id).updHg 7 (fun h => { h with hold := true })) 7
    (planReq ((running id).updHg 7 (fun h => { h with hold := true })) 7 (anyReq opMSG)) = false := by decide
theorem meets_deadCycle : inDead (running (fun h => { h with dead := some 5 })) 7 = true := by decide
theorem meets_notRunning : ((live 0).hgAt 7).portLive = false := by decide
theorem meets_decodeCloses : (planReq (running id) 7 (anyReq opMSG)).verdict ≠ .malformed ∧
    (running id).getB (Reg.HG_ADMIT 7) 0 = false := by decide
theorem meets_decodeSplits : isCoherent opRDS = true ∧ opRDLK ≠ opATOM := by decide
/-- A write of which one beat of two is in. -/
def halfWrite : PendReq :=
  { req := anyReq opWR, beats := [{ data := 1, be := 0xFF, poison := false }], need := 2, whole := false, verdict := .ok, parts := [], absorb := false }
theorem meets_writing : ((running (fun h => { h with reqs := [] ++ [halfWrite] })).hgAt 7).reqs = [] ++ [halfWrite] ∧
    halfWrite.whole = false ∧ (∀ ds, halfWrite.verdict ≠ .held ds) := by
  refine ⟨rfl, by decide, fun d => by simp [halfWrite]⟩
theorem meets_notWriting : ((running id).hgAt 7).reqs = [] ∧ (heldReq opRD .ok []).whole = true := by decide
theorem meets_acceptance : ((running (fun h => { h with reqs := [heldReq opFENCE .ok []] })).hgAt 7).reqs =
    heldReq opFENCE .ok [] :: [] ∧ (heldReq opFENCE .ok []).whole = true ∧
    ((running id).hgAt 7).portLive = true ∧ ((running id).hgAt 7).aclkEn = true ∧
    badForm { heldReq opWR .closed [] with need := 1 } = true := by decide
theorem meets_acceptance_stopped : (((running id).updHg 7 (fun h => { h with aclkEn := false })).hgAt 7).aclkEn = false ∧
    (((running id).updHg 7 (fun h => { h with aclkEn := false })).hgAt 7).portLive = true := by decide
theorem meets_closed : ((running (fun h => { h with reqs := [heldReq opRD .closed [], halfWrite] })).hgAt 7).reqs =
    heldReq opRD .closed [] :: [halfWrite] ∧ badForm (heldReq opRD .closed []) = false := ⟨rfl, by decide +kernel⟩
theorem meets_notEnabled :
    (∀ op ∈ [opRD, opWRP], badForm (heldReq op .ok [{ target := .hg 5, lo := 5, bytes := 63, loc := some ocDenied }]) = false ∧
      op ≠ opGDATA ∧ op ≠ opFENCE ∧ op ≠ opRDLK ∧ op ≠ opWRUL ∧ op ≠ opUNLK) ∧ isPosted opRD = false ∧ isPosted opWRP = true := by
  decide
/-- A transaction of context 0 with the parts `ps`. -/
def txnOf (id : Nat) (op : BitVec 8) (ps : List PartSt) (absorb : Bool) : Txn :=
  { id := id, req := anyReq op, tag := 0, born := 0, posted := false, parts := ps, sent := 0, absorb := absorb }
theorem meets_fence : ((running (fun h => { h with txns := [txnOf 4 opFENCE [mkPart 1000 0 0 none] false] })).hgAt 7).txns.find?
    (fun t => decide (t.req.op = opFENCE) && decide (t.req.ctx = 0) && !t.complete) =
      some (txnOf 4 opFENCE [mkPart 1000 0 0 none] false) ∧
    (∀ p ∈ (running id |>.hgAt 7).store, p.kind = .req → p.pkt.hdr.ctx = 0 → 4 ≤ p.txn) := by decide
theorem meets_fenceWaits : ∃ p ∈ [{ mkStored Pkt.zero .req 5 0 3 with txn := 3 }], p.kind = .req ∧ p.pkt.hdr.ctx = 0 ∧ p.txn < 4 :=
  ⟨_, List.mem_cons_self, by decide⟩
theorem meets_response :
    ((running (fun h => { h with txns := [txnOf 4 opRD [mkPart 5 5 63 (some ocOK)] false] })).hgAt 7).txns[0]? =
      some (txnOf 4 opRD [mkPart 5 5 63 (some ocOK)] false) ∧ (txnOf 4 opRD [mkPart 5 5 63 (some ocOK)] false).complete = true ∧
    rspAllowed ((running (fun h => { h with txns := [txnOf 4 opRD [mkPart 5 5 63 (some ocOK)] false] })).hgAt 7)
      (txnOf 4 opRD [mkPart 5 5 63 (some ocOK)] false) = true ∧
    (txnOf 4 opRD [mkPart 5 5 63 (some ocOK)] false).sent + 1 < (txnOf 4 opRD [mkPart 5 5 63 (some ocOK)] false).beats ∧
    cackRoom (running id |>.hgAt 7) (txnOf 4 opRD [mkPart 5 5 63 (some ocOK)] false) = true ∧
    (txnOf 4 opMSG [mkPart 5 5 63 (some ocDenied)] false).beats ≤ 1 := by decide
theorem meets_responseWaits :
    rspAllowed { Headgate.reset with txns := [txnOf 3 opRD [mkPart 5 5 63 none] false, txnOf 4 opRD [mkPart 5 5 63 (some ocOK)] false] }
      (txnOf 4 opRD [mkPart 5 5 63 (some ocOK)] false) = false := by decide
/-- A context that reopens. -/
def reopening : Headgate := Headgate.reset.setCtx 0 { CtxSt.reset with reopening := true, tag := 9 }
theorem meets_siphon : (txnOf 4 opRD [mkPart 5 5 63 (some ocOK)] true).complete = true ∧
    cackRoom reopening (txnOf 4 opRD [mkPart 5 5 63 (some ocOK)] true) = true ∧ (reopening.ctxAt 0).reopening = true ∧
    (∀ u ∈ [txnOf 4 opRD [mkPart 5 5 63 (some ocOK)] true], u.id ≠ 4 → u.req.ctx = 0 → u.absorb = false) := by decide
/-- A message of `k` beats on MSGIN. -/
def msgOf (k : Nat) (entry : Option Nat) : MsgIn :=
  { src := 5, tag := 0, bytes := 63, gua := entry.isNone, data := List.replicate k DBeat.zero, sent := 0, entry := entry, chanRec := 2 }
theorem meets_msgin : ((running id).hgAt 7).portLive = true ∧ (msgOf 2 (some 3)).sent + 1 < (msgOf 2 (some 3)).data.length ∧
    (msgOf 1 none).data.length ≤ (msgOf 1 none).sent + 1 ∧ (msgOf 1 none).entry = none ∧ (msgOf 1 (some 3)).entry = some 3 ∧
    0 < openBlocks ((running (fun h => { h with msgin := [msgOf 1 (some 3)] })).hgAt 7) := by decide
theorem meets_msgin_full : openBlocks { Headgate.reset with
    store := List.replicate 4 (mkStored { hdr := Header.zero, ext := 0, data := List.replicate 255 DBeat.zero } .rsp 5 0 0) } = 0 := by
  decide +kernel
/-- A target 7 with its interface running and one request waiting. -/
def targetOf (e : Entry) : State := running (fun h => { h with entries := [e] })
theorem meets_treq : nextEntry? (targetOf (entryOf 3 opRD 0x40 7)) 7 = some (entryOf 3 opRD 0x40 7, .present) ∧
    (targetOf (entryOf 3 opRD 0x40 7)).getB (Reg.HG_LEVEE 7) 0 = false ∧
    (targetOf (entryOf 3 opRD 0x40 7)).getB (Reg.HG_DOM_STATUS 7) 2 = false ∧ Judge.present ≠ .lost ∧ opRD ≠ opUNLK ∧
    ((targetOf (entryOf 3 opRD 0x40 7)).hgAt 7).lock.due (targetOf (entryOf 3 opRD 0x40 7)).fclk = false ∧
    (entryOf 3 opRD 0x40 7).noWrite = false ∧ nextEntry? (running id) 7 = none := by decide
theorem meets_treq_due : (LockMgr.grant (5, 0) (some 0)).due (live 0).fclk = true := by decide
theorem meets_treq_ids : 3 ∈ freeIds (targetOf (entryOf 3 opRD 0x40 7)) 7 := by decide
/-- The same, in the name of a lock its master no longer holds. -/
def lockedOut : Entry :=
  { entryOf 3 opRD 0x40 7 with pkt := { hdr := { Header.zero with op := opRD, attr := mkAttr false true false false 1 false false }, ext := 0, data := [] } }
theorem meets_treq_lost : nextEntry? ((targetOf lockedOut).setB (Reg.HG_CFG 7) 1 true) 7 = some (lockedOut, .lost) := by decide
/-- One write beat. -/
def aBeat : Beat := { data := 1, be := 0xFF, poison := false }
theorem meets_twdata : ((running (fun h => { h with twdata := [(9, [aBeat])] })).hgAt 7).twdata = (9, aBeat :: []) :: [] := rfl
/-- A request presented under ID 9. -/
def presented (op : BitVec 8) : Entry := { entryOf 3 op 0x40 7 with phase := .presented, treqId := some 9 }
theorem meets_twdata_last : ((targetOf (presented opWRP)).hgAt 7).entries.find? (fun e => decide (e.treqId = some 9)) =
    some (presented opWRP) := by decide
theorem meets_trsp : ((targetOf (presented opRD)).hgAt 7).entries.find?
      (fun e => decide (e.treqId = some 9) && decide (e.phase = .presented)) = some (presented opRD) ∧
    1 + rspBeats opRD 0x40 7 ≤ openBlocks ((targetOf (presented opRD)).hgAt 7) := by decide
theorem meets_trsp_bad : ¬((9 : BitVec 4) = ocOK ∨ (9 : BitVec 4) = ocPoisoned) ∧ (entryBeats (presented opRD)).any (·.poison) = false := by
  decide
theorem meets_trsp_leveed : ((running id).setB (Reg.HG_LEVEE 7) 0 true).getB (Reg.HG_LEVEE 7) 0 = true ∧
    (((running id).setB (Reg.HG_LEVEE 7) 0 true).hgAt 7).portLive = true := by decide
/-- Headgate 40, a caching one, with its interface running. -/
def caching (f : Headgate → Headgate) : State := (live 0).updHg 40 (fun h => f { h with portLive := true, aclkEn := true })
/-- A snoop of transaction 0x123 from home 100 for requester 41. -/
def snoopOf (presented : Bool) : SnoopSt :=
  { pkt := { hdr := { Header.zero with op := 0x21, src := 100, dst := 40, addr := 0x40, xinfo := 0x01232900 }, ext := 0, data := [] },
    arrival := 0, presented := presented }
theorem meets_snoop : isCaching 40 = true ∧ nextSnoop ((caching (fun h => { h with snoops := [snoopOf false] })).hgAt 40) = some (snoopOf false) ∧
    ((caching (fun h => { h with snoops := [snoopOf true] })).hgAt 40).snoops.find?
      (fun q => q.presented && decide (q.pkt.hdr.txn = 0x123)) = some (snoopOf true) ∧
    snoopsDead (caching id) 40 = false ∧ 4 ≤ openBlocks ((caching id).hgAt 40) ∧ snoopsDead (live 0) 40 = true ∧
    deadDest (caching id) 40 100 = false ∧ deadDest ((caching id).setB (Reg.HG_DEAD_DEST 40 1) 36 true) 40 100 = true := by decide
theorem meets_snoop_none : (∀ q ∈ ((caching id).hgAt 40).snoops, q.presented = true → q.pkt.hdr.txn ≠ (0x123 : BitVec 16).toNat) ∧
    (∀ x ∈ ((caching id).hgAt 40).cackWait, ¬(x.1 = 0 ∧ x.2.1 = 1)) := by decide
theorem meets_cack : ((caching (fun h => { h with cackWait := [(0, 1, 100, 0x40)] })).hgAt 40).cackWait = (0, 1, 100, 0x40) :: [] := rfl
theorem meets_fall : ((running id).hgAt 7).portLive = true ∧ ((live 0).hgAt 7).portLive = false := by decide
theorem meets_rise : (live 0).getB (Reg.CK_HG_DOM 7) 5 = false ∧
    ∃ x ∈ [txnOf 4 opRD [] true], x.req.ctx = 0 ∧ x.absorb = true := ⟨by decide, _, List.mem_cons_self, by decide⟩
/-- Headgate 7 alone in domain 3, which is in STATE `k`. -/
def inDomain (k : Nat) : State := ((running id).setReg (Reg.CK_HG_DOM 7) 0x23).setF (Reg.CK_DOM 3) 1 3 k
theorem meets_pwrAck : ((inDomain 3).hgAt 7).portLive = true ∧ (inDomain 3).getF (Reg.CK_DOM 3) 1 3 = 3 ∧
    (inDomain 0).getF (Reg.CK_DOM 3) 1 3 ≠ 3 := by decide
theorem meets_wakeLimit : ((running (fun h => { h with wakeHeld := some 5, reqs := [heldReq opRD (.held [3]) []] })).hgAt 7).wakeHeld = some 5 ∧
    ((running id).hgAt 7).wakeHeld = none ∧ badForm (heldReq opRD (.held [3]) []) = false ∧ (∀ d ∈ [3], d < 32) := by decide
/-- A request for headgate 5 in the replay store of headgate 7, waiting or injected with SEQ `q`. -/
def storedOf (waiting : Bool) (q : Seq) : StPkt :=
  { mkStored { hdr := { Header.zero with op := opMSG, src := 7, dst := 5, seq := q }, ext := 0, data := [] } .req 5 0 1 with
    waiting := waiting, stamps := if waiting then [] else [0] }
/-- Headgate 7 able to inject toward 5, with `f` applied: link 0 up and live, one credit, a valid map entry. -/
def injecting (f : Headgate → Headgate) : State :=
  let s := ((running f).setB (Reg.HG_ATTACH_k 7 5) 63 true).setReg (Reg.HG_ALLOT 7 5) 0x1000000001
  (s.setB (Reg.HG_ATTACH 7) 8 true).setB (Reg.HG_ATTACH 7) 4 true
theorem meets_injection : injectNow (injecting (fun h => { h with store := [storedOf true 0] })) 7 0 = true ∧
    ((injecting (fun h => { h with store := [storedOf true 0] })).hgAt 7).store[0]? = some (storedOf true 0) ∧
    (storedOf true 0).lost = false ∧ (storedOf true 0).pkt.hdr.op ≠ opGDATA ∧ injectNow (injecting id) 7 0 = false := by decide
theorem meets_received_none : nextRx ((running id).hgAt 7) = none := rfl
/-- A one-flit packet without a valid check. -/
def badRaw : RawPkt := { flits := [{ fcw := 0, payload := 0 }], vc := 2, stored := true }
theorem meets_received_bad : nextRx ((running (fun h => { h with rxPkts := [badRaw] })).hgAt 7) = some (0, badRaw) ∧
    pktOk badRaw.flits badRaw.vc = false := by decide +kernel
/-- A response of headgate 5 with SEQ `q` on the wire, and one ECMT. -/
def goodRaw (op : BitVec 8) (q : Seq) (vc : Nat) : RawPkt :=
  { flits := ({ hdr := { Header.zero with op := op, src := 5, dst := 7, seq := q }, ext := 0, data := [] } : Pkt).flits vc 0 false 0, vc := vc, stored := true }
theorem meets_received_good : pktOk (goodRaw opCMP 0 2).flits 2 = true ∧ poisOk (goodRaw opCMP 0 2).flits = true ∧
    vnOf (pktOf (goodRaw opCMP 0 2).flits).hdr.op = some 1 ∧ (pktOf (goodRaw opCMP 0 2).flits).hdr.seq = 0 := by decide +kernel
theorem meets_received_ranges : ((7 : Seq) - 0).toNat = 7 ∧ ((2047 : Seq) - 0).toNat ≤ 2047 ∧ 2047 < ((2048 : Seq) - 0).toNat ∧
    ((63487 : Seq) - 0).toNat < 63488 ∧ 63488 ≤ ((63488 : Seq) - 0).toNat := by decide
theorem meets_received_cmt : pktOk (goodRaw opECMT 0 6).flits 6 = true ∧ poisOk (goodRaw opECMT 0 6).flits = true ∧
    vnOf (pktOf (goodRaw opECMT 0 6).flits).hdr.op = some 3 := by decide +kernel
/-- Headgate 7 with a receiving state from 5. -/
def receiving (x : PairRx) : State := running (fun h => h.setRx 5 x)
theorem meets_held : (∃ p ∈ ((receiving { PairRx.reset with held := [Pkt.zero] }).hgAt 7 |>.rxAt 5).held,
      p.hdr.seq = ((receiving { PairRx.reset with held := [Pkt.zero] }).hgAt 7 |>.rxAt 5).next) ∧
    (∀ p ∈ ((receiving PairRx.reset).hgAt 7 |>.rxAt 5).held, p.hdr.seq ≠ ((receiving PairRx.reset).hgAt 7 |>.rxAt 5).next) :=
  ⟨⟨Pkt.zero, List.mem_singleton.mpr rfl, rfl⟩, by simp [receiving, running, State.updHg, State.setHg, State.hgAt, live, State.setF, State.setReg, State.setBd, State.reset, Tab.get, Tab.set, Headgate.rxAt, Headgate.setRx, PairRx.reset, Headgate.reset]⟩
theorem meets_due : ((receiving { PairRx.reset with firstAt := some 9, freedAt := some 9, credAt := some 9 }).hgAt 7 |>.rxAt 5).firstAt = some 9 ∧
    ((receiving { PairRx.reset with credAt := some 9 }).hgAt 7 |>.rxAt 5).freed = 0 ∧
    ((receiving { PairRx.reset with credAt := some 9 }).hgAt 7 |>.rxAt 5).credRepeat = false := by decide
/-- A control packet of headgate 5 with its number. -/
def cmtOf (op : BitVec 8) (x : BitVec 32) : Pkt := { hdr := { Header.zero with op := op, src := 5, dst := 7, xinfo := x }, ext := 0, data := [] }
/-- Headgate 7 with two uncommitted packets to 5 and the control packet `p` in its inbox. -/
def uncommittedTwo (p : Pkt) : State :=
  running (fun h => { h.setTx 5 { PairTx.reset with next := 2, pass := true } with store := [storedOf false 0, storedOf false 1], cmtIn := [p] })
theorem meets_ecmt : ((uncommittedTwo (cmtOf opECMT 0)).hgAt 7).cmtIn = cmtOf opECMT 0 :: [] ∧ (cmtOf opECMT 0).hdr.chcmt = false ∧
    (cmtOf opECMT 0x10000).hdr.txn = 1 ∧ (uncommitted ((uncommittedTwo (cmtOf opECMT 0)).hgAt 7) 5).length = 2 ∧
    ((1 : Seq) - ((uncommittedTwo (cmtOf opECMT 0)).hgAt 7 |>.txAt 5).oldest).toNat < 2 ∧
    2 ≤ ((2 : Seq) - ((uncommittedTwo (cmtOf opECMT 0)).hgAt 7 |>.txAt 5).oldest).toNat ∧
    64512 ≤ ((64512 : Seq) - ((uncommittedTwo (cmtOf opECMT 0)).hgAt 7 |>.txAt 5).oldest).toNat := by decide
theorem meets_enak : ((uncommittedTwo (cmtOf opENAK 0)).hgAt 7).cmtIn = cmtOf opENAK 0 :: [] ∧ (cmtOf opENAK 0).hdr.chcmt = false := by decide
theorem meets_cred : ((uncommittedTwo (cmtOf opCRED 0x30000)).hgAt 7).cmtIn = cmtOf opCRED 0x30000 :: [] ∧ (cmtOf opCRED 0x30000).hdr.txn = 3 := by
  decide
theorem meets_commitTimeout : uncommitted ((uncommittedTwo Pkt.zero).hgAt 7) 5 ≠ [] ∧ uncommitted ((running id).hgAt 7) 5 = [] ∧
    max 1 ((running id).getF (Reg.HG_E2E_CFG 7) 29 3) ≤ min 7 (3 + 1) ∧ min 7 (2 + 1) < max 1 ((running id).getF (Reg.HG_E2E_CFG 7) 29 3) := by
  decide
theorem meets_replayPass : ((running (fun h => h.setTx 5 { PairTx.reset with passDue := true, pass := true })).hgAt 7 |>.txAt 5).passDue = true ∧
    ((running id).hgAt 7 |>.txAt 5).pass = false := by decide
theorem meets_replay :
    nextReplay (injecting (fun h => { h.setTx 5 { PairTx.reset with next := 1, pass := true } with store := [storedOf false 0], passTurn := true })) 7 5 = some 0 ∧
    linkUp (injecting id) 7 = true ∧ attachValid (injecting id) 7 5 = true ∧ (storedOf false 0).lost = false := by decide
theorem meets_epoch : epochCount ((running id).hgAt 7) (curEpoch (running id) 7 + 1) = 0 ∧
    epochCount { Headgate.reset with store := [{ storedOf true 0 with born := 1 }] } (0 + 1) ≠ 0 := by decide
theorem meets_pairReset : uncommitted ((running id).hgAt 7) 5 = [] ∧ deadDest ((running id).setB (Reg.HG_DEAD_DEST 7 0) 5 true) 7 5 = true ∧
    deadDest (running id) 7 5 = false ∧ pairHeld (running id) 7 5 = false := by decide
/-- The one flit of a response from headgate 5 to 7 on channel 2, LAPORT East. -/
def aFlit : Flit :=
  ((({ hdr := { Header.zero with op := opCMP, src := 5, dst := 7 }, ext := 0, data := [] } : Pkt).flits 2 6 false 0).head?).getD { fcw := 0, payload := 0 }
/-- Headgate 7 with link 0 in service and the flits `fs` on it. -/
def linked (fs : List Flit) : State := ((live 0).setB (Reg.HG_ATTACH 7) 8 true).setWire (.hg 7 0) fs
theorem meets_headgateFlit : attachOf 7 (0 : Fin 2) = (7, 0) ∧ (linked [aFlit]).wire (.hg 7 0) = aFlit :: [] ∧ aFlit.vc ≤ 8 ∧ aFlit.hopOk = true ∧
    (linked [aFlit]).enabled (.hg 7 0) = true ∧ (linked [aFlit]).faulty (.hg 7 0) = false ∧ aFlit.isHead = true ∧ aFlit.isLast = true ∧
    headFault aFlit = false ∧ Tab.get ((linked [aFlit]).hgAt 7).rxAsm [] (16 * (0 : Fin 2).val + aFlit.vc) = [] := by decide +kernel
/-- Router 45 with its East and West ports enabled. -/
def routing : State := ((live 0).setB (Reg.RT_CTRL 45) 4 true).setB (Reg.RT_CTRL 45) 6 true
theorem meets_routerFlit : ((nextOnWire (routing.setWire (.rt 45 4) [aFlit]) (.rt 45 4)).map (·.1)) = some aFlit ∧ aFlit.kind = 3 ∧ aFlit.mc = false ∧
    4 ≤ aFlit.laport ∧ routing.enabled (.rt 45 aFlit.laport) = true ∧ routing.faulty (.rt 45 aFlit.laport) = false ∧
    (routing.rtAt 45).openAt 4 aFlit.vc = none ∧ aFlit.isControl = false := by decide +kernel
theorem meets_routerFlit_bufs : ∀ q v, ∀ b ∈ (routing.rtAt 45).buf q v, b.copies ≠ [] ∧ ∀ c ∈ b.copies,
    routing.enabled (.rt 45 c.1) = true ∧ routing.faulty (.rt 45 c.1) = false := by
  intro q v b hb
  exact absurd (show b ∈ [] from hb) (by simp)
theorem meets_flitLost : ((nextOnWire (linked [aFlit]) (.hg 7 0)).map (fun x => x.2.enabled (.hg 7 0))) = some true ∧
    ((nextOnWire ((live 0).setWire (.hg 7 0) [aFlit]) (.hg 7 0)).map (fun x => x.2.enabled (.hg 7 0))) = some false ∧
    ((nextOnWire ((linked [aFlit]).setB (Reg.HG_ATTACH 7) 2 true) (.hg 7 0)).map (fun x => x.2.faulty (.hg 7 0))) = some true := by decide +kernel
/-- A flit at a router's input toward East. -/
def bufOf (f : Flit) (v : Nat) : BufFlit := { flit := f, copies := [(6, 0)], vcOut := v, bad := false, trunc := false }
/-- Router 45 with one flit from West on channel `v` toward East, PORT_LIVE high at West. -/
def buffered (f : Flit) (v : Nat) : State :=
  (routing.setB (Reg.RT_PORT_STATUS 45) 4 true).updRt 45 (fun r => r.setBuf 4 v [bufOf f v])
theorem meets_arbitration : (buffered aFlit 2).enabled (.rt 45 6) = true ∧ (buffered aFlit 2).faulty (.rt 45 6) = false ∧
    (LEnd.rt 45 6).far = some (.rt 46 4) ∧ guaAsk (buffered aFlit 2) 45 6 = [] ∧ presents (buffered aFlit 2) 45 4 = some (2, (6 : Port).val) ∧
    (∀ q : Port, q ≠ 4 → presents (buffered aFlit 2) 45 q = none) ∧ ((buffered aFlit 2).rtAt 45).buf 4 2 = bufOf aFlit 2 :: [] ∧
    (∀ x ∈ ((buffered aFlit 2).rtAt 45).bufs, ∀ y ∈ x.2, y.bad = false) := by decide +kernel
theorem meets_arbitration_off : (live 0).enabled (.rt 45 6) = false := by decide
theorem meets_guaranteed : guaAsk (buffered aFlit 8) 45 6 = [(4 : Port).val] ∧ 0 < ((buffered aFlit 8).link (.rt 45 6)).credit 8 ∧
    (((buffered aFlit 8).rtAt 45).guaArb 6).hold = none ∧ ((buffered aFlit 8).rtAt 45).buf 4 8 = bufOf aFlit 8 :: [] := by decide +kernel
theorem meets_heartbeatOut : Tab.get ((routing.updRt 45 (fun r => { r with hbDue := [(6, true)] })).rtAt 45).hbDue false 6 = true ∧
    guaAsk (routing.updRt 45 (fun r => { r with hbDue := [(6, true)] })) 45 6 = [] := by decide
theorem meets_credit : Tab.get (routing.setCredits [((LEnd.rt 45 6).key, [3])]).credits [] (LEnd.rt 45 6).key = 3 :: [] ∧ (3 : BitVec 4).toNat ≤ 8 ∧
    routing.enabled (rcvEnd (.router 45 6)) = true ∧ routing.faulty (rcvEnd (.router 45 6)) = false ∧
    Tab.get routing.credits [] (rcvEnd (.router 45 6)).key = [] := by decide
theorem meets_credit_bad : (∀ w, w = creditBits (Tab.get routing.credits [] (LEnd.rt 45 6).key).head? ^^^ 1 →
      (bitsOf w 6).length % 2 = 0 ∨ (bit w 5 = true ∧ 8 < field w 1 4)) ∧
    (∀ w, w = creditBits (Tab.get (linked []).credits [] (LEnd.hg 7 0).key).head? ^^^ 0x32 →
      (bitsOf w 6).length % 2 = 0 ∨ (bit w 5 = true ∧ 8 < field w 1 4)) := by
  constructor <;> (intro w h; subst h; decide)
theorem meets_credit_off : (live 0).enabled (rcvEnd (.router 45 6)) = false := by decide
theorem meets_heartbeatIn : (linked [heartbeatFlit (nodeOf 7) 0 5]).wire (.hg 7 0) = heartbeatFlit (nodeOf 7) 0 (5 : BitVec 16).toNat :: [] ∧
    ((linked []).link (.hg 7 0)).hbFirst = true := by decide +kernel
theorem meets_lostLive : (routing.setB (Reg.RT_PORT_STATUS 45) 6 true).live (.rt 45 6) = true ∧ routing.live (.rt 45 6) = false ∧
    ((linked []).setB (Reg.HG_ATTACH 7) 4 true).live (.hg 7 0) = true := by decide
/-- Headgate 7 with both links in service and healthy, AUTO set. -/
def tandem : State :=
  let s := (((linked []).setB (Reg.HG_ATTACH 7) 9 true).setB (Reg.HG_ATTACH 7) 4 true).setB (Reg.HG_ATTACH 7) 5 true
  (s.setB (Reg.HG_ATTACH 7) 1 true).setLink (.hg 7 1) { LinkEnd.reset with hbFirst := false }
theorem meets_failover : tandem.enabled (.hg 7 0) = true ∧ tandem.faulty (.hg 7 0) = false ∧ tandem.live (.hg 7 0) = true ∧
    tandem.getF (Reg.HG_ATTACH 7) 0 1 = (0 : Fin 2).val ∧ tandem.getB (Reg.HG_ATTACH 7) 1 = true ∧
    healthyLink tandem 7 (1 - (0 : Fin 2).val) = true := by decide
/-- The turn generator at work: time valid, turns enabled, the last turn `(s0, j0)` issued at cycle 100. -/
def turning (s0 j0 : Nat) : State :=
  let s := State.reset.setReg Reg.CK_TURN_CFG (144000 + 2 ^ 18)
  s.setBd { s.bd with time := { sec := 5, ns := 0, valid := true }, everValid := true, ownSec := 5, lastTurn := some (s0, j0), lastPulseAt := some 100 }
theorem meets_turnIssue : (3 * 1000000000 / turnsPerSecond ((turning 5 1).getF Reg.CK_TURN_CFG 0 18) ≤ (20833 : BitVec 32).toNat ∧
    (20833 : BitVec 32).toNat < (3 + 1) * 1000000000 / turnsPerSecond ((turning 5 1).getF Reg.CK_TURN_CFG 0 18)) ∧
    (turning 5 1).bd.time.valid = true ∧ (turning 5 1).bd.everValid = true ∧ (turning 5 1).getB Reg.CK_TURN_CFG 18 = true ∧
    (turning 5 1).bd.pendingK = none ∧ (turning 5 1).bd.lastTurn = some (5, 1) ∧ (turning 5 1).bd.lastPulseAt = some 100 ∧
    (turning 4 1).bd.lastTurn = some (4, 1) := by decide
theorem meets_turnIssue_none : State.reset.bd.everValid = false ∧ (turning 5 4).bd.lastTurn = some (5, 4) ∧
    (20833 : BitVec 32).toNat < (4 + 1) * 1000000000 / turnK (turning 5 4) 5 := by decide
/-- The same in holdover. -/
def holding : State := (turning 5 1).setBd { (turning 5 1).bd with time := { sec := 5, ns := 0, valid := false } }
theorem meets_turnIssue_holdover : holding.bd.time.valid = false ∧ holding.bd.everValid = true ∧
    4167 = max ((holding.fclk - holding.bd.ownAt) / 8) (((5 : BitVec 48).toNat * 1000000000 + (20833 : BitVec 32).toNat -
      (holding.bd.ownSec.toNat * 1000000000 + holding.bd.ownNs.toNat) + 4) / 5) ∧
    5000020835 = holding.bd.ownSec.toNat * 1000000000 + holding.bd.ownNs.toNat + 5 * 4167 ∧ 5000020835 / 1000000000 < 2 ^ 48 ∧
    3 * 1000000000 / turnsPerSecond (holding.getF Reg.CK_TURN_CFG 0 18) ≤ 5000020835 % 1000000000 ∧
    5000020835 % 1000000000 < (3 + 1) * 1000000000 / turnsPerSecond (holding.getF Reg.CK_TURN_CFG 0 18) ∧
    (holding.setReg Reg.CK_TURN_CFG 0).getB Reg.CK_TURN_CFG 18 = false := by decide
/-- A pulse on its way, and headgate 7 as `f` makes it. -/
def pulsing (f : Headgate → Headgate) : State := let s := running f; s.setBd { s.bd with turnOut := some 6 }
theorem meets_turnArrival : (pulsing id).bd.turnOut = some 6 ∧ counterRuns (pulsing id) 7 = false ∧ (running id).bd.turnOut = none ∧
    counterRuns (pulsing (fun h => { h with wheelAt := some 0 })) 7 = true ∧ (0x80 : BitVec 160).getLsbD 7 = true ∧
    ((pulsing id).setReg Reg.PR_CTL 0).getF Reg.PR_CTL 1 18 = 0 ∧ ((pulsing id).setReg Reg.PR_CTL 0x7).getF Reg.PR_CTL 1 18 = 3 := by decide
theorem meets_turnArrival_all : ∀ n : Hg, (0 : BitVec 160).getLsbD n = false ∧ counterRuns (pulsing id) n = false := by decide +kernel
/-- A record of channel 9 with its bits `bits`, one flit, buffers of 2. -/
def chanWord (bits : Nat) : Word := BitVec.ofNat 64 (9 + bits + 2 ^ 15 + 2 ^ 19 + 2 * 2 ^ 23 + 2 ^ 63)
/-- An entry of kind `kind` for channel 9 toward headgate 5, every turn, at wheel cycle 50. -/
def entryWord (kind : Nat) : Word := BitVec.ofNat 64 (50 + 2 ^ 14 + 2 ^ 18 + 9 * 2 ^ 34 + 5 * 2 ^ 46 + kind * 2 ^ 55 + 2 ^ 63)
/-- A guaranteed packet of channel 9 in staging, waiting or injected with SEQ `q`. -/
def stagedOf (waiting : Bool) (q : Seq) : StPkt :=
  { mkStored { hdr := { Header.zero with op := opGDATA, src := 7, seq := q, xinfo := 0x900000 }, ext := 0, data := [] } .gua 0 0 0 with
    waiting := waiting, owners := if waiting then [] else [5], pend := if waiting then 0 else 1 }
/-- Headgate 7 with the wheel running, a record with `bits` and an entry of kind `kind`. -/
def wheeling (bits kind : Nat) (f : Headgate → Headgate) : State :=
  ((injecting (fun h => f { h with pulseAt := some 0, wheelAt := some 0, portLive := true })).setReg (Reg.HG_PL_ENTRY 7 3) (entryWord kind)).setReg
    (Reg.HG_PL_CHAN 7 2) (chanWord bits)
theorem meets_entry : wheelRuns (wheeling 0x1000 0 id) 7 = true ∧ entFires (entryWord 0) 0 = true ∧ entFires (entryWord 2) 0 = true ∧
    entKind (entryWord 0) = 0 ∧ entKind (entryWord 2) = 2 ∧ entMc (entryWord 0) = false ∧ entDsel (entryWord 0) = 5 ∧ entChan (entryWord 0) = 9 ∧
    ((wheeling 0x1000 0 id).hgAt 7).fired = [] ∧ (wheeling 0x1000 0 id).reg (Reg.HG_PL_ENTRY 7 3) = entryWord 0 ∧ entFires (entryWord 3) 0 = false := by
  decide
theorem meets_entry_rec : srcRec (wheeling 0x1000 0 id) 7 9 = some (2, chanWord 0x1000) ∧ recOf (wheeling 0x4000 2 id) 7 9 = some (2, chanWord 0x4000) ∧
    srcRec (wheeling 0x4000 2 id) 7 9 = none ∧ recRelayed (chanWord 0x1000) = false := by decide +kernel
theorem meets_entry_pick : ((wheeling 0x1000 0 (fun h => { h with store := [stagedOf true 0] })).hgAt 7).store.findIdx? (fun q =>
      decide (q.kind = .gua) && decide (q.pkt.hdr.gchan = 9) && q.waiting && decide (q.accAt + 4 ≤ 50)) = some 0 ∧
    linkUp (wheeling 0x1000 0 id) 7 = true ∧ attachValid (wheeling 0x1000 0 id) 7 5 = true ∧
    ((wheeling 0x4000 2 (fun h => h.setChan 2 { ChanSt.reset with relay := [(9, Pkt.zero)] })).hgAt 7 |>.chanAt 2).relay = (9, Pkt.zero) :: [] ∧
    (takeMissed [(false, 9, 40)] false 9 4).1 = true := by decide
/-- A guaranteed packet of channel 9 with SEQ `q`, arrived. -/
def guaOf (q : Seq) : Pkt := { hdr := { Header.zero with op := opGDATA, src := 5, seq := q, xinfo := 0x900000 }, ext := 0, data := [] }
theorem meets_gdata : ((wheeling 0x2000 0 (fun h => { h with gdataIn := [guaOf 0] })).hgAt 7).gdataIn = guaOf 0 :: [] ∧ (guaOf 0).hdr.gchan = 9 ∧
    recDst (chanWord 0x2000) = true ∧ recRelay (chanWord 0x2000) = false ∧ guaDiscards (wheeling 0x2000 0 id) 7 = false ∧
    guaDiscards (running (fun h => { h with portLive := false })) 7 = true := by decide +kernel
theorem meets_gdata_room : recOf (wheeling 0x2000 0 id) 7 9 = some (2, chanWord 0x2000) ∧ 2 ∈ (dbufPlan (wheeling 0x2000 0 id) 7).1 ∧
    chanRoom (wheeling 0x2000 0 id) 7 2 (chanWord 0x2000) false = true ∧ recOf (running id) 7 9 = none ∧
    chanRoom (wheeling 0x2000 0 (fun h => h.setChan 2 { ChanSt.reset with buffered := 2 })) 7 2 (chanWord 0x2000) false = false := by decide +kernel
theorem meets_gdata_ranges : ((255 : Seq) - 0).toNat ≤ 255 ∧ 255 < ((256 : Seq) - 0).toNat ∧ ((65279 : Seq) - 0).toNat < 65280 ∧
    65280 ≤ ((65280 : Seq) - 0).toNat ∧ (guaOf 0).hdr.replay = false := by decide
theorem meets_wheelEnd : ((wheeling 0x2000 0 (fun h => h.setChan 2 { ChanSt.reset with commitTurn := true })).hgAt 7 |>.chanAt 2).commitTurn = true ∧
    ((wheeling 0x2000 0 id).hgAt 7).wheelAt = some 0 ∧ ((running id).hgAt 7).wheelAt = none := by decide
theorem meets_chanRecs : (2, chanWord 0x2000) ∈ chanRecs (wheeling 0x2000 0 id) 7 := by decide +kernel
/-- A channel commit of headgate 5 for channel 9. -/
def chanCmt (op : BitVec 8) (q : Nat) : Pkt := cmtOf op (BitVec.ofNat 32 (q * 2 ^ 16 + 0x8009))
theorem meets_chanCommit : ((wheeling 0x1000 0 (fun h => { h with cmtIn := [chanCmt opECMT 0] })).hgAt 7).cmtIn = chanCmt opECMT 0 :: [] ∧
    (chanCmt opECMT 0).hdr.chcmt = true ∧ (chanCmt opENAK 0).hdr.cchan = 9 ∧ (chanCmt opECMT 3).hdr.txn = 3 ∧ (stagedOf false 0).pend = 1 ∧
    (stagedOf false 0).owners = [5] ∧ (stagedOf false 0).pkt.hdr.gchan = 9 ∧ ((0 : Seq) - (stagedOf false 0).pkt.hdr.seq).toNat < 32768 ∧
    32768 ≤ ((0 : Seq) - (stagedOf false 1).pkt.hdr.seq).toNat ∧ (chanCmt opENAK 0).hdr.op = opENAK ∧ (chanCmt opENAK 0).hdr.chcmt = true := by
  decide
/-- Home slice 3 active, with `f` applied, its headgate 103 with `g`, and memory at headgate 5. -/
def slicing (f : Slice → Slice) (g : Headgate → Headgate) : State :=
  let s := ((live 0).updHs 3 f).updHg 103 g
  let s := ((s.setReg (Reg.HG_DEC_SLOT_w0 103 5) (2 ^ 63 + 2 ^ 35)).setReg (Reg.HG_DEC_SLOT_w1 103 5) (2 ^ 35)).setB (Reg.HS_CFG 3) 0 true
  (s.setB (Reg.HG_ATTACH_k 103 5) 63 true).setB (Reg.HG_ALLOT 103 5) 36 true
/-- A request of caching agent 1 (headgate 41) in the entry 1 of the home's request store. -/
def homeReq (op : BitVec 8) : Entry :=
  { mkEntry 1 { hdr := { Header.zero with op := op, src := 41, dst := 103, bytes := 63, addr := 0x40 }, ext := 0, data := [] } 0 true with lo := 0x40, bytes := 63, checked := true, phase := .waiting }
theorem meets_grant : takenOver (slicing id id) 3 = false ∧ sliceServes (slicing id id) 3 = true ∧ ((slicing id id).hsAt 3).used < 240 ∧
    ((slicing id id).hsAt 3).freeSlot = some 0 ∧ (homeReq opRD).phase = .waiting ∧ (homeReq opRD).checked = true ∧
    ((slicing id (fun h => { h with entries := [homeReq opRD] })).hgAt 103).entries = [homeReq opRD] ∧
    ((slicing id id).hsAt 3).busy 1 = false ∧ handingOver (slicing id id) 3 = false ∧ ((slicing id id).hsAt 3).walk = [] ∧
    ((slicing (fun x => { x with walk := [(5, 2)] }) id).hsAt 3).walk = (5, 2) :: [] ∧ ((slicing id id).hgAt 103).entries = [] ∧
    handingOver ((live 0).setB (Reg.HS_STATUS 16) 1 true) 16 = true ∧ takenOver ((live 0).setB (Reg.HS_STATUS 16) 1 true) 16 = false ∧ sliceServes ((live 0).setB (Reg.HS_STATUS 3) 0 true) 3 = false ∧
    takenOver ((live 0).setB (Reg.HS_STATUS 3) 0 true) 3 = false := by decide
/-- A slot for line 1 with the steps `todo`, waiting as `w` says. -/
def slotOf (op : BitVec 8) (w : HWait) (todo : List HAct) : Slot :=
  { mkSlot Slice.reset 9 (.request 1) (homeReq op).pkt 0x40 63 false 1 1 todo with wait := w }
/-- The slice with that slot as slot 9. -/
def serving (sl : Slot) (g : Headgate → Headgate) : State := slicing (fun x => x.setSlot 9 sl) g
theorem meets_lookup : hsFailed (serving (slotOf opRD .lookup [.flow]) id) 3 = false ∧
    ((serving (slotOf opRD .lookup [.flow]) id).hsAt 3).slot 9 = some (slotOf opRD .lookup [.flow]) ∧
    ((serving (slotOf opRD .lookup [.flow]) id).hsAt 3).wayOf 1 = none ∧ unbuilt (serving (slotOf opRD .lookup [.flow]) id) 3 (setOf 1) = false ∧
    memRoom (serving (slotOf opRD .lookup [.flow]) id) 103 opRD = true ∧ agentOf (slotOf opRDS .lookup [.flow]).pkt.hdr.src.toNat = some 1 ∧
    ((serving (slotOf opRDS .lookup [.flow]) id).hsAt 3).freeWay (setOf 1) = some 0 ∧ deadDest (slicing id id) 103 5 = false := by decide +kernel
theorem meets_lookup_memory :
    (blockTarget (slicing id id) 103 (decSlots (slicing id id) 103) (2 ^ 35 + 64 * 1)).1 = .hg 5 ∧
    localOutcome (slicing id id) 103 { target := .hg 5, lo := BitVec.ofNat 48 (2 ^ 35 + 64 * 1), bytes := 63, loc := none } = none := by decide +kernel
theorem meets_lookup_fails :
    3 ≤ ((slicing (fun x => { x with uncorrAt := [0, 0, 0] }) id).hsAt 3).uncorrAt.length ∧
    (slicing (fun x => { x with uncorrAt := [0, 0, 0] }) id).fclk < 0 + 2 ^ 20 := by decide
theorem meets_reserved : ((serving (slotOf opRDS .blocks [.resv, .cack true]) id).hsAt 3).slot 9 = some (slotOf opRDS .blocks [.resv, .cack true]) ∧
    1 ≤ poolFree (slicing id id) 103 ∧ poolFree (slicing id (fun h => { h with poolUsed := 512 })) 103 < 1 ∧
    (slotOf opRDS .blocks [.resv, .cack true]).cackIn = false := by decide
/-- A packet of caching agent 1 to the home, for slot 9 at its GEN 1. -/
def toHome (op : BitVec 8) : Pkt := { hdr := { Header.zero with op := op, src := 41, dst := 103, xinfo := 0x1090000, tag := 9 }, ext := 0, data := [] }
theorem meets_staleReply : ((slicing id (fun h => { h with homeIn := [toHome opSNPACK] })).hgAt 103).homeIn = toHome opSNPACK :: [] ∧
    isReply (toHome opSNPACK) = true ∧ ((slicing id id).hsAt 3).slot ((toHome opSNPACK).hdr.txn % 256) = none := by decide
/-- A slot of a round of invalidations that awaits `mask`. -/
def inRound (mask : BitVec 16) : Slot :=
  { slotOf opRDO .replies [.round opINV mask false, .wrSnp, .rdMem, .record (.dm 3)] with awaited := mask, blocks := 4 }
theorem meets_roundReply : ((serving (inRound 2) id).hsAt 3).slot 9 = some (inRound 2) ∧ (toHome opSNPACK).hdr.txn % 256 = 9 ∧
    agentOf (toHome opSNPACK).hdr.src.toNat = some 1 ∧ (inRound 2).gen.toNat = (toHome opSNPACK).hdr.txn / 256 ∧
    bit (inRound 2).awaited (1 : BitVec 4).toNat = true ∧ without (inRound 2).awaited 1 = 0 ∧ without (inRound 6).awaited 1 ≠ 0 ∧
    (inRound 2).snpData = none ∧ (inRound 2).ownerDead = false ∧ memRoom (serving (inRound 2) (fun h => { h with homeIn := [], poolUsed := 2 })) 103 opRD = true := by
  decide
/-- A slot that waits for the CACK of its grant, its request freed. -/
def granted : Slot := { slotOf opRDS .cack [.cack true] with freed := true, blocks := 1, timer := some 0 }
theorem meets_cackHome : ((serving granted id).hsAt 3).slots.find? (fun e => cackFor (toHome opCACK) e.2) = none ∨
    (toHome opCACK).hdr.tag = 9 := by decide
theorem meets_cackMatches :
    ((serving { granted with pkt := { granted.pkt with hdr := { granted.pkt.hdr with tag := 9 } } } id).hsAt 3).slots.find? (fun e => cackFor (toHome opCACK) e.2) =
      some (9, { granted with pkt := { granted.pkt with hdr := { granted.pkt.hdr with tag := 9 } } }) ∧ isCack (toHome opCACK) = true ∧
    ((slicing id id).hgAt 103).entries = [] ∧ ((serving granted id).hsAt 3).lineQueue = [] ∧ ((serving granted id).hsAt 3).resq = [] ∧
    HAct.cack true ∈ granted.todo := by decide
/-- A slot whose snoop data is being written to memory. -/
def writingBack : Slot := { slotOf opRDS .memory [.wrSnp, .record (.df 1 [2] false), .resv, .cack true] with memOut := true }
/-- Line 1 in way 0, modified at agent 2. -/
def ownedLine (x : Slice) : Slice := x.setEntry (setOf 1) 0 { valid := true, tag := 0, st := 3, ovf := false, ptrs := [2], lru := 0 }
theorem meets_memoryDone : ((slicing (fun x => (ownedLine x).setSlot 9 writingBack) id).hsAt 3).slot (toHome opCMP).hdr.tag.toNat = some writingBack ∧
    ((slicing (fun x => (ownedLine x).setSlot 9 writingBack) id).hsAt 3).wayOf 1 = some 0 ∧ isReply (toHome opCMP) = false ∧
    isCack (toHome opCMP) = false ∧ deliveredOutcome (toHome opCMP).hdr.outcome (toHome opCMP).data = ocOK := by decide
theorem meets_hold : ((serving (slotOf opRDS .hold [.fwd opFWDS 2 true, .wrSnp]) id).hsAt 3).slot 9 = some (slotOf opRDS .hold [.fwd opFWDS 2 true, .wrSnp]) ∧
    deadMask (slicing id id) 3 = 0 ∧ 2 ≤ poolFree (slicing id id) 103 ∧ 1 ≤ openBlocks ((slicing id id).hgAt 103) ∧
    deadDest (slicing id id) 103 (40 + (2 : BitVec 4).toNat) = false := by decide
theorem meets_homeTimeout : ((serving granted id).hsAt 3).slot 9 = some granted ∧ granted.timer = some 0 ∧ granted.freed = true ∧
    agentOf granted.pkt.hdr.src.toNat = some 1 ∧ hsFailed ((slicing id id).setB (Reg.HS_STATUS 3) 0 true) 3 = true ∧
    (slicing id id).getB (Reg.HS_CFG 3) 0 = true := by decide
theorem meets_sweep : ((slicing (fun x => { x with sweeping := some 2, sweepSet := 2048 }) id).hsAt 3).sweeping = some 2 ∧
    ((slicing (fun x => { x with sweeping := some 2 }) id).hsAt 3).sweepSet < 2047 ∧
    (Slice.reset.setEntry 0 4 { valid := true, tag := 0, st := 1, ovf := false, ptrs := [2], lru := 0 }).entry 0 4 =
      { valid := true, tag := 0, st := 1, ovf := false, ptrs := [2], lru := 0 } ∧
    (∀ u, u < 20 → u ≠ 4 → ((Slice.reset.setEntry 0 4 { valid := true, tag := 0, st := 1, ovf := false, ptrs := [2], lru := 0 }).entry 0 u).valid = false) ∧
    Slice.reset.pinned (lineFrom 3 0 0) = false ∧
    (Slice.reset.setSlot 9 { slotOf opRD .lookup [.flow] with line := lineFrom 3 0 0 }).pinned (lineFrom 3 0 0) = true := by decide
/-- The spare with hand-over records, and the walk under way at set `c`. -/
def sparing (hs : List Handover) (c : Nat) : State :=
  (((live 0).updHs 16 (fun x => { x with handover := hs })).setB (Reg.HS_STATUS 16) 2 true).setF (Reg.HS_CENSUS 16) 0 11 c
theorem meets_handover : ((sparing [.finish] 0).hsAt 16).handover = .finish :: [] ∧
    ((sparing [.cackWait Pkt.zero 5 true] 0).hsAt 16).handover = .cackWait Pkt.zero 5 true :: [] ∧
    ((sparing [.work none Pkt.zero 0 0 false] 0).hsAt 16).handover = .work none Pkt.zero 0 0 false :: [] ∧ ((sparing [] 0).hsAt 16).freeSlot = some 0 ∧
    hsFailed (sparing [] 0) 16 = false ∧ ((sparing [] 0).hsAt 16).used < 240 ∧ ((sparing [] 0).hsAt 16).busy 0 = false := by decide
theorem meets_censusWalk : (sparing [] 2047).getB (Reg.HS_STATUS 16) 2 = true ∧ (sparing [] 2047).getF (Reg.HS_CENSUS 16) 0 11 = 2047 ∧
    (live 0).getB (Reg.HS_STATUS 16) 2 = false ∧ Slice.reset.wayOf (lineFrom 0 7 0) = none ∧ (∀ w, w < 20 → (((sparing [] 7).hsAt (servedSlice (sparing [] 7) 16)).entry 7 w).valid = false) := by
  decide
/-- A request in the entry 1 of Reservoir port 2, at beat 3 of bank 4. -/
def portReq (op : BitVec 8) : Entry :=
  { mkEntry 1 { hdr := { Header.zero with op := op, src := 7, dst := 119, bytes := 63, addr := 0x4C0 }, ext := 0, data := [] } 0 true with
    lo := 0x4C0, bytes := 63, checked := true, phase := .waiting }
/-- The Reservoir with that request at port 2. -/
def porting (e : Entry) : State := (live 0).updHg 119 (fun h => { h with entries := [e] })
theorem meets_chunkSend : ((porting (portReq opRD)).hgAt 119).entries = [portReq opRD] ∧ (portReq opRD).noWrite = false ∧
    (portReq opRD).pkt.hdr.locked = false ∧ (porting (portReq opRD)).getB (Reg.HG_LEVEE 119) 0 = false ∧
    (∀ q : Fin 8, q ≠ 2 → portEntries (porting (portReq opRD)) q = []) ∧ (∀ c : Bank, ((porting (portReq opRD)).bankAt c).lock.owner = none) ∧
    bankOf ((portReq opRD).lo.toNat % 2 ^ 24) = 4 ∧ ((porting (portReq opRD)).bankAt 4).queue = [] ∧ (portReq opRDLK).op = opRDLK ∧
    (portReq opRD).chunks = [] ∧ nextChunk (live 0) 2 = none ∧ nextChunk (porting (portReq opRD)) 2 = some (portReq opRD, 0) := by decide
theorem meets_banksQuiet : banksQuiet (porting (portReq opRD)) := by unfold banksQuiet; decide
theorem meets_chunkHeld : (((porting (portReq opRD)).setBank 4 { BankSt.reset with lock := LockMgr.grant (9, 3) (some 500) }).bankAt 4).lock.owner = some (9, 3) ∧
    ((9, 3) : Nat × Ctx) ≠ (portReq opRD).master ∧ (LockMgr.grant (9, 3) (some 500)).due 0 = false := by decide
/-- A beat of port 2 for line `l`. -/
def bankBeat (op : BitVec 8) (l : Nat) (b : Beat) : BankBeat :=
  { port := 2, entry := 1, chunk := 0, op := op, line := l, beat := b, aop := 0, lane := 8, size := 4, chunkBeats := 2 }
/-- Bank 4 as `f` makes it. -/
def banking (f : BankSt → BankSt) : State := (live 0).setBank 4 (f ((live 0).bankAt 4))
theorem meets_bankArb : ((banking (fun k => { k with queue := [bankBeat opRD 3 { data := 0, be := 0, poison := false }] })).bankAt 4).busy = 0 ∧
    ((banking (fun k => { k with queue := [bankBeat opRD 3 { data := 0, be := 0, poison := false }] })).bankAt 4).arb.hold = none ∧
    (bankBeat opRD 3 { data := 0, be := 0, poison := false }).port < 8 ∧ 0 < ((banking (fun k => { k with busy := 2 })).bankAt 4).busy := by decide
theorem meets_bankPerform :
    ((banking (fun k => { k with granted := [bankBeat opWR 3 { data := 1, be := 0xFF, poison := false }] })).bankAt 4).granted =
      bankBeat opWR 3 { data := 1, be := 0xFF, poison := false } :: [] ∧ wholeWords 0xFF = true ∧ wholeWords 0x0F = false ∧
    (bankBeat opATOM 3 { data := 0, be := 0, poison := false }).line ∉ (live 0).rv.poison ∧ ((live 0).bankAt 4).granted = [] := by
  refine ⟨rfl, by decide, by decide, by decide, by decide⟩
/-- A read of two beats at port 2, its chunk sent. -/
def readingTwo : State :=
  (porting { portReq opRD with phase := .inside, chunks := [{ mkChunk false 0x480 0x4FF with reach := some 0, passed := true, sent := true, granted := 1 }] }).setBank 4
    { (live 0).bankAt 4 with granted := [bankBeat opRD 18 { data := 0, be := 0, poison := false }] }
theorem meets_bankRead : chunkAt readingTwo 2 1 0 =
      some { mkChunk false 0x480 0x4FF with reach := some 0, passed := true, sent := true, granted := 1 } ∧
    (mkChunk false 0x480 0x4FF).performed + 1 < (mkChunk false 0x480 0x4FF).beats ∧ (mkChunk false 0x480 0x4FF).outcome = none := by decide
theorem meets_bankReadQuiet : banksQuiet readingTwo := by unfold banksQuiet; decide
theorem meets_bankScrub : ((live 0).setB Reg.RV_SCRUB_CFG 16 true).getB Reg.RV_SCRUB_CFG 16 = true ∧
    ((live 0).setB Reg.RV_SCRUB_CFG 16 false).getB Reg.RV_SCRUB_CFG 16 = false := by decide
theorem meets_lockLimit : ((banking (fun k => { k with lock := LockMgr.grant (7, 3) (some 500) })).lockMgr (.bank 4)).owner = some (7, 3) ∧
    ((banking (fun k => { k with lock := LockMgr.grant (7, 3) (some 500) })).lockMgr (.bank 4)).timer = some 500 ∧
    (∀ k : Bank, k ≠ 4 → ((banking (fun k => { k with lock := LockMgr.grant (7, 3) (some 500) })).bankAt k).lock.due 500 = false) ∧
    reachedChunks (banking (fun k => { k with lock := LockMgr.grant (7, 3) (some 500) })) = [] ∧
    ((live 0).lockMgr (.bank 4)).owner = none := by decide
/-- An RDLK of port 2 that waits at bank 4. -/
def lockQueued : Entry := { portReq opRDLK with phase := .inside, chunks := [{ mkChunk false 0x4C0 0x4FF with reach := some 0, held := true }] }
theorem meets_lockQueued : reachedChunks (porting lockQueued) = [(2, lockQueued, 0, { mkChunk false 0x4C0 0x4FF with reach := some 0, held := true })] ∧
    (mkChunk false 0x4C0 0x4FF).lo = lockQueued.lo ∧ (mkChunk false 0x4C0 0x4FF).bank = 4 := by decide
theorem meets_targetTimeout :
    ((running (fun h => { h with entries := [{ entryOf 3 opRD 0x40 7 with phase := .presented, treqId := some 2 }] })).hgAt 7).entries.find?
      (fun x => decide (x.treqId = some (2 : BitVec 9).toNat) && decide (x.phase = .presented)) =
      some { entryOf 3 opRD 0x40 7 with phase := .presented, treqId := some 2 } ∧
    targetTimer ((running id).hgAt 7) (some 2) = none ∧ (running id).getB (Reg.HG_LEVEE 7) 1 = false ∧
    ((live 0).hgAt 7).portLive = false ∧ hasHai 110 = false := by decide
theorem meets_targetTimeout_down : ((live 0).updHg 7 (fun h => { h with entries := [entryOf 3 opRD 0x40 7] }) |>.hgAt 7).portLive = false ∧
    (entryOf 3 opRD 0x40 7).phase = .waiting ∧
    ((live 0).updHg 7 (fun h => { h with liveFellAt := some 5, entries := [entryOf 3 opRD 0x40 7] }) |>.hgAt 7).liveFellAt = some 5 := by decide
theorem meets_levee : (running id).getB (Reg.HG_LEVEE 7) 0 = false ∧ ((running id).setB (Reg.HG_LEVEE 7) 0 true).getB (Reg.HG_LEVEE 7) 0 = true ∧
    ((running (fun h => { h with lock := LockMgr.grant (3, 0) (some 9) })).hgAt 7).lock.owner ≠ none := by decide
theorem meets_siphonAnswer : ((running (fun h => { h with entries := [entryOf 3 opRD 0x40 7] })).hgAt 7).entries = [entryOf 3 opRD 0x40 7] ∧
    ((running id).hgAt 7).overAllot = [] ∧ (entryOf 3 opRD 0x40 7).phase ≠ .answer ∧ (entryOf 3 opRD 0x40 7).op ≠ opWRP ∧
    1 ≤ openBlocks ((running id).hgAt 7) ∧ deadDest (running id) 7 (entryOf 3 opRD 0x40 7).pkt.hdr.src.toNat = false := by decide
theorem meets_iso : (running id).getB (Reg.HG_LEVEE 7) 2 = false ∧ ((running id).setB (Reg.HG_LEVEE 7) 2 true).getB (Reg.HG_LEVEE 7) 2 = true := by
  decide
theorem meets_remote : deadDest (running id) 7 5 = false ∧ deadDest ((running id).setB (Reg.HG_DEAD_DEST 7 0) 5 true) 7 5 = true ∧
    isHome 7 = false ∧ ((running id).hgAt 7).entries = [] ∧ ((running id).hgAt 7).overAllot = [] := by decide
theorem meets_attachUse : (running id).getF (Reg.HG_ATTACH 7) 0 1 = false.toNat ∧ (running id).getF (Reg.HG_ATTACH 7) 0 1 ≠ true.toNat := by decide
theorem meets_ports : (live 0).enabled (rcvEnd (.router 3 4)) = false ∨ (live 0).enabled (rcvEnd (.router 3 4)) = true := by decide
theorem meets_portNoFar : (rcvEnd (.router 0 4)).far = none := by decide
theorem meets_portPair : (rcvEnd (.router 3 4)).far = some (rcvEnd (.router 2 6)) := by decide
theorem meets_portFar : (rcvEnd (.router 3 4)).far.isSome = true ∧ ((live 0).setB (Reg.RT_CTRL 3) 4 true).enabled (rcvEnd (.router 3 4)) = true ∧
    ((live 0).setB (Reg.RT_CTRL 3) 4 false).enabled (rcvEnd (.router 3 4)) = false := by decide
/-- A head of one flit observed at input 3 of router 5. -/
def aHead : Flit := ((goodRaw opRD 0 0).flits.head?).getD { fcw := 0, payload := 0 }
def obsOf (f : Flit) : Obs := { atHg := false, where_ := 5, port := 3, flit := f, time := 9, turn := 0, wcyc := 0 }
/-- Bank 1 with one observation, probe 4 armed at the point with an entry that matches every head. -/
def probing (f : Flit) (bufs : List TraceRec) (free : Nat) : State :=
  let s := (live 0).setPr { (live 0).pr with obs := Tab.set [] 1 [obsOf f], bufs := bufs, globalLevel := 4 }
  (s.setReg (Reg.PR_PRB_CTL 4) (BitVec.ofNat 64 (2 ^ 63 + 5 + 3 * 2 ^ 9 + 2 * 2 ^ 12))).setF (Reg.PR_PRB_STAT 4) 16 10 free
theorem meets_capture : camHead aHead = true ∧ Tab.get (probing aHead [] 9).pr.obs [] 1 = [obsOf aHead] ∧
    (probing aHead [] 9).getB (Reg.PR_PRB_CTL 4) 26 = false := by refine ⟨by decide +kernel, rfl, by decide⟩
theorem meets_capture_match : (matchesOf (probing aHead [] 9) 1 [obsOf aHead]).map (·.1) = [4] := by decide +kernel
theorem meets_capture_room : queuedBlocks (probing aHead [] 9) 1 + 1 + 1 ≤ 16 ∧ 1 + 1 ≤ (probing aHead [] 2).getF (Reg.PR_PRB_STAT 4) 16 10 ∧
    (probing aHead [] 1).getF (Reg.PR_PRB_STAT 4) 16 10 < 1 + 1 := by
  refine ⟨?_, by decide, by decide⟩
  simp [queuedBlocks, probing, State.setPr, State.setReg, State.setF, sumBy]
theorem meets_capture_none : matchesOf (live 0) 1 [obsOf aHead] = [] := by
  have h : matchesOf (live 0) 1 [obsOf aHead] = [] ↔ (matchesOf (live 0) 1 [obsOf aHead]).length = 0 := List.length_eq_zero_iff.symm
  rw [h]; decide +kernel
/-- A record of probe 4 that still takes one block on channel 2 at the point. -/
def halfRecord : TraceRec := { probe := 4, blocks := [BitVec.ofNat 512 (2 ^ 21 + 5 * 2 ^ 160 + 3 * 2 ^ 169 + 2 * 2 ^ 250)] }
/-- A body flit of channel 2. -/
def aBody : Flit := { fcw := withFields 0 [(58, 4, 2)], payload := 7 }
theorem meets_follow : halfRecord.follows false 5 3 = true ∧ halfRecord.probe / 4 = 1 ∧ camHead aBody = false ∧ aBody.isControl = false ∧
    aBody.isLast = false ∧ (halfRecord.blocks.map (fun h => field h 250 4)) = [aBody.vc] := by decide +kernel
/-- A whole record of probe 4. -/
def wholeRecord : TraceRec := { probe := 4, blocks := [0] }
theorem meets_drain : (probing aHead [wholeRecord] 9).pr.out = [] ∧ 0 < (probing aHead [wholeRecord] 9).pr.globalLevel ∧ wholeRecord.whole = true ∧
    halfRecord.whole = false ∧ probeRate (probing aHead [wholeRecord] 9) 4 = 0 := by refine ⟨rfl, by decide, by decide +kernel, by decide +kernel, by decide⟩
theorem meets_traceBeat : ((live 0).setPr { (live 0).pr with out := [(4, 0, true)] }).pr.out = (4, 0, true) :: [] ∧ (live 0).pr.out = [] := by decide
/-- A record of headgate 7's station. -/
def ringRec (typ : BitVec 8) (copied : Bool) : RingRec :=
  { alarm := { mkAlarm typ 7 false 1 0 5 with copied := copied }, station := 107, id := 0, passed := false }
/-- The chain as `f` makes it. -/
def chained (f : Alarms → Alarms) : State := (live 0).setAl (f (live 0).al)
theorem meets_ringEntry : (chained (fun a => { a with waiting := [ringRec 0x53 false] })).al.waiting.find? (fun x => decide (x.station = 107)) =
    some (ringRec 0x53 false) ∧ (∀ r ∈ (live 0).al.waiting, r.station ≠ 107) := by decide
theorem meets_alarmCopy : (chained (fun a => { a with ring := [ringRec 0x53 false] })).al.ring.find? (fun x => !x.alarm.copied) =
    some (ringRec 0x53 false) ∧ (live 0).rd.fifo.length < 1024 := by decide
theorem meets_stationPass : (chained (fun a => { a with ring := [ringRec 0x45 false] })).al.ring.find? (fun x => namesRequester x 5) =
    some (ringRec 0x45 false) := by decide
theorem meets_recordReturn : (chained (fun a => { a with ring := [ringRec 0x53 true] })).al.ring.find?
    (fun x => decide (x.station = 107) && (x.alarm.copied || decide (1024 ≤ (live 0).rd.fifo.length))) = some (ringRec 0x53 true) ∧
    (ringRec 0x53 true).alarm.typ ≠ 0x45 := by decide
/-- The coalescing state of that alarm with `k` events counted. -/
def stateOf (k : Nat) (p : RecPlace) : Coalesce :=
  { station := 107, typ := 0x53, source := 7, requester := 0, count := k, detail := 5, time := 9, place := p, recId := 0 }
def tokenOf : Token := { typ := 0x53, source := 7, all := false, seen := [] }
theorem meets_ackToken : tokenFor (chained (fun a => { a with states := [stateOf 2 .returned], tokens := [tokenOf] })) 107 = some (0, tokenOf) ∧
    tokenOf.names (stateOf 2 .returned) = true ∧ tokenFor (live 0) 107 = none ∧
    tokenFor (chained (fun a => { a with states := [stateOf 2 .ring], tokens := [tokenOf] })) 107 = some (0, tokenOf) := by decide
theorem meets_incidentClose : ((live 0).setRd { Rider.reset with incidentOpen := true }).rd.incidentOpen = true ∧
    recovers ((live 0).setRd { Rider.reset with incidentOpen := true }) = false ∧ (live 0).rd.incidentOpen = false := by decide
/-- The firmware serving an open fabric. -/
def served : State := ((live 0).setF Reg.GL_BOOT 0 4 9).setB Reg.GL_RIDER_STATUS 0 true
/-- A command that has not begun. -/
def cmdOf (ws : List Word) : Running := { words := ws, planned := false, rerun := false, prog := Prog.start [] }
/-- Mailbox 3's command shown as running, not begun. -/
def showing (s : State) (ws : List Word) : State :=
  (s.setRd { s.rd with active := some 3 }).setMb 3 { Mailbox.reset with cur := some (cmdOf ws) }
/-- A command shown is ready in a fabric the Rider works in. -/
theorem ready (s : State) (code : Nat) (ws : List Word) (h : codeOf ws = code) (hw : riderWorks s = true) (hr : recovers s = false) :
    commandReady code (showing s ws) 3 (cmdOf ws) :=
  ⟨rfl, congrArg (·.cur) (State.mbAt_setMb_same _ 3 _), h, rfl, hw, hr⟩
theorem served_works : riderWorks served = true ∧ recovers served = false := by decide
theorem meets_paramSet : commandReady 0x0102 (showing served [0x0102, 0xFF07, 32]) 3 (cmdOf [0x0102, 0xFF07, 32]) ∧
    (paramRow (cf [0x0102, 0xFF07, 32] 1 0 8)).bind (fun r => paramInsts r (cf [0x0102, 0xFF07, 32] 1 8 8)) = some [0] ∧
    cf [0x0102, 0xFF07, 32] 1 0 8 ≠ 0x0B := ⟨ready _ _ _ rfl (by decide) rfl, by decide, by decide⟩
theorem meets_paramSet_pool : commandReady 0x0102 (showing served [0x0102, 0x030B, 16]) 3 (cmdOf [0x0102, 0x030B, 16]) ∧
    (paramRow (cf [0x0102, 0x030B, 16] 1 0 8)).bind (fun r => paramInsts r (cf [0x0102, 0x030B, 16] 1 8 8)) = some [3] ∧
    poolStays (showing served [0x0102, 0x030B, 16]) (cw [0x0102, 0x030B, 16] 2).toNat 3 = true :=
  ⟨ready _ _ _ rfl (by decide) rfl, by decide, by decide⟩
theorem meets_paramSet_chooser : commandReady 0x0102 (showing served [0x0102, 0xFF0C, 1]) 3 (cmdOf [0x0102, 0xFF0C, 1]) ∧
    cf [0x0102, 0xFF0C, 1] 1 0 8 = 0x0C := ⟨ready _ _ _ rfl (by decide) rfl, by decide⟩
/-- One context's weir: rate 10, burst 20. -/
def weirWords : List Word := [0x0302, BitVec.ofNat 64 (7 + 5 * 2 ^ 8 + 10 * 2 ^ 15 + 20 * 2 ^ 23)]
theorem meets_weirSet : commandReady 0x0302 (showing served weirWords) 3 (cmdOf weirWords) ∧ cf weirWords 1 0 8 = (7 : Hg).val ∧
    cb weirWords 1 14 = false ∧ cf weirWords 1 8 6 = 5 := ⟨ready _ _ _ rfl (by decide) rfl, by decide, by decide, by decide⟩
def capWords : List Word := [0x0203, BitVec.ofNat 64 (2 ^ 26 + 50 * 2 ^ 19)]
theorem meets_pacelineSet_cap : commandReady 0x0203 (showing served capWords) 3 (cmdOf capWords) ∧ cb capWords 1 18 = false ∧
    cb capWords 1 26 = true ∧ capHolds (showing served capWords) (cf capWords 1 19 7) = true :=
  ⟨ready _ _ _ rfl (by decide) rfl, by decide, by decide, by decide⟩
def turnWords : List Word := [0x0203, BitVec.ofNat 64 (2 ^ 18 + 100000)]
/-- A fabric whose time has been valid, with a turn in second `x` as the last. -/
def timed (x : Nat) : State := served.setBd { served.bd with everValid := true, lastTurn := some (x, 0) }
theorem meets_pacelineSet_turns : commandReady 0x0203 (showing (timed 0) turnWords) 3 (cmdOf turnWords) ∧
    cb turnWords 1 18 = true ∧ cb turnWords 1 26 = false ∧ (showing (timed 0) turnWords).bd.everValid = true ∧
    (showing (timed 0) turnWords).rd.chans = [] ∧
    condHolds (showing (timed 0) turnWords) (.secondAfter (showing (timed 0) turnWords).bd.ownSec.toNat) = false ∧
    condHolds (showing (timed 1) turnWords) (.secondAfter (showing (timed 1) turnWords).bd.ownSec.toNat) = true :=
  ⟨ready _ _ _ rfl (by decide) rfl, by decide, by decide, by decide, by decide, by decide, by decide⟩
def domWords : List Word := [0x0603, BitVec.ofNat 64 (1 + 10 * 2 ^ 6 + 12 * 2 ^ 16), BitVec.ofNat 64 (2 ^ 40), 0, 0]
theorem meets_domainSet : commandReady 0x0603 (showing served domWords) 3 (cmdOf domWords) ∧
    domState (showing served domWords) (cf domWords 1 0 5) = 0 ∧
    (∀ n, n < 160 → joins domWords n = true → hasHai n = true ∧ ∀ x, domainOf (showing served domWords) n = some x →
      domState (showing served domWords) x = 0) := by
  refine ⟨ready _ _ _ rfl (by decide) rfl, by decide, fun n hn hj => ?_⟩
  have h40 : ∀ n : Fin 160, joins domWords n = true → n = 40 := by decide +kernel
  have h : n = 40 := congrArg Fin.val (h40 ⟨n, hn⟩ hj)
  subst h
  exact ⟨by decide, fun x hx => absurd hx (by rw [show domainOf (showing served domWords) 40 = none by decide]; simp)⟩
def armWords : List Word := [0x0801, BitVec.ofNat 64 (1 + 44 * 2 ^ 5 + 100 * 2 ^ 21), 5, 6, 7, 8]
theorem meets_probeArm : commandReady 0x0801 (showing served armWords) 3 (cmdOf armWords) ∧
    (showing served armWords).getB (Reg.PR_PRB_CTL (cf armWords 1 0 5)) 63 = false ∧
    cf armWords 1 0 5 / 4 ∉ (showing served armWords).pr.failedBanks ∧ cw armWords 5 ≠ 0 :=
  ⟨ready _ _ _ rfl (by decide) rfl, by decide, by decide, by decide⟩
/-- Probe 1 armed. -/
def armed : State := served.setB (Reg.PR_PRB_CTL 1) 63 true
theorem meets_probeDisarm : commandReady 0x0802 (showing armed [0x0802, 1]) 3 (cmdOf [0x0802, 1]) ∧
    (showing armed [0x0802, 1]).getB (Reg.PR_PRB_CTL (cf [0x0802, 1] 1 0 5)) 63 = true :=
  ⟨ready _ _ _ rfl (by decide) rfl, by decide⟩
theorem meets_alarmAck : commandReady 0x0803 (showing served [0x0803, 0x4707]) 3 (cmdOf [0x0803, 0x4707]) :=
  ready _ _ _ rfl (by decide) rfl
theorem meets_holdSet : commandReady 0x0901 (showing served [0x0901, 3]) 3 (cmdOf [0x0901, 3]) ∧ cb [0x0901, 3] 1 1 = true :=
  ⟨ready _ _ _ rfl (by decide) rfl, by decide⟩
def bindWords : List Word := [0x0A01, BitVec.ofNat 64 (5 + 40 * 2 ^ 8 + 2 ^ 23 + 2 ^ 25)]
theorem meets_mailboxBind : commandReady 0x0A01 (showing served bindWords) 3 (cmdOf bindWords) ∧
    ((showing served bindWords).mbAt (cf bindWords 1 0 5)).cur = none ∧ ((showing served bindWords).mbAt (cf bindWords 1 0 5)).queue = [] ∧
    ((showing served bindWords).mbAt (cf bindWords 1 0 5)).rsp = [] ∧ cf bindWords 1 0 5 = 5 ∧ cb bindWords 1 23 = true ∧
    cb bindWords 1 25 = true := ⟨ready _ _ _ rfl (by decide) rfl, by decide, by decide, by decide, by decide, by decide, by decide⟩
theorem meets_leveeSet_auto : commandReady 0x0701 (showing served [0x0701, 0xC09]) 3 (cmdOf [0x0701, 0xC09]) ∧
    cf [0x0701, 0xC09] 1 0 8 = (9 : Hg).val ∧ cb [0x0701, 0xC09] 1 11 = true := ⟨ready _ _ _ rfl (by decide) rfl, by decide, by decide⟩
theorem meets_leveeSet_remote : commandReady 0x0701 (showing served [0x0701, 0x109]) 3 (cmdOf [0x0701, 0x109]) ∧
    cf [0x0701, 0x109] 1 0 8 = (9 : Hg).val ∧ cb [0x0701, 0x109] 1 11 = false ∧ cb [0x0701, 0x109] 1 8 = true ∧
    deadDest (showing served [0x0701, 0x109]) 8 9 = false :=
  ⟨ready _ _ _ rfl (by decide) rfl, by decide, by decide, by decide, by decide⟩
def openWords : List Word :=
  [0x0201, BitVec.ofNat 64 (7 + 3 * 2 ^ 12 + 2 * 2 ^ 20 + 2 * 2 ^ 24 + 2 * 2 ^ 28 + 72000 * 2 ^ 32 + 2 ^ 50), BitVec.ofNat 64 (2000 + 1 * 2 ^ 28),
   BitVec.ofNat 64 0xFFFFFFFFFFFFFF09, BitVec.ofNat 64 0xFFFFFFFFFFFFFFFF]
/-- Every port of the first row of the mesh enabled, and headgate 3 allowed its guaranteed packets at 9. -/
def meshed : State :=
  (forRange 10 (fun i u => u.setReg (Reg.RT_CTRL i) 0xFF) ((timed 0).setF (Reg.HG_PROT_RIGHTS 9 0) 0 5 0x1F)).setReg
    (Reg.HG_ATTACH_k 3 9) (attachWord 9 0)
theorem meets_channelOpen : commandReady 0x0201 (showing meshed openWords) 3 (cmdOf openWords) ∧
    (planOpen (showing meshed openWords) 3 openWords false).code = 0 := ⟨ready _ _ _ rfl (by decide +kernel) rfl, by decide +kernel⟩
/-- Channel 7 open from headgate 3 to headgate 9. -/
def aChan : Chan :=
  { chan := 7, src := 3, flits := 2, modulus := 144, phase := 0, phaseAny := true, deadline := 2000, earliest := 0
    dests := 9 :: List.replicate 15 0xFF, stage := 2, dbuf := 2, entries := [{ hg := 3, e := 0, v := 0x8040001c02408000, dests := [] }]
    sets := [], relays := [], unreachable := false, cut := 0 }
def opened : State := served.setRd { served.rd with chans := [aChan] }
theorem meets_channelClose : commandReady 0x0202 (showing opened [0x0202, 7]) 3 (cmdOf [0x0202, 7]) ∧
    (showing opened [0x0202, 7]).rd.chans.find? (fun y => decide (y.chan = cf [0x0202, 7] 1 0 12)) = some aChan ∧
    (∀ e ∈ aChan.entries, e.hg < 160 ∧ e.e < 256) := ⟨ready _ _ _ rfl (by decide) rfl, by decide, by decide⟩
def raiseWords : List Word := [0x0301, BitVec.ofNat 64 (3 + 9 * 2 ^ 8 + 5 * 2 ^ 16 + 2 ^ 32)]
theorem meets_allotSet_raise : commandReady 0x0301 (showing served raiseWords) 3 (cmdOf raiseWords) ∧ cf raiseWords 1 0 8 = (3 : Hg).val ∧
    cf raiseWords 1 8 8 = (9 : Hg).val ∧ (showing served raiseWords).rd.owed = [] ∧ 0 < cf raiseWords 1 16 10 ∧
    grantOf (showing served raiseWords) 3 9 ≤ cf raiseWords 1 16 10 ∧
    grantsAt (showing served raiseWords) 9 - grantOf (showing served raiseWords) 3 9 + cf raiseWords 1 16 10 ≤
      storeSize (showing served raiseWords) 9 :=
  ⟨ready _ _ _ rfl (by decide) rfl, by decide, by decide, by decide, by decide, by decide +kernel, by decide +kernel⟩
def lowerWords : List Word := [0x0301, BitVec.ofNat 64 (3 + 9 * 2 ^ 8)]
theorem meets_allotSet_lower : commandReady 0x0301 (showing served lowerWords) 3 (cmdOf lowerWords) ∧ cf lowerWords 1 0 8 = (3 : Hg).val ∧
    cf lowerWords 1 8 8 = (9 : Hg).val ∧ (showing served lowerWords).rd.owed = [] ∧ cf lowerWords 1 16 10 = 0 :=
  ⟨ready _ _ _ rfl (by decide) rfl, by decide, by decide, by decide, by decide⟩
def decWords : List Word := [0x0401, BitVec.ofNat 64 (3 + 9 * 2 ^ 8 + 2 ^ 16), 0x40000000, 0x10000]
theorem meets_decodeSet : commandReady 0x0401 (showing served decWords) 3 (cmdOf decWords) ∧ cf decWords 1 0 8 = (3 : Hg).val ∧
    cf decWords 1 8 8 = (9 : Hg).val ∧ cb decWords 1 17 = false ∧ cb decWords 1 16 = true ∧
    windowOk (showing served decWords) 3 9 [9] false (cf decWords 2 0 48) (cf decWords 3 0 48) = true ∧
    overlaps (showing served decWords) 3 [9] false (cf decWords 2 0 48) (cf decWords 3 0 48) = false ∧
    epochCount ((showing served decWords).hgAt 3) (curEpoch (showing served decWords) 3 + 1) = 0 :=
  ⟨ready _ _ _ rfl (by decide) rfl, by decide, by decide, by decide, by decide, by decide +kernel, by decide +kernel, by decide +kernel⟩
def secretWords : List Word := [0x0402, BitVec.ofNat 64 (9 + 2 ^ 11 + 2 ^ 12)]
theorem meets_regionSet : commandReady 0x0402 (showing served secretWords) 3 (cmdOf secretWords) ∧ cf secretWords 1 0 8 = (9 : Hg).val ∧
    (planRegion (showing served secretWords) 3 secretWords (cmdOf secretWords).prog.ran).code = 0 ∧
    (showing served secretWords).getB (Reg.HG_PROT_CTRL 9) 0 = false ∧ cb secretWords 1 14 = false ∧
    (showing served secretWords).getB (Reg.HG_PROT_CTRL 9) 1 = false :=
  ⟨ready _ _ _ rfl (by decide) rfl, by decide, by decide +kernel, by decide, by decide, by decide⟩
/-- Both links of headgate 9 in service, live and heard. -/
def twoLinks : State :=
  (served.setReg (Reg.HG_ATTACH 9) 0x330).updHg 9 (fun h => { h with links := [(1, { LinkEnd.reset with hbFirst := false })] })
/-- The register of every HG_ATTACH_k resets to zero. -/
theorem attachMap_spec : ∀ k : Fin 160, (Blk.headgate.regs.find? (fun r => r.holds (0x1A00 + 8 * k.val))).map (fun r => (r.per, r.reset)) = some (0, 0) := by
  decide +kernel
theorem attachMap_reset (n k : Nat) (hn : n < 160) (hk : k < 160) : regReset (Reg.HG_ATTACH_k n k) = 0 := by
  have hl : fcsLocate (Reg.HG_ATTACH_k n k) = (.headgate, n, 0x1A00 + 8 * k) := by
    unfold fcsLocate Reg.HG_ATTACH_k hgBase
    rw [if_neg (by omega), if_neg (by omega), if_neg (by omega), if_neg (by omega), if_neg (by omega), if_neg (by omega), if_neg (by omega),
      if_neg (by omega), if_neg (by omega), if_neg (by omega), if_neg (by omega), if_pos (by omega)]
    congr 2 <;> omega
  have hs := attachMap_spec ⟨k, hk⟩
  unfold regReset regAt
  rw [hl]
  simp only at hs ⊢
  cases h : Blk.headgate.regs.find? (fun r => r.holds (0x1A00 + 8 * k)) with
  | none => rfl
  | some r =>
    rw [h] at hs
    simp only [Option.map_some, Option.some.injEq, Prod.mk.injEq] at hs
    simp [hs.1, hs.2]
/-- A bit that no word of a table has, nor the word read where it lists none. -/
theorem get_bit (t : Tab Word) (d : Word) (k i : Nat) (hd : bit d i = false) (ht : ∀ kv ∈ t, bit kv.2 i = false) : bit (Tab.get t d k) i = false := by
  induction t with
  | nil => exact hd
  | cons x xs ih =>
    unfold Tab.get
    (repeat' split) <;> first | exact hd | exact ht x (by simp) | exact ih (fun kv hkv => ht kv (by simp [hkv]))
/-- With no headgate on the element and no attachment map written no pair loses its route. -/
theorem derailCode_none (s : State) (key : Nat) (ha : attachedTo s key = []) (hr : ∀ kv ∈ s.regs, bit kv.2 63 = false) : derailCode s key = 0 := by
  have hv (n k : Nat) (hn : n < 160) : attachValid s n k = false := by
    unfold attachValid
    by_cases hk : k < 160
    · have := get_bit s.regs (regReset (Reg.HG_ATTACH_k n k)) (Reg.HG_ATTACH_k n k) 63 (by rw [attachMap_reset n k hn hk]; decide) hr
      simp [hk, State.getB, State.reg, this]
    · simp [hk]
  have hd (n : Nat) (hn : n < 160) (t : State) (ht : t.regs = s.regs) : destRouters t n = [] := by
    have hv' (k : Nat) : attachValid t n k = false := by
      have := hv n k hn
      simpa [attachValid, State.getB, State.reg, ht] using this
    unfold destRouters
    have he : (List.filterMap (fun k => if attachValid t n k then nodeIdx (attachNode t n k) else none) (List.range 160)) = [] :=
      List.filterMap_eq_nil_iff.2 (fun k _ => by simp [hv' k])
    rw [he]; rfl
  unfold derailCode avoiding
  simp only [ha, List.any_nil, Bool.false_eq_true, if_false, forEach, List.foldl_nil]
  rw [if_neg]
  simp only [Bool.not_eq_true, List.any_eq_false, allHgs, List.mem_range]
  intro n hn
  have hl (t : State) (ht : t.regs = s.regs) (b : Avoid) : lacksRoute t b n = false := by
    unfold lacksRoute
    rw [hd n hn t ht]
    rfl
  exact hl _ rfl _
/-- The East link of the router of node 0x00 (port 6). -/
def linkWords (code : Word) : List Word := [code, BitVec.ofNat 64 (0x00 + 6 * 2 ^ 8 + 2 ^ 11)]
theorem meets_routeDetour : commandReady 0x0501 (showing twoLinks (linkWords 0x0501)) 3 (cmdOf (linkWords 0x0501)) ∧
    derailCode (showing twoLinks (linkWords 0x0501)) (elemOf (linkWords 0x0501)) = 0 ∧ (showing twoLinks (linkWords 0x0501)).rd.chans = [] :=
  ⟨ready _ _ _ rfl (by decide) rfl, derailCode_none _ _ (by decide +kernel) (by decide), rfl⟩
/-- The same with headgate 9 on its other link, so that none is on router 9. -/
def otherLink : State := twoLinks.setReg (Reg.HG_ATTACH 9) 0x331
theorem meets_routerSet : commandReady 0x0503 (showing otherLink [0x0503, 0x8809, 0]) 3 (cmdOf [0x0503, 0x8809, 0]) ∧
    nodeIdx (cf [0x0503, 0x8809, 0] 1 0 8) = some 9 ∧ derailCode (showing otherLink [0x0503, 0x8809, 0]) 9 = 0 ∧
    (showing otherLink [0x0503, 0x8809, 0]).rd.chans = [] :=
  ⟨ready _ _ _ rfl (by decide +kernel) rfl, by decide, derailCode_none _ _ (by decide +kernel) (by decide), rfl⟩
theorem meets_routeRestore : commandReady 0x0502 (showing served (linkWords 0x0502)) 3 (cmdOf (linkWords 0x0502)) ∧
    ¬elemOf (linkWords 0x0502) < 1000 := ⟨ready _ _ _ rfl (by decide) rfl, by decide⟩
theorem meets_attachMove : commandReady 0x0504 (showing twoLinks [0x0504, 0x109]) 3 (cmdOf [0x0504, 0x109]) ∧ cf [0x0504, 0x109] 1 0 8 = (9 : Hg).val ∧
    linkInUse (showing twoLinks [0x0504, 0x109]) 9 ≠ b2n (cb [0x0504, 0x109] 1 8) ∧
    healthyLink (showing twoLinks [0x0504, 0x109]) 9 (b2n (cb [0x0504, 0x109] 1 8)) = true :=
  ⟨ready _ _ _ rfl (by decide +kernel) rfl, by decide, by decide +kernel, by decide +kernel⟩
/-- Headgate 40 in domain 1, whose STATE is `st`. -/
def domain1 (st : Nat) : State := (served.setReg (Reg.CK_HG_DOM 40) 0x21).setF (Reg.CK_DOM 1) 1 3 st
theorem meets_domainSleep : commandReady 0x0601 (showing (domain1 0) [0x0601, 1]) 3 (cmdOf [0x0601, 1]) ∧
    domState (showing (domain1 0) [0x0601, 1]) (cf [0x0601, 1] 1 0 5) = 0 ∧ domainHgs (showing (domain1 0) [0x0601, 1]) (cf [0x0601, 1] 1 0 5) ≠ [] :=
  ⟨ready _ _ _ rfl (by decide) rfl, by decide, by decide +kernel⟩
theorem meets_domainWake : commandReady 0x0602 (showing (domain1 4) [0x0602, 1]) 3 (cmdOf [0x0602, 1]) ∧
    domState (showing (domain1 4) [0x0602, 1]) (cf [0x0602, 1] 1 0 5) = 4 ∧ 40 ∈ domainHgs (showing (domain1 4) [0x0602, 1]) (cf [0x0602, 1] 1 0 5) ∧
    haiAwake (showing (domain1 4) [0x0602, 1]) 40 = false := ⟨ready _ _ _ rfl (by decide) rfl, by decide, by decide +kernel, by decide⟩
theorem meets_leveeSet_target : commandReady 0x0701 (showing served [0x0701, 0x228]) 3 (cmdOf [0x0701, 0x228]) ∧ cf [0x0701, 0x228] 1 0 8 = (40 : Hg).val ∧
    cb [0x0701, 0x228] 1 11 = false ∧ cb [0x0701, 0x228] 1 8 = false ∧ (showing served [0x0701, 0x228]).getB (Reg.HG_LEVEE 40) 0 = false ∧
    (agentOf 40).isSome = true := ⟨ready _ _ _ rfl (by decide) rfl, by decide, by decide, by decide, by decide, by decide⟩
/-- Headgate 120 behind a target levee that siphons nothing any more. -/
def leveed : State := served.setB (Reg.HG_LEVEE 120) 0 true
theorem meets_leveeClear : commandReady 0x0702 (showing leveed [0x0702, 120]) 3 (cmdOf [0x0702, 120]) ∧ cf [0x0702, 120] 1 0 8 = (120 : Hg).val ∧
    cb [0x0702, 120] 1 8 = false ∧ agentOf 120 = none ∧ (showing leveed [0x0702, 120]).getB (Reg.HG_LEVEE 120) 0 = true ∧
    (showing leveed [0x0702, 120]).getB (Reg.HG_LEVEE 120) 3 = false ∧ cycledSince (showing leveed [0x0702, 120]) 120 = true :=
  ⟨ready _ _ _ rfl (by decide) rfl, by decide, by decide, by decide, by decide, by decide, by decide⟩
theorem meets_leveeClear_remote : commandReady 0x0702 (showing (served.setB (Reg.HG_DEAD_DEST 8 0) 9 true) [0x0702, 0x109]) 3 (cmdOf [0x0702, 0x109]) ∧
    cf [0x0702, 0x109] 1 0 8 = (9 : Hg).val ∧ cb [0x0702, 0x109] 1 8 = true ∧
    deadDest (showing (served.setB (Reg.HG_DEAD_DEST 8 0) 9 true) [0x0702, 0x109]) 8 9 = true :=
  ⟨ready _ _ _ rfl (by decide) rfl, by decide, by decide, by decide⟩
theorem meets_imageLoad : commandReady 0x0A02 (showing served [0x0A02, 0, 0x200, 1]) 3 (cmdOf [0x0A02, 0, 0x200, 1]) := ready _ _ _ rfl (by decide) rfl
theorem meets_lifecycleSeal : commandReady 0x0A03 (showing served [0x0A03, 0x4C414553]) 3 (cmdOf [0x0A03, 0x4C414553]) ∧
    lifeState (showing served [0x0A03, 0x4C414553]) = 0 ∧ cw [0x0A03, 0x4C414553] 1 = 0x4C414553 ∧
    (showing served [0x0A03, 0x4C414553]).getB Reg.GL_RIDER_STATUS 2 = false := ⟨ready _ _ _ rfl (by decide) rfl, by decide, by decide, by decide⟩
theorem meets_lifecycleRetire : commandReady 0x0A04 (showing served [0x0A04, 0x455249544552]) 3 (cmdOf [0x0A04, 0x455249544552]) ∧
    lifeState (showing served [0x0A04, 0x455249544552]) ≠ 2 ∧ cw [0x0A04, 0x455249544552] 1 = 0x455249544552 :=
  ⟨ready _ _ _ rfl (by decide) rfl, by decide, by decide⟩
/-- Commands waiting in mailbox 3. -/
def waiting (s : State) (ws : List Word) : State := s.setMb 3 { Mailbox.reset with queue := [ws] }
theorem meets_start_idle : (served.mbAt 3).queue = [] := by decide
theorem meets_start_change : ((waiting served [0x0901, 3]).mbAt 3).queue = [[0x0901, 3]] ∧ classS [0x0901, 3] = true ∧
    serves (waiting served [0x0901, 3]) 3 = true ∧ ((waiting served [0x0901, 3]).mbAt 3).cur = none ∧
    ((waiting served [0x0901, 3]).mbAt 3).rsp.length < 64 ∧ (waiting served [0x0901, 3]).rd.active = none ∧
    recovers (waiting served [0x0901, 3]) = false ∧ (∀ k, k < 32 → k ≠ 3 → ((waiting served [0x0901, 3]).mbAt k).queue = []) ∧
    screen (waiting served [0x0901, 3]) 3 [0x0901, 3] = 0 := by
  refine ⟨by decide, by decide, by decide, by decide, by decide, by decide, by decide, ?_, by decide⟩
  intro k _ h3
  show ((served.setMb 3 _).mbAt k).queue = []
  rw [State.mbAt_setMb_other _ _ _ _ h3]
  rfl
/-- The same with another command of class S running. -/
def busyWith (ws : List Word) : State := (waiting served ws).setRd { served.rd with active := some 5 }
theorem meets_start_busy : ((busyWith [0x0901, 3]).mbAt 3).queue = [[0x0901, 3]] ∧ classS [0x0901, 3] = true ∧
    (busyWith [0x0901, 3]).rd.active ≠ none := by decide
/-- A command past its plan, within a step. -/
def withinStep : Running := { words := [0x0901, 3], planned := true, rerun := false, prog := Prog.start [.wait .unitIdle] }
theorem meets_start_between : classS [0x0101, 0] = false ∧
    (((busyWith [0x0101, 0]).setMb 5 { Mailbox.reset with cur := some withinStep }).mbAt (5 : Mbx)).cur = some withinStep ∧
    withinStep.planned = true ∧ withinStep.prog.atStep = false := by decide
theorem meets_start_refused : screen (waiting served [0x0901, 1]) 3 [0x0901, 0x8000] ≠ 0 := by decide
theorem meets_start_query : ((waiting served [0x0101, 0]).mbAt 3).queue = [[0x0101, 0]] ∧ classS [0x0101, 0] = false ∧
    serves (waiting served [0x0101, 0]) 3 = true ∧ ((waiting served [0x0101, 0]).mbAt 3).cur = none ∧ (waiting served [0x0101, 0]).rd.active = none ∧
    screen (waiting served [0x0101, 0]) 3 [0x0101, 0] = 0 := by decide
theorem meets_screen_rom : stage (live 0) ≠ 9 ∧ codeOf [0x0901, 3] ≠ 0x0A02 := by decide
theorem meets_screen_unknown : stage served = 9 ∧ (∀ k ∈ [0x0101, 0x0102, 0x0201, 0x0202, 0x0203, 0x0301, 0x0302, 0x0401, 0x0402, 0x0501, 0x0502, 0x0503,
    0x0504, 0x0601, 0x0602, 0x0603, 0x0701, 0x0702, 0x0801, 0x0802, 0x0803, 0x0804, 0x0901, 0x0A01, 0x0A02, 0x0A03, 0x0A04], codeOf [0x1234] ≠ k) := by decide
theorem meets_screen_reserved : field (cw [0x100000901] 0) 32 32 ≠ 0 ∧ (usedBits [0x100000901]).isSome = true := by decide
theorem meets_screen_headgate : codeOf [0x0701, 160] = 0x0701 ∧ 160 ≤ cf [0x0701, 160] 1 0 8 := by decide
/-- A query that runs for mailbox 3. -/
def asking (s : State) (ws : List Word) : State := s.setMb 3 { Mailbox.reset with cur := some (cmdOf ws) }
theorem meets_query : ((asking served [0x0101, 0x0905]).mbAt 3).cur = some (cmdOf [0x0101, 0x0905]) ∧ codeOf [0x0101, 0x0905] = 0x0101 ∧
    riderWorks (asking served [0x0101, 0x0905]) = true ∧ cf [0x0101, 0x0905] 1 0 8 = 5 := by decide
theorem meets_logRead : ((asking served [0x0804, 64]).mbAt 3).cur = some (cmdOf [0x0804, 64]) ∧ codeOf [0x0804, 64] = 0x0804 ∧
    riderWorks (asking served [0x0804, 64]) = true := by decide
theorem meets_query_none : (served.mbAt 3).cur = none := by decide
theorem meets_refused : commandReady 0x0202 (showing served [0x0202, 7]) 3 (cmdOf [0x0202, 7]) ∧ (cmdOf [0x0202, 7]).prog.ran = false ∧ (cmdOf [0x0202, 7]).prog.ownLock = false ∧
    (∀ x ∈ (showing served [0x0202, 7]).rd.chans, x.chan ≠ cf [0x0202, 7] 1 0 12) := ⟨ready _ _ _ rfl (by decide) rfl, rfl, rfl, by decide⟩
theorem meets_refused_open : commandReady 0x0201 (showing served openWords) 3 (cmdOf openWords) ∧ (showing served openWords).bd.everValid = false :=
  ⟨ready _ _ _ rfl (by decide) rfl, by decide⟩
theorem meets_refused_rate : (showing (timed 0) [0x0201, 7]).bd.everValid = true ∧ cf [0x0201, 7] 1 32 18 = 0 ∧
    0 < cf [0x0201, 0x100000007] 1 32 18 ∧ 255 < kNow (showing (timed 0) [0x0201, 7]) / cf [0x0201, 0x100000007] 1 32 18 := by decide
theorem meets_refused_state : (showing (domain1 2) [0x0601, 1]).getF (Reg.CK_DOM 1) 1 3 = 2 ∧ lifeState (live 2) = 2 ∧
    cf [0x0401, 0x7403] 1 8 8 = 116 := by decide
theorem meets_resume_halted : riderWorks (live 0) = false := by decide
theorem meets_resume_idle : served.rd.active = none ∧ hardwareWake served = none ∧ served.rd.recoveries = [] ∧ served.rd.owed = [] := by decide
theorem meets_resume_owed : riderWorks (served.setRd { served.rd with owed := [(3, 9, 1)] }) = true ∧
    (served.setRd { served.rd with owed := [(3, 9, 1)] }).rd.active = none := by decide
/-- A command of code `code` past its plan, at the boundary before the steps given. -/
def stepping (code : Word) (w1 : Word) (acts : List RAct) : Running :=
  { words := [code, w1], planned := true, rerun := false, prog := { Prog.start acts with step := 1, atStep := true } }
def atStepOf (s : State) (c : Running) : State := (s.setRd { s.rd with active := some 3 }).setMb 3 { Mailbox.reset with cur := some c }
theorem meets_resume_writes : hardwareWake (atStepOf served (stepping 0x0102 0 [.wr Reg.RV_CFG 5 0x7F, .stepDone])) = none ∧
    riderWorks (atStepOf served (stepping 0x0102 0 [.wr Reg.RV_CFG 5 0x7F, .stepDone])) = true ∧
    ((atStepOf served (stepping 0x0102 0 [.wr Reg.RV_CFG 5 0x7F, .stepDone])).mbAt (3 : Mbx)).cur =
      some (stepping 0x0102 0 [.wr Reg.RV_CFG 5 0x7F, .stepDone]) ∧
    (atStepOf served (stepping 0x0102 0 [.wr Reg.RV_CFG 5 0x7F, .stepDone])).rd.disturbed = false ∧
    (∀ x ∈ [(Reg.RV_CFG, (5 : Word), (0x7F : Word))], 0x80000 ≤ x.1 ∧ x.1 < 0x100000) ∧
    (stepping 0x0102 0 [.wr Reg.RV_CFG 5 0x7F, .stepDone]).prog.acts =
      [(Reg.RV_CFG, (5 : Word), (0x7F : Word))].map (fun x => .wr x.1 x.2.1 x.2.2) ++ .stepDone :: [] := by decide
/-- The same within a step that waits for the fuse. -/
def fuseWait : Running := { words := [0x0A03, 0x4C414553], planned := true, rerun := false, prog := Prog.start [.wait .fuseDone, .stepDone] }
/-- A hardware wake of domain 2 that waits for its agents. -/
def wakeWaits : Recovery := { kind := .wake 2, prog := Prog.start [.wait (.awake 2 500)] }
theorem meets_resume_wake : wakeWaits.isFault = false ∧ recoveryRuns ((served.setReg (Reg.CK_HG_DOM 5) 34).setRd { served.rd with recoveries := [wakeWaits] }) wakeWaits = false := by
  decide +kernel
theorem meets_resume_wait : condHolds (atStepOf (served.setBd { served.bd with lcProgReq := true }) fuseWait) .fuseDone = false ∧
    fuseWait.planned = true ∧ fuseWait.prog.atStep = false ∧ codeOf fuseWait.words ≠ 0x0601 ∧ Cond.fuseDone.timer = none ∧
    riderWorks (atStepOf (served.setBd { served.bd with lcProgReq := true }) fuseWait) = true := by decide
/-- An ATTACH_MOVE to a link that is not healthy any more, after a recovery. -/
def disturbedMove : State :=
  let s := atStepOf served (stepping 0x0504 0x109 [.stepDone])
  s.setRd { s.rd with disturbed := true }
theorem meets_resume_abandon : riderWorks disturbedMove = true ∧ hardwareWake disturbedMove = none ∧ disturbedMove.rd.active = some 3 ∧ disturbedMove.rd.disturbed = true ∧
    disturbedMove.rd.recoveries = [] ∧ (disturbedMove.mbAt (3 : Mbx)).cur = some (stepping 0x0504 0x109 [.stepDone]) ∧
    codeOf (stepping 0x0504 0x109 [.stepDone]).words = 0x0504 ∧ healthyLink disturbedMove 9 1 = false := by decide
/-- A sleep of domain 1 with a wake request pending. -/
def wokenSleep : State := atStepOf ((domain1 1).setB (Reg.CK_DOM 1) 5 true) (stepping 0x0601 1 [.domState 1 2])
theorem meets_resume_sleep : riderWorks wokenSleep = true ∧ domState wokenSleep 1 = 1 ∧ wokenSleep.getB (Reg.CK_DOM 1) 5 = true ∧
    cf (stepping 0x0601 1 [.domState 1 2]).words 1 0 5 = 1 ∧ codeOf (stepping 0x0601 1 [.domState 1 2]).words = 0x0601 := by decide
def ended : Recovery := { kind := .slice 3, prog := Prog.start [] }
theorem meets_resume_ended : riderWorks (served.setRd { served.rd with recoveries := [ended] }) = true ∧ ended.prog.acts = [] := by decide
def stuck : Recovery := { kind := .slice 3, prog := Prog.start [.wait .fuseDone] }
theorem meets_resume_behind : condHolds (served.setBd { served.bd with lcProgReq := true }) .fuseDone = false ∧
    stuck.prog.acts = .wait .fuseDone :: [] ∧ stuck.isFault = true := by decide
/-- A record of type `typ` from source `src`. -/
def recordOf (typ src : BitVec 8) (detail : Word) : AlarmRec := mkAlarm typ src false 1 0 detail
/-- The firmware with a record in its FIFO. -/
def alarmed (a : AlarmRec) : State := served.setRd { served.rd with fifo := [a] }
theorem meets_alarm : firmwareWorks (alarmed (recordOf 0x47 9 0)) = true ∧ (alarmed (recordOf 0x47 9 0)).rd.fifo = recordOf 0x47 9 0 :: [] ∧
    (recordOf 0xD0 9 0).typ.toNat ∉ [0x10, 0x40, 0x13, 0x4D, 0x41, 0x53, 0x47, 0x48, 0x80, 0x81] := by decide
theorem meets_alarm_link : linkKnown (alarmed (recordOf 0x10 44 0)) (linkNamed (recordOf 0x10 44 0)).1 (linkNamed (recordOf 0x10 44 0)).2 = false ∧
    linkCause (recordOf 0x10 44 0) ≠ 5 ∧ (alarmed (recordOf 0x10 44 0)).rd.window = none := by decide
theorem meets_alarm_stall : pairReachable (alarmed (recordOf 0x48 9 4)) 9 4 = false ∧
    pairReachable ((((alarmed (recordOf 0x48 9 4)).setReg (Reg.RT_CTRL 9) 0xFF).setReg (Reg.RT_CTRL 4) 0xFF)) 9 9 = true ∧
    (alarmed (recordOf 0x48 9 9)).getB (Reg.HG_TGT_TMO 9) 12 = false := by decide +kernel
/-- A window with the declaration of the attachment of router 44. -/
def judging : State := served.setRd { served.rd with window := some 100, linkAlarms := [recordOf 0x10 44 0] }
theorem meets_window : judging.rd.window = some 100 ∧ firmwareWorks judging = true := by decide
theorem meets_window_link : judging.rd.linkAlarms.filterMap declaredPort = [] ∧
    (∀ i, judgedFailed judging [] i = false) := by
  refine ⟨by decide, fun i => ?_⟩
  unfold judgedFailed
  generalize (elemPorts i).filter (fun x => judging.enabled (.rt i x.2) && !linkOut judging i x.2 && !farFailed judging i x.2) = ps
  cases ps <;> simp
/-- The same with router 43 enabled on its port 6 alone, declared by its neighbour. -/
def judgingRouter : State :=
  ((live 0).setF Reg.GL_BOOT 0 4 9).setReg (Reg.RT_CTRL 43) 0x40 |>.setRd { served.rd with window := some 100, linkAlarms := [recordOf 0x10 44 4] }
theorem meets_window_router : judgingRouter.rd.linkAlarms.filterMap declaredPort = [(43, 6)] ∧
    judgedFailed judgingRouter [(43, 6)] 43 = true ∧ firmwareWorks judgingRouter = true := by decide +kernel
theorem meets_restart : served.rd.debugHalt = false ∧ riderHalted served = false ∧ underReset served = false ∧ (recentRestarts served).length < 3 ∧
    served.rd.restartsAt = [] := by decide
theorem meets_restart_third : 3 ≤ (recentRestarts (served.setRd { served.rd with restartsAt := [0, 0, 0] })).length := by decide
theorem meets_debug : debugHalted.rd.debugHalt = true ∧ served.rd.restarting = false := by decide
/-- A restart in progress, before any image and with one that is too short. -/
def restarted (s : State) (img : List Byte) : State := s.setRd { s.rd with restarting := true, image := img }
theorem meets_restart_waits : (restarted (live 0) []).rd.restarting = true ∧ riderHalted (restarted (live 0) []) = false ∧
    underReset (restarted (live 0) []) = false ∧ stage (restarted (live 0) []) ≠ 9 ∧ (restarted (live 0) []).rd.loadPending = false := by decide
theorem meets_restart_halts : stage (restarted served []) = 9 ∧ (restarted served []).rd.loadPending = false ∧
    digestOk (restarted served []).rd.image = false := by decide +kernel
/-- An image with an empty body: its DIGEST is SHA-256 of nothing (FIPS 180-4). -/
def emptyImage : List Byte :=
  List.replicate 64 0 ++ beBytes 32 0xe3b0c44298fc1c149afbf4c8996fb92427ae41e4649b934ca495991b7852b855
theorem meets_restart_starts : (restarted served emptyImage).rd.restarting = true ∧ (restarted served emptyImage).rd.image ≠ [] ∧
    startOk (restarted (served.setB Reg.GL_RIDER_STATUS 2 true) emptyImage) emptyImage true = true := by decide +kernel
theorem meets_step : ({ State.reset with pending := [.tapIdcode] } : State).pending = .tapIdcode :: [] ∧ State.reset.pending = [] := ⟨rfl, rfl⟩
theorem meets_canonical_step : ∃ t, canonical State.reset ∧ step { State.reset with pending := [.tapIdcode] } = .next t :=
  ⟨_, ⟨by decide, by decide⟩, rfl⟩
theorem meets_footprint : ∃ t, exec .tapIdcode State.reset = .next t := ⟨_, rfl⟩

end Sys2Proof.Tests
end

section
/-! SUPPORT. Rules of the register file that the statements of the fabric control space share: a register written twice, the
numbers that sums of bytes and lanes build, and the block an offset lies in. -/

namespace Sys2Proof.Machine

/-! ### A register written twice -/

theorem Tab.set_set {α : Type} (t : Tab α) (k : Nat) (a b : α) : Tab.set (Tab.set t k a) k b = Tab.set t k b := by
  induction t with
  | nil => simp [Tab.set]
  | cons e rest ih =>
    obtain ⟨k', v'⟩ := e
    rcases Nat.lt_trichotomy k k' with h | rfl | h
    · simp [Tab.set, h]
    · simp [Tab.set]
    · simp [Tab.set, Nat.lt_asymm h, Nat.ne_of_gt h, ih]

theorem Tab.erase_of_lt_all {α : Type} (t : Tab α) (k : Nat) (h : ∀ e ∈ t, k < e.1) : Tab.erase t k = t :=
  List.filter_eq_self.mpr fun e he => by simpa using Nat.ne_of_gt (h e he)

theorem Tab.set_of_lt_all {α : Type} (t : Tab α) (k : Nat) (v : α) (h : ∀ e ∈ t, k < e.1) : Tab.set t k v = (k, v) :: t := by
  cases t with
  | nil => rfl
  | cons e rest => simp [Tab.set, h e (by simp)]

/-- In a table whose keys rise, an erasure before a write of the same key is lost. -/
theorem Tab.set_erase {α : Type} (t : Tab α) (k : Nat) (v : α) (h : Tab.sorted t = true) :
    Tab.set (Tab.erase t k) k v = Tab.set t k v := by
  rw [Tab.sorted_iff] at h
  induction t with
  | nil => rfl
  | cons e rest ih =>
    obtain ⟨k', v'⟩ := e
    obtain ⟨hall, hrest⟩ := List.pairwise_cons.mp h
    rcases Nat.lt_trichotomy k k' with hk | rfl | hk
    · rw [Tab.erase_of_lt_all]
      rintro e he
      rcases List.mem_cons.mp he with rfl | he
      · exact hk
      · exact Nat.lt_trans hk (hall e he)
    · have he : Tab.erase ((k, v') :: rest) k = Tab.erase rest k := by simp [Tab.erase]
      rw [he, Tab.erase_of_lt_all rest k hall, Tab.set_of_lt_all rest k v hall]
      simp [Tab.set]
    · have he : Tab.erase ((k', v') :: rest) k = (k', v') :: Tab.erase rest k := by simp [Tab.erase, Nat.ne_of_lt hk]
      rw [he]
      simp [Tab.set, Nat.lt_asymm hk, Nat.ne_of_gt hk, ih hrest]

theorem Tab.erase_set {α : Type} (t : Tab α) (k : Nat) (v : α) : Tab.erase (Tab.set t k v) k = Tab.erase t k := by
  induction t with
  | nil => simp [Tab.set, Tab.erase]
  | cons e rest ih =>
    obtain ⟨k', v'⟩ := e
    unfold Tab.erase at ih ⊢
    rcases Nat.lt_trichotomy k k' with h | rfl | h
    · simp [Tab.set, h]
    · simp [Tab.set]
    · simp [Tab.set, Nat.lt_asymm h, Nat.ne_of_gt h, List.filter_cons, ih]

/-- Of two canonical writes of one key the second stands. -/
theorem Tab.put_put {α : Type} [DecidableEq α] (d : Nat → α) (t : Tab α) (k : Nat) (a b : α) (h : Tab.sorted t = true) :
    Tab.put d (Tab.put d t k a) k b = Tab.put d t k b := by
  unfold Tab.put
  by_cases ha : a = d k <;> by_cases hb : b = d k <;> simp only [ha, hb, if_true, if_false]
  · simp [Tab.erase, List.filter_filter]
  · exact Tab.set_erase t k b h
  · exact Tab.erase_set t k a
  · exact Tab.set_set t k a b

/-- Of two writes of one register the second stands. -/
theorem State.setReg_setReg (s : State) (off : Nat) (a b : Word) (h : canonical s) :
    (s.setReg off a).setReg off b = s.setReg off b := by
  obtain ⟨hwf, _⟩ := h
  have hs : Tab.sorted s.regs = true := (Bool.and_eq_true _ _ ▸ hwf : _ ∧ _).1
  simp only [State.setReg, Tab.put_put _ _ _ _ _ hs]

theorem regsKept_refl (offs : List Nat) (s : State) : regsKept offs s s := fun _ _ => rfl

/-- A write of a listed register does not matter. -/
theorem regsKept_setReg {offs : List Nat} {s x : State} (off : Nat) (v : Word) (h : regsKept offs s x) (hm : off ∈ offs) :
    regsKept offs s (x.setReg off v) := fun o ho => by
  rw [State.reg_setReg_other _ _ _ _ (ne_of_mem_of_not_mem hm ho).symm]
  exact h o ho

/-! ### Sums of bytes and lanes -/

theorem sumBy_append {α : Type} (f : α → Nat) (xs ys : List α) : sumBy f (xs ++ ys) = sumBy f xs + sumBy f ys := by
  induction xs with
  | nil => simp [sumBy]
  | cons x xs ih =>
    simp only [sumBy, List.cons_append, List.foldr_cons] at ih ⊢
    omega

theorem sumBy_filter {α : Type} (f : α → Nat) (p : α → Bool) (xs : List α) :
    sumBy f (xs.filter p) = sumBy (fun x => if p x then f x else 0) xs := by
  induction xs with
  | nil => rfl
  | cons x xs ih =>
    simp only [sumBy] at ih
    cases h : p x <;> simp [sumBy, h, ih]

/-- A sum of digits of `w` bits: below the first `n` digits' length, and each bit that of its digit. -/
theorem sumBy_digits (w : Nat) (g : Nat → Nat) (hg : ∀ j, g j < 2 ^ w) (n : Nat) :
    sumBy (fun j => g j * 2 ^ (w * j)) (List.range n) < 2 ^ (w * n) ∧
      ∀ j i, i < w → (sumBy (fun j => g j * 2 ^ (w * j)) (List.range n)).testBit (w * j + i) = (decide (j < n) && (g j).testBit i) := by
  induction n with
  | zero => simp [sumBy]
  | succ n ih =>
    obtain ⟨hlt, hbit⟩ := ih
    have hsum : sumBy (fun j => g j * 2 ^ (w * j)) (List.range (n + 1)) =
        2 ^ (w * n) * g n + sumBy (fun j => g j * 2 ^ (w * j)) (List.range n) := by
      rw [List.range_succ, sumBy_append, Nat.add_comm]
      simp [sumBy, Nat.mul_comm]
    rw [hsum]
    refine ⟨?_, fun j i hi => ?_⟩
    · have : 2 ^ (w * n) * (g n + 1) ≤ 2 ^ (w * n) * 2 ^ w := Nat.mul_le_mul_left _ (hg n)
      rw [Nat.mul_succ, Nat.pow_add]
      rw [Nat.mul_add] at this
      omega
    · rw [Nat.testBit_two_pow_mul_add _ hlt]
      rcases Nat.lt_trichotomy j n with h | rfl | h
      · have : w * j + w ≤ w * n := by rw [← Nat.mul_succ]; exact Nat.mul_le_mul_left _ h
        rw [if_pos (by omega), hbit j i hi]
        simp [h, Nat.lt_succ_of_lt h]
      · rw [if_neg (by omega)]
        simp
      · have : w * n + w ≤ w * j := by rw [← Nat.mul_succ]; exact Nat.mul_le_mul_left _ h
        rw [if_neg (by omega), Nat.testBit_lt_two_pow]
        · have : ¬ j < n + 1 := by omega
          simp [this]
        · exact Nat.lt_of_lt_of_le (hg n) (Nat.pow_le_pow_right (by omega) (by omega))

/-- Bit `i` of the mask of the enabled bytes is the enable of its byte. -/
theorem getLsbD_byteMask (be : BitVec 8) (i : Nat) (hi : i < 64) : (byteMask be).getLsbD i = be.getLsbD (i / 8) := by
  have hsum : sumBy (fun k => 0xFF * 2 ^ (8 * k)) (bitsOf be 8) =
      sumBy (fun k => (if be.getLsbD k then 0xFF else 0) * 2 ^ (8 * k)) (List.range 8) := by
    rw [bitsOf, sumBy_filter]
    congr 1
    funext k
    split <;> simp
  have hbits := (sumBy_digits 8 (fun k => if be.getLsbD k then 0xFF else 0) (fun k => by split <;> decide) 8).2
    (i / 8) (i % 8) (Nat.mod_lt _ (by decide))
  have hff : Nat.testBit 0xFF (i % 8) = true := by
    rw [show 0xFF = 2 ^ 8 - 1 from rfl, Nat.testBit_two_pow_sub_one]
    exact decide_eq_true (Nat.mod_lt _ (by decide))
  rw [Nat.div_add_mod] at hbits
  rw [byteMask, hsum, BitVec.getLsbD_ofNat, hbits]
  have h8 : i / 8 < 8 := by omega
  cases be.getLsbD (i / 8) <;> simp [hi, h8, hff]

theorem byteMask_all : byteMask 0xFF = 0xFFFFFFFFFFFFFFFF := by decide

/-- A bit of the number that the bytes of a list build, the first the lowest. -/
theorem testBit_bytes (f : Nat → Byte) (l : List Nat) (j i : Nat) (hi : i < 8) :
    (l.foldr (fun k acc => acc * 256 + (f k).toNat) 0).testBit (8 * j + i) =
      match l[j]? with | some k => (f k).getLsbD i | none => false := by
  induction l generalizing j with
  | nil => simp
  | cons k l ih =>
    rw [List.foldr_cons, Nat.mul_comm, Nat.testBit_two_pow_mul_add (i := 8) _ (f k).isLt]
    cases j with
    | zero => simp [hi, BitVec.getLsbD]
    | succ j =>
      rw [if_neg (by omega), show 8 * (j + 1) + i - 8 = 8 * j + i by omega, ih]
      simp

/-- A bit of a beat is that of its byte. -/
theorem getLsbD_lineOf (f : Nat → Byte) (p : Nat) (hp : p < 512) : (lineOf f).getLsbD p = (f (p / 8)).getLsbD (p % 8) := by
  have h := testBit_bytes f (List.range 64) (p / 8) (p % 8) (Nat.mod_lt _ (by decide))
  rw [Nat.div_add_mod] at h
  rw [lineOf, BitVec.getLsbD_ofNat, h, List.getElem?_range (by omega)]
  simp [hp]

theorem getLsbD_byteOf (l : Line) (p : Nat) : (byteOf l (p / 8)).getLsbD (p % 8) = l.getLsbD p := by
  rw [byteOf, BitVec.getLsbD_extractLsb', Nat.div_add_mod]
  simp [Nat.mod_lt]

/-- A word whose lanes are all enabled is the new beat's. -/
theorem wordOf_mergeLine (old new : Line) (be : BitVec 64) (q : Nat) (hq : q < 8) (h : ∀ j, j < 8 → be.getLsbD (8 * q + j) = true) :
    wordOf (mergeLine old new be) q = wordOf new q := by
  apply BitVec.eq_of_getLsbD_eq
  intro i hi
  have hlane : be.getLsbD ((64 * q + i) / 8) = true := by
    have := h (i / 8) (by omega)
    rwa [show 8 * q + i / 8 = (64 * q + i) / 8 by omega] at this
  simp only [wordOf, BitVec.getLsbD_extractLsb', mergeLine]
  rw [getLsbD_lineOf _ _ (by omega), if_pos hlane, getLsbD_byteOf]

/-! ### The block of an offset (R452) -/

theorem fcsLocate_global (off : Nat) (h : off < 0x10000) : fcsLocate off = (.global, 0, off) := by
  simp (disch := omega) only [fcsLocate, if_neg, if_pos]

theorem fcsLocate_probe (off : Nat) (h : 0x40000 ≤ off) (h' : off < 0x80000) : fcsLocate off = (.probe, 0, off) := by
  simp (disch := omega) only [fcsLocate, if_neg, if_pos]

theorem fcsLocate_reservoir (off : Nat) (h : 0xD0000 ≤ off) (h' : off < 0xE0000) :
    fcsLocate off = (.reservoir, 0, off - 0xD0000) := by
  simp (disch := omega) only [fcsLocate, if_neg, if_pos]

theorem fcsLocate_slice (k lo : Nat) (hk : k < 17) (hlo : lo < 0x4000) : fcsLocate (hsBase k + lo) = (.slice, k, lo) := by
  unfold fcsLocate hsBase
  simp (disch := omega) only [if_neg, if_pos, Prod.mk.injEq, true_and]
  omega

theorem fcsLocate_headgate (n lo : Nat) (hn : n < 160) (hlo : lo < 0x4000) : fcsLocate (hgBase n + lo) = (.headgate, n, lo) := by
  unfold fcsLocate hgBase
  simp (disch := omega) only [if_neg, if_pos, Prod.mk.injEq, true_and]
  omega

/-- The gaps of Table 18-1 hold no register. -/
theorem fcsLocate_gap (off : Nat) (h : off < 0x800000)
    (hgap : 0xC4000 ≤ off ∧ off < 0xD0000 ∨ 0xE0000 ≤ off ∧ off < 0x100000 ∨ 0x164000 ≤ off ∧ off < 0x200000 ∨ 0x480000 ≤ off) :
    fcsLocate off = (.none, 0, off) := by
  rcases hgap with h' | h' | h' | h' <;> simp (disch := omega) only [fcsLocate, if_neg, if_pos]

end Sys2Proof.Machine
end

section
/-! SUPPORT. What a write of a register does, by who writes and where: the Rider's write in each block, the fields it stores, and a
client's write that is refused. -/

namespace Sys2Proof.Machine

/-! ### The register at an offset -/

theorem regAt_of_locate {off inst lo : Nat} {b : Blk} {r : RegSpec} (hl : fcsLocate off = (b, inst, lo))
    (hr : b.regs.find? (fun r => r.holds lo) = some r) : regAt off = some (r, inst, (lo - r.off) / r.stride) := by
  simp only [regAt, hl, hr]

/-- A register that stands at an offset is one of its block's list. -/
theorem mem_regs_of_regAt {off k j : Nat} {r : RegSpec} (h : regAt off = some (r, k, j)) : r ∈ (fcsLocate off).1.regs := by
  unfold regAt at h
  cases hf : (fcsLocate off).1.regs.find? (fun r => r.holds (fcsLocate off).2.2) with
  | none => simp [hf] at h
  | some r' =>
    simp only [hf, Option.some.injEq, Prod.mk.injEq] at h
    obtain ⟨rfl, _, _⟩ := h
    exact List.mem_of_find?_eq_some hf

theorem regAt_epoch (n : Nat) (hn : n < 160) :
    regAt (Reg.HG_EPOCH n) = some (⟨"HG_EPOCH", 0x10, 0x8, 1, 0x0, 0x0, 0x0, 0x0, 0x0, 0x10, 0x40, 0⟩, n, 0) :=
  regAt_of_locate (fcsLocate_headgate n 0x10 hn (by decide)) rfl

theorem regAt_replayCmd (n : Nat) (hn : n < 160) :
    regAt (Reg.HG_REPLAY_CMD n) = some (⟨"HG_REPLAY_CMD", 0x138, 0x8, 1, 0x0, 0x0, 0x1FF, 0x0, 0x0, 0x200, 0x0, 0⟩, n, 0) :=
  regAt_of_locate (fcsLocate_headgate n 0x138 hn (by decide)) rfl

theorem regAt_pairReset (n : Nat) (hn : n < 160) :
    regAt (Reg.HG_PAIR_RESET n) = some (⟨"HG_PAIR_RESET", 0x1F38, 0x8, 1, 0x0, 0x0, 0x4FF, 0x0, 0x0, 0x100, 0x0, 0⟩, n, 0) :=
  regAt_of_locate (fcsLocate_headgate n 0x1F38 hn (by decide)) rfl

theorem regAt_sweep (k : Nat) (hk : k < 17) :
    regAt (Reg.HS_SWEEP k) = some (⟨"HS_SWEEP", 0x28, 0x8, 1, 0x0, 0x0, 0xF, 0x0, 0x0, 0x10, 0x0, 0⟩, k, 0) :=
  regAt_of_locate (fcsLocate_slice k 0x28 hk (by decide)) rfl

theorem regAt_watchdog :
    regAt Reg.GL_RIDER_WDOG = some (⟨"GL_RIDER_WDOG", 0x108, 0x8, 1, 0x0, 0x0, 0xFFFF, 0x0, 0x0, 0x10000, 0x3E8, 0⟩, 0, 0) :=
  regAt_of_locate (fcsLocate_global 0x108 (by decide)) rfl

/-- Outside HG_DEAD_DEST no bit of a headgate's register is fixed. -/
theorem fixedBits_headgate (n lo : Nat) (hn : n < 160) (hlo : lo < 0x4000) (hd : lo ≠ 0x1F30) : fixedBits (hgBase n + lo) = 0 := by
  have hbase : 0x200000 ≤ hgBase n := by unfold hgBase; omega
  unfold fixedBits
  rw [if_neg (by unfold Reg.CK_HG_DOM; omega), if_neg (by unfold Reg.PR_SECRET_MAP; omega), fcsLocate_headgate n lo hn hlo]
  exact if_neg hd

theorem fixedBits_slice (k lo : Nat) (hk : k < 17) (hlo : lo < 0x4000) : fixedBits (hsBase k + lo) = 0 := by
  have hbase : 0x80000 ≤ hsBase k := by unfold hsBase; omega
  unfold fixedBits
  rw [if_neg (by unfold Reg.CK_HG_DOM; omega), if_neg (by unfold Reg.PR_SECRET_MAP; omega), fcsLocate_slice k lo hk hlo]

/-! ### Fields and bits -/

theorem getLsbD_wholeWord (i : Nat) (hi : i < 64) : (0xFFFFFFFFFFFFFFFF : Word).getLsbD i = true := by
  rw [show (0xFFFFFFFFFFFFFFFF : Word) = BitVec.allOnes 64 from rfl, BitVec.getLsbD_allOnes]
  exact decide_eq_true hi

theorem sets_wholeWord (v : Word) (i : Nat) (hi : i < 64) : sets v 0xFFFFFFFFFFFFFFFF i = bit v i := by
  rw [sets, bit, bit, getLsbD_wholeWord i hi, Bool.and_true]

/-- Setting a field hides what the word held there. -/
theorem setField_congr {n : Nat} {w w' : BitVec n} (lo len v : Nat)
    (h : ∀ i, i < n → (i < lo ∨ lo + len ≤ i) → w.getLsbD i = w'.getLsbD i) : setField w lo len v = setField w' lo len v := by
  apply BitVec.eq_of_getLsbD_eq
  intro i hi
  rw [getLsbD_setField, getLsbD_setField]
  by_cases hin : lo ≤ i ∧ i < lo + len
  · simp [hin]
  · rw [if_neg hin, if_neg hin, h i hi (by omega)]

/-- The lowest bits of a field that was set. -/
theorem field_setField_low {n : Nat} (w : BitVec n) (lo len len' v : Nat) (h : lo + len ≤ n) (h' : len' ≤ len) :
    field (setField w lo len v) lo len' = v % 2 ^ len' := by
  apply Nat.eq_of_testBit_eq
  intro i
  rw [testBit_field, getLsbD_setField, Nat.testBit_mod_two_pow]
  by_cases hi : i < len'
  · have hn : lo + i < n := by omega
    have hin : i < len := by omega
    simp [hi, hn, hin]
  · simp [hi]

theorem setField_field {n m : Nat} (w : BitVec n) (v : BitVec m) (lo len : Nat) :
    setField w lo len (field v 0 len) = setField w lo len v.toNat := by
  simp [setField, field]

/-! ### The fields a write stores (R7, R454) -/

/-- The word of the register `r` after a write of `v` in the bits `m`, where no field is locked or fixed. -/
def storedWord (r : RegSpec) (old v m : Word) : Word :=
  ((old &&& ~~~(BitVec.ofNat 64 (r.rw ||| r.rdr) &&& m)) ||| (v &&& (BitVec.ofNat 64 (r.rw ||| r.rdr) &&& m))) &&&
    ~~~(v &&& m &&& BitVec.ofNat 64 r.w1c)

theorem storeFields_eq {s : State} {off k j : Nat} {r : RegSpec} (v m : Word) (hr : regAt off = some (r, k, j)) (hl : r.rwl = 0)
    (hf : fixedBits off = 0) : storeFields s off v m = s.setReg off (storedWord r (s.reg off) v m) := by
  have hrwl : (if lockedReg s off then 0 else r.rwl) = 0 := by rw [hl, ite_self]
  have hfree (x : Word) : x &&& ~~~(0 : Word) = x := by
    rw [show ~~~(0 : Word) = BitVec.allOnes 64 from rfl, BitVec.and_allOnes]
  simp only [storeFields, hr, hrwl, hf, storedWord, Nat.or_zero, hfree]

/-- A bit written with 1 in an RW1C field clears, a bit of an RW or RDR field takes the written one, every other stays. -/
theorem getLsbD_storedWord (r : RegSpec) (old v m : Word) (hd : (r.rw ||| r.rdr) &&& r.w1c = 0) (i : Nat) (hi : i < 64) :
    (storedWord r old v m).getLsbD i =
      (if m.getLsbD i = true ∧ (BitVec.ofNat 64 r.w1c).getLsbD i = true then old.getLsbD i && !v.getLsbD i
       else if m.getLsbD i = true ∧ ((BitVec.ofNat 64 r.rw).getLsbD i || (BitVec.ofNat 64 r.rdr).getLsbD i) = true then v.getLsbD i
       else old.getLsbD i) := by
  have hd' : ((r.rw.testBit i || r.rdr.testBit i) && r.w1c.testBit i) = false := by
    rw [← Nat.testBit_or, ← Nat.testBit_and, hd, Nat.zero_testBit]
  simp only [storedWord, BitVec.getLsbD_and, BitVec.getLsbD_or, BitVec.getLsbD_not, BitVec.getLsbD_ofNat, Nat.testBit_or, hi,
    decide_true, Bool.true_and]
  revert hd'
  cases m.getLsbD i <;> cases r.w1c.testBit i <;> cases (r.rw.testBit i || r.rdr.testBit i) <;> simp

/-- A whole write of a register that has one field, its lowest `len` bits. -/
theorem storedWord_low (r : RegSpec) (old v : Word) (len : Nat) (hm : r.rw ||| r.rdr = 2 ^ len - 1) (hw : r.w1c = 0) :
    storedWord r old v 0xFFFFFFFFFFFFFFFF = setField old 0 len v.toNat := by
  apply BitVec.eq_of_getLsbD_eq
  intro i hi
  rw [getLsbD_setField]
  simp only [storedWord, hm, hw, BitVec.getLsbD_and, BitVec.getLsbD_or, BitVec.getLsbD_not, BitVec.getLsbD_ofNat,
    getLsbD_wholeWord i hi, Nat.testBit_two_pow_sub_one, hi, Nat.zero_testBit]
  by_cases h : i < len <;> simp [h, BitVec.getLsbD]

/-! ### A write by the Rider (R453) -/

theorem exec_registerWrite_rider (s : State) (off : Nat) (v : Word) (be : BitVec 8) (h8 : off % 8 = 0) (hlt : off < 2 ^ 24) :
    exec (.registerWrite .rider (BitVec.ofNat 24 off) v be) s = .next (regWrite s off v (byteMask be)) := by
  have hoff : (BitVec.ofNat 24 off).toNat / 8 * 8 = off := by rw [BitVec.toNat_ofNat]; omega
  show Host.Outcome.next (regWrite s ((BitVec.ofNat 24 off).toNat / 8 * 8) v (byteMask be)) = _
  rw [hoff]

theorem regWrite_headgate (s : State) (n lo : Nat) (v m : Word) (hn : n < 160) (hlo : lo < 0x4000) :
    regWrite s (hgBase n + lo) v m = writeHeadgate s n lo v m := by
  simp only [regWrite, fcsLocate_headgate n lo hn hlo]

theorem regWrite_slice (s : State) (k lo : Nat) (v m : Word) (hk : k < 17) (hlo : lo < 0x4000) :
    regWrite s (hsBase k + lo) v m = writeSlice s k lo v m := by
  simp only [regWrite, fcsLocate_slice k lo hk hlo]

theorem regWrite_global (s : State) (off : Nat) (v m : Word) (h : off < 0x10000) : regWrite s off v m = writeGlobal s off v m := by
  simp only [regWrite, fcsLocate_global off h]

/-- A whole word written by the Rider to a headgate's register. -/
theorem exec_riderWrite_headgate (s : State) (n : Hg) (lo : Nat) (v : Word) (h8 : lo % 8 = 0) (hlo : lo < 0x4000) :
    exec (.registerWrite .rider (BitVec.ofNat 24 (hgBase n + lo)) v 0xFF) s = .next (writeHeadgate s n lo v 0xFFFFFFFFFFFFFFFF) := by
  rw [exec_registerWrite_rider _ _ _ _ (by unfold hgBase; omega) (by unfold hgBase; omega), byteMask_all,
    regWrite_headgate _ _ _ _ _ n.isLt hlo]

/-- A whole word written by the Rider to a slice's register. -/
theorem exec_riderWrite_slice (s : State) (k : Sl) (lo : Nat) (v : Word) (h8 : lo % 8 = 0) (hlo : lo < 0x4000) :
    exec (.registerWrite .rider (BitVec.ofNat 24 (hsBase k + lo)) v 0xFF) s = .next (writeSlice s k lo v 0xFFFFFFFFFFFFFFFF) := by
  rw [exec_registerWrite_rider _ _ _ _ (by unfold hsBase; omega) (by unfold hsBase; omega), byteMask_all,
    regWrite_slice _ _ _ _ _ k.isLt hlo]

/-! ### A client's write that is refused (R456, R461) -/

theorem fst_ite_eq_iff {α β : Type} (c : Prop) [Decidable c] (x y : α × β) (a : α) :
    (if c then x else y).1 = a ↔ c ∧ x.1 = a ∨ ¬c ∧ y.1 = a := by
  by_cases h : c
  · simp only [h, if_true, true_and, not_true, false_and, or_false]
  · simp only [h, if_false, false_and, not_false_eq_true, true_and, false_or]

theorem boundWord_outside (off : Nat) (h : off < 0x20000 ∨ 0x40000 ≤ off) : boundWord off = false := by
  have hb : (fcsLocate off).1 ≠ .mailbox := by
    simp only [fcsLocate, ne_eq, fst_ite_eq_iff, reduceCtorEq, and_false, false_or, or_false, and_true]
    omega
  unfold boundWord
  split
  · rename_i heq
    exact absurd (congrArg Prod.fst heq) hb
  · rfl

theorem clientWord_refused {s : State} {off : Nat} (src : Nat) (c : Ctx) (posted : Bool) (v m : Word) (h : classAllows s off = false) :
    clientWord s [off] src c posted off v m = (noteRefused s off src c posted false, true) := by
  simp [clientWord, h]

/-- A client's word that Table 14-1 does not let it write is noted, and nothing is performed. -/
theorem exec_registerWrite_refused (s : State) (n : Hg) (c : Ctx) (posted : Bool) (off : BitVec 24) (v : Word) (be : BitVec 8)
    (h8 : off.toNat % 8 = 0) (hc : classAllows s off.toNat = false) :
    exec (.registerWrite (.client n c posted) off v be) s = .next
      (if posted then postedRefusal (noteRefused s off.toNat n c posted false) n c false else noteRefused s off.toNat n c posted false) := by
  have hoff : off.toNat / 8 * 8 = off.toNat := by omega
  show Host.Outcome.next (registerWrite s (.client n c posted) off.toNat v be) = _
  simp [registerWrite, hoff, clientWord_refused _ _ _ _ _ hc]

/-- What is noted of a refusal stands in GL_FCS_REFUSE and GL_FCS_PORT. -/
theorem regsKept_noteRefused (s : State) (off src : Nat) (c : Ctx) (posted read : Bool) :
    regsKept [Reg.GL_FCS_REFUSE, Reg.GL_FCS_PORT] s (noteRefused s off src c posted read) :=
  regsKept_setReg _ _ (regsKept_setReg _ _ (regsKept_refl _ _) (by simp)) (by simp)

/-- Table 14-1 keeps a client from a register with RDR fields or a trigger. -/
theorem classAllows_riderOnly {s : State} {off k j : Nat} {r : RegSpec} (hr : regAt off = some (r, k, j)) (h : r.rdr ≠ 0 ∨ r.trig ≠ 0)
    (hb : boundWord off = false) : classAllows s off = false := by
  unfold classAllows
  rcases h with h | h <;> simp [hb, hr, h]

end Sys2Proof.Machine
end

section
/-! The triggers of R479, the watchdog kick, the merge clear and the snapshot. -/

namespace Sys2Proof.Machine

/-! ### What the write of a trigger's register stores -/

theorem storeFields_replayCmd (s : State) (n : Hg) (v : Word) :
    storeFields s (Reg.HG_REPLAY_CMD n) v 0xFFFFFFFFFFFFFFFF = s.setF (Reg.HG_REPLAY_CMD n) 0 9 v.toNat := by
  have hf : fixedBits (Reg.HG_REPLAY_CMD n) = 0 := fixedBits_headgate n 0x138 n.isLt (by decide) (by decide)
  rw [storeFields_eq v _ (regAt_replayCmd n n.isLt) rfl hf, storedWord_low _ _ _ 9 rfl rfl]
  rfl

theorem storeFields_sweep (s : State) (k : Sl) (v : Word) :
    storeFields s (Reg.HS_SWEEP k) v 0xFFFFFFFFFFFFFFFF = s.setF (Reg.HS_SWEEP k) 0 4 v.toNat := by
  have hf : fixedBits (Reg.HS_SWEEP k) = 0 := fixedBits_slice k 0x28 k.isLt (by decide)
  rw [storeFields_eq v _ (regAt_sweep k k.isLt) rfl hf, storedWord_low _ _ _ 4 rfl rfl]
  rfl

theorem storeFields_watchdog (s : State) (v : Word) :
    storeFields s Reg.GL_RIDER_WDOG v 0xFFFFFFFFFFFFFFFF = s.setF Reg.GL_RIDER_WDOG 0 16 v.toNat := by
  rw [storeFields_eq v _ regAt_watchdog rfl (by decide), storedWord_low _ _ _ 16 rfl rfl]
  rfl

/-- PEER and HOLD of a whole write of HG_PAIR_RESET are stored as HOLD written with that PEER. -/
theorem storeFields_pairReset (s : State) (n : Hg) (v : Word) (hc : canonical s) :
    storeFields s (Reg.HG_PAIR_RESET n) v 0xFFFFFFFFFFFFFFFF = pairHold s n (field v 0 8) (bit v 10) := by
  have hf : fixedBits (Reg.HG_PAIR_RESET n) = 0 := fixedBits_headgate n 0x1F38 n.isLt (by decide) (by decide)
  have hmask : ∀ i < 64, (BitVec.ofNat 64 0x4FF).getLsbD i = (decide (i < 8) || decide (i = 10)) := by decide
  rw [storeFields_eq v _ (regAt_pairReset n n.isLt) rfl hf]
  simp only [pairHold, State.setF_eq, State.setB_eq, State.reg_setReg_same, State.setReg_setReg _ _ _ _ hc]
  refine congrArg _ (BitVec.eq_of_getLsbD_eq fun i hi => ?_)
  rw [getLsbD_storedWord _ _ _ _ rfl i hi, setField_field, setBit, getLsbD_setField, getLsbD_setField, getLsbD_wholeWord i hi, hmask i hi]
  by_cases h10 : i = 10
  · subst h10
    rw [show v.getLsbD 10 = bit v 10 from rfl]
    cases bit v 10 <;> simp [b2n]
  · have : ¬(10 ≤ i ∧ i < 10 + 1) := by omega
    by_cases h8 : i < 8 <;> simp [h8, h10, hi, this, BitVec.getLsbD]

/-! ### The actions behind a stored field -/

/-- A replay notice takes DEST and ALL from its operands, whatever the register held of them. -/
theorem replayNotice_stored (s : State) (n dest v : Nat) (all : Bool) (hc : canonical s) :
    replayNotice (s.setF (Reg.HG_REPLAY_CMD n) 0 9 v) n dest all = replayNotice s n dest all := by
  have hheld : ((s.setF (Reg.HG_REPLAY_CMD n) 0 9 v).setF (Reg.HG_REPLAY_CMD n) 0 8 dest).setB (Reg.HG_REPLAY_CMD n) 8 all =
      (s.setF (Reg.HG_REPLAY_CMD n) 0 8 dest).setB (Reg.HG_REPLAY_CMD n) 8 all := by
    simp only [State.setF_eq, State.setB_eq, State.reg_setReg_same, State.setReg_setReg _ _ _ _ hc]
    refine congrArg _ (setField_congr _ _ _ fun i hi h => ?_)
    rw [getLsbD_setField, getLsbD_setField, getLsbD_setField]
    by_cases h8 : i < 8
    · simp [h8]
    · have : ¬ i < 9 := by omega
      simp [h8, this, hi]
  simp only [replayNotice, hheld]

/-- A sweep takes AGENT from its operand, whatever the register held of it. -/
theorem sweepGo_stored (s : State) (k v : Nat) (agent : BitVec 4) (hc : canonical s) :
    sweepGo (s.setF (Reg.HS_SWEEP k) 0 4 v) k agent = sweepGo s k agent := by
  have hheld : (s.setF (Reg.HS_SWEEP k) 0 4 v).setF (Reg.HS_SWEEP k) 0 4 agent.toNat = s.setF (Reg.HS_SWEEP k) 0 4 agent.toNat := by
    simp only [State.setF_eq, State.reg_setReg_same, State.setReg_setReg _ _ _ _ hc]
    refine congrArg _ (setField_congr _ _ _ fun i hi h => ?_)
    have : ¬ i < 4 := by omega
    rw [getLsbD_setField]
    simp [this, hi]
  simp only [sweepGo, hheld]

/-! ### Each trigger written by the Rider -/

theorem riderWrite_epoch (s : State) (n : Hg) (w : Word) :
    exec (.registerWrite .rider (BitVec.ofNat 24 (Reg.HG_EPOCH n)) w 0xFF) s = .next (if bit w 4 then advanceEpoch s n else s) := by
  rw [Reg.HG_EPOCH, exec_riderWrite_headgate s n 0x10 w rfl (by decide), writeHeadgate, if_pos rfl, sets_wholeWord w 4 (by decide)]

theorem riderWrite_replay (s : State) (n : Hg) (w : Word) (hc : canonical s) (hgo : bit w 9 = true) :
    exec (.registerWrite .rider (BitVec.ofNat 24 (Reg.HG_REPLAY_CMD n)) w 0xFF) s =
      exec (.replayCmdGo n (w.extractLsb' 0 8) (bit w 8)) s := by
  have hw : exec (.registerWrite .rider (BitVec.ofNat 24 (Reg.HG_REPLAY_CMD n)) w 0xFF) s =
      .next (writeReplay s n w 0xFFFFFFFFFFFFFFFF) := by
    rw [Reg.HG_REPLAY_CMD, exec_riderWrite_headgate s n 0x138 w rfl (by decide)]; rfl
  have hdest : (s.setF (Reg.HG_REPLAY_CMD n) 0 9 w.toNat).getF (Reg.HG_REPLAY_CMD n) 0 8 = field w 0 8 := by
    rw [State.getF, State.setF_eq, State.reg_setReg_same, field_setField_low _ _ _ _ _ (by decide) (by decide)]
    rfl
  have hall : (s.setF (Reg.HG_REPLAY_CMD n) 0 9 w.toNat).getB (Reg.HG_REPLAY_CMD n) 8 = bit w 8 := by
    rw [State.getB, State.setF_eq, State.reg_setReg_same, bit_setField_in _ _ _ _ _ (by decide) (by decide)]
    rfl
  rw [hw]
  simp only [writeReplay, storeFields_replayCmd, sets_wholeWord w 9 (by decide), hgo, if_true, hdest, hall, replayNotice_stored _ _ _ _ _ hc]
  rfl

theorem riderWrite_pairReset (s : State) (n : Hg) (w : Word) (hc : canonical s) :
    exec (.registerWrite .rider (BitVec.ofNat 24 (Reg.HG_PAIR_RESET n)) w 0xFF) s =
      if bit w 8 then exec (.pairResetGo n (w.extractLsb' 0 8)) (pairHold s n (field w 0 8) (bit w 10))
      else .next (pairHold s n (field w 0 8) (bit w 10)) := by
  have hw : exec (.registerWrite .rider (BitVec.ofNat 24 (Reg.HG_PAIR_RESET n)) w 0xFF) s =
      .next (writePairReset s n w 0xFFFFFFFFFFFFFFFF) := by
    rw [Reg.HG_PAIR_RESET, exec_riderWrite_headgate s n 0x1F38 w rfl (by decide)]; rfl
  have hpeer : (pairHold s n (field w 0 8) (bit w 10)).getF (Reg.HG_PAIR_RESET n) 0 8 = field w 0 8 := by
    rw [pairHold, State.getF, State.setB_eq, State.reg_setReg_same, field_setBit_other _ _ _ _ _ (by decide), State.setF_eq,
      State.reg_setReg_same, field_setField_same _ _ _ _ (by decide)]
    exact Nat.mod_eq_of_lt (field_lt w 0 8)
  rw [hw]
  simp only [writePairReset, storeFields_pairReset s n w hc, sets_wholeWord w 8 (by decide), hpeer]
  split <;> rfl

theorem riderWrite_sweep (s : State) (k : Sl) (w : Word) (hc : canonical s) (hgo : bit w 4 = true) :
    exec (.registerWrite .rider (BitVec.ofNat 24 (Reg.HS_SWEEP k)) w 0xFF) s = exec (.hsSweepGo k (w.extractLsb' 0 4)) s := by
  have hw := exec_riderWrite_slice s k 0x28 w rfl (by decide)
  have hagent : BitVec.ofNat 4 ((s.setF (Reg.HS_SWEEP k) 0 4 w.toNat).getF (Reg.HS_SWEEP k) 0 4) = w.extractLsb' 0 4 := by
    rw [State.getF, State.setF_eq, State.reg_setReg_same, field_setField_same _ _ _ _ (by decide)]
    apply BitVec.eq_of_toNat_eq
    simp
  rw [Reg.HS_SWEEP, hw]
  have hst : storeFields s (hsBase k + 0x28) w 0xFFFFFFFFFFFFFFFF = _ := storeFields_sweep s k w
  simp only [writeSlice, hst, sets_wholeWord w 4 (by decide), hgo, and_self, if_true, hagent, sweepGo_stored _ _ _ _ hc]
  rfl

/-- A write of GL_RIDER_WDOG by the Rider stores the limit, then kicks where KICK is written with 1. -/
theorem riderWrite_watchdog (s : State) (w : Word) :
    exec (.registerWrite .rider (BitVec.ofNat 24 Reg.GL_RIDER_WDOG) w 0xFF) s =
      .next (if bit w 16 then kick (s.setF Reg.GL_RIDER_WDOG 0 16 w.toNat) else s.setF Reg.GL_RIDER_WDOG 0 16 w.toNat) := by
  rw [exec_registerWrite_rider _ _ _ _ rfl (by decide), byteMask_all, regWrite_global _ _ _ _ (by decide)]
  simp only [writeGlobal, storeFields_watchdog, sets_wholeWord w 16 (by decide)]
  rw [if_neg (fun h => absurd h.1 (by decide))]
  simp

theorem exec_pairResetHold (s : State) (n : Hg) (w : Word) (hold : Bool) :
    exec (.pairResetHold n (w.extractLsb' 0 8) hold) s = .next (pairHold s n (field w 0 8) hold) := rfl

/-! ### The same triggers written by a client -/

/-- A client's write of a register the Rider alone may write is refused: it is counted, and the register stays. -/
theorem clientWrite_riderOnly (s : State) (src : Hg) (c : Ctx) (w : Word) {off k j : Nat} {r : RegSpec}
    (hr : regAt off = some (r, k, j)) (hro : r.rdr ≠ 0 ∨ r.trig ≠ 0)
    (hplace : off % 8 = 0 ∧ off < 2 ^ 24 ∧ (off = Reg.GL_RIDER_WDOG ∨ 0x40000 ≤ off)) :
    ∃ t, exec (.registerWrite (.client src c false) (BitVec.ofNat 24 off) w 0xFF) s = .next t ∧
      t.reg off = s.reg off ∧ sameExcept [.regs] s t ∧ regsKept [Reg.GL_FCS_REFUSE, Reg.GL_FCS_PORT] s t := by
  obtain ⟨h8, hlt, hplace⟩ := hplace
  have hoff : (BitVec.ofNat 24 off).toNat = off := by rw [BitVec.toNat_ofNat, Nat.mod_eq_of_lt hlt]
  have hout : off < 0x20000 ∨ 0x40000 ≤ off := hplace.imp_left fun h => by rw [h]; decide
  have hnote : off ∉ [Reg.GL_FCS_REFUSE, Reg.GL_FCS_PORT] := by
    simp only [Reg.GL_RIDER_WDOG] at hplace
    simp only [Reg.GL_FCS_REFUSE, Reg.GL_FCS_PORT, List.mem_cons, List.not_mem_nil, or_false]
    omega
  have hc : classAllows s off = false := classAllows_riderOnly hr hro (boundWord_outside off hout)
  have hkept := regsKept_noteRefused s off src c false false
  refine ⟨noteRefused s off src c false false, ?_, hkept off hnote, noteRefused_frame _ _ _ _ _ _, hkept⟩
  rw [exec_registerWrite_refused s src c false _ w 0xFF (by rw [hoff]; exact h8) (by rw [hoff]; exact hc), hoff]
  rfl

theorem clientWrite_trigger (s : State) (n : Hg) (k : Sl) (w : Word) (src : Hg) (c : Ctx) :
    ∀ off ∈ [Reg.HG_EPOCH n, Reg.HG_REPLAY_CMD n, Reg.HG_PAIR_RESET n, Reg.HS_SWEEP k, Reg.GL_RIDER_WDOG],
      ∃ t, exec (.registerWrite (.client src c false) (BitVec.ofNat 24 off) w 0xFF) s = .next t ∧
        t.reg off = s.reg off ∧ sameExcept [.regs] s t ∧ regsKept [Reg.GL_FCS_REFUSE, Reg.GL_FCS_PORT] s t := by
  have hhg (lo : Nat) (h8 : lo % 8 = 0) (hlo : lo < 0x4000) : (hgBase n + lo) % 8 = 0 ∧ hgBase n + lo < 2 ^ 24 ∧
      (hgBase n + lo = Reg.GL_RIDER_WDOG ∨ 0x40000 ≤ hgBase n + lo) := by unfold hgBase; omega
  have hhs : Reg.HS_SWEEP k % 8 = 0 ∧ Reg.HS_SWEEP k < 2 ^ 24 ∧ (Reg.HS_SWEEP k = Reg.GL_RIDER_WDOG ∨ 0x40000 ≤ Reg.HS_SWEEP k) := by
    unfold Reg.HS_SWEEP hsBase; omega
  intro off hoff
  simp only [List.mem_cons, List.not_mem_nil, or_false] at hoff
  rcases hoff with rfl | rfl | rfl | rfl | rfl
  · exact clientWrite_riderOnly s src c w (regAt_epoch n n.isLt) (by simp) (hhg 0x10 rfl (by decide))
  · exact clientWrite_riderOnly s src c w (regAt_replayCmd n n.isLt) (by simp) (hhg 0x138 rfl (by decide))
  · exact clientWrite_riderOnly s src c w (regAt_pairReset n n.isLt) (by simp) (hhg 0x1F38 rfl (by decide))
  · exact clientWrite_riderOnly s src c w (regAt_sweep k k.isLt) (by simp) hhs
  · exact clientWrite_riderOnly s src c w regAt_watchdog (by simp) (by decide)

/-- The clause of R479 on GL_RIDER_WDOG: KICK written with 1 is the kick after the other fields are stored. -/
theorem riderWrite_watchdog_stored (s : State) (w : Word) :
    ∃ u, exec (.registerWrite .rider (BitVec.ofNat 24 Reg.GL_RIDER_WDOG) (w &&& 0xFFFF) 0xFF) s = .next u ∧
      u.getF Reg.GL_RIDER_WDOG 0 16 = field w 0 16 ∧ sameExcept [.regs] s u ∧ regsKept [Reg.GL_RIDER_WDOG] s u ∧
      (bit w 16 = true →
        exec (.registerWrite .rider (BitVec.ofNat 24 Reg.GL_RIDER_WDOG) w 0xFF) s = exec .watchdogKick u) := by
  have hlow : (w &&& 0xFFFF).toNat = field w 0 16 := by
    rw [BitVec.toNat_and]
    exact Nat.and_two_pow_sub_one_eq_mod w.toNat 16
  have hkick : bit (w &&& 0xFFFF) 16 = false := by simp [bit]
  have hst : s.setF Reg.GL_RIDER_WDOG 0 16 (w &&& 0xFFFF).toNat = s.setF Reg.GL_RIDER_WDOG 0 16 w.toNat := by
    rw [hlow, State.setF_eq, setField_field]; rfl
  refine ⟨s.setF Reg.GL_RIDER_WDOG 0 16 w.toNat, ?_, ?_, ?_, ?_, fun hk => ?_⟩
  · rw [riderWrite_watchdog, hkick, hst]; rfl
  · rw [State.getF, State.setF_eq, State.reg_setReg_same, field_setField_same _ _ _ _ (by decide)]
    rfl
  · simp (disch := decide)
  · exact regsKept_setReg _ _ (regsKept_refl _ _) (by simp)
  · rw [riderWrite_watchdog, if_pos hk]
    rfl

/-! ### The merge clear (R343) -/

theorem mergeClear_spec (s : State) (off : Nat) :
    (mergeClear s off).getF off 0 12 = 0 ∧ (∀ i, 12 ≤ i → (mergeClear s off).getB off i = s.getB off i) ∧
      sameExcept [.regs] s (mergeClear s off) ∧ regsKept [off] s (mergeClear s off) := by
  refine ⟨?_, fun i hi => ?_, mergeClear_frame s off, regsKept_setReg _ _ (regsKept_refl _ _) (by simp)⟩
  · rw [mergeClear, State.getF, State.setF_eq, State.reg_setReg_same, field_setField_same _ _ _ _ (by decide), Nat.zero_mod]
  · rw [mergeClear, State.getB, State.setF_eq, State.reg_setReg_same, bit_setField_other _ _ _ _ _ (by omega)]
    rfl

/-! ### The snapshot (R416) -/

/-- A counter's register: two in the block of each router output, three in that of each headgate. -/
theorem snapReg_eq (key : Nat) : snapReg key =
    if key < 2000 then 0x44008 + 0x20 * (key / 2) + 8 * (key % 2) else 0x4C008 + 0x20 * ((key - 2000) / 3) + 8 * ((key - 2000) % 3) := by
  simp only [snapReg, Reg.PR_RTO_FLITS, Reg.PR_RTO_EVENT, Reg.PR_HGO_INJ, Reg.PR_HGO_EJ, Reg.PR_HGO_EVENT]
  (repeat' split) <;> omega

theorem snapReg_above (key : Nat) : 0x44000 ≤ snapReg key := by
  rw [snapReg_eq]
  split <;> omega

/-- Each live counter has a register of its own. -/
theorem snapReg_injective (a b : Nat) (ha : a < 2480) (hb : b < 2480) (h : snapReg a = snapReg b) : a = b := by
  rw [snapReg_eq, snapReg_eq] at h
  (repeat' split at h) <;> omega

/-- One live counter copied into its register. -/
def latchCounter (e : Nat × BitVec 48) (t : State) : State := t.setReg (snapReg e.1) (e.2.setWidth 64)

theorem takeSnapshot_eq (s : State) :
    takeSnapshot s = (forEach s.pr.live latchCounter s).setF Reg.PR_STATUS 0 16
      ((forEach s.pr.live latchCounter s).getF Reg.PR_STATUS 0 16 + 1) := rfl

theorem regsKept_latch (l : List (Nat × BitVec 48)) (s : State) :
    regsKept (l.map (fun x => snapReg x.1)) s (forEach l latchCounter s) := by
  induction l generalizing s with
  | nil => exact regsKept_refl _ _
  | cons e l ih =>
    intro o ho
    obtain ⟨hne, hl⟩ := not_or.mp (fun h => ho (List.mem_cons.mpr h))
    exact (ih _ o hl).trans (State.reg_setReg_other _ _ _ _ hne)

theorem reg_latch (l : List (Nat × BitVec 48)) (hn : (l.map Prod.fst).Nodup) (hlt : ∀ x ∈ l, x.1 < 2480) (s : State) :
    ∀ x ∈ l, (forEach l latchCounter s).reg (snapReg x.1) = x.2.setWidth 64 := by
  induction l generalizing s with
  | nil => simp
  | cons e l ih =>
    obtain ⟨hnotin, hn'⟩ := List.nodup_cons.mp hn
    intro x hx
    rcases List.mem_cons.mp hx with rfl | hx
    · have hother : snapReg x.1 ∉ l.map (fun y => snapReg y.1) := by
        rintro hmem
        obtain ⟨y, hy, he⟩ := List.mem_map.mp hmem
        have hk := snapReg_injective _ _ (hlt y (List.mem_cons_of_mem _ hy)) (hlt x hx) he
        exact hnotin (hk ▸ List.mem_map_of_mem hy)
      exact (regsKept_latch l _ _ hother).trans (State.reg_setReg_same _ _ _)
    · exact ih hn' (fun y hy => hlt y (List.mem_cons_of_mem _ hy)) _ x hx

theorem takeSnapshot_spec (s : State) (hn : (s.pr.live.map Prod.fst).Nodup) (hlt : ∀ x ∈ s.pr.live, x.1 < 2480) :
    (∀ x ∈ s.pr.live, (takeSnapshot s).reg (snapReg x.1) = x.2.setWidth 64) ∧
      (takeSnapshot s).getF Reg.PR_STATUS 0 16 = (s.getF Reg.PR_STATUS 0 16 + 1) % 65536 ∧
      sameExcept [.regs] s (takeSnapshot s) ∧
      regsKept (Reg.PR_STATUS :: s.pr.live.map (fun x => snapReg x.1)) s (takeSnapshot s) := by
  have hne (key : Nat) : snapReg key ≠ Reg.PR_STATUS := Nat.ne_of_gt (Nat.lt_of_lt_of_le (by decide) (snapReg_above key))
  have hstatus : (forEach s.pr.live latchCounter s).reg Reg.PR_STATUS = s.reg Reg.PR_STATUS :=
    regsKept_latch s.pr.live s _ (by simp [hne])
  refine ⟨fun x hx => ?_, ?_, takeSnapshot_frame s, ?_⟩
  · rw [takeSnapshot_eq, State.setF_eq, State.reg_setReg_other _ _ _ _ (hne x.1)]
    exact reg_latch s.pr.live hn hlt s x hx
  · rw [takeSnapshot_eq, State.getF, State.setF_eq, State.reg_setReg_same, field_setField_same _ _ _ _ (by decide), State.getF, hstatus]
    rfl
  · refine regsKept_setReg _ _ (fun o ho => ?_) (by simp)
    exact regsKept_latch s.pr.live s o (fun h => ho (List.mem_cons_of_mem _ h))

/-- Settles O9: each trigger's write is the command of its own, with the fields of the same write stored first. -/
theorem triggersActOnce : Obligations.TriggersActOnce := by
  refine ⟨fun s n k w hc => ⟨fun h => ?_, fun h => ?_, riderWrite_replay s n w hc, fun h => ?_, fun h => ?_, riderWrite_sweep s k w hc,
    riderWrite_watchdog_stored s w, fun src c => clientWrite_trigger s n k w src c⟩,
    fun s => ⟨kick s, rfl, rfl, kick_frame s⟩, fun s hg => ⟨_, rfl, ?_⟩,
    fun s hn hlt => ⟨takeSnapshot s, rfl, takeSnapshot_spec s hn hlt⟩⟩
  · rw [riderWrite_epoch, if_pos h]; rfl
  · rw [riderWrite_epoch, h]; rfl
  · exact ⟨_, exec_pairResetHold s n w _, by rw [riderWrite_pairReset s n w hc, if_pos h]⟩
  · rw [riderWrite_pairReset s n w hc, h, exec_pairResetHold]; rfl
  · rintro off rfl
    exact mergeClear_spec s _

end Sys2Proof.Machine
end

section
/-! Register writes by the access codes, the gaps of the map, and the locked protection slot. -/

namespace Sys2Proof.Machine

/-- The registers of the Reservoir block and of the probe block have no RWL field, and no RW1C bit that is RW or RDR too. -/
theorem reservoir_masks : ∀ r ∈ Blk.reservoir.regs, r.rwl = 0 ∧ (r.rw ||| r.rdr) &&& r.w1c = 0 := by decide
theorem probe_masks : ∀ r ∈ Blk.probe.regs, r.rwl = 0 ∧ (r.rw ||| r.rdr) &&& r.w1c = 0 := by decide

/-- The offsets whose fields have no action of their own: the Reservoir block and the probe block's CAM. -/
def plainOffset (off : Nat) : Prop := 0xD0000 ≤ off ∧ off < 0xE0000 ∨ 0x42000 ≤ off ∧ off < 0x44000

theorem fcsLocate_plain {off : Nat} (h : plainOffset off) :
    fcsLocate off = (.reservoir, 0, off - 0xD0000) ∨ fcsLocate off = (.probe, 0, off) ∧ 0x42000 ≤ off := by
  rcases h with ⟨h1, h2⟩ | ⟨h1, h2⟩
  · exact .inl (fcsLocate_reservoir off h1 h2)
  · exact .inr ⟨fcsLocate_probe off (by omega) (by omega), h1⟩

theorem masks_plain {off k j : Nat} {r : RegSpec} (h : plainOffset off) (hr : regAt off = some (r, k, j)) :
    r.rwl = 0 ∧ (r.rw ||| r.rdr) &&& r.w1c = 0 := by
  have hm := mem_regs_of_regAt hr
  rcases fcsLocate_plain h with hl | ⟨hl, _⟩ <;> rw [hl] at hm
  · exact reservoir_masks r hm
  · exact probe_masks r hm

theorem fixedBits_plain {off : Nat} (h : plainOffset off) : fixedBits off = 0 := by
  have hmin : 0x42000 ≤ off := by unfold plainOffset at h; omega
  unfold fixedBits
  rw [if_neg (by unfold Reg.CK_HG_DOM; omega), if_neg (by unfold Reg.PR_SECRET_MAP; omega)]
  rcases fcsLocate_plain h with hl | ⟨hl, _⟩ <;> rw [hl]

/-- A write to a register without an action stores its fields and does nothing else. -/
theorem regWrite_plain (s : State) {off : Nat} (v m : Word) (h : plainOffset off) : regWrite s off v m = storeFields s off v m := by
  rcases fcsLocate_plain h with hl | ⟨hl, hmin⟩
  · simp only [regWrite, hl]
  · simp only [regWrite, hl, writeProbes]
    unfold Reg.PR_PRB_CTL Reg.PR_CTL Reg.PR_TRACE_WEIR
    rw [if_neg (by omega), if_neg (by omega), if_neg (by omega)]

theorem riderWrite_plain (s : State) (off : BitVec 24) (v : Word) (be : BitVec 8) (r : RegSpec) (k j : Nat) (h8 : off.toNat % 8 = 0)
    (h : plainOffset off.toNat) (hr : regAt off.toNat = some (r, k, j)) :
    exec (.registerWrite .rider off v be) s =
      .next (s.setReg off.toNat (storedWord r (s.reg off.toNat) v (byteMask be))) := by
  have hx := exec_registerWrite_rider s off.toNat v be h8 off.isLt
  rw [BitVec.ofNat_toNat, BitVec.setWidth_eq] at hx
  rw [hx, regWrite_plain s v _ h, storeFields_eq v _ hr (masks_plain h hr).1 (fixedBits_plain h)]

/-- Where no block of Table 18-1 stands a write is ignored. -/
theorem riderWrite_gap (s : State) (off : BitVec 24) (v : Word) (be : BitVec 8) (h : off.toNat < 0x800000)
    (hgap : 0xC4000 ≤ off.toNat ∧ off.toNat < 0xD0000 ∨ 0xE0000 ≤ off.toNat ∧ off.toNat < 0x100000 ∨
      0x164000 ≤ off.toNat ∧ off.toNat < 0x200000 ∨ 0x480000 ≤ off.toNat) :
    exec (.registerWrite .rider off v be) s = .next s := by
  have hl := fcsLocate_gap (off.toNat / 8 * 8) (by omega) (by omega)
  show Host.Outcome.next (regWrite s (off.toNat / 8 * 8) v (byteMask be)) = _
  simp only [regWrite, hl]

/-- R308: with LOCK set a headgate's protection slot is not written. -/
theorem writeHeadgate_lockedSlot (s : State) (n lo : Nat) (v m : Word) (hn : n < 160) (hlo : 0x2000 ≤ lo) (hlt : lo < 0x3000)
    (hlock : s.getB (Reg.HG_PROT_CTRL n) 1 = true) : writeHeadgate s n lo v m = s := by
  have hl : lockedReg s (hgBase n + lo) = true := by
    simp only [lockedReg, fcsLocate_headgate n lo hn (by omega)]
    rw [if_neg (by omega), if_pos ⟨hlo, hlt⟩, hlock]
  have hslot : writeSlot s n lo v m = s := by simp [writeSlot, hl]
  simp (disch := omega) only [writeHeadgate, if_neg, if_pos, hslot]

theorem riderWrite_lockedSlot (s : State) (n : Hg) (off : BitVec 24) (v : Word) (be : BitVec 8)
    (hlock : s.getB (Reg.HG_PROT_CTRL n) 1 = true) (hslot : Reg.HG_PROT_CTRL n / 0x1000 = off.toNat / 0x1000) :
    exec (.registerWrite .rider off v be) s = .next s := by
  unfold Reg.HG_PROT_CTRL hgBase at hslot
  obtain ⟨lo, hoff, hlo, hlt⟩ : ∃ lo, off.toNat / 8 * 8 = hgBase n + lo ∧ 0x2000 ≤ lo ∧ lo < 0x3000 :=
    ⟨off.toNat / 8 * 8 - hgBase n, by unfold hgBase; omega, by unfold hgBase; omega, by unfold hgBase; omega⟩
  show Host.Outcome.next (regWrite s (off.toNat / 8 * 8) v (byteMask be)) = _
  rw [hoff, regWrite_headgate _ _ _ _ _ n.isLt (by omega), writeHeadgate_lockedSlot s n lo _ _ n.isLt hlo hlt hlock]

/-- Settles O10: the write stores by the access codes; a gap of the map and a locked slot take no write. -/
theorem registerWritesFollowAccessAndLocks : Obligations.RegisterWritesFollowAccessAndLocks := by
  refine ⟨⟨fun s off v be r k j h8 h hr => ?_, riderWrite_gap⟩, fun s n off v be => riderWrite_lockedSlot s n off v be⟩
  refine ⟨_, riderWrite_plain s off v be r k j h8 h hr, ?_, regsKept_setReg _ _ (regsKept_refl _ _) (by simp), fun i hi => ?_⟩
  · simp (disch := decide)
  · rw [State.reg_setReg_same, getLsbD_storedWord _ _ _ _ (masks_plain h hr).2 i hi, getLsbD_byteMask be i hi]

end Sys2Proof.Machine
end

section
/-! The FCS port: refusals of clients, the reads with a side effect, and the accesses of headgate 151. -/

namespace Sys2Proof.Machine

/-! ### A client's write outside OPEN (R456, R457, R461) -/

/-- Outside OPEN Table 14-1 lets a client write no register but its mailbox's. -/
theorem classAllows_sealed {s : State} {off : Nat} (hlc : s.getF Reg.GL_LIFECYCLE 0 2 ≠ 0) (hr : (regAt off).isSome = true)
    (hb : boundWord off = false) : classAllows s off = false := by
  obtain ⟨⟨r, k, j⟩, hr⟩ := Option.isSome_iff_exists.mp hr
  simp [classAllows, hb, hr, hlc]

theorem reg_noteRefused_count (s : State) (off src : Nat) (c : Ctx) (posted read : Bool) :
    ((noteRefused s off src c posted read).reg Reg.GL_FCS_REFUSE).toNat =
      min 0xFFFFFFFF ((s.reg Reg.GL_FCS_REFUSE).toNat + 1) % 2 ^ 64 := by
  rw [noteRefused, State.reg_setReg_other _ _ _ _ (by decide), State.bump_eq, State.reg_setReg_same]
  exact (BitVec.toNat_ofNat _ _).trans (congrArg (· % 2 ^ 64) (Nat.min_comm _ _))

theorem reg_noteRefused_port (s : State) (off src : Nat) (c : Ctx) (posted read : Bool) :
    (noteRefused s off src c posted read).reg Reg.GL_FCS_PORT =
      withFields 0 [(0, 24, off), (24, 8, src), (32, 6, c.toNat), (38, 1, b2n posted), (39, 1, b2n read), (40, 1, 1)] :=
  State.reg_setReg_same _ _ _

/-- GL_FCS_PORT names the word refused, its source and context, and how it came. -/
theorem port_noteRefused (s : State) (off src : Nat) (c : Ctx) (posted read : Bool) (hoff : off < 2 ^ 24) (hsrc : src < 2 ^ 8) :
    (noteRefused s off src c posted read).getF Reg.GL_FCS_PORT 0 24 = off ∧
      (noteRefused s off src c posted read).getF Reg.GL_FCS_PORT 24 8 = src ∧
      (noteRefused s off src c posted read).getF Reg.GL_FCS_PORT 32 6 = c.toNat ∧
      (noteRefused s off src c posted read).getB Reg.GL_FCS_PORT 38 = posted ∧
      (noteRefused s off src c posted read).getB Reg.GL_FCS_PORT 39 = read ∧
      (noteRefused s off src c posted read).getB Reg.GL_FCS_PORT 40 = true := by
  simp only [State.getF, State.getB, reg_noteRefused_port, withFields, List.foldl_cons, List.foldl_nil]
  refine ⟨?_, ?_, ?_, ?_, ?_, ?_⟩
  · simp (disch := decide) only [field_setField_other, field_setField_same, Nat.mod_eq_of_lt hoff]
  · simp (disch := decide) only [field_setField_other, field_setField_same, Nat.mod_eq_of_lt hsrc]
  · simp (disch := decide) only [field_setField_other, field_setField_same, Nat.mod_eq_of_lt c.isLt]
  · simp (disch := decide) only [bit_setField_other, bit_setField_in]
    cases posted <;> rfl
  · simp (disch := decide) only [bit_setField_other, bit_setField_in]
    cases read <;> rfl
  · simp (disch := decide) only [bit_setField_in]
    rfl

theorem postedRefusal_al (s : State) (n : Hg) (c : Ctx) :
    (postedRefusal s n c false).al = alarmEvent s.al s.fclk 251 0x45 151 (BitVec.ofNat 64 (n.val + c.toNat * 2 ^ 8)) := by
  have hstation : stHg 151 = 251 := rfl
  have hsource : BitVec.ofNat 8 151 = 151 := rfl
  have hpart : b2n false = 0 := rfl
  simp only [postedRefusal, State.hgAlarm_eq, State.alarm, hstation, hsource, hpart, Nat.zero_mul, Nat.add_zero]

theorem reg_postedRefusal (s : State) (src : Nat) (c : Ctx) (partly : Bool) (o : Nat) :
    (postedRefusal s src c partly).reg o = s.reg o := by
  rw [postedRefusal, State.hgAlarm_eq, State.reg_alarm]

/-- Outside OPEN a client's write beside the mailboxes leaves its note in GL_FCS_REFUSE and GL_FCS_PORT, and a posted one the alarm
POSTED_DROP of headgate 151 too. -/
theorem clientWrite_sealed (s : State) (n : Hg) (c : Ctx) (posted : Bool) (off : BitVec 24) (v : Word) (be : BitVec 8)
    (h8 : off.toNat % 8 = 0) (hlc : s.getF Reg.GL_LIFECYCLE 0 2 ≠ 0) (hr : (regAt off.toNat).isSome = true)
    (hout : off.toNat < 0x20000 ∨ 0x40000 ≤ off.toNat) :
    ∃ t, exec (.registerWrite (.client n c posted) off v be) s = .next t ∧
      (t.reg Reg.GL_FCS_REFUSE).toNat = (min 0xFFFFFFFF ((s.reg Reg.GL_FCS_REFUSE).toNat + 1)) % 2 ^ 64 ∧
      t.getF Reg.GL_FCS_PORT 0 24 = off.toNat ∧ t.getF Reg.GL_FCS_PORT 24 8 = n.val ∧ t.getF Reg.GL_FCS_PORT 32 6 = c.toNat ∧
      t.getB Reg.GL_FCS_PORT 38 = posted ∧ t.getB Reg.GL_FCS_PORT 39 = false ∧ t.getB Reg.GL_FCS_PORT 40 = true ∧
      regsKept [Reg.GL_FCS_REFUSE, Reg.GL_FCS_PORT] s t ∧
      (posted = false → sameExcept [.regs] s t) ∧
      (posted = true → sameExcept [.regs, .al] s t ∧
        t.al = alarmEvent s.al s.fclk 251 0x45 151 (BitVec.ofNat 64 (n.val + c.toNat * 2 ^ 8))) := by
  have hc := classAllows_sealed hlc hr (boundWord_outside _ hout)
  have hkept := regsKept_noteRefused s off.toNat n c posted false
  have hcount := reg_noteRefused_count s off.toNat n c posted false
  obtain ⟨hoff, hsrc, hctx, hposted, hread, hvalid⟩ :=
    port_noteRefused s off.toNat n c posted false off.isLt (Nat.lt_trans n.isLt (by decide))
  have hframe := noteRefused_frame s off.toNat n c posted false
  have hal : (noteRefused s off.toNat n c posted false).al = s.al := hframe .al (by decide)
  have hfclk : (noteRefused s off.toNat n c posted false).fclk = s.fclk := hframe .fclk (by decide)
  have hx := exec_registerWrite_refused s n c posted off v be h8 hc
  generalize noteRefused s off.toNat n c posted false = u at *
  cases posted with
  | false => exact ⟨u, hx, hcount, hoff, hsrc, hctx, hposted, hread, hvalid, hkept, fun _ => hframe, nofun⟩
  | true =>
    rw [if_pos rfl] at hx
    refine ⟨_, hx, ?_⟩
    simp only [State.getF, State.getB, regsKept, reg_postedRefusal] at hoff hsrc hctx hposted hread hvalid hkept ⊢
    refine ⟨hcount, hoff, hsrc, hctx, hposted, hread, hvalid, hkept, nofun, fun _ => ⟨?_, ?_⟩⟩
    · simpa (disch := decide) using sameExcept_mono hframe (by decide)
    · rw [postedRefusal_al, hal, hfclk]

/-! ### The reads with a side effect (R9, R463) -/

theorem regRead_timeSec (s : State) :
    regRead s Reg.CK_TIME_SEC = BitVec.ofNat 64 (s.bd.time.sec.toNat + b2n s.bd.time.valid * 2 ^ 48) := by
  have hl : fcsLocate Reg.CK_TIME_SEC = (.clock, 0, Reg.CK_TIME_SEC) := rfl
  simp only [regRead, hl, clockView]
  rw [if_neg (by decide), if_neg (by decide), if_true]

theorem timeSec_fields (s : State) :
    field (regRead s Reg.CK_TIME_SEC) 0 48 = s.bd.time.sec.toNat ∧ bit (regRead s Reg.CK_TIME_SEC) 48 = s.bd.time.valid := by
  have hsec := s.bd.time.sec.isLt
  rw [regRead_timeSec]
  constructor
  · simp only [field, BitVec.toNat_ofNat]
    cases s.bd.time.valid <;> simp only [b2n] <;> omega
  · rw [bit, BitVec.getLsbD_ofNat, Nat.add_comm, Nat.mul_comm, Nat.testBit_two_pow_mul_add _ hsec]
    cases s.bd.time.valid <;> rfl

theorem readLatch_other (s : State) (off : Nat) (h : off ≠ Reg.CK_TIME_SEC) : readLatch s off = s := if_neg h

theorem exec_timeSecRead (s : State) : exec .timeSecRead s = .next ((s.setReg Reg.CK_TIME_NS (s.bd.time.ns.setWidth 64)).setFcsRead
    (some (BitVec.ofNat 24 Reg.CK_TIME_SEC, regRead s Reg.CK_TIME_SEC))) := rfl

theorem exec_dirEntryRead (s : State) (k : Sl) : exec (.dirEntryRead k) s = .next (s.setFcsRead
    (some (BitVec.ofNat 24 (Reg.HS_DIR_ENTRY k), regRead s (Reg.HS_DIR_ENTRY k)))) := by
  have hne : Reg.HS_DIR_ENTRY k ≠ Reg.CK_TIME_SEC := by unfold Reg.HS_DIR_ENTRY hsBase Reg.CK_TIME_SEC; omega
  show Host.Outcome.next (fcsReadAt s (Reg.HS_DIR_ENTRY k)) = _
  rw [fcsReadAt, readLatch_other s _ hne]

/-! ### The accesses of headgate 151 (R453, R454, R456) -/

theorem exec_fcsAccess_leveed (s : State) (h : s.getB (Reg.HG_LEVEE 151) 0 = true) : exec .fcsAccess s = .next s := by
  show Host.Outcome.next (fcsAccess s) = _
  rw [fcsAccess, if_pos h]

theorem exec_fcsAccess_idle (s : State) (h : s.getB (Reg.HG_LEVEE 151) 0 = false)
    (hw : ∀ e ∈ (s.hgAt 151).entries, e.checked = true → e.phase ≠ .waiting) : exec .fcsAccess s = .next s := by
  have hfind : (s.hgAt 151).entries.find? (fun e => e.checked && decide (e.phase = .waiting)) = none :=
    List.find?_eq_none.mpr fun e he => by simpa using hw e he
  show Host.Outcome.next (fcsAccess s) = _
  simp only [fcsAccess, h, hfind, Bool.false_eq_true, if_false]

section Access
variable {s : State} {e : Entry} (hopen : s.getB (Reg.HG_LEVEE 151) 0 = false)
  (hfind : (s.hgAt 151).entries.find? (fun e => e.checked && decide (e.phase = .waiting)) = some e)
include hopen hfind

theorem exec_fcsAccess_rd (hop : e.op = opRD) : exec .fcsAccess s = .next (settleTarget (fcsRd s e) 151) := by
  show Host.Outcome.next (fcsAccess s) = _
  simp only [fcsAccess, hopen, hfind, hop, Bool.false_eq_true, if_false, if_true]

theorem exec_fcsAccess_wr (hop : e.op = opWR) : exec .fcsAccess s = .next (settleTarget (fcsWr s e) 151) := by
  have hne : opWR ≠ opRD := by decide
  show Host.Outcome.next (fcsAccess s) = _
  simp only [fcsAccess, hopen, hfind, hop, hne, Bool.false_eq_true, if_false, true_or, if_true]

end Access

/-- The FCS base is a multiple of a beat, so that an address and its offset have the same place in their beat. -/
theorem fcsOffset_mod (s : State) (a : Nat) : fcsOffset s a % 64 = a % 64 := by
  have hb : field (s.reg (Reg.HG_DEC_SLOT_w0 151 151)) 6 42 < 2 ^ 42 := field_lt _ _ _
  unfold fcsOffset fcsBase
  omega

theorem wordsOf_word (off : Nat) (h : off % 8 = 0) : wordsOf off 8 = [off] := by
  have hn : (off + 8 - 1) / 8 + 1 - off / 8 = 1 := by omega
  have h8 : 8 * (off / 8) = off := by omega
  rw [wordsOf, hn]
  simp [h8]

theorem bytesIn_word (off : Nat) : bytesIn off 8 off = 8 := by
  unfold bytesIn
  omega

theorem bindingRefuses_unbound (s : State) (off src : Nat) (c : Ctx) (h : boundWord off = false) :
    bindingRefuses s [off] src c off = false := by
  simp [bindingRefuses, h]

theorem readWord_word (s : State) (off src : Nat) (c : Ctx) (hb : boundWord off = false) (ht : off ≠ Reg.CK_TIME_SEC) :
    readWord [off] src c off 8 { state := s, words := [], done := 0, refused := false } off =
      { state := s, words := [(off, clientRead s off)], done := 8, refused := false } := by
  simp [readWord, bindingRefuses_unbound s off src c hb, readLatch_other s off ht, bytesIn_word]

/-- The beat of a read of one word has the word in its lanes. -/
theorem wordOf_fcsBeats (off : Nat) (v : Word) (h : off % 8 = 0) :
    ∃ l, fcsBeats [(off, v)] (off / 64) 1 = [⟨l, false⟩] ∧ wordOf l (off % 64 / 8) = v := by
  refine ⟨_, rfl, BitVec.eq_of_getLsbD_eq fun i hi => ?_⟩
  have hq : off % 64 / 8 < 8 := by omega
  rw [wordOf, BitVec.getLsbD_extractLsb', getLsbD_lineOf _ _ (by omega)]
  have ha : (64 * (off / 64 + 0) + (64 * (off % 64 / 8) + i) / 8) = off + i / 8 := by omega
  have hk : (off + i / 8) / 8 * 8 = off := by omega
  have hm : 8 * ((off + i / 8) % 8) + (64 * (off % 64 / 8) + i) % 8 = i := by omega
  have h8 : (64 * (off % 64 / 8) + i) % 8 < 8 := Nat.mod_lt _ (by decide)
  simp only [ha, hk, List.find?_cons, decide_true, BitVec.getLsbD_extractLsb', hm, hi, h8, Bool.true_and]

/-- The lanes `lo .. lo + bytes` of the beat from address `base`, as a read leaves them (R53). -/
def rangeLanes (lo bytes base : Nat) : BitVec 64 :=
  BitVec.ofNat 64 (sumBy (fun j => if lo ≤ base + j ∧ base + j ≤ lo + bytes then 2 ^ j else 0) (List.range 64))

theorem getLsbD_rangeLanes (lo bytes base j : Nat) (hj : j < 64) :
    (rangeLanes lo bytes base).getLsbD j = decide (lo ≤ base + j ∧ base + j ≤ lo + bytes) := by
  have hsum : sumBy (fun j => if lo ≤ base + j ∧ base + j ≤ lo + bytes then 2 ^ j else 0) (List.range 64) =
      sumBy (fun j => (decide (lo ≤ base + j ∧ base + j ≤ lo + bytes)).toNat * 2 ^ (1 * j)) (List.range 64) := by
    congr 1
    funext j
    by_cases h : lo ≤ base + j ∧ base + j ≤ lo + bytes <;> simp [h]
  have hbit := (sumBy_digits 1 (fun j => (decide (lo ≤ base + j ∧ base + j ≤ lo + bytes)).toNat) (fun j => Bool.toNat_lt _) 64).2
    j 0 (by decide)
  rw [Nat.one_mul, Nat.add_zero] at hbit
  rw [rangeLanes, BitVec.getLsbD_ofNat, hsum, hbit]
  cases decide (lo ≤ base + j ∧ base + j ≤ lo + bytes) <;> simp [hj]

/-- The lanes of a beat outside the range are free, by the next draw; the lanes of the one word asked for stay. -/
theorem openLanes_word (s : State) (lo : Nat) (l : Line) (h : lo % 8 = 0) :
    ∃ l', openLanes lo 7 [⟨l, false⟩] s = ([⟨l', false⟩], { s with freeCtr := s.freeCtr + 1 }) ∧
      wordOf l' (lo % 64 / 8) = wordOf l (lo % 64 / 8) := by
  refine ⟨mergeLine (Config.laneData s.freeCtr) l (rangeLanes lo 7 ((lo / 64 + 0) * 64)), rfl, ?_⟩
  refine wordOf_mergeLine _ _ _ _ (by omega) fun j hj => ?_
  rw [getLsbD_rangeLanes _ _ _ _ (by omega)]
  exact decide_eq_true (by omega)

/-- An RD of one word that needs no binding: the register's value in its lanes, OK, eight bytes done. -/
theorem fcsRd_word (s : State) (e : Entry) (hbytes : e.bytes = 7) (h8 : e.lo.toNat % 8 = 0) (hden : e.partDenied = false)
    (hb : boundWord (fcsOffset s e.lo.toNat) = false) (ht : fcsOffset s e.lo.toNat ≠ Reg.CK_TIME_SEC) :
    ∃ d : DBeat, fcsRd s e = answer { s with freeCtr := s.freeCtr + 1 } 151 e.id ocOK 8 [d] ∧ d.poison = false ∧
      wordOf d.data (e.lo.toNat % 64 / 8) = clientRead s (fcsOffset s e.lo.toNat) := by
  have hmod := fcsOffset_mod s e.lo.toNat
  have hoff : fcsOffset s e.lo.toNat % 8 = 0 := by omega
  obtain ⟨l, hbeats, hl⟩ := wordOf_fcsBeats _ (clientRead s (fcsOffset s e.lo.toNat)) hoff
  obtain ⟨l', hopen, hl'⟩ := openLanes_word s e.lo.toNat l h8
  have hone : rangeBeats e.lo e.bytes = 1 := by
    rw [rangeBeats, hbytes]
    show (e.lo.toNat % 64 + 7) / 64 + 1 = 1
    omega
  have hseven : e.bytes.toNat = 7 := by rw [hbytes]; rfl
  refine ⟨⟨l', false⟩, ?_, rfl, by rw [hl', ← hmod, hl]⟩
  simp only [fcsRd, hseven, wordsOf_word _ hoff, List.foldl_cons, List.foldl_nil, readWord_word s _ _ _ hb ht, hone, hbeats, hden,
    hopen, Bool.false_eq_true, if_false]

theorem beatWord_one (b : Beat) (off : Nat) :
    beatWord [b] (off / 64) off = (wordOf b.data (off % 64 / 8), b.be.extractLsb' (off % 64) 8) := by
  simp [beatWord]

/-- A client's word that needs no binding and that Table 14-1 allows is written as the Rider's. -/
theorem clientWord_allowed {s : State} {off : Nat} (src : Nat) (c : Ctx) (posted : Bool) (v m : Word) (hb : boundWord off = false)
    (hc : classAllows s off = true) : clientWord s [off] src c posted off v m = (regWrite s off v m, false) := by
  simp [clientWord, bindingRefuses_unbound s off src c hb, hc]

/-- A WR of one word that Table 14-1 allows: the enabled bytes of the register are written, OK, eight bytes done. -/
theorem fcsWr_word (s : State) (e : Entry) (b : Beat) (hop : e.op = opWR) (hbytes : e.bytes = 7) (h8 : e.lo.toNat % 8 = 0)
    (hden : e.partDenied = false) (hb : boundWord (fcsOffset s e.lo.toNat) = false)
    (hc : classAllows s (fcsOffset s e.lo.toNat) = true) (hbeats : entryBeats e = [b]) (hp : b.poison = false) :
    fcsWr s e = answer (regWrite s (fcsOffset s e.lo.toNat) (wordOf b.data (e.lo.toNat % 64 / 8))
      (byteMask (b.be.extractLsb' (e.lo.toNat % 64) 8))) 151 e.id ocOK 8 [] := by
  have hmod := fcsOffset_mod s e.lo.toNat
  have hoff : fcsOffset s e.lo.toNat % 8 = 0 := by omega
  have hlen : e.bytes.toNat + 1 = 8 := by rw [hbytes]; rfl
  have hnp : decide (opWR = opWRP) = false := by decide
  simp only [fcsWr, hop, hnp, hlen, hbeats, wordsOf_word _ hoff, List.foldl_cons, List.foldl_nil, writeWord, beatWord_one, hmod,
    clientWord_allowed _ _ _ _ _ hb hc, hden, hp, bytesIn_word, Nat.zero_add, List.any_cons, List.any_nil, Bool.or_self, Bool.false_and,
    Bool.false_eq_true, if_false]

theorem classAllows_lt {s : State} {off : Nat} (h : classAllows s off = true) : off < 0x800000 := by
  refine Nat.lt_of_not_le fun hge => Bool.false_ne_true ?_
  rwa [classAllows, if_pos hge] at h

/-- Settles O11: refusals leave their note alone, the two reads latch and select, and headgate 151's oldest access is performed. -/
theorem fcsPortAnswersClients : Obligations.FcsPortAnswersClients := by
  refine ⟨clientWrite_sealed, ⟨fun s => ?_, fun s k => ?_⟩, ?_, ?_, exec_fcsAccess_leveed, exec_fcsAccess_idle⟩
  · obtain ⟨hsec, hvalid⟩ := timeSec_fields s
    refine ⟨_, exec_timeSecRead s, ?_, ⟨_, rfl, hsec, hvalid⟩, ?_, regsKept_setReg _ _ (regsKept_refl _ _) (by simp)⟩
    · rw [State.reg_setFcsRead, State.reg_setReg_same]
    · simp (disch := decide)
  · refine ⟨_, exec_dirEntryRead s k, rfl, ?_⟩
    simp (disch := decide)
  · intro s e hopen hfind hop hbytes h8 hden hb ht
    obtain ⟨d, hd, hpoison, hword⟩ := fcsRd_word s e hbytes h8 hden hb ht
    exact ⟨d, _, exec_fcsAccess_rd hopen hfind hop, by rw [hd], hpoison, hword⟩
  · intro s e b hopen hfind hop hbytes h8 hden hb hc hbeats hp
    have hmod := fcsOffset_mod s e.lo.toNat
    have hlt := classAllows_lt hc
    refine ⟨_, _, exec_fcsAccess_wr hopen hfind hop, exec_registerWrite_rider _ _ _ _ (by omega) (by omega), ?_⟩
    rw [fcsWr_word s e b hop hbytes h8 hden hb hc hbeats hp]

end Sys2Proof.Machine
end

section
/-! SUPPORT. The ports of the primary attachments (R16), and the map of the headgates' register blocks (R15). -/

namespace Sys2Proof.Machine

/-- Headgates 0 to 99: port L0 of the router of the same index. -/
theorem attachOf_primary_low (n : Nat) (h : n < 100) : attachOf n 0 = (n, 0) := by
  simp only [attachOf, primaryRouter, if_pos h, if_true]

/-- Headgates 100 and up: port L1, from router (0,2) on. -/
theorem attachOf_primary_high (n : Nat) (h : 100 ≤ n) : attachOf n 0 = (n - 80, 1) := by
  simp only [attachOf, primaryRouter, if_neg (Nat.not_lt.mpr h), if_true]

/-- Settles O60: router 10 × y + x stands in column x of row y, and the routers of headgates 100 and up begin at row 2, index 20. -/
theorem headgateBlocksAndPrimaryAttachments : Obligations.HeadgateBlocksAndPrimaryAttachments := by
  refine ⟨fun n => ⟨rfl, fun lo hlo => fcsLocate_headgate n lo n.isLt hlo⟩, fun n hlow => ?_, fun n hhigh => ?_⟩
  · rw [attachOf_primary_low n hlow, Nat.div_add_mod]
  · have hindex : 10 * (2 + (n.val - 100) / 10) + (n.val - 100) % 10 = n.val - 80 := by omega
    rw [attachOf_primary_high n hhigh, hindex]
    exact ⟨rfl, rfl⟩

end Sys2Proof.Machine
end

section
/-! SUPPORT. The rules the statements of the Headgate Agent Interface share: `hgsKept` through updates, bits and fields of a register
after a write, a counter after a bump, and what a channel command comes to at a headgate that has the channel. -/

open Sys2Proof

namespace Sys2Proof.Machine

/-! ### Headgates kept -/

@[simp] theorem hgsKept_self (ns : List Nat) (s : State) : hgsKept ns s s := fun _ _ => rfl

theorem hgsKept_trans {ns : List Nat} {s t u : State} (h : hgsKept ns s t) (h' : hgsKept ns t u) : hgsKept ns s u :=
  fun k hk => (h' k hk).trans (h k hk)

theorem hgsKept_of_hg {s t : State} (ns : List Nat) (h : t.hg = s.hg) : hgsKept ns s t := fun k _ => by
  rw [State.hgAt, State.hgAt, h]

/-- An operation that leaves the headgates' piece leaves every headgate. -/
theorem hgsKept_of_frame {ps : List Piece} {s t : State} (ns : List Nat) (h : sameExcept ps s t) (hp : ps.contains .hg = false) :
    hgsKept ns s t := hgsKept_of_hg ns (h .hg (by simpa using hp))

@[simp] theorem hgsKept_setHg (s x : State) (n : Nat) (h : Headgate) : hgsKept [n] s (x.setHg n h) ↔ hgsKept [n] s x := by
  refine forall₂_congr fun k hk => ?_
  rw [State.hgAt_setHg_other _ _ _ _ (by simpa using hk)]

@[simp] theorem hgsKept_setReg (ns : List Nat) (s x : State) (off : Nat) (v : Word) :
    hgsKept ns s (x.setReg off v) ↔ hgsKept ns s x := Iff.rfl

@[simp] theorem hgsKept_alarm (ns : List Nat) (s x : State) (st : Nat) (typ : BitVec 8) (src d : Nat) :
    hgsKept ns s (x.alarm st typ src d) ↔ hgsKept ns s x := Iff.rfl

@[simp] theorem hgsKept_draw (ns : List Nat) (s x : State) : hgsKept ns s x.draw.2 ↔ hgsKept ns s x := Iff.rfl

/-- A loop whose rounds leave the other headgates leaves them. -/
theorem hgsKept_forEach {α : Type} {ns : List Nat} (l : List α) (g : α → State → State) (h : ∀ x ∈ l, ∀ t, hgsKept ns t (g x t))
    (s : State) : hgsKept ns s (forEach l g s) := by
  induction l generalizing s with
  | nil => exact hgsKept_self _ _
  | cons x l ih =>
    exact hgsKept_trans (h x (by simp) s) (ih (fun y hy => h y (by simp [hy])) _)

/-! ### Bits and fields of a register -/

@[simp] theorem State.getB_setHg (s : State) (n : Nat) (h : Headgate) (o i : Nat) : (s.setHg n h).getB o i = s.getB o i := rfl
@[simp] theorem State.getF_setHg (s : State) (n : Nat) (h : Headgate) (o lo len : Nat) :
    (s.setHg n h).getF o lo len = s.getF o lo len := rfl

theorem State.getB_setB_same (s : State) (off i : Nat) (b : Bool) (hi : i < 64) : (s.setB off i b).getB off i = b := by
  rw [State.getB, State.setB_eq, State.reg_setReg_same, bit_setBit_same _ _ _ hi]

/-- A bit written leaves every other bit, of its register and of the others. -/
theorem State.getB_setB_other (s : State) (off i o j : Nat) (b : Bool) (h : o ≠ off ∨ j ≠ i) :
    (s.setB off i b).getB o j = s.getB o j := by
  rw [State.getB, State.setB_eq]
  by_cases ho : o = off
  · subst ho
    rw [State.reg_setReg_same, bit_setBit_other _ _ _ _ (h.resolve_left fun hne => hne rfl)]
    rfl
  · rw [State.reg_setReg_other _ _ _ _ ho]
    rfl

theorem State.getB_setB (s : State) (off i o j : Nat) (b : Bool) (hi : i < 64) :
    (s.setB off i b).getB o j = if o = off ∧ j = i then b else s.getB o j := by
  split
  · next h => rw [h.1, h.2, State.getB_setB_same _ _ _ _ hi]
  · next h => exact State.getB_setB_other _ _ _ _ _ _ (Decidable.not_and_iff_or_not.mp h)

/-- A field written leaves every bit outside it. -/
theorem State.getB_setF_other (s : State) (off lo len v o j : Nat) (h : o ≠ off ∨ j < lo ∨ lo + len ≤ j) :
    (s.setF off lo len v).getB o j = s.getB o j := by
  rw [State.getB, State.setF_eq]
  by_cases ho : o = off
  · subst ho
    rw [State.reg_setReg_same, bit_setField_other _ _ _ _ _ (h.resolve_left fun hne => hne rfl)]
    rfl
  · rw [State.reg_setReg_other _ _ _ _ ho]
    rfl

theorem State.getF_setF_same (s : State) (off lo len v : Nat) (h : lo + len ≤ 64) :
    (s.setF off lo len v).getF off lo len = v % 2 ^ len := by
  rw [State.getF, State.setF_eq, State.reg_setReg_same, field_setField_same _ _ _ _ h]

/-- A bit written leaves every field it does not lie in. -/
theorem State.getF_setB_other (s : State) (off i o lo len : Nat) (b : Bool) (h : o ≠ off ∨ i < lo ∨ lo + len ≤ i) :
    (s.setB off i b).getF o lo len = s.getF o lo len := by
  rw [State.getF, State.setB_eq]
  by_cases ho : o = off
  · subst ho
    rw [State.reg_setReg_same, field_setBit_other _ _ _ _ _ (h.resolve_left fun hne => hne rfl)]
    rfl
  · rw [State.reg_setReg_other _ _ _ _ ho]
    rfl

theorem State.getF_setF_other (s : State) (off lo len v o lo' len' : Nat) (h : o ≠ off) :
    (s.setF off lo len v).getF o lo' len' = s.getF o lo' len' := by
  rw [State.getF, State.setF_eq, State.reg_setReg_other _ _ _ _ h]
  rfl

theorem State.reg_of_regs {s t : State} (h : t.regs = s.regs) (o : Nat) : t.reg o = s.reg o := by rw [State.reg, State.reg, h]

/-- The register is its bits. -/
theorem State.reg_eq_of_getB {s t : State} {o : Nat} (h : ∀ i, t.getB o i = s.getB o i) : t.reg o = s.reg o :=
  BitVec.eq_of_getLsbD_eq fun i _ => h i

theorem State.getF_eq_of_getB {s t : State} {o lo len : Nat} (h : ∀ i, lo ≤ i → i < lo + len → t.getB o i = s.getB o i) :
    t.getF o lo len = s.getF o lo len := by
  apply Nat.eq_of_testBit_eq
  intro i
  rw [State.getF, State.getF, testBit_field, testBit_field]
  by_cases hi : i < len
  · simpa [hi, State.getB, bit] using h (lo + i) (by omega) (by omega)
  · simp [hi]

/-- A saturating counter after a bump (R131, R162). -/
theorem State.toNat_bump (s : State) (off k : Nat) :
    ((s.bump off k).reg off).toNat = min 0xFFFFFFFF ((s.reg off).toNat + k) := by
  rw [State.bump_eq, State.reg_setReg_same, BitVec.toNat_ofNat, satAdd, Nat.min_comm]
  exact Nat.mod_eq_of_lt (by omega)

theorem State.reg_bump_other (s : State) (off k o : Nat) (h : o ≠ off) : (s.bump off k).reg o = s.reg o :=
  State.reg_setReg_other _ _ _ _ h

theorem regsKept_trans {offs : List Nat} {s t u : State} (h : regsKept offs s t) (h' : regsKept offs t u) : regsKept offs s u :=
  fun o ho => (h' o ho).trans (h o ho)

@[simp] theorem regsKept_setHg_iff (offs : List Nat) (s x : State) (n : Nat) (h : Headgate) :
    regsKept offs s (x.setHg n h) ↔ regsKept offs s x := Iff.rfl

/-! ### Channel conditions (R27, R28, R33, R37) -/

/-- At a headgate with an HAI its commands are carried out. -/
theorem atHai_present {n : Nat} (s : State) (f : State → State) (h : hasHai n = true) : atHai n s f = .next (f s) := if_pos h

theorem haiRuns_iff (s : State) (n : Nat) : haiRuns s n = true ↔ (s.hgAt n).portLive = true ∧ (s.hgAt n).aclkEn = true := by
  simp [haiRuns]

theorem deliverOn_runs {s : State} {n : Nat} (f : State → State) (hl : (s.hgAt n).portLive = true) (ha : (s.hgAt n).aclkEn = true) :
    deliverOn s n f = f s := if_pos ((haiRuns_iff s n).mpr ⟨hl, ha⟩)

/-- With ACLK stopped WAKE rises instead (R81, R345). -/
theorem deliverOn_stopped {s : State} {n : Nat} (f : State → State) (hl : (s.hgAt n).portLive = true)
    (ha : (s.hgAt n).aclkEn = false) : deliverOn s n f = setWake s n true := by
  simp [deliverOn, haiRuns, hl, ha]

/-! ### What each channel command comes to -/

section Commands
variable (s : State) (n : Hg) (h : hasHai n = true)
include h

theorem exec_reqTransfer (r : Req) : exec (.reqTransfer n r) s = .next (reqTake s n r) := atHai_present s (fun s => reqTake s n r) h
theorem exec_wdataBeat (b : Beat) (last : Bool) : exec (.wdataBeat n ⟨b, last⟩) s = .next (beatTake s n b last) :=
  atHai_present s (fun s => beatTake s n b last) h
theorem exec_wdataAbort : exec (.wdataAbort n) s = .next (beatAbort s n) := atHai_present s (fun s => beatAbort s n) h
theorem exec_acceptance : exec (.acceptance n) s = .next (acceptHead s n) := atHai_present s (fun s => acceptHead s n) h
theorem exec_rspTransfer (k : Nat) (err : MemErr) : exec (.rspTransfer n ⟨k, err⟩) s = .next (rspBeat s n k err) :=
  atHai_present s (fun s => rspBeat s n k err) h
theorem exec_siphonAbsorb (k : Nat) : exec (.siphonAbsorb n k) s = .next (siphonAbsorb s n k) :=
  atHai_present s (fun s => siphonAbsorb s n k) h
theorem exec_msginTransfer : exec (.msginTransfer n) s = .next (msginBeat s n) := atHai_present s (fun s => msginBeat s n) h
theorem exec_treqPresent : exec (.treqPresent n) s = .next (treqPresent s n) := atHai_present s (fun s => treqPresent s n) h
theorem exec_twdataTransfer : exec (.twdataTransfer n) s = .next (twdataBeat s n) := atHai_present s (fun s => twdataBeat s n) h
theorem exec_trspReceived (id : BitVec 9) (oc : BitVec 4) (beats : List DBeat) :
    exec (.trspReceived n id oc beats) s = .next (trspTake s n id.toNat oc beats) :=
  atHai_present s (fun s => trspTake s n id.toNat oc beats) h
theorem exec_agentPortLiveFall : exec (.agentPortLiveFall n) s = .next (liveFall s n) := atHai_present s (fun s => liveFall s n) h
theorem exec_agentPortLiveRise : exec (.agentPortLiveRise n) s = .next (liveRise s n) := atHai_present s (fun s => liveRise s n) h
theorem exec_pwrAckRise : exec (.pwrAckRise n) s = .next (pwrAckRise s n) := atHai_present s (fun s => pwrAckRise s n) h
theorem exec_pwrAckFall : exec (.pwrAckFall n) s = .next (pwrAckDrop s n) := atHai_present s (fun s => pwrAckDrop s n) h
theorem exec_wakeLimitExpiry : exec (.wakeLimitExpiry n) s = .next (wakeExpire s n) := atHai_present s (fun s => wakeExpire s n) h

end Commands

section SnoopCommands
variable (s : State) (n : Hg) (h : isCaching n = true)
include h

theorem exec_snpTransfer : exec (.snpTransfer n) s = .next (snpPresent s n) := if_pos h
theorem exec_snprspItem (op : BitVec 8) (txn : BitVec 16) (toReq : Bool) (st : BitVec 2) (d : Line) (last : Bool) :
    exec (.snprspItem n op txn toReq st d last) s = .next (snprspTake s n op txn.toNat toReq st d last) := if_pos h
theorem exec_cack (c : Ctx) (tag : Tag) : exec (.cack n c tag) s = .next (cackTake s n c tag) := if_pos h

end SnoopCommands

/-! ### WAKE and PWR_REQ (R78, R81) -/

theorem setWake_hgAt (s : State) (n : Nat) (b : Bool) : (setWake s n b).hgAt n = { s.hgAt n with wake := b } := by
  simp [setWake]

@[simp] theorem setWake_hgsKept (s x : State) (n : Nat) (b : Bool) : hgsKept [n] s (setWake x n b) ↔ hgsKept [n] s x := by
  simp [setWake]

theorem setWake_regsKept (s : State) (n : Nat) (b : Bool) : regsKept [Reg.HG_DOM_STATUS n] s (setWake s n b) :=
  regsKept_setReg _ _ (regsKept_refl _ _) (by simp)

theorem setWake_bit (s : State) (n : Nat) (b : Bool) : (setWake s n b).getB (Reg.HG_DOM_STATUS n) 5 = b :=
  State.getB_setB_same _ _ _ _ (by decide)

/-- WAKE driven writes bit 5 of HG_DOM_STATUS alone. -/
theorem setWake_getB_other (s : State) (n o j : Nat) (b : Bool) (h : o ≠ Reg.HG_DOM_STATUS n ∨ j ≠ 5) :
    (setWake s n b).getB o j = s.getB o j := State.getB_setB_other _ _ _ _ _ _ h

/-- PWR_REQ driven leaves of its headgate everything but PWR_REQ and WAKE. -/
theorem setPwrReq_hgAt (s : State) (n : Nat) (b : Bool) :
    ∃ w, (setPwrReq s n b).hgAt n = { s.hgAt n with pwrReq := b, wake := w } := by
  unfold setPwrReq
  simp only
  split
  · exact ⟨true, by simp [setWake]⟩
  · exact ⟨(s.hgAt n).wake, by simp⟩

@[simp] theorem setPwrReq_hgsKept (s x : State) (n : Nat) (b : Bool) : hgsKept [n] s (setPwrReq x n b) ↔ hgsKept [n] s x := by
  unfold setPwrReq
  simp only
  split <;> simp

theorem setPwrReq_bit (s : State) (n : Nat) (b : Bool) : (setPwrReq s n b).getB (Reg.HG_DOM_STATUS n) 3 = b := by
  unfold setPwrReq
  simp only
  split
  · rw [setWake_getB_other _ _ _ _ _ (.inr (by decide)), State.getB_setB_same _ _ _ _ (by decide)]
  · rw [State.getB_setB_same _ _ _ _ (by decide)]

/-- PWR_REQ driven writes bits 3 and 5 of HG_DOM_STATUS alone. -/
theorem setPwrReq_getB_other (s : State) (n o j : Nat) (b : Bool) (h : o ≠ Reg.HG_DOM_STATUS n ∨ (j ≠ 3 ∧ j ≠ 5)) :
    (setPwrReq s n b).getB o j = s.getB o j := by
  unfold setPwrReq
  simp only
  split
  · rw [setWake_getB_other _ _ _ _ _ (h.imp_right And.right), State.getB_setB_other _ _ _ _ _ _ (h.imp_right And.left)]
    rfl
  · rw [State.getB_setB_other _ _ _ _ _ _ (h.imp_right And.left)]
    rfl

theorem setPwrReq_regsKept (s : State) (n : Nat) (b : Bool) : regsKept [Reg.HG_DOM_STATUS n] s (setPwrReq s n b) := fun o ho =>
  State.reg_eq_of_getB fun _ => setPwrReq_getB_other s n o _ b (.inl (by simpa using ho))

end Sys2Proof.Machine
end

section
/-! Requests on REQ, their write beats, and the channels a headgate does not have. -/

open Sys2Proof

namespace Sys2Proof.Machine

/-! ### The channels a headgate has (R27, R28) -/

theorem hasHai_eq_false_iff (n : Nat) : hasHai n = false ↔ (100 ≤ n ∧ n ≤ 124) ∨ n = 151 := by
  simp only [hasHai, Bool.and_eq_false_iff, Bool.not_eq_false', Bool.and_eq_true, decide_eq_true_eq, decide_eq_false_iff_not,
    Decidable.not_not]

theorem hasHai_iff (n : Nat) : hasHai n = true ↔ ¬((100 ≤ n ∧ n ≤ 124) ∨ n = 151) := by
  rw [← hasHai_eq_false_iff, Bool.not_eq_false]

theorem isCaching_iff (n : Nat) : isCaching n = true ↔ 40 ≤ n ∧ n ≤ 55 := by simp [isCaching]

theorem haiCommands_present (s : State) (n : Hg) (h : hasHai n = true) :
    ∀ c ∈ [Instr.wdataAbort n, .acceptance n, .msginTransfer n, .treqPresent n, .twdataTransfer n, .agentPortLiveFall n,
           .agentPortLiveRise n, .pwrAckRise n, .pwrAckFall n, .wakeLimitExpiry n], ∃ t, exec c s = .next t := by
  simp only [List.forall_mem_cons]
  exact ⟨⟨_, exec_wdataAbort s n h⟩, ⟨_, exec_acceptance s n h⟩, ⟨_, exec_msginTransfer s n h⟩, ⟨_, exec_treqPresent s n h⟩,
    ⟨_, exec_twdataTransfer s n h⟩, ⟨_, exec_agentPortLiveFall s n h⟩, ⟨_, exec_agentPortLiveRise s n h⟩, ⟨_, exec_pwrAckRise s n h⟩,
    ⟨_, exec_pwrAckFall s n h⟩, ⟨_, exec_wakeLimitExpiry s n h⟩, by simp⟩

/-! ### The wake line of a domain (R352) -/

/-- The state of a domain is written in its own register and the members' HG_DOM_STATUS. -/
theorem ckDom_lt (d : Nat) (h : d < 32) : Reg.CK_DOM d < 0x10800 := by unfold Reg.CK_DOM; omega

theorem ckDom_ne_status (d n : Nat) (h : d < 32) : Reg.CK_DOM d ≠ Reg.HG_DOM_STATUS n := by
  have := ckDom_lt d h
  unfold Reg.HG_DOM_STATUS hgBase
  omega

theorem ckDom_injective {d e : Nat} (h : Reg.CK_DOM d = Reg.CK_DOM e) : d = e := by unfold Reg.CK_DOM at h; omega

/-- Of a headgate WAKE and PWR_REQ alone may have changed. -/
def wakeOnly (h h' : Headgate) : Prop := ∃ p w, h' = { h with pwrReq := p, wake := w }

/-- What a wake of HAIs leaves: every headgate but its WAKE and PWR_REQ, the cycle, and every bit but 3 and 5 of HG_DOM_STATUS. -/
def wakeKept (s t : State) : Prop :=
  (∀ n, wakeOnly (s.hgAt n) (t.hgAt n)) ∧ t.fclk = s.fclk ∧
    ∀ o j, ((∀ m, o ≠ Reg.HG_DOM_STATUS m) ∨ (j ≠ 3 ∧ j ≠ 5)) → t.getB o j = s.getB o j

theorem wakeOnly_refl (h : Headgate) : wakeOnly h h := ⟨h.pwrReq, h.wake, rfl⟩

theorem wakeKept_refl (s : State) : wakeKept s s := ⟨fun _ => wakeOnly_refl _, rfl, fun _ _ _ => rfl⟩

theorem wakeOnly_trans {h h' h'' : Headgate} (a : wakeOnly h h') (b : wakeOnly h' h'') : wakeOnly h h'' := by
  obtain ⟨p, w, rfl⟩ := a
  obtain ⟨p', w', rfl⟩ := b
  exact ⟨p', w', rfl⟩

theorem wakeKept_trans {s t u : State} (a : wakeKept s t) (b : wakeKept t u) : wakeKept s u := by
  obtain ⟨ah, af, ar⟩ := a
  obtain ⟨bh, bf, br⟩ := b
  exact ⟨fun n => wakeOnly_trans (ah n) (bh n), bf.trans af, fun o j h => (br o j h).trans (ar o j h)⟩

theorem wakeKept_forEach {α : Type} (l : List α) (g : α → State → State) (h : ∀ x t, wakeKept t (g x t)) (s : State) :
    wakeKept s (forEach l g s) := by
  induction l generalizing s with
  | nil => exact wakeKept_refl _
  | cons x l ih => exact wakeKept_trans (h x s) (ih _)

theorem wakeKept_setWake (s : State) (n : Nat) (b : Bool) : wakeKept s (setWake s n b) := by
  refine ⟨fun k => ?_, (setWake_frame s n b) .fclk (by decide), fun o j h => setWake_getB_other _ _ _ _ _ (h.imp (· n) And.right)⟩
  by_cases hk : k = n
  · subst hk
    exact ⟨_, _, setWake_hgAt s k b⟩
  · rw [(setWake_hgsKept s s n b).mpr (hgsKept_self _ _) k (by simpa using hk)]
    exact wakeOnly_refl _

theorem wakeKept_setPwrReq (s : State) (n : Nat) (b : Bool) : wakeKept s (setPwrReq s n b) := by
  refine ⟨fun k => ?_, (setPwrReq_frame s n b) .fclk (by decide), fun o j h => setPwrReq_getB_other _ _ _ _ _ (h.imp_left (· n))⟩
  by_cases hk : k = n
  · subst hk
    obtain ⟨w, hw⟩ := setPwrReq_hgAt s k b
    exact ⟨b, w, hw⟩
  · rw [(setPwrReq_hgsKept s s n b).mpr (hgsKept_self _ _) k (by simpa using hk)]
    exact wakeOnly_refl _

theorem wakeKept_wakeHai (n : Nat) (s : State) : wakeKept s (wakeHai n s) := by
  unfold wakeHai
  split
  · exact wakeKept_trans (wakeKept_setWake _ _ _) (wakeKept_setPwrReq _ _ _)
  · exact wakeKept_setWake _ _ _

theorem wakeKept_wakeDomain (s : State) (d : Nat) : wakeKept s (wakeDomain s d) := wakeKept_forEach _ _ wakeKept_wakeHai s

theorem wakeOnly_reqs {h h' : Headgate} (a : wakeOnly h h') : h'.reqs = h.reqs := by obtain ⟨p, w, rfl⟩ := a; rfl
theorem wakeOnly_wakeHeld {h h' : Headgate} (a : wakeOnly h h') : h'.wakeHeld = h.wakeHeld := by obtain ⟨p, w, rfl⟩ := a; rfl

theorem setDomState_waking (s : State) (d : Nat) : setDomState s d 5 = (s.setF (Reg.CK_DOM d) 1 3 5).setB (Reg.CK_DOM d) 4 false := by
  simp [setDomState]

/-- The state with the wake line of `n` for `d` raised, before the fabric wakes the domain itself. -/
def lineRaised (n d : Nat) (s : State) : State :=
  let s := (s.setB (Reg.HG_DOM_STATUS n) 7 true).setB (Reg.CK_DOM d) 5 true
  s.updHg n (fun h => { h with wakeHeld := some s.fclk })

theorem raiseWakeLine_eq (n d : Nat) (s : State) : raiseWakeLine n d s =
    if (lineRaised n d s).getF (Reg.CK_DOM d) 1 3 = 4 then setDomState (wakeDomain (lineRaised n d s) d) d 5 else lineRaised n d s := rfl

theorem lineRaised_getF (n d e : Nat) (s : State) (he : e < 32) :
    (lineRaised n d s).getF (Reg.CK_DOM e) 1 3 = s.getF (Reg.CK_DOM e) 1 3 := by
  have hne := ckDom_ne_status e n he
  rw [lineRaised, State.updHg_eq, State.getF_setHg, State.getF_setB_other _ _ _ _ _ _ _ (.inr (.inr (by decide))),
    State.getF_setB_other _ _ _ _ _ _ _ (.inl hne)]

theorem lineRaised_getB (n d o j : Nat) (s : State) : (lineRaised n d s).getB o j =
    if o = Reg.CK_DOM d ∧ j = 5 then true else if o = Reg.HG_DOM_STATUS n ∧ j = 7 then true else s.getB o j := by
  rw [lineRaised, State.updHg_eq, State.getB_setHg, State.getB_setB _ _ _ _ _ _ (by decide), State.getB_setB _ _ _ _ _ _ (by decide)]

/-- The domain set to waking by the fabric: a set WAKE_PEND and WAKE_HELD stay, and of the states that of `d` alone changes. -/
theorem setDomState_waking_getB (s : State) (d o j : Nat) (hj : j = 5 ∨ j = 7) : (setDomState s d 5).getB o j = s.getB o j := by
  rw [setDomState_waking, State.getB_setB_other _ _ _ _ _ _ (.inr (by omega)), State.getB_setF_other _ _ _ _ _ _ _ (.inr (by omega))]

theorem setDomState_waking_getF (s : State) (d e : Nat) :
    (setDomState s d 5).getF (Reg.CK_DOM e) 1 3 = if e = d then 5 else s.getF (Reg.CK_DOM e) 1 3 := by
  rw [setDomState_waking, State.getF_setB_other _ _ _ _ _ _ _ (.inr (.inr (by decide)))]
  split
  · next h => exact h ▸ State.getF_setF_same _ _ _ _ _ (by decide)
  · next h => rw [State.getF_setF_other _ _ _ _ _ _ _ _ (fun hr => h (ckDom_injective hr))]

/-- What the wake lines of `n` for the domains `ds`, raised from `s`, leave. -/
structure WakeRaised (n : Nat) (ds : List Nat) (s t : State) : Prop where
  reqs : (t.hgAt n).reqs = (s.hgAt n).reqs
  fclk : t.fclk = s.fclk
  held : (ds ≠ [] ∨ (s.hgAt n).wakeHeld = some s.fclk) → (t.hgAt n).wakeHeld = some s.fclk
  bit : (ds ≠ [] ∨ s.getB (Reg.HG_DOM_STATUS n) 7 = true) → t.getB (Reg.HG_DOM_STATUS n) 7 = true
  pend : ∀ d < 32, (d ∈ ds ∨ s.getB (Reg.CK_DOM d) 5 = true) → t.getB (Reg.CK_DOM d) 5 = true
  state : ∀ d < 32, t.getF (Reg.CK_DOM d) 1 3 = if d ∈ ds ∧ s.getF (Reg.CK_DOM d) 1 3 = 4 then 5 else s.getF (Reg.CK_DOM d) 1 3

theorem wakeRaised_nil (n : Nat) (s : State) : WakeRaised n [] s s :=
  ⟨rfl, rfl, by simp, by simp, by simp, by simp⟩

theorem wakeRaised_cons {n d : Nat} {ds : List Nat} {s t u : State} (a : WakeRaised n [d] s t) (b : WakeRaised n ds t u) :
    WakeRaised n (d :: ds) s u := by
  refine ⟨b.reqs.trans a.reqs, b.fclk.trans a.fclk, fun _ => ?_, fun _ => b.bit (.inr (a.bit (.inl (by simp)))), fun e h32 he => ?_,
    fun e he => ?_⟩
  · rw [← a.fclk]
    exact b.held (.inr (by rw [a.held (.inl (by simp)), a.fclk]))
  · rcases he with he | he
    · rcases List.mem_cons.mp he with rfl | he
      · exact b.pend _ h32 (.inr (a.pend _ h32 (.inl (by simp))))
      · exact b.pend _ h32 (.inl he)
    · exact b.pend _ h32 (.inr (a.pend _ h32 (.inr he)))
  · rw [b.state e he, a.state e he]
    by_cases hd : e = d
    · subst hd
      by_cases h4 : s.getF (Reg.CK_DOM e) 1 3 = 4 <;> simp [h4]
    · simp [hd]

/-- One wake line raised: WAKE_HELD and WAKE_PEND stand, and a domain that is OFF is waking. -/
theorem raiseWakeLine_raised (n d : Nat) (s : State) (hd : d < 32) : WakeRaised n [d] s (raiseWakeLine n d s) := by
  have hreqs : ((lineRaised n d s).hgAt n).reqs = (s.hgAt n).reqs := by simp [lineRaised]
  have hheld : ((lineRaised n d s).hgAt n).wakeHeld = some s.fclk := by simp [lineRaised]
  have hfclk : (lineRaised n d s).fclk = s.fclk := by simp [lineRaised]
  have hbit : (lineRaised n d s).getB (Reg.HG_DOM_STATUS n) 7 = true := by rw [lineRaised_getB]; simp
  have hpend (e : Nat) (he : e ∈ [d] ∨ s.getB (Reg.CK_DOM e) 5 = true) : (lineRaised n d s).getB (Reg.CK_DOM e) 5 = true := by
    rw [lineRaised_getB]
    rcases he with he | he
    · simp [List.mem_singleton.mp he]
    · simp [he]
  rw [raiseWakeLine_eq]
  split
  · next h4 =>
    rw [lineRaised_getF _ _ _ _ hd] at h4
    obtain ⟨kh, kf, kr⟩ := wakeKept_wakeDomain (lineRaised n d s) d
    have hhg (t : State) : (setDomState t d 5).hgAt n = t.hgAt n := by rw [setDomState_waking]; rfl
    refine ⟨?_, ?_, fun _ => ?_, fun _ => ?_, fun e h32 he => ?_, fun e h32 => ?_⟩
    · rw [hhg, wakeOnly_reqs (kh n), hreqs]
    · rw [setDomState_waking]
      exact kf.trans hfclk
    · rw [hhg, wakeOnly_wakeHeld (kh n), hheld]
    · rw [setDomState_waking_getB _ _ _ _ (.inr rfl), kr _ _ (.inr (by decide)), hbit]
    · rw [setDomState_waking_getB _ _ _ _ (.inl rfl), kr _ _ (.inl fun m => ckDom_ne_status e m h32), hpend e he]
    · rw [setDomState_waking_getF, State.getF_eq_of_getB fun i _ _ => kr _ _ (.inl fun m => ckDom_ne_status e m h32),
        lineRaised_getF _ _ _ _ h32]
      by_cases he : e = d
      · subst he
        simp [h4]
      · simp [he]
  · next h4 =>
    rw [lineRaised_getF _ _ _ _ hd] at h4
    refine ⟨hreqs, hfclk, fun _ => hheld, fun _ => hbit, fun e _ => hpend e, fun e h32 => ?_⟩
    rw [lineRaised_getF _ _ _ _ h32, if_neg]
    rintro ⟨he, h4'⟩
    rw [List.mem_singleton.mp he] at h4'
    exact h4 h4'

/-- Every wake line of `n` for the domains `ds` raised. -/
theorem raiseWakeLines_raised (n : Nat) (ds : List Nat) (s : State) (hds : ∀ d ∈ ds, d < 32) :
    WakeRaised n ds s (forEach ds (raiseWakeLine n) s) := by
  induction ds generalizing s with
  | nil => exact wakeRaised_nil n s
  | cons d ds ih => exact wakeRaised_cons (raiseWakeLine_raised n d s (hds d (by simp))) (ih _ fun e he => hds e (by simp [he]))

/-! ### REQ (R42, R74, R132) -/

theorem domainOf_lt {s : State} {n d : Nat} (h : domainOf s n = some d) : d < 32 := by
  unfold domainOf at h
  split at h
  · exact Option.some.inj h ▸ field_lt _ _ _
  · cases h

theorem closedDom_lt {s : State} {n t d : Nat} (h : closedDom s n t = some d) : d < 32 := by
  unfold closedDom at h
  split at h
  · next e he =>
    split at h
    · exact Option.some.inj h ▸ domainOf_lt he
    · cases h
  · cases h

theorem closedCheck_held_lt {s : State} {n : Nat} {ps : List Part} {ds : List Nat} (h : closedCheck s n ps = .held ds) :
    ∀ d ∈ ds, d < 32 := by
  intro d hd
  unfold closedCheck at h
  split at h
  · cases h
  · simp only at h
    split at h
    · cases h
    · split at h
      · cases h
      · obtain rfl := Verdict.held.inj h
        obtain ⟨p, -, hp⟩ := List.mem_filterMap.mp (List.mem_eraseDups.mp hd)
        split at hp
        · exact closedDom_lt hp
        · cases hp

/-- The domains a request waits for are domains of CK_HG_DOM (R348). -/
theorem planReq_held_lt {s : State} {n : Nat} {r : Req} {ds : List Nat} (h : (planReq s n r).verdict = .held ds) : ∀ d ∈ ds, d < 32 := by
  simp only [planReq] at h
  split at h
  · cases h
  · exact closedCheck_held_lt h

/-! ### WDATA (R41, R73) -/

theorem mapLast_append {α : Type} (f : α → α) (xs : List α) (x : α) : mapLast f (xs ++ [x]) = xs ++ [f x] := by
  induction xs with
  | nil => rfl
  | cons y ys ih =>
    cases ys with
    | nil => rfl
    | cons z zs => exact congrArg (y :: ·) ih

theorem writing_append {h : Headgate} {qs : List PendReq} {q : PendReq} (hr : h.reqs = qs ++ [q]) : writing h = !q.whole := by
  rw [writing, hr, List.getLast?_concat]

theorem unhold_of_notHeld (s : State) (n : Nat) {q : PendReq} (h : ∀ ds, q.verdict ≠ .held ds) : unhold s n q = s := by
  unfold unhold
  split
  · next ds hds => exact absurd hds (h ds)
  · rfl

theorem reqTake_stopped {s : State} {n : Nat} (r : Req)
    (h : (s.hgAt n).portLive = false ∨ (s.hgAt n).aclkEn = false ∨ inDead s n = true) : reqTake s n r = s := by
  refine if_pos ?_
  simp only [haiRuns]
  rcases h with h | h | h <;> simp [h]

section Running
variable {s : State} {n : Nat} (hl : (s.hgAt n).portLive = true) (ha : (s.hgAt n).aclkEn = true) (hd : inDead s n = false)
include hl ha hd

theorem haiTakes : (!haiRuns s n || inDead s n) = false := by simp [haiRuns, hl, ha, hd]

theorem reqTake_refused {r : Req} (h : reqReady s n (planReq s n r) = false) : reqTake s n r = s := by
  unfold reqTake
  rw [if_neg (by simp [haiTakes hl ha hd])]
  exact if_neg (by simp [h])

/-- A request not held for a wake only joins those its headgate holds. -/
theorem reqTake_notHeld {r : Req} (h : reqReady s n (planReq s n r) = true) (hv : ∀ ds, (planReq s n r).verdict ≠ .held ds) :
    reqTake s n r = s.setHg n { s.hgAt n with reqs := (s.hgAt n).reqs ++ [planReq s n r] } := by
  unfold reqTake
  rw [if_neg (by simp [haiTakes hl ha hd])]
  simp only
  rw [if_pos h]
  cases hq : (planReq s n r).verdict with
  | held ds => exact absurd hq (hv ds)
  | _ => rfl

theorem reqTake_held {r : Req} (h : reqReady s n (planReq s n r) = true) {ds : List Nat} (hv : (planReq s n r).verdict = .held ds) :
    reqTake s n r = forEach ds (raiseWakeLine n) (s.setHg n { s.hgAt n with reqs := (s.hgAt n).reqs ++ [planReq s n r] }) := by
  unfold reqTake
  rw [if_neg (by simp [haiTakes hl ha hd])]
  simp only
  rw [if_pos h, hv]
  rfl

/-- A beat joins the write in progress (R41). -/
theorem beatTake_writing {qs : List PendReq} {q : PendReq} (hr : (s.hgAt n).reqs = qs ++ [q]) (hw : q.whole = false) (b : Beat)
    (last : Bool) : beatTake s n b last =
      s.setHg n { s.hgAt n with reqs := qs ++ [{ q with beats := q.beats ++ [b], whole := last }] } := by
  unfold beatTake
  rw [if_neg (by simp [haiTakes hl ha hd]), if_pos (by simp [writing_append hr, hw]), State.updHg_eq, hr, mapLast_append]

/-- The abort of a request not held for a wake (R73, R74). -/
theorem beatAbort_writing {qs : List PendReq} {q : PendReq} (hr : (s.hgAt n).reqs = qs ++ [q]) (hw : q.whole = false)
    (hv : ∀ ds, q.verdict ≠ .held ds) : beatAbort s n =
      (s.setHg n { s.hgAt n with reqs := qs, dead := some (s.fclk + aclkCycles (s.hgAt n)) }).bump (Reg.HG_HAI_ABORT n) 1 := by
  unfold beatAbort
  rw [if_neg (by simp [haiTakes hl ha hd]), hr, List.getLast?_concat]
  simp only
  rw [if_neg (by simp [hw]), unhold_of_notHeld _ _ hv, State.updHg_eq, hr, List.dropLast_concat]

end Running

/-- Without a write in progress a beat changes nothing. -/
theorem beatTake_notWriting {s : State} {n : Nat} (h : writing (s.hgAt n) = false) (b : Beat) (last : Bool) :
    beatTake s n b last = s := by
  unfold beatTake
  split
  · rfl
  · exact if_neg (by simp [h])

/-- Without a write in progress an abort changes nothing. -/
theorem beatAbort_notWriting {s : State} {n : Nat} (h : writing (s.hgAt n) = false) : beatAbort s n = s := by
  unfold writing at h
  unfold beatAbort
  split
  · rfl
  · split
    · next q hq =>
      rw [hq] at h
      exact if_pos (by simpa using h)
    · rfl

theorem beat_dead {s : State} {n : Nat} (h : inDead s n = true) (b : Beat) (last : Bool) :
    beatTake s n b last = s ∧ beatAbort s n = s := ⟨if_pos (by simp [h]), if_pos (by simp [h])⟩

/-! ### The obligation -/

/-- R27: no HAI at headgates 100 to 124 and 151. -/
theorem haiCommands_absent (s : State) (n : Hg) (h : hasHai n = false) :
    (∀ r, exec (.reqTransfer n r) s = .refused .noHai) ∧ (∀ b, exec (.wdataBeat n b) s = .refused .noHai) ∧
    exec (.wdataAbort n) s = .refused .noHai ∧ exec (.acceptance n) s = .refused .noHai ∧
    (∀ c, exec (.fenceComplete n c) s = .refused .noHai) ∧ (∀ k, exec (.rspTransfer n k) s = .refused .noHai) ∧
    exec (.msginTransfer n) s = .refused .noHai ∧ exec (.treqPresent n) s = .refused .noHai ∧
    exec (.twdataTransfer n) s = .refused .noHai ∧ (∀ i o bs, exec (.trspReceived n i o bs) s = .refused .noHai) ∧
    exec (.agentPortLiveFall n) s = .refused .noHai ∧ exec (.agentPortLiveRise n) s = .refused .noHai ∧
    (∀ k, exec (.siphonAbsorb n k) s = .refused .noHai) ∧ exec (.pwrAckRise n) s = .refused .noHai ∧
    exec (.pwrAckFall n) s = .refused .noHai ∧ (∀ l, exec (.aclkEnChange n l) s = .refused .noHai) ∧
    exec (.wakeLimitExpiry n) s = .refused .noHai := by
  have no : ¬ hasHai n = true := by simp [h]
  exact ⟨fun _ => if_neg no, fun _ => if_neg no, if_neg no, if_neg no, fun _ => if_neg no, fun _ => if_neg no, if_neg no, if_neg no,
    if_neg no, fun _ _ _ => if_neg no, if_neg no, if_neg no, fun _ => if_neg no, if_neg no, if_neg no, fun _ => if_neg no, if_neg no⟩

/-- R28: snoop channels at headgates 40 to 55 alone. -/
theorem snoopCommands_absent (s : State) (n : Hg) (h : isCaching n = false) :
    exec (.snpTransfer n) s = .refused .notCaching ∧
    (∀ o x r m d l, exec (.snprspItem n o x r m d l) s = .refused .notCaching) ∧
    (∀ c g, exec (.cack n c g) s = .refused .notCaching) := by
  have no : ¬ isCaching n = true := by simp [h]
  exact ⟨if_neg no, fun _ _ _ _ _ _ => if_neg no, fun _ _ => if_neg no⟩

/-- Settles O12: each command by the branch of its operation that its conditions take; a held request by its wake lines. -/
theorem requestsEnterAtTheHai : Obligations.RequestsEnterAtTheHai := by
  refine ⟨fun s n => ⟨fun hn => haiCommands_absent s n ((hasHai_eq_false_iff n).mpr hn), fun hn => ?_,
    fun hn => haiCommands_present s n ((hasHai_iff n).mpr hn), fun h40 h55 => ?_⟩, ⟨?_, ?_, ?_⟩, ?_, ?_, ?_⟩
  · refine snoopCommands_absent s n (Bool.eq_false_iff.mpr fun h => ?_)
    have := (isCaching_iff n).mp h
    omega
  · exact ⟨_, exec_snpTransfer s n ((isCaching_iff n).mpr ⟨h40, h55⟩)⟩
  · intro s n r hh hl ha hd hready
    refine ⟨_, exec_reqTransfer s n hh r, ?_⟩
    by_cases hheld : ∃ ds, (planReq s n r).verdict = .held ds
    · obtain ⟨ds, hds⟩ := hheld
      rw [reqTake_held hl ha hd hready hds]
      obtain ⟨reqs, -, held, bit, pend, state⟩ := raiseWakeLines_raised n ds
        (s.setHg n { s.hgAt n with reqs := (s.hgAt n).reqs ++ [planReq s n r] }) (planReq_held_lt hds)
      refine ⟨by simpa using reqs, fun hv => absurd hds (hv ds), fun ds' hds' d hmem => ?_⟩
      obtain rfl : ds = ds' := Verdict.held.inj (hds.symm.trans hds')
      have hne := List.ne_nil_of_mem hmem
      have h32 := planReq_held_lt hds d hmem
      exact ⟨bit (.inl hne), pend d h32 (.inl hmem), held (.inl hne), fun h4 => (state d h32).trans (if_pos ⟨hmem, h4⟩)⟩
    · rw [not_exists] at hheld
      rw [reqTake_notHeld hl ha hd hready hheld]
      exact ⟨by simp, fun _ => ⟨by simp (disch := decide), by simp, by simp⟩, fun ds hds => absurd hds (hheld ds)⟩
  · intro s n r hh hl ha hd hready
    rw [exec_reqTransfer s n hh, reqTake_refused hl ha hd hready]
  · intro s n r hh hstop
    rw [exec_reqTransfer s n hh, reqTake_stopped r hstop]
  · intro s n b last qs q hh hl ha hd hr hw
    refine ⟨⟨_, exec_wdataBeat s n hh b last, ?_⟩, fun hv => ⟨_, exec_wdataAbort s n hh, ?_⟩⟩
    · rw [beatTake_writing hl ha hd hr hw]
      exact ⟨by simp, by simp (disch := decide), by simp⟩
    · rw [beatAbort_writing hl ha hd hr hw hv]
      exact ⟨by simp, State.toNat_bump _ _ _, by simp (disch := decide), by simp, regsKept_setReg _ _ (regsKept_refl _ _) (by simp)⟩
  · intro s n b last qs q hh hr
    have hw : writing (s.hgAt n) = false := by
      rcases hr with hr | ⟨hr, hq⟩
      · simp [writing, hr]
      · simp [writing_append hr, hq]
    rw [exec_wdataBeat s n hh, exec_wdataAbort s n hh, beatTake_notWriting hw, beatAbort_notWriting hw]
    exact ⟨rfl, rfl⟩
  · intro s n b last hh hd
    obtain ⟨ht, hab⟩ := beat_dead hd b last
    rw [exec_wdataBeat s n hh, exec_wdataAbort s n hh, ht, hab]
    exact ⟨rfl, rfl⟩

end Sys2Proof.Machine
end

section
/-! Snoops and the replies stored for them (R68 to R71, R250). -/

open Sys2Proof

namespace Sys2Proof.Machine

/-! ### Replies stored (R171, R328) -/

/-- Behind a remote levee a reply is discarded (R328). -/
theorem storeReply_dead {s : State} {n : Nat} (kind : PktKind) {p : Pkt} (h : deadDest s n p.hdr.dst.toNat = true) :
    storeReply s n kind p = s := if_pos h

/-- Elsewhere it joins the replay store, waiting for its first injection. -/
theorem storeReply_live {s : State} {n : Nat} (kind : PktKind) {p : Pkt} (h : deadDest s n p.hdr.dst.toNat = false) :
    storeReply s n kind p = s.setHg n { s.hgAt n with
      store := (s.hgAt n).store ++ [mkStored p kind p.hdr.dst.toNat (curEpoch s n) 0] } := if_neg (by simp [h])

@[simp] theorem storeReply_hgsKept (s x : State) (n : Nat) (kind : PktKind) (p : Pkt) :
    hgsKept [n] s (storeReply x n kind p) ↔ hgsKept [n] s x := by
  cases h : deadDest x n p.hdr.dst.toNat with
  | true => rw [storeReply_dead kind h]
  | false => rw [storeReply_live kind h, hgsKept_setHg]

/-- The header's transaction field reads back what a reply carries in it (R88). -/
theorem Header.txn_of_xinfo (h : Header) (k : Nat) (hk : k < 65536) (hx : h.xinfo = BitVec.ofNat 32 (k * 2 ^ 16)) : h.txn = k := by
  rw [Header.txn, hx, field, BitVec.toNat_ofNat]
  omega

/-! ### The headgate answers in its agent's place (R250) -/

/-- What answers to snoops leave of a headgate: the replies in the store, and the snoops for which it had no room. -/
structure SnoopsAnswered (h h' : Headgate) : Prop where
  kept : ∃ ps qs, h' = { h with store := h.store ++ ps, snoops := qs } ∧ ∀ p ∈ ps, p.pkt.hdr.op = opSNPACK ∨ p.pkt.hdr.op = opCENSUSR
  room : h'.snoops = [] ∨ openBlocks h' = 0
  notPresented : ∀ x ∈ h'.snoops, x.presented = false

theorem openBlocks_keepSnoop (h : Headgate) (q : SnoopSt) (hq : q.presented = false) :
    openBlocks { h with snoops := h.snoops ++ [q] } = openBlocks h := by
  simp [openBlocks, freeBlocks, usedBlocks, writeBlocks, snpKept, List.filter_append, hq]

theorem deadReply_op (n : Nat) (q : Header) : (deadReply n q).hdr.op = opSNPACK ∨ (deadReply n q).hdr.op = opCENSUSR := by
  simp only [deadReply]
  split
  · exact .inr rfl
  · exact .inl rfl

/-- One snoop more answered, or kept. -/
theorem answerSnoop_answered (n : Nat) (q : SnoopSt) (s : State) {h : Headgate} (a : SnoopsAnswered h (s.hgAt n)) :
    SnoopsAnswered h ((answerSnoop n q s).hgAt n) := by
  obtain ⟨⟨ps, qs, hk, hops⟩, hroom, hnp⟩ := a
  unfold answerSnoop
  split
  · next hfull =>
    rw [State.updHg_eq, State.hgAt_setHg_same]
    refine ⟨⟨ps, (s.hgAt n).snoops ++ [{ q with presented := false }], by rw [hk], hops⟩, .inr ?_, ?_⟩
    · rw [openBlocks_keepSnoop _ _ rfl, hfull]
    · simp only [List.mem_append, List.mem_singleton]
      rintro x (hx | rfl)
      · exact hnp x hx
      · rfl
  · next hfree =>
    have hnil := hroom.resolve_right hfree
    cases hd : deadDest s n (deadReply n q.pkt.hdr).hdr.dst.toNat with
    | true => exact (storeReply_dead .rsp hd).symm ▸ ⟨⟨ps, qs, hk, hops⟩, hroom, hnp⟩
    | false =>
      rw [storeReply_live .rsp hd, State.hgAt_setHg_same]
      refine ⟨⟨ps ++ [mkStored (deadReply n q.pkt.hdr) .rsp (deadReply n q.pkt.hdr).hdr.dst.toNat (curEpoch s n) 0], qs, ?_, ?_⟩,
        .inl hnil, hnp⟩
      · rw [hk, List.append_assoc]
      · simp only [List.mem_append, List.mem_singleton]
        rintro p (hp | rfl)
        · exact hops p hp
        · exact deadReply_op n q.pkt.hdr

theorem answerSnoop_hgsKept (n : Nat) (q : SnoopSt) (s : State) : hgsKept [n] s (answerSnoop n q s) := by
  unfold answerSnoop
  split <;> simp

/-- Every snoop of the agent answered, as far as the store has room. -/
theorem answerSnoops_answered (s : State) (n : Nat) : SnoopsAnswered (s.hgAt n) ((answerSnoops s n).hgAt n) := by
  have loop (qs : List SnoopSt) : ∀ t : State, SnoopsAnswered (s.hgAt n) (t.hgAt n) →
      SnoopsAnswered (s.hgAt n) ((forEach qs (answerSnoop n) t).hgAt n) := by
    induction qs with
    | nil => exact fun _ h => h
    | cons q qs ih => exact fun t h => ih _ (answerSnoop_answered n q t h)
  refine loop _ _ ?_
  rw [State.updHg_eq, State.hgAt_setHg_same]
  exact ⟨⟨[], [], by simp, by simp⟩, .inl rfl, by simp⟩

@[simp] theorem answerSnoops_hgsKept (s x : State) (n : Nat) : hgsKept [n] s (answerSnoops x n) ↔ hgsKept [n] s x := by
  have own : hgsKept [n] x (answerSnoops x n) :=
    hgsKept_trans ((hgsKept_setHg x x n _).mpr (hgsKept_self _ _)) (hgsKept_forEach _ _ (fun q _ t => answerSnoop_hgsKept n q t) _)
  refine ⟨fun h k hk => ?_, fun h => hgsKept_trans h own⟩
  rw [← h k hk, own k hk]

theorem answerSnoops_regs (s : State) (n : Nat) : (answerSnoops s n).regs = s.regs := answerSnoops_frame s n .regs (by decide)

/-! ### The snoop channels, where the interface runs -/

theorem snpPresent_dead {s : State} {n : Nat} (h : snoopsDead s n = true) : snpPresent s n = answerSnoops s n := if_pos h

/-- No snoop may go, or the store has no room for the agent's answer. -/
theorem snpPresent_waits {s : State} {n : Nat} (h : snoopsDead s n = false)
    (hw : nextSnoop (s.hgAt n) = none ∨ openBlocks (s.hgAt n) < 4) : snpPresent s n = s := by
  unfold snpPresent
  rw [if_neg (by simp [h])]
  split
  · rfl
  · next q hq => exact if_pos (hw.resolve_left (by simp [hq]))

/-- The packet of an item of the snoop response channel (R88). -/
def itemPkt (n : Nat) (q : SnoopSt) (op : BitVec 8) (txn : Nat) (toReq : Bool) (st : BitVec 2) (data : Line) : Pkt :=
  let hd := q.pkt.hdr
  { hdr := { Header.zero with
      op := op, src := BitVec.ofNat 8 n
      dst := if toReq then BitVec.ofNat 8 hd.rqhg else hd.src
      attr := mkAttr false false hd.secret false 2 false false
      ctx := hd.ctx, tag := hd.tag, bytes := 63, addr := hd.addr
      done := if toReq then 64 else 0
      state := if op = opDATAF then 2 else if op = opDATAM then 3 else if op = opCENSUSR then st else 0
      xinfo := BitVec.ofNat 32 (txn * 2 ^ 16) }
    ext := 0, data := if dataFlits op hd.addr 63 ocOK = 1 then [{ data := data, poison := false }] else [] }

section Running
variable {s : State} {n : Nat} (hl : (s.hgAt n).portLive = true) (ha : (s.hgAt n).aclkEn = true)
include hl ha

/-- A snoop that may go is presented and stays listed (R68). -/
theorem snpPresent_goes (h : snoopsDead s n = false) {q : SnoopSt} (hq : nextSnoop (s.hgAt n) = some q)
    (hroom : 4 ≤ openBlocks (s.hgAt n)) : snpPresent s n = s.setHg n { s.hgAt n with
      out := .snp q.pkt.hdr.op (q.pkt.hdr.addr.extractLsb' 6 42) (BitVec.ofNat 16 q.pkt.hdr.txn) (BitVec.ofNat 8 q.pkt.hdr.rqhg)
      snoops := (s.hgAt n).snoops.map (fun x => if x.arrival = q.arrival then { x with presented := true } else x) } := by
  unfold snpPresent
  rw [if_neg (by simp [h])]
  simp only [hq]
  rw [if_neg (by omega), deliverOn_runs _ hl ha]
  rfl

theorem snprspTake_unmatched (op : BitVec 8) (txn : Nat) (toReq : Bool) (st : BitVec 2) (d : Line) (last : Bool)
    (h : ∀ q ∈ (s.hgAt n).snoops, q.presented = true → q.pkt.hdr.txn ≠ txn) :
    snprspTake s n op txn toReq st d last = s.bump (Reg.HG_COH_UNMATCHED n) 1 := by
  have hnone : (s.hgAt n).snoops.find? (fun q => q.presented && decide (q.pkt.hdr.txn = txn)) = none := by simpa using h
  unfold snprspTake
  rw [if_neg (by simp [(haiRuns_iff s n).mpr ⟨hl, ha⟩])]
  simp only [hnone]

theorem snprspTake_matched (op : BitVec 8) (txn : Nat) (toReq : Bool) (st : BitVec 2) (d : Line) (last : Bool) {q : SnoopSt}
    (h : (s.hgAt n).snoops.find? (fun q => q.presented && decide (q.pkt.hdr.txn = txn)) = some q) :
    snprspTake s n op txn toReq st d last =
      if last then (storeReply s n .rsp (itemPkt n q op txn toReq st d)).updHg n
        (fun h => { h with snoops := h.snoops.filter (fun x => decide (x.arrival ≠ q.arrival)) })
      else storeReply s n .rsp (itemPkt n q op txn toReq st d) := by
  unfold snprspTake
  rw [if_neg (by simp [(haiRuns_iff s n).mpr ⟨hl, ha⟩])]
  simp only [h]
  rfl

theorem cackTake_unmatched (c : Ctx) (g : Tag) (h : ∀ x ∈ (s.hgAt n).cackWait, ¬(x.1 = c ∧ x.2.1 = g)) :
    cackTake s n c g = s.bump (Reg.HG_COH_UNMATCHED n) 1 := by
  have hnone : (s.hgAt n).cackWait.findIdx? (fun x => decide (x.1 = c) && decide (x.2.1 = g)) = none := by
    rw [List.findIdx?_eq_none_iff]
    simpa using h
  unfold cackTake
  rw [if_neg (by simp [(haiRuns_iff s n).mpr ⟨hl, ha⟩])]
  simp only [hnone]

/-- The CACK of the request that waited longest. -/
theorem cackTake_front {c : Ctx} {g : Tag} {home : Nat} {addr : Addr} {rest : List (Ctx × Tag × Nat × Addr)}
    (h : (s.hgAt n).cackWait = (c, g, home, addr) :: rest) :
    cackTake s n c g = storeReply (s.setHg n { s.hgAt n with cackWait := rest }) n .rsp (mkCack n home c g addr) := by
  unfold cackTake
  rw [if_neg (by simp [(haiRuns_iff s n).mpr ⟨hl, ha⟩])]
  simp [h, List.findIdx?_cons, dropNth]

end Running

theorem storeReply_snoops (s : State) (n : Nat) (kind : PktKind) (p : Pkt) :
    ((storeReply s n kind p).hgAt n).snoops = (s.hgAt n).snoops ∧ ((storeReply s n kind p).hgAt n).cackWait = (s.hgAt n).cackWait := by
  cases h : deadDest s n p.hdr.dst.toNat with
  | true => rw [storeReply_dead kind h]; exact ⟨rfl, rfl⟩
  | false => rw [storeReply_live kind h, State.hgAt_setHg_same]; exact ⟨rfl, rfl⟩

/-- The store after an item: nothing toward a dead destination, else the item's packet, with the transaction it names. -/
theorem itemPkt_stored (s : State) (n : Nat) (q : SnoopSt) (op : BitVec 8) (txn : BitVec 16) (r : Bool) (st : BitVec 2) (d : Line)
    {dst : Nat} (hdst : dst = (if r = true then (BitVec.ofNat 8 q.pkt.hdr.rqhg).toNat else q.pkt.hdr.src.toNat)) :
    (deadDest s n dst = true → ((storeReply s n .rsp (itemPkt n q op txn.toNat r st d)).hgAt n).store = (s.hgAt n).store) ∧
    (deadDest s n dst = false → ∃ p, ((storeReply s n .rsp (itemPkt n q op txn.toNat r st d)).hgAt n).store = (s.hgAt n).store ++ [p] ∧
      p.dst = dst ∧ p.waiting = true ∧ p.pkt.hdr.op = op ∧ p.pkt.hdr.addr = q.pkt.hdr.addr ∧ p.pkt.hdr.txn = txn.toNat ∧
      (p.pkt.data = [] ∨ p.pkt.data = [{ data := d, poison := false }])) := by
  have hto : (itemPkt n q op txn.toNat r st d).hdr.dst.toNat = dst := by
    rw [hdst]
    cases r <;> rfl
  refine ⟨fun hdead => ?_, fun hlive => ?_⟩
  · rw [storeReply_dead .rsp (hto ▸ hdead)]
  · rw [storeReply_live .rsp (hto ▸ hlive), State.hgAt_setHg_same]
    refine ⟨_, rfl, hto, rfl, rfl, rfl, Header.txn_of_xinfo _ _ txn.isLt rfl, ?_⟩
    simp only [mkStored, itemPkt]
    split
    · exact .inr rfl
    · exact .inl rfl

/-- Settles O17: each channel by the branch its conditions take; the headgate's own answers by the invariant `SnoopsAnswered`. -/
theorem snoopChannelsMatchByTransaction : Obligations.SnoopChannelsMatchByTransaction := by
  refine ⟨?_, ?_, ?_, ?_⟩
  · intro s n q hc hl ha hd hq hroom
    refine ⟨_, exec_snpTransfer s n hc, ?_⟩
    rw [snpPresent_goes hl ha hd hq hroom]
    refine ⟨by simp, ?_, by simp (disch := decide), by simp⟩
    simp only [State.hgAt_setHg_same, List.mem_map]
    rintro x ⟨y, -, rfl⟩ hx
    split
    · rfl
    · next hne =>
      rw [if_neg hne] at hx
      exact absurd hx hne
  · intro s n hc
    rw [exec_snpTransfer s n hc]
    refine ⟨fun hd hw => congrArg _ (snpPresent_waits hd hw), fun hd => ⟨_, rfl, ?_⟩⟩
    rw [snpPresent_dead hd]
    obtain ⟨⟨ps, qs, hk, hops⟩, hroom, hnp⟩ := answerSnoops_answered s n
    exact ⟨hroom, hnp, ⟨ps, by rw [hk], hops⟩, answerSnoops_frame s n, by simp⟩
  · intro s n op txn r st d last hc hl ha
    refine ⟨fun hno => ⟨_, exec_snprspItem s n hc op txn r st d last, ?_⟩, fun q hq => ⟨_, exec_snprspItem s n hc op txn r st d last, ?_⟩⟩
    · rw [snprspTake_unmatched hl ha op txn.toNat r st d last hno]
      exact ⟨State.toNat_bump _ _ _, by simp (disch := decide), regsKept_setReg _ _ (regsKept_refl _ _) (by simp)⟩
    · obtain ⟨hsn, -⟩ := storeReply_snoops s n .rsp (itemPkt n q op txn.toNat r st d)
      rw [snprspTake_matched hl ha op txn.toNat r st d last hq]
      cases last
      · exact ⟨hsn, fun dst hdst => itemPkt_stored s n q op txn r st d hdst, storeReply_frame _ _ _ _, by simp⟩
      · rw [if_pos rfl, State.updHg_eq, State.hgAt_setHg_same, hsn]
        exact ⟨rfl, fun dst hdst => itemPkt_stored s n q op txn r st d hdst, by simp (disch := decide), by simp⟩
  · intro s n c g hc hl ha
    refine ⟨fun hno => ⟨_, exec_cack s n hc c g, ?_⟩, fun home addr rest hw => ⟨_, exec_cack s n hc c g, ?_⟩⟩
    · rw [cackTake_unmatched hl ha c g hno]
      exact ⟨State.toNat_bump _ _ _, by simp (disch := decide), regsKept_setReg _ _ (regsKept_refl _ _) (by simp)⟩
    · rw [cackTake_front hl ha hw]
      refine ⟨(storeReply_snoops _ _ _ _).2.trans (by simp), fun hlive => ?_, by simp (disch := decide), by simp⟩
      rw [storeReply_live (s := s.setHg n { s.hgAt n with cackWait := rest }) (p := mkCack n home c g addr) .rsp hlive,
        State.hgAt_setHg_same]
      exact ⟨_, by rw [State.hgAt_setHg_same], rfl, rfl, rfl, rfl, rfl⟩

end Sys2Proof.Machine
end

section
/-! Responses to the agent (R48 to R53, R140, R190), and their absorption by the siphon (R75, R76). -/

open Sys2Proof

namespace Sys2Proof.Machine

/-! ### The first element changed -/

/-- The first element that meets `q` replaced by `y` of the same weight keeps the sum. -/
theorem sumBy_updFirst {α : Type} (q : α → Bool) (f : α → Nat) (y : α) :
    ∀ (l : List α) {x : α}, l.find? q = some x → f y = f x → sumBy f (updFirst q (fun _ => y) l) = sumBy f l
  | [], _, h, _ => by cases h
  | z :: zs, x, h, hy => by
    rw [List.find?_cons] at h
    rw [updFirst]
    cases hq : q z with
    | true =>
      rw [hq] at h
      obtain rfl := Option.some.inj h
      rw [if_pos rfl]
      exact congrArg (· + sumBy f zs) hy
    | false =>
      rw [hq] at h
      rw [if_neg Bool.false_ne_true]
      exact congrArg (f z + ·) (sumBy_updFirst q f y zs h hy)

/-- Replaced by itself it changes nothing. -/
theorem updFirst_self {α : Type} (q : α → Bool) : ∀ (l : List α) {x : α}, l.find? q = some x → updFirst q (fun _ => x) l = l
  | [], _, h => by cases h
  | z :: zs, x, h => by
    rw [List.find?_cons] at h
    rw [updFirst]
    cases hq : q z with
    | true =>
      rw [hq] at h
      rw [if_pos rfl, Option.some.inj h]
    | false =>
      rw [hq] at h
      rw [if_neg Bool.false_ne_true, updFirst_self q zs h]

/-! ### The response read from the pool (R190, log entry 60) -/

theorem readRsp_blocks (s : State) (n : Nat) (p : PartSt) (err : MemErr) : (readRsp s n p err).1.blocks = p.blocks := by
  unfold readRsp
  dsimp only
  split <;> rfl

theorem deliveredOutcome_clean (oc : BitVec 4) {data : List DBeat} (h : ∀ b ∈ data, b.poison = false) : deliveredOutcome oc data = oc :=
  if_neg (by simpa using fun _ => h)

/-- An error-free read leaves the state, and a part without poison. -/
theorem readRsp_ok (s : State) (n : Nat) (p : PartSt) : (readRsp s n p .ok).2 = s ∧
    ((∀ b ∈ p.data, b.poison = false) → (readRsp s n p .ok).1 = p) := by
  refine ⟨rfl, fun h => ?_⟩
  have hmap : p.outcome.map (fun oc => deliveredOutcome oc p.data) = p.outcome := by simp [deliveredOutcome_clean _ h]
  calc (readRsp s n p .ok).1 = { p with data := p.data, outcome := p.outcome.map (fun oc => deliveredOutcome oc p.data) } := rfl
    _ = p := by rw [hmap]

/-- The transaction `t` with its first part from the mesh replaced by `q`. -/
def Txn.withPart (t : Txn) (q : PartSt) : Txn := { t with parts := updFirst (fun x => decide (x.target < 160)) (fun _ => q) t.parts }

/-- Its transaction in the headgate replaced. -/
def putTxn (n : Nat) (t : Txn) (s : State) : State :=
  s.setHg n { s.hgAt n with txns := (s.hgAt n).txns.map (fun u => if u.id = t.id then t else u) }

/-- Nothing is read, or the first part from the mesh before the first beat. -/
theorem readTxn_cases (s : State) (n : Nat) (t : Txn) (err : MemErr) :
    readTxn s n t err = (t, s) ∨ (t.sent = 0 ∧ ∃ p, t.parts.find? (fun p => decide (p.target < 160)) = some p ∧
      readTxn s n t err = (t.withPart (readRsp s n p err).1, putTxn n (t.withPart (readRsp s n p err).1) (readRsp s n p err).2)) := by
  unfold readTxn
  split
  · next p hp =>
    split
    · next h0 => exact .inr ⟨h0, p, hp, rfl⟩
    · exact .inl rfl
  · exact .inl rfl

/-- What the read of a transaction's response leaves. -/
structure TxnRead (n : Nat) (s : State) (x y : Txn) (u : State) : Prop where
  same : y.req = x.req ∧ y.tag = x.tag ∧ y.id = x.id ∧ y.sent = x.sent ∧ sumBy (·.blocks) y.parts = sumBy (·.blocks) x.parts
  headgate : ∃ ts, u.hgAt n = { s.hgAt n with txns := ts } ∧ y ∈ ts ∧ ∀ v ∈ (s.hgAt n).txns, v.id ≠ x.id → v ∈ ts
  others : hgsKept [n] s u

theorem readTxn_spec {s : State} {n : Nat} {x : Txn} (hx : x ∈ (s.hgAt n).txns) (err : MemErr) :
    TxnRead n s x (readTxn s n x err).1 (readTxn s n x err).2 := by
  rcases readTxn_cases s n x err with h | ⟨-, p, hp, h⟩
  · rw [h]
    exact ⟨⟨rfl, rfl, rfl, rfl, rfl⟩, ⟨_, rfl, hx, fun v hv _ => hv⟩, hgsKept_self _ _⟩
  · have hhg : (readRsp s n p err).2.hg = s.hg := readRsp_frame s n p err .hg (by decide)
    rw [h]
    refine ⟨⟨rfl, rfl, rfl, rfl, sumBy_updFirst _ _ _ _ hp (readRsp_blocks s n p err)⟩,
      ⟨(s.hgAt n).txns.map (fun u => if u.id = x.id then x.withPart (readRsp s n p err).1 else u), ?_, ?_, ?_⟩, ?_⟩
    · rw [putTxn, State.hgAt_setHg_same, State.hgAt, hhg]
      rfl
    · exact List.mem_map.mpr ⟨x, hx, if_pos rfl⟩
    · exact fun v hv hne => List.mem_map.mpr ⟨v, hv, if_neg hne⟩
    · exact (hgsKept_setHg _ _ _ _).mpr (hgsKept_of_hg _ hhg)

theorem readTxn_later {s : State} {n : Nat} {x : Txn} (err : MemErr) (h : 0 < x.sent) : readTxn s n x err = (x, s) := by
  rcases readTxn_cases s n x err with h' | ⟨h0, -⟩
  · exact h'
  · omega

theorem readTxn_clean (s : State) (n : Nat) {x : Txn} (h : ∀ p ∈ x.parts, ∀ b ∈ p.data, b.poison = false) :
    (readTxn s n x .ok).1 = x := by
  rcases readTxn_cases s n x .ok with h' | ⟨-, p, hp, h'⟩
  · rw [h']
  · rw [h', (readRsp_ok s n p).2 (h p (List.mem_of_find?_eq_some hp))]
    exact congrArg (fun ps => { x with parts := ps }) (updFirst_self _ _ hp)

theorem readTxn_ok_frame (s : State) (n : Nat) (x : Txn) : sameExcept [.hg] s (readTxn s n x .ok).2 := by
  rcases readTxn_cases s n x .ok with h | ⟨-, p, -, h⟩
  · rw [h]
    exact sameExcept_refl _ _
  · rw [h, (readRsp_ok s n p).1]
    simp (disch := decide) [putTxn]

/-! ### The end of a transaction (R58, R71, R146) -/

theorem lockAfterRsp_reopening (c : CtxSt) (op : BitVec 8) (oc : BitVec 4) (mine : Bool) :
    (lockAfterRsp c op oc mine).reopening = c.reopening := by
  unfold lockAfterRsp
  repeat' split
  all_goals rfl

/-- The headgate without the transaction `t`, before the CACK (R58, R146). -/
def withoutTxn (h : Headgate) (t : Txn) : Headgate :=
  { (h.setCtx t.req.ctx (lockAfterRsp (h.ctxAt t.req.ctx) t.req.op t.outcome (decide ((h.ctxAt t.req.ctx).lockTxn = t.id)))) with
    txns := h.txns.filter (fun u => decide (u.id ≠ t.id))
    poolUsed := h.poolUsed - sumBy (·.blocks) t.parts }

theorem endTxn_cases (s : State) (n : Nat) (t : Txn) (b : Bool) :
    endTxn s n t b = s.setHg n (withoutTxn (s.hgAt n) t) ∨
    (∃ p, endTxn s n t b = storeReply (s.setHg n (withoutTxn (s.hgAt n) t)) n .rsp p) ∨
    ∃ c, endTxn s n t b = (s.setHg n (withoutTxn (s.hgAt n) t)).setHg n
      { withoutTxn (s.hgAt n) t with cackWait := (s.hgAt n).cackWait ++ [c] } := by
  unfold endTxn
  dsimp only
  split
  · next p hp =>
    split
    · cases b
      · refine .inr (.inr ⟨(t.req.ctx, t.tag, p.target, t.req.addr), ?_⟩)
        rw [if_neg Bool.false_ne_true, State.updHg_eq, State.hgAt_setHg_same]
        rfl
      · exact .inr (.inl ⟨_, rfl⟩)
    · exact .inl rfl
  · exact .inl rfl

/-- Of its headgate the end of a transaction changes that, the store and the CACKs awaited. -/
theorem endTxn_hgAt (s : State) (n : Nat) (t : Txn) (b : Bool) :
    ∃ st cw, (endTxn s n t b).hgAt n = { withoutTxn (s.hgAt n) t with store := st, cackWait := cw } := by
  rcases endTxn_cases s n t b with h | ⟨p, h⟩ | ⟨c, h⟩
  · exact ⟨_, _, by rw [h, State.hgAt_setHg_same]⟩
  · rw [h]
    cases hd : deadDest (s.setHg n (withoutTxn (s.hgAt n) t)) n p.hdr.dst.toNat with
    | true => exact ⟨_, _, by rw [storeReply_dead .rsp hd, State.hgAt_setHg_same]⟩
    | false => exact ⟨_, _, by rw [storeReply_live .rsp hd, State.hgAt_setHg_same, State.hgAt_setHg_same]⟩
  · exact ⟨_, _, by rw [h, State.hgAt_setHg_same]⟩

@[simp] theorem endTxn_hgsKept (s x : State) (n : Nat) (t : Txn) (b : Bool) : hgsKept [n] s (endTxn x n t b) ↔ hgsKept [n] s x := by
  rcases endTxn_cases x n t b with h | ⟨p, h⟩ | ⟨c, h⟩ <;> rw [h] <;> simp

/-! ### RSP -/

/-- The beat that goes out, and what follows it. -/
structure BeatOut (n : Nat) (s : State) (y : Txn) (t : State) : Prop where
  out : (t.hgAt n).out = .rsp y.req.ctx y.tag y.outcome y.done y.rspState (y.beat y.sent) (decide (y.beats ≤ y.sent + 1))
  ends : y.beats ≤ y.sent + 1 → (∀ u ∈ (t.hgAt n).txns, u.id ≠ y.id) ∧
    (t.hgAt n).poolUsed = (s.hgAt n).poolUsed - sumBy (·.blocks) y.parts
  goesOn : y.sent + 1 < y.beats → y ∈ (s.hgAt n).txns → { y with sent := y.sent + 1 } ∈ (t.hgAt n).txns
  rest : ∀ u ∈ (s.hgAt n).txns, u.id ≠ y.id → u ∈ (t.hgAt n).txns
  others : hgsKept [n] s t

theorem rspOut_spec (s : State) (n : Nat) (y : Txn) : BeatOut n s y (rspOut s n y) := by
  unfold rspOut
  dsimp only
  split
  · next hlast =>
    have hle : y.beats ≤ y.sent + 1 := by simpa using hlast
    obtain ⟨st, cw, hh⟩ := endTxn_hgAt (s.updHg n (fun h => { h with
      out := .rsp y.req.ctx y.tag y.outcome y.done y.rspState (y.beat y.sent) (decide (y.beats ≤ y.sent + 1)) })) n y (!isCaching n)
    refine ⟨by rw [hh]; simp [withoutTxn, Headgate.setCtx], fun _ => ⟨?_, by rw [hh]; simp [withoutTxn]⟩, fun h => absurd h (by omega), ?_,
      by simp⟩
    · rw [hh]
      simp [withoutTxn]
    · rw [hh]
      intro u hu hne
      simpa [withoutTxn, hne] using hu
  · next hlast =>
    have hlt : ¬ y.beats ≤ y.sent + 1 := by simpa using hlast
    refine ⟨by simp, fun h => absurd h hlt, fun _ hy => ?_, fun u hu hne => ?_, by simp⟩
    · simp only [State.updHg_eq, State.hgAt_setHg_same, List.mem_map]
      exact ⟨y, hy, if_pos rfl⟩
    · simp only [State.updHg_eq, State.hgAt_setHg_same, List.mem_map]
      exact ⟨u, hu, if_neg hne⟩

theorem rspBeat_held {s : State} {n k : Nat} {x : Txn} (hx : (s.hgAt n).txns[k]? = some x) (err : MemErr)
    (h : rspAllowed (s.hgAt n) x = false ∨ cackRoom (s.hgAt n) x = false) : rspBeat s n k err = s := by
  unfold rspBeat
  simp only [hx]
  exact if_neg (by rcases h with h | h <;> simp [h])

section Allowed
variable {s : State} {n k : Nat} {x : Txn} (hx : (s.hgAt n).txns[k]? = some x) (hc : x.complete = true) (hab : x.absorb = false)
  (hall : rspAllowed (s.hgAt n) x = true) (hroom : cackRoom (s.hgAt n) x = true) (hl : (s.hgAt n).portLive = true)
include hx hc hab hall hroom hl

theorem rspBeat_stopped (err : MemErr) (ha : (s.hgAt n).aclkEn = false) : rspBeat s n k err = setWake s n true := by
  unfold rspBeat
  simp only [hx]
  rw [if_pos (by simp [hc, hab, hall, hroom]), deliverOn_stopped _ hl ha]

theorem rspBeat_runs (err : MemErr) (ha : (s.hgAt n).aclkEn = true) : rspBeat s n k err =
    if (readTxn s n x err).1.complete then rspOut (readTxn s n x err).2 n (readTxn s n x err).1 else (readTxn s n x err).2 := by
  unfold rspBeat
  simp only [hx]
  rw [if_pos (by simp [hc, hab, hall, hroom]), deliverOn_runs _ hl ha]

end Allowed

/-! ### The siphon -/

theorem siphonAbsorb_complete {s : State} {n k : Nat} {x : Txn} (hx : (s.hgAt n).txns[k]? = some x) (hc : x.complete = true)
    (hab : x.absorb = true) (hroom : cackRoom (s.hgAt n) x = true) :
    siphonAbsorb s n k = absorbed (endTxn (s.bump (Reg.HG_SOURCE_RESET n) 1) n x true) n x.req.ctx := by
  unfold siphonAbsorb
  simp only [hx]
  rw [if_pos (by simp [hc, hab, hroom])]

theorem Headgate.ctxAt_setCtx_same (h : Headgate) (c : Ctx) (x : CtxSt) : (h.setCtx c x).ctxAt c = x := Tab.get_set_same _ _ _ _

theorem Headgate.ctxAt_setCtx_other (h : Headgate) {c d : Ctx} (x : CtxSt) (hne : d ≠ c) : (h.setCtx c x).ctxAt d = h.ctxAt d :=
  Tab.get_set_other _ _ _ _ _ (fun he => hne (BitVec.eq_of_toNat_eq he))

/-- A context without outcomes to absorb reopens, its tags at 0 (R76). -/
theorem reopenCtx_reopens {h : Headgate} {c : Ctx} (ht : ∀ u ∈ h.txns, u.req.ctx = c → u.absorb = false)
    (hr : ∀ q ∈ h.reqs, q.req.ctx = c → q.absorb = false) :
    reopenCtx h c = h.setCtx c { h.ctxAt c with tag := 0, reopening := false } := by
  refine if_neg ?_
  simp only [Bool.or_eq_true, List.any_eq_true, Bool.and_eq_true, decide_eq_true_eq, not_or, not_exists, not_and]
  exact ⟨fun u hu ha hcu => by simp [ht u hu hcu] at ha, fun q hq ha hcq => by simp [hr q hq hcq] at ha⟩

/-- It stays while an outcome of its remains. -/
theorem reopenCtx_waits {h : Headgate} {c : Ctx} (ht : ∃ u ∈ h.txns, u.req.ctx = c ∧ u.absorb = true) : reopenCtx h c = h := by
  obtain ⟨u, hu, hcu, ha⟩ := ht
  refine if_pos ?_
  rw [List.any_eq_true.mpr ⟨u, hu, by simp [hcu, ha]⟩, Bool.true_or]

/-- Absorption changes contexts of its headgate alone. -/
theorem absorbed_hgAt (s : State) (n : Nat) (c : Ctx) : ∃ cs, (absorbed s n c).hgAt n = { s.hgAt n with ctxs := cs } := by
  unfold absorbed
  split
  · rw [State.updHg_eq, State.hgAt_setHg_same, reopenCtx]
    split
    · exact ⟨_, rfl⟩
    · exact ⟨_, rfl⟩
  · exact ⟨_, rfl⟩

@[simp] theorem absorbed_hgsKept (s x : State) (n : Nat) (c : Ctx) : hgsKept [n] s (absorbed x n c) ↔ hgsKept [n] s x := by
  unfold absorbed
  split <;> simp

/-- The last outcome of a context absorbed, the context reopens. -/
theorem absorbed_reopens {s : State} {n : Nat} {c : Ctx} (hl : (s.hgAt n).portLive = true) (hw : ((s.hgAt n).ctxAt c).reopening = true)
    (ht : ∀ u ∈ (s.hgAt n).txns, u.req.ctx = c → u.absorb = false) (hr : ∀ q ∈ (s.hgAt n).reqs, q.req.ctx = c → q.absorb = false) :
    (((absorbed s n c).hgAt n).ctxAt c).reopening = false ∧ (((absorbed s n c).hgAt n).ctxAt c).tag = 0 := by
  rw [absorbed, if_pos ⟨hl, hw⟩, State.updHg_eq, State.hgAt_setHg_same, reopenCtx_reopens ht hr, Headgate.ctxAt_setCtx_same]
  exact ⟨rfl, rfl⟩

/-- Settles O15: the read of the response by `TxnRead`, the beat by `BeatOut`, and the siphon by the end of the transaction. -/
theorem responsesLeaveInOrderAndSiphonsAbsorb : Obligations.ResponsesLeaveInOrderAndSiphonsAbsorb := by
  refine ⟨?_, ?_⟩
  · intro s n k err x hh hx hc hab
    rw [exec_rspTransfer s n hh]
    refine ⟨fun hno => congrArg _ (rspBeat_held hx err hno), fun hall hroom hl ha => ?_, fun hall hroom hl ha => ⟨_, rfl, ?_⟩⟩
    · obtain ⟨⟨hreq, htag, hid, hsent, hblocks⟩, ⟨ts, hu, hy, hrest⟩, hkept⟩ := readTxn_spec (List.mem_of_getElem? hx) err
      have hbeat := rspBeat_runs hx hc hab hall hroom hl err ha
      refine ⟨(readTxn s n x err).1, _, rfl, hreq, htag, hid, hsent, fun h => by rw [readTxn_later err h],
        fun he hclean => by subst he; exact readTxn_clean s n hclean, fun hcy => ?_, fun v hv hne => ?_, fun hcy => ?_, ?_, ?_, fun he => ?_⟩
      · obtain ⟨hout, hends, hgoes, -, -⟩ := rspOut_spec (readTxn s n x err).2 n (readTxn s n x err).1
        rw [hreq, htag, hsent] at hout
        rw [hsent, hid, hblocks, hu] at hends
        rw [hsent, hu] at hgoes
        rw [hbeat, if_pos hcy]
        exact ⟨hout, hends, fun hlt => hgoes hlt hy⟩
      · obtain ⟨-, -, -, hr, -⟩ := rspOut_spec (readTxn s n x err).2 n (readTxn s n x err).1
        have hv' : v ∈ ((readTxn s n x err).2.hgAt n).txns := hu ▸ hrest v hv hne
        rw [hbeat]
        split
        · exact hr v hv' (hid ▸ hne)
        · exact hv'
      · rw [hbeat, if_neg (by simp [hcy]), hu]
        exact ⟨rfl, hy⟩
      · obtain ⟨-, -, -, -, ho⟩ := rspOut_spec (readTxn s n x err).2 n (readTxn s n x err).1
        rw [hbeat]
        split
        · exact hgsKept_trans hkept ho
        · exact hkept
      · simp (disch := decide)
      · subst he
        rw [hbeat]
        split
        · exact (rspOut_through [.regs, .hg] (by decide) _ _ _ _).mpr (sameExcept_mono (readTxn_ok_frame s n x) (by decide))
        · exact sameExcept_mono (readTxn_ok_frame s n x) (by decide)
    · rw [rspBeat_stopped hx hc hab hall hroom hl err ha]
      exact ⟨setWake_hgAt s n true, setWake_bit s n true, setWake_frame s n true, by simp, setWake_regsKept s n true⟩
  · intro s n k x hh hx hc hab hroom
    refine ⟨_, exec_siphonAbsorb s n hh k, ?_⟩
    rw [siphonAbsorb_complete hx hc hab hroom]
    obtain ⟨st, cw, hend⟩ := endTxn_hgAt (s.bump (Reg.HG_SOURCE_RESET n) 1) n x true
    rw [State.bump_eq, State.hgAt_setReg, ← State.bump_eq] at hend
    obtain ⟨cs, habs⟩ := absorbed_hgAt (endTxn (s.bump (Reg.HG_SOURCE_RESET n) 1) n x true) n x.req.ctx
    refine ⟨?_, ?_, fun hl hre hts hrs => absorbed_reopens ?_ ?_ ?_ ?_, by simp (disch := decide), by simp⟩
    · rw [habs, hend]
      simp [withoutTxn]
    · have hregs : (absorbed (endTxn (s.bump (Reg.HG_SOURCE_RESET n) 1) n x true) n x.req.ctx).regs = (s.bump (Reg.HG_SOURCE_RESET n) 1).regs :=
        (absorbed_frame _ _ _ .regs (by decide)).trans (endTxn_frame _ _ _ _ .regs (by decide))
      rw [State.reg_of_regs hregs, State.toNat_bump]
    · rw [hend]
      exact hl
    · rw [hend]
      refine (congrArg CtxSt.reopening (Headgate.ctxAt_setCtx_same (s.hgAt n) x.req.ctx _)).trans ?_
      rw [lockAfterRsp_reopening]
      exact hre
    · rw [hend]
      intro u hu hcu
      obtain ⟨hu, hne⟩ := List.mem_filter.mp hu
      exact hts u hu (by simpa using hne) hcu
    · rw [hend]
      exact hrs

end Sys2Proof.Machine
end

section
/-! What the target side of a headgate leaves: every operation that frees, answers or takes an entry changes of its headgate the
request store, the lock manager, MSGIN, the pair states and the replay store alone, and no register the agent's commands count in. -/

open Sys2Proof

namespace Sys2Proof.Machine

/-- Of a headgate its target side alone may have changed; MSGIN has gained messages alone, with no beat transferred. -/
def TargetOnly (h h' : Headgate) : Prop :=
  ∃ es ne oa rx ms lk st, h' = { h with
    entries := es, nextEntry := ne, overAllot := oa, rx := rx, msgin := ms, lock := lk, store := st } ∧
    ∀ m ∈ ms, m ∈ h.msgin ∨ (m.gua = false ∧ m.sent = 0)

/-- The bits of the interface that the target side does not write: the two counters of the agent's faults, and PWR_ACK. -/
def watched (n o i : Nat) : Prop :=
  o = Reg.HG_TRSP_BADOUT n ∨ o = Reg.HG_HAI_DISCARD n ∨ (o = Reg.HG_DOM_STATUS n ∧ i = 4)

structure TargetKept (n : Nat) (s t : State) : Prop where
  others : hgsKept [n] s t
  own : TargetOnly (s.hgAt n) (t.hgAt n)
  bits : ∀ o i, watched n o i → t.getB o i = s.getB o i

theorem targetOnly_refl (h : Headgate) : TargetOnly h h := ⟨_, _, _, _, _, _, _, rfl, fun _ hm => .inl hm⟩

theorem targetOnly_trans {h h' h'' : Headgate} (a : TargetOnly h h') (b : TargetOnly h' h'') : TargetOnly h h'' := by
  obtain ⟨_, _, _, _, ms, _, _, rfl, hm⟩ := a
  obtain ⟨es, ne, oa, rx, ms', lk, st, rfl, hm'⟩ := b
  exact ⟨es, ne, oa, rx, ms', lk, st, rfl, fun m hmem => (hm' m hmem).elim (hm m) .inr⟩

theorem targetKept_refl (n : Nat) (s : State) : TargetKept n s s := ⟨hgsKept_self _ _, targetOnly_refl _, fun _ _ _ => rfl⟩

theorem targetKept_trans {n : Nat} {s t u : State} (a : TargetKept n s t) (b : TargetKept n t u) : TargetKept n s u :=
  ⟨hgsKept_trans a.others b.others, targetOnly_trans a.own b.own, fun o i h => (b.bits o i h).trans (a.bits o i h)⟩

section Ops
variable {n : Nat} {s x : State} (h : TargetKept n s x)
include h

/-! ### Updates -/

theorem targetKept_setHg {h' : Headgate} (ho : TargetOnly (x.hgAt n) h') : TargetKept n s (x.setHg n h') :=
  targetKept_trans h ⟨by simp, by rw [State.hgAt_setHg_same]; exact ho, fun _ _ _ => rfl⟩

/-- An update of the entries, the lock, the pairs or the store. -/
theorem targetKept_set (es : List Entry) (ne : Nat) (oa : List Pkt) (rx : Tab PairRx) (lk : LockMgr) (st : List StPkt) :
    TargetKept n s (x.setHg n { x.hgAt n with
      entries := es, nextEntry := ne, overAllot := oa, rx := rx, lock := lk, store := st }) :=
  targetKept_setHg h ⟨es, ne, oa, rx, _, lk, st, rfl, fun _ hm => .inl hm⟩

theorem targetKept_hg {t : State} (hhg : t.hg = x.hg) (hb : ∀ o i, watched n o i → t.getB o i = x.getB o i) : TargetKept n s t :=
  targetKept_trans h ⟨hgsKept_of_hg _ hhg, by rw [State.hgAt, State.hgAt, hhg]; exact targetOnly_refl _, hb⟩

theorem targetKept_frame {ps : List Piece} {t : State} (hf : sameExcept ps x t) (hg : ps.contains .hg = false)
    (hr : ps.contains .regs = false) : TargetKept n s t :=
  targetKept_hg h (hf .hg (by simpa using hg)) fun o _ _ => congrArg (bit · _) (State.reg_of_regs (hf .regs (by simpa using hr)) o)

theorem targetKept_setF (off lo len v : Nat) (ho : ∀ o i, watched n o i → o ≠ off ∨ i < lo) : TargetKept n s (x.setF off lo len v) :=
  targetKept_hg h rfl fun o i hw => State.getB_setF_other _ _ _ _ _ _ _ ((ho o i hw).imp_right .inl)

theorem targetKept_setReg (off : Nat) (v : Word) (ho : ∀ i, ¬ watched n off i) : TargetKept n s (x.setReg off v) :=
  targetKept_hg h rfl fun _ i hw => congrArg (bit · i) (State.reg_setReg_other _ _ _ _ (fun he => ho i (he ▸ hw)))

theorem targetKept_alarm (st : Nat) (typ : BitVec 8) (src d : Nat) : TargetKept n s (x.alarm st typ src d) :=
  targetKept_hg h rfl fun _ _ _ => rfl

end Ops

/-! ### The registers the target side writes -/

/-- A register of headgate `n` that holds no watched bit lies at another offset. -/
theorem not_watched (n a i : Nat) (h1 : a ≠ 0x1F70) (h2 : a ≠ 0x108) (h3 : a ≠ 0xEA8) : ¬ watched n (hgBase n + a) i := by
  unfold watched Reg.HG_TRSP_BADOUT Reg.HG_HAI_DISCARD Reg.HG_DOM_STATUS
  omega

theorem not_watched_low (n : Nat) {o : Nat} (i : Nat) (h : o < 0x200000) : ¬ watched n o i := by
  unfold watched Reg.HG_TRSP_BADOUT Reg.HG_HAI_DISCARD Reg.HG_DOM_STATUS hgBase
  omega

/-- The counts of HG_GRANT stand above bit 9, and its registers below the counters of the agent's faults. -/
theorem grant_unwatched {n src : Nat} (hs : src < 256) (lo : Nat) (hlo : 10 ≤ lo) :
    ∀ o i, watched n o i → o ≠ Reg.HG_GRANT n src ∨ i < lo := by
  unfold watched Reg.HG_TRSP_BADOUT Reg.HG_HAI_DISCARD Reg.HG_DOM_STATUS Reg.HG_GRANT
  omega

section Entries
variable {n : Nat} {s x : State} (h : TargetKept n s x)
include h

/-! ### Entries freed (R147, R158) -/

theorem targetKept_setRx (src : Nat) (p : PairRx) : TargetKept n s (x.setHg n ((x.hgAt n).setRx src p)) :=
  targetKept_set h _ _ _ _ _ _

theorem targetKept_updEntry (id : Nat) (f : Entry → Entry) : TargetKept n s (x.setHg n ((x.hgAt n).updEntry id f)) :=
  targetKept_set h _ _ _ _ _ _

theorem targetKept_waypointMatch (node : Nat) : TargetKept n s (waypointMatch x n node).2 := by
  unfold waypointMatch
  split
  · exact h
  · exact h
  · exact targetKept_setReg (targetKept_setReg h _ _ fun i => not_watched n 0x1F40 i (by decide) (by decide) (by decide)) _ _ fun i =>
      not_watched n 0x1F40 i (by decide) (by decide) (by decide)

theorem targetKept_routePkt (p : Pkt) (replay : Bool) : TargetKept n s (routePkt x n p replay).2 := by
  unfold routePkt
  dsimp only
  split
  · exact h
  · exact targetKept_waypointMatch h _

theorem targetKept_sendCmt (dst : Nat) (op : BitVec 8) (xi : Nat) : TargetKept n s (sendCmt x n dst op xi) := by
  unfold sendCmt
  split
  · dsimp only
    exact targetKept_frame (targetKept_routePkt h _ false) (launchPkt_frame _ _ _) (by decide) (by decide)
  · exact h

theorem targetKept_countFree {src : Nat} (hs : src < 256) : TargetKept n s (countFree x n src) := by
  have hcount (v w : Nat) : TargetKept n s ((x.setF (Reg.HG_GRANT n src) 10 10 v).setF (Reg.HG_GRANT n src) 20 16 w) :=
    targetKept_setF (targetKept_setF h _ 10 10 v (grant_unwatched hs 10 (by decide))) _ 20 16 w (grant_unwatched hs 20 (by decide))
  unfold countFree
  dsimp only
  split
  · exact targetKept_setRx (targetKept_sendCmt (targetKept_setRx (hcount _ _) _ _) _ _ _) _ _
  · exact targetKept_setRx (hcount _ _) _ _

theorem targetKept_freeEntry (id : Nat) : TargetKept n s (freeEntry x n id) := by
  unfold freeEntry
  split
  · exact h
  · next e he => exact targetKept_countFree (targetKept_set h _ _ _ _ _ _) e.pkt.hdr.src.isLt

/-! ### Answers (R156) -/

theorem targetKept_storeReply (kind : PktKind) (p : Pkt) : TargetKept n s (storeReply x n kind p) := by
  cases hd : deadDest x n p.hdr.dst.toNat with
  | true => rwa [storeReply_dead kind hd]
  | false => rw [storeReply_live kind hd]; exact targetKept_set h _ _ _ _ _ _

theorem targetKept_answer (id : Nat) (oc : BitVec 4) (done : Nat) (data : List DBeat) : TargetKept n s (answer x n id oc done data) := by
  unfold answer
  split
  · exact h
  · split
    · exact targetKept_freeEntry h id
    · dsimp only
      split
      · exact targetKept_freeEntry (targetKept_storeReply h _ _) id
      · exact targetKept_updEntry h _ _

theorem targetKept_flushAnswers : TargetKept n s (flushAnswers x n) := by
  unfold flushAnswers
  generalize (x.hgAt n).entries.filter (fun e => decide (e.phase = .answer)) = es
  induction es generalizing x with
  | nil => exact h
  | cons e es ih => exact ih (targetKept_answer h _ _ _ _)

/-! ### Messages (R155) -/

omit h in
theorem targetOnly_releaseMsg (g : Headgate) (id : Nat) : TargetOnly g (releaseMsg g id) := by
  unfold releaseMsg
  split
  · exact targetOnly_refl g
  · split
    · refine ⟨_, _, _, _, _, _, _, rfl, fun m hm => ?_⟩
      rcases List.mem_append.mp hm with hm | hm
      · exact .inl hm
      · exact .inr (List.mem_singleton.mp hm ▸ ⟨rfl, rfl⟩)
    · exact targetOnly_refl g

omit h in
theorem targetOnly_releaseEach (es : List Entry) (g : Headgate) : TargetOnly g (es.foldl (fun g e => releaseMsg g e.id) g) := by
  induction es generalizing g with
  | nil => exact targetOnly_refl g
  | cons e es ih => exact targetOnly_trans (targetOnly_releaseMsg g e.id) (ih _)

theorem targetKept_releaseMsgs : TargetKept n s (releaseMsgs x n) := by
  unfold releaseMsgs
  split
  · exact targetKept_setHg h (targetOnly_releaseEach _ _)
  · exact h

/-! ### The lock manager (R293) -/

theorem targetKept_lock (lk : LockMgr) : TargetKept n s (x.setHg n { x.hgAt n with lock := lk }) := targetKept_set h _ _ _ _ _ _

theorem targetKept_revokeHg : TargetKept n s (revokeHg x n) := by
  unfold revokeHg
  dsimp only
  split
  · exact h
  · exact targetKept_alarm (targetKept_setReg (targetKept_setReg (targetKept_lock h _) _ _ fun i => not_watched_low n i (by decide)) _ _
      fun i => not_watched_low n i (by decide)) _ _ _ _

theorem targetKept_dueHg : TargetKept n s (dueHg x n) := by
  unfold dueHg
  split
  · exact targetKept_revokeHg h
  · exact h

/-! ### Entries taken (R301) -/

theorem targetKept_bump (a k : Nat) (h1 : a ≠ 0x1F70) (h2 : a ≠ 0x108) (h3 : a ≠ 0xEA8) : TargetKept n s (x.bump (hgBase n + a) k) :=
  targetKept_setReg h _ _ fun i => not_watched n a i h1 h2 h3

theorem targetKept_noteDenied (hd : Header) (partly : Bool) : TargetKept n s (noteDenied x n hd partly) := by
  have hcount := targetKept_setReg (targetKept_bump h 0x2020 1 (by decide) (by decide) (by decide)) (Reg.HG_PROT_LAST n)
  unfold noteDenied
  dsimp only
  split
  · exact targetKept_alarm (targetKept_bump (hcount _ fun i => not_watched n 0x2030 i (by decide) (by decide) (by decide)) 0x2028 1
      (by decide) (by decide) (by decide)) _ _ _ _
  · exact hcount _ fun i => not_watched n 0x2030 i (by decide) (by decide) (by decide)

theorem targetKept_shellAnswer (id : Nat) (hd : Header) : TargetKept n s (shellAnswer x n id hd) := by
  unfold shellAnswer
  split
  · exact targetKept_freeEntry (targetKept_alarm (targetKept_bump h 0xEC0 1 (by decide) (by decide) (by decide)) _ _ _ _) id
  · exact targetKept_answer (targetKept_bump h 0xEB8 1 (by decide) (by decide) (by decide)) _ _ _ _

theorem targetKept_admitEntry (id : Nat) (hd : Header) : TargetKept n s (admitEntry x n id hd) := by
  unfold admitEntry
  dsimp only
  repeat' split
  · exact targetKept_answer (targetKept_dueHg h) _ _ _ _
  · exact targetKept_answer (targetKept_dueHg h) _ _ _ _
  · exact targetKept_answer (targetKept_dueHg h) _ _ _ _
  · exact targetKept_answer (targetKept_dueHg h) _ _ _ _
  · exact targetKept_lock (targetKept_dueHg h) _
  · exact targetKept_dueHg h

theorem targetKept_checkEntry (id : Nat) (hd : Header) : TargetKept n s (checkEntry x n id hd) := by
  have hchecked := targetKept_updEntry h id (fun e => { e with checked := true })
  unfold checkEntry
  dsimp only
  split
  · exact h
  · split
    · exact targetKept_shellAnswer h id hd
    · split
      · split
        · exact targetKept_admitEntry hchecked id hd
        · exact targetKept_admitEntry (targetKept_updEntry (targetKept_noteDenied hchecked hd true) _ _) id hd
      · split
        · exact targetKept_admitEntry hchecked id hd
        · split
          · exact targetKept_admitEntry (targetKept_updEntry (targetKept_noteDenied hchecked hd false) _ _) id hd
          · split
            · exact targetKept_freeEntry (targetKept_noteDenied hchecked hd false) id
            · exact targetKept_answer (targetKept_noteDenied hchecked hd false) _ _ _ _

theorem targetKept_takeEntry (p : Pkt) : TargetKept n s (takeEntry x n p) :=
  targetKept_releaseMsgs (targetKept_checkEntry (targetKept_set (targetKept_setF h _ 10 10 _
    (grant_unwatched p.hdr.src.isLt 10 (by decide))) _ _ _ _ _ _) _ _)

theorem targetKept_retryOver (fuel : Nat) : TargetKept n s (retryOver fuel x n) := by
  induction fuel generalizing x with
  | zero => exact h
  | succ k ih =>
    unfold retryOver
    split
    · exact h
    · split
      · exact h
      · exact ih (targetKept_takeEntry (targetKept_set h _ _ _ _ _ _) _)

/-- What follows every change at the target side stays within it. -/
theorem targetKept_settleTarget : TargetKept n s (settleTarget x n) :=
  targetKept_releaseMsgs (targetKept_retryOver (targetKept_flushAnswers h) _)

end Entries

end Sys2Proof.Machine
end

section
/-! The target side toward the agent: MSGIN, TREQ, TWDATA and TRSP (R54 to R65, R155 to R160, R293, R302). -/

open Sys2Proof

namespace Sys2Proof.Machine

/-- The counter of bad outcomes is left by what follows an answer. -/
theorem badout_of_targetKept {n : Nat} {s t : State} (h : TargetKept n s t) :
    t.reg (Reg.HG_TRSP_BADOUT n) = s.reg (Reg.HG_TRSP_BADOUT n) := State.reg_eq_of_getB fun i => h.bits _ i (.inl rfl)

/-! ### MSGIN (R56, R158, R210) -/

/-- A beat of the packet `m` at the front of MSGIN, as driven. -/
def msgBeat (m : MsgIn) (last : Bool) : HaiOut := .msgin m.src m.tag m.bytes m.gua ((m.data[m.sent]?).getD DBeat.zero) last

/-- The headgate and the state after a beat of it, with `ms` left on MSGIN. -/
def shownHg (h : Headgate) (m : MsgIn) (last : Bool) (ms : List MsgIn) : Headgate := { h with out := msgBeat m last, msgin := ms }
def msgShown (s : State) (n : Nat) (m : MsgIn) (last : Bool) (ms : List MsgIn) : State :=
  (s.setHg n { s.hgAt n with out := msgBeat m last }).setHg n (shownHg (s.hgAt n) m last ms)

section Msgin
variable {s : State} {n : Nat} {m : MsgIn} {rest : List MsgIn} (hm : (s.hgAt n).msgin = m :: rest)
include hm

/-- The end of a MSG waits for room for its answer (R69, R171). -/
theorem msginBeat_full {id : Nat} (hlast : m.data.length ≤ m.sent + 1) (he : m.entry = some id) (hroom : openBlocks (s.hgAt n) = 0) :
    msginBeat s n = s := by
  unfold msginBeat
  simp only [hm]
  exact if_pos ⟨by simpa using hlast, by simp [he], hroom⟩

variable (hl : (s.hgAt n).portLive = true) (ha : (s.hgAt n).aclkEn = true)
include hl ha

theorem msginBeat_goesOn (hlast : m.sent + 1 < m.data.length) : msginBeat s n =
    msgShown s n m false ({ m with sent := m.sent + 1 } :: rest) := by
  have hd : decide (m.data.length ≤ m.sent + 1) = false := by simpa using hlast
  unfold msginBeat
  simp only [hm]
  rw [if_neg (by simp [hd]), deliverOn_runs _ hl ha]
  simp only [hd, State.updHg_eq, State.hgAt_setHg_same, Bool.false_eq_true, ↓reduceIte]
  rfl

theorem msginBeat_message {id : Nat} (hlast : m.data.length ≤ m.sent + 1) (he : m.entry = some id) (hroom : 0 < openBlocks (s.hgAt n)) :
    msginBeat s n = settleTarget (answer (msgShown s n m true rest) n id ocOK (m.bytes.toNat + 1) []) n := by
  have hd : decide (m.data.length ≤ m.sent + 1) = true := by simpa using hlast
  unfold msginBeat
  simp only [hm]
  rw [if_neg (by simp [Nat.ne_of_gt hroom]), deliverOn_runs _ hl ha]
  simp only [hd, he, State.updHg_eq, State.hgAt_setHg_same, ↓reduceIte]
  rfl

theorem msginBeat_guaranteed (hlast : m.data.length ≤ m.sent + 1) (he : m.entry = none) : msginBeat s n =
    (msgShown s n m true rest).setHg n ((shownHg (s.hgAt n) m true rest).setChan m.chanRec
      { (s.hgAt n).chanAt m.chanRec with buffered := ((s.hgAt n).chanAt m.chanRec).buffered - 1 }) := by
  have hd : decide (m.data.length ≤ m.sent + 1) = true := by simpa using hlast
  unfold msginBeat
  simp only [hm]
  rw [if_neg (by simp [he]), deliverOn_runs _ hl ha]
  simp only [hd, he, State.updHg_eq, State.hgAt_setHg_same, ↓reduceIte]
  rfl

end Msgin

theorem msgShown_hgAt (s : State) (n : Nat) (m : MsgIn) (last : Bool) (ms : List MsgIn) :
    (msgShown s n m last ms).hgAt n = shownHg (s.hgAt n) m last ms := State.hgAt_setHg_same _ _ _

theorem msgShown_frame (s : State) (n : Nat) (m : MsgIn) (last : Bool) (ms : List MsgIn) : sameExcept [.hg] s (msgShown s n m last ms) := by
  unfold msgShown
  simp (disch := decide)

theorem msgShown_hgsKept (s : State) (n : Nat) (m : MsgIn) (last : Bool) (ms : List MsgIn) : hgsKept [n] s (msgShown s n m last ms) := by
  unfold msgShown
  simp

/-! ### TREQ (R155, R159, R160, R293) -/

/-- A revocation writes the count and the flag of the lock manager's registers alone. -/
theorem revokeHg_getB (s : State) (n o i : Nat) (h1 : o ≠ Reg.RV_LOCK_REVOKE) (h2 : o ≠ Reg.RV_STATUS) :
    (revokeHg s n).getB o i = s.getB o i := by
  unfold revokeHg
  dsimp only
  split
  · rfl
  · exact congrArg (bit · i) ((State.reg_setReg_other _ _ _ _ h2).trans (State.reg_bump_other _ _ _ _ h1))

/-- A revoked lock has no timer left, or no owner (R293). -/
theorem dueHg_revokeHg {s : State} {n : Nat} : dueHg (revokeHg s n) n = revokeHg s n := by
  by_cases ho : (s.hgAt n).lock.owner.isNone = true
  · have hself : revokeHg s n = s := if_pos ho
    unfold dueHg
    split
    · rw [hself, hself]
    · rfl
  · have hlock : ((revokeHg s n).hgAt n).lock.timer = none := by
      unfold revokeHg
      rw [if_neg ho]
      simp [countRevoke, LockMgr.release]
    unfold dueHg
    rw [if_neg (by simp [LockMgr.due, hlock])]

theorem treqPresent_closed {s : State} {n : Nat} (h : s.getB (Reg.HG_LEVEE n) 0 = true ∨ s.getB (Reg.HG_DOM_STATUS n) 2 = true) :
    treqPresent s n = s := if_pos h

section Open
variable {s : State} {n : Nat} (h1 : s.getB (Reg.HG_LEVEE n) 0 = false) (h2 : s.getB (Reg.HG_DOM_STATUS n) 2 = false)
include h1 h2

theorem treqPresent_due (hd : (s.hgAt n).lock.due s.fclk = true) : treqPresent s n = treqPresent (revokeHg s n) n := by
  have hlow (k : Nat) (hk : hgBase n ≤ k) : k ≠ Reg.RV_LOCK_REVOKE ∧ k ≠ Reg.RV_STATUS := by
    unfold hgBase at hk
    unfold Reg.RV_LOCK_REVOKE Reg.RV_STATUS
    omega
  obtain ⟨l1, l2⟩ := hlow (Reg.HG_LEVEE n) (by unfold Reg.HG_LEVEE; omega)
  obtain ⟨d1, d2⟩ := hlow (Reg.HG_DOM_STATUS n) (by unfold Reg.HG_DOM_STATUS; omega)
  have hdue : dueHg s n = dueHg (revokeHg s n) n := by rw [dueHg_revokeHg, dueHg, if_pos hd]
  unfold treqPresent
  rw [revokeHg_getB s n _ _ l1 l2, revokeHg_getB s n _ _ d1 d2, hdue]
  rw [if_neg (by simp [h1, h2]), if_neg (by simp [h1, h2])]

variable (hd : (s.hgAt n).lock.due s.fclk = false)
include hd

theorem treqPresent_lost {e : Entry} (he : nextEntry? s n = some (e, .lost)) :
    treqPresent s n = settleTarget (answer s n e.id ocLockLost 0 []) n := by
  unfold treqPresent
  rw [if_neg (by simp [h1, h2]), dueHg, if_neg (by simp [hd])]
  simp only [he]
  rfl

theorem treqPresent_presents {e : Entry} {j : Judge} (he : nextEntry? s n = some (e, j)) (hj : j ≠ .lost)
    (hu : ¬(e.op = opUNLK ∧ e.pkt.hdr.bytes = 0x1FF)) (hw : e.noWrite = false) (hl : (s.hgAt n).portLive = true)
    (ha : (s.hgAt n).aclkEn = true) : treqPresent s n = settleTarget (presentEntry s n e) n := by
  unfold treqPresent
  rw [if_neg (by simp [h1, h2]), dueHg, if_neg (by simp [hd])]
  simp only [he]
  rw [if_neg hj, if_neg hu, if_neg (by simp [hw]), deliverOn_runs _ hl ha]

end Open

theorem treqPresent_none {s : State} {n : Nat} (hd : (s.hgAt n).lock.due s.fclk = false) (he : nextEntry? s n = none) :
    treqPresent s n = s := by
  unfold treqPresent
  split
  · rfl
  · rw [dueHg, if_neg (by simp [hd])]
    simp only [he]

/-- The owner's WRUL or UNLK waits at the manager already (R293). -/
def endsLock (h : Headgate) (e : Entry) : Bool :=
  h.entries.any (fun x => decide (x.master = e.master) && decide (x.phase = .waiting) && (decide (x.op = opWRUL) || decide (x.op = opUNLK)))

theorem endsLock_iff (h : Headgate) (e : Entry) : endsLock h e = true ↔
    ∃ x ∈ h.entries, (x.op = opWRUL ∨ x.op = opUNLK) ∧ x.phase = .waiting ∧ x.pkt.hdr.src = e.pkt.hdr.src ∧ x.pkt.hdr.ctx = e.pkt.hdr.ctx := by
  simp only [endsLock, List.any_eq_true, Bool.and_eq_true, Bool.or_eq_true, decide_eq_true_eq, Entry.master, Prod.mk.injEq,
    BitVec.toNat_inj]
  exact exists_congr fun x => ⟨fun ⟨hx, ⟨⟨hs, hc⟩, hp⟩, ho⟩ => ⟨hx, ho, hp, hs, hc⟩, fun ⟨hx, ho, hp, hs, hc⟩ => ⟨hx, ⟨⟨hs, hc⟩, hp⟩, ho⟩⟩

/-- The headgate after entry `e` is presented under `id`. -/
def presentedHg (s : State) (n : Nat) (e : Entry) (id : Nat) : Headgate :=
  let h := s.hgAt n
  let lock := decide (e.op = opRDLK) && s.getB (Reg.HG_CFG n) 1
  { h.updEntry e.id (fun x => { x with
      phase := .presented, treqId := some id, beatsLeft := (entryBeats e).length, presentedAt := some s.fclk
      broken := lock && h.lock.broken }) with
    out := treqOut e id
    lock := if lock then LockMgr.grant e.master (if endsLock h e then none else some (s.fclk + lockLimit s)) else h.lock
    twdata := if (entryBeats e).isEmpty then h.twdata else h.twdata ++ [(id, entryBeats e)] }

/-- An entry is presented under one of the free IDs (log entry 16). -/
theorem presentEntry_free {s : State} {n : Nat} (e : Entry) (hids : freeIds s n ≠ []) :
    ∃ id ∈ freeIds s n, presentEntry s n e = s.draw.2.setHg n (presentedHg s n e id) := by
  unfold presentEntry
  split
  · next h => exact absurd h hids
  · next hne =>
    have hlt : Config.idPick s.draw.1 % (freeIds s n).length < (freeIds s n).length := Nat.mod_lt _ (List.length_pos_iff.mpr hids)
    refine ⟨(freeIds s n)[Config.idPick s.draw.1 % (freeIds s n).length], List.getElem_mem hlt, ?_⟩
    simp only [List.getElem?_eq_getElem hlt, Option.getD_some]
    rfl

theorem presentedHg_entries (s : State) (n : Nat) (e : Entry) (id : Nat) :
    ∀ x ∈ (presentedHg s n e id).entries, x.id = e.id → x.phase = .presented ∧ x.treqId = some id ∧ x.presentedAt = some s.fclk := by
  intro x hx hid
  obtain ⟨y, -, rfl⟩ := List.mem_map.mp hx
  split at hid
  · next hy => rw [if_pos hy]; exact ⟨rfl, rfl, rfl⟩
  · next hy => exact absurd hid hy

/-- A request that takes no lock leaves the manager. -/
theorem presentedHg_lock_kept {s : State} {n : Nat} {e : Entry} (id : Nat) (h : ¬(e.op = opRDLK ∧ s.getB (Reg.HG_CFG n) 1 = true)) :
    (presentedHg s n e id).lock = (s.hgAt n).lock := if_neg (by simpa using h)

theorem presentedHg_lock_taken {s : State} {n : Nat} {e : Entry} (id : Nat) (ho : e.op = opRDLK) (hc : s.getB (Reg.HG_CFG n) 1 = true) :
    (presentedHg s n e id).lock = LockMgr.grant e.master (if endsLock (s.hgAt n) e then none else some (s.fclk + lockLimit s)) :=
  if_pos (by simp [ho, hc])

/-! ### TWDATA (R62, R64, R158) -/

/-- The headgate after the next write beat of the front request. -/
def twdataHg (h : Headgate) (id : Nat) (b : Beat) (bs : List Beat) (rest : List (Nat × List Beat)) : Headgate :=
  { h with
    out := .twdata b bs.isEmpty
    twdata := if bs.isEmpty then rest else (id, bs) :: rest
    entries := h.entries.map (fun e => if e.treqId = some id then { e with beatsLeft := e.beatsLeft - 1 } else e) }

theorem twdataBeat_runs {s : State} {n id : Nat} {b : Beat} {bs : List Beat} {rest : List (Nat × List Beat)}
    (h : (s.hgAt n).twdata = (id, b :: bs) :: rest) (hl : (s.hgAt n).portLive = true) (ha : (s.hgAt n).aclkEn = true) :
    twdataBeat s n = match (twdataHg (s.hgAt n) id b bs rest).entries.find? (fun e => decide (e.treqId = some id)) with
      | some e => if bs.isEmpty ∧ e.op = opWRP then settleTarget (freeEntry (s.setHg n (twdataHg (s.hgAt n) id b bs rest)) n e.id) n
          else s.setHg n (twdataHg (s.hgAt n) id b bs rest)
      | none => s.setHg n (twdataHg (s.hgAt n) id b bs rest) := by
  unfold twdataBeat
  simp only [h]
  rw [deliverOn_runs _ hl ha]
  rfl

/-! ### TRSP (R54, R65, R156, R302, Table 5-1) -/

theorem trspOutcome_bad {e : Entry} {oc : BitVec 4} {beats : List DBeat} (h : ¬(oc = ocOK ∨ oc = ocPoisoned))
    (hb : beats.any (·.poison) = false) (he : (entryBeats e).any (·.poison) = false) : trspOutcome e oc beats = ocAgentError := by
  have hne : ¬ ocAgentError = ocOK := by decide
  simp only [trspOutcome, hb, he, if_neg h]
  simp [hne]

/-- An outcome a target may not give is counted (R54, R65). -/
def badCounted (s : State) (n : Nat) (oc : BitVec 4) : State :=
  if oc = ocOK ∨ oc = ocPoisoned ∨ oc = ocAgentError then s else s.bump (Reg.HG_TRSP_BADOUT n) 1

/-- The owner's WRUL or UNLK releases the lock (Table 5-1). -/
def lockEnded (s : State) (n : Nat) (e : Entry) : State :=
  if (e.op = opWRUL ∨ e.op = opUNLK) ∧ (s.hgAt n).lock.owner = some e.master then
    s.updHg n (fun h => { h with lock := h.lock.release false }) else s

/-- What a response does before its answer. -/
def trspNoted (s : State) (n : Nat) (e : Entry) (oc : BitVec 4) : State := lockEnded (badCounted s n oc) n e

section Trsp
variable {s : State} {n : Nat} (hl : (s.hgAt n).portLive = true) (ha : (s.hgAt n).aclkEn = true)
include hl ha

theorem trspTake_late (id : Nat) (oc : BitVec 4) (beats : List DBeat) (hlv : s.getB (Reg.HG_LEVEE n) 0 = true) :
    trspTake s n id oc beats = (s.bump (Reg.HG_LEVEE_LATE n) 1).setHg n
      { s.hgAt n with staleIds := (s.hgAt n).staleIds.filter (fun i => decide (i ≠ id)) } := by
  unfold trspTake
  rw [if_neg (by simp [(haiRuns_iff s n).mpr ⟨hl, ha⟩]), if_pos hlv]
  simp only [State.updHg_eq, State.bump_eq, State.hgAt_setReg]

theorem trspTake_ends {id : Nat} (oc : BitVec 4) (beats : List DBeat) (hlv : s.getB (Reg.HG_LEVEE n) 0 = false) {e : Entry}
    (he : (s.hgAt n).entries.find? (fun e => decide (e.treqId = some id) && decide (e.phase = .presented)) = some e)
    (hop : e.op ≠ opWRP) (hroom : 1 + rspBeats e.op e.pkt.hdr.addr e.pkt.hdr.bytes ≤ openBlocks (s.hgAt n)) :
    trspTake s n id oc beats = settleTarget
      (if e.partDenied = true then answer (trspNoted s n e oc) n e.id ocDenied (e.bytes.toNat + 1) (maskRead e beats)
        else answer (trspNoted s n e oc) n e.id (trspOutcome e oc beats)
          (if e.op = opUNLK ∨ trspOutcome e oc beats = ocAgentError then 0 else e.bytes.toNat + 1) beats) n := by
  unfold trspTake
  rw [if_neg (by simp [(haiRuns_iff s n).mpr ⟨hl, ha⟩]), if_neg (by simp [hlv])]
  simp only [he]
  rw [if_neg (by rintro (h | h); exact hop h; omega)]
  rfl

end Trsp

theorem release_false (l : LockMgr) : l.release false = { owner := none, broken := l.broken, timer := none } := by
  simp [LockMgr.release]

theorem badCounted_hgAt (s : State) (n : Nat) (oc : BitVec 4) : (badCounted s n oc).hgAt n = s.hgAt n := by
  unfold badCounted
  split
  · rfl
  · rw [State.bump_eq, State.hgAt_setReg]

theorem lockEnded_regs (s : State) (n : Nat) (e : Entry) : (lockEnded s n e).regs = s.regs := by
  unfold lockEnded
  split <;> rfl

theorem trspNoted_lock (s : State) (n : Nat) (e : Entry) (oc : BitVec 4) : ((trspNoted s n e oc).hgAt n).lock =
    if (e.op = opWRUL ∨ e.op = opUNLK) ∧ (s.hgAt n).lock.owner = some (e.pkt.hdr.src.toNat, e.pkt.hdr.ctx) then
      { owner := none, broken := (s.hgAt n).lock.broken, timer := none } else (s.hgAt n).lock := by
  unfold trspNoted lockEnded
  simp only [badCounted_hgAt, Entry.master]
  split
  · rw [State.updHg_eq, State.hgAt_setHg_same, badCounted_hgAt]
    exact release_false _
  · rw [badCounted_hgAt]

theorem trspNoted_badout (s : State) (n : Nat) (e : Entry) (oc : BitVec 4) : ((trspNoted s n e oc).reg (Reg.HG_TRSP_BADOUT n)).toNat =
    if oc = ocOK ∨ oc = ocPoisoned ∨ oc = ocAgentError then (s.reg (Reg.HG_TRSP_BADOUT n)).toNat
    else min 0xFFFFFFFF ((s.reg (Reg.HG_TRSP_BADOUT n)).toNat + 1) := by
  rw [trspNoted, State.reg_of_regs (lockEnded_regs _ _ _), badCounted]
  split
  · rfl
  · exact State.toNat_bump _ _ _

theorem trspNoted_frame (s : State) (n : Nat) (e : Entry) (oc : BitVec 4) : sameExcept [.regs, .hg] s (trspNoted s n e oc) := by
  unfold trspNoted lockEnded badCounted
  repeat' split
  all_goals simp (disch := decide)

theorem trspNoted_hgsKept (s : State) (n : Nat) (e : Entry) (oc : BitVec 4) : hgsKept [n] s (trspNoted s n e oc) := by
  unfold trspNoted lockEnded badCounted
  repeat' split
  all_goals simp

/-- Settles O16: each channel by the branch of its operation; the count of bad outcomes outlasts the answer by `TargetKept`. -/
theorem targetSideMovesToTheAgent : Obligations.TargetSideMovesToTheAgent := by
  refine ⟨?_, ?_, ?_, ?_, ?_⟩
  · intro s n m rest hh hl ha hm
    rw [exec_msginTransfer s n hh]
    refine ⟨fun hlast => ⟨_, rfl, ?_⟩, fun hlast he => ⟨_, rfl, ?_⟩, fun id hlast he hroom => ?_, fun id hlast he hroom => ?_⟩
    · rw [msginBeat_goesOn hm hl ha hlast]
      exact ⟨msgShown_hgAt _ _ _ _ _, msgShown_frame _ _ _ _ _, msgShown_hgsKept _ _ _ _ _⟩
    · rw [msginBeat_guaranteed hm hl ha hlast he, State.hgAt_setHg_same]
      refine ⟨rfl, rfl, congrArg _ (Tab.get_set_same _ _ _ _), ?_, (hgsKept_setHg _ _ _ _).mpr (msgShown_hgsKept _ _ _ _ _)⟩
      simpa (disch := decide) using msgShown_frame s n m true rest
    · exact ⟨msgShown s n m true rest, _, rfl, msginBeat_message hm hl ha hlast he hroom, msgShown_hgAt _ _ _ _ _,
        msgShown_frame _ _ _ _ _, msgShown_hgsKept _ _ _ _ _⟩
    · rw [msginBeat_full hm hlast he hroom]
  · intro s n hh
    rw [exec_treqPresent s n hh]
    refine ⟨fun h => by rw [treqPresent_closed h], fun hd h1 h2 => ?_, fun hd he => by rw [treqPresent_none hd he], fun e j h1 h2 hd he =>
      ⟨fun hj => ?_, fun hj hu hw hl ha hids => ?_⟩⟩
    · rw [exec_treqPresent _ n hh, treqPresent_due h1 h2 hd]
    · subst hj
      rw [treqPresent_lost h1 h2 hd he]
    · obtain ⟨id, hid, hp⟩ := presentEntry_free e hids
      refine ⟨presentEntry s n e, _, rfl, treqPresent_presents h1 h2 hd he hj hu hw hl ha, ?_⟩
      rw [hp, State.hgAt_setHg_same]
      refine ⟨⟨id, hid, rfl, presentedHg_entries s n e id⟩, presentedHg_lock_kept id, fun ho hc => ?_, by simp (disch := decide), by simp⟩
      rw [presentedHg_lock_taken id ho hc]
      refine ⟨rfl, rfl, fun hno => ?_, fun hex => ?_⟩
      · have hends : endsLock (s.hgAt n) e = false := by
          rw [Bool.eq_false_iff]
          intro hends
          obtain ⟨x, hx, ho, hp, hm⟩ := (endsLock_iff _ _).mp hends
          exact hno x hx ho hp hm
        rw [hends]
        rfl
      · rw [(endsLock_iff _ _).mpr hex]
        rfl
  · intro s n id b bs rest hh hl ha hw
    refine ⟨s.setHg n (twdataHg (s.hgAt n) id b bs rest), _, exec_twdataTransfer s n hh, ?_⟩
    rw [twdataBeat_runs hw hl ha, State.hgAt_setHg_same]
    refine ⟨rfl, by simp [twdataHg], by simp (disch := decide), by simp, fun hbs => ?_, fun e hbs he => ?_⟩
    · split
      · exact if_neg (by simp [hbs])
      · rfl
    · subst hbs
      simp only [he, List.isEmpty_nil, true_and]
  · intro s n id oc beats hh hl ha hlv
    refine ⟨_, exec_trspReceived s n hh id oc beats, ?_⟩
    rw [trspTake_late hl ha id.toNat oc beats hlv]
    refine ⟨?_, State.hgAt_setHg_same _ _ _, by simp (disch := decide), by simp, ?_⟩
    · rw [State.reg_of_regs (State.setHg_regs _ _ _), State.toNat_bump]
    · exact (regsKept_setHg_iff _ _ _ _ _).mpr (regsKept_setReg _ _ (regsKept_refl _ _) (by simp))
  · intro s n id oc beats e hh hl ha hlv he hop hroom
    refine ⟨trspNoted s n e oc, _, exec_trspReceived s n hh id oc beats, trspTake_ends hl ha oc beats hlv he hop hroom,
      trspNoted_lock s n e oc, ?_, fun hoc hb hw => trspOutcome_bad hoc hb hw, trspNoted_frame s n e oc, trspNoted_hgsKept s n e oc⟩
    have hkept : TargetKept n (trspNoted s n e oc) (trspTake s n id.toNat oc beats) := by
      rw [trspTake_ends hl ha oc beats hlv he hop hroom]
      refine targetKept_settleTarget ?_
      split
      · exact targetKept_answer (targetKept_refl _ _) _ _ _ _
      · exact targetKept_answer (targetKept_refl _ _) _ _ _ _
    rw [badout_of_targetKept hkept, trspNoted_badout]

end Sys2Proof.Machine
end

section
/-! The fall and the rise of PORT_LIVE (R61, R66, R75 to R79, R161, R211, R346). -/

open Sys2Proof

namespace Sys2Proof.Machine

/-! ### Contexts in use -/

/-- The context has a record. -/
def inUse (h : Headgate) (c : Ctx) : Prop := ∃ e ∈ h.ctxs, e.1 = c.toNat

theorem exists_key_set {α : Type} (t : Tab α) (k : Nat) (v : α) : ∃ e ∈ Tab.set t k v, e.1 = k := by
  induction t with
  | nil => exact ⟨(k, v), by simp [Tab.set], rfl⟩
  | cons a rest ih =>
    obtain ⟨k', v'⟩ := a
    unfold Tab.set
    split
    · exact ⟨(k, v), by simp, rfl⟩
    · split
      · exact ⟨(k, v), by simp, rfl⟩
      · obtain ⟨e, he, hk⟩ := ih
        exact ⟨e, by simp [he], hk⟩

/-- A write drops no key. -/
theorem exists_key_set_of {α : Type} {t : Tab α} {j : Nat} (k : Nat) (v : α) (h : ∃ e ∈ t, e.1 = j) : ∃ e ∈ Tab.set t k v, e.1 = j := by
  by_cases hjk : j = k
  · exact hjk ▸ exists_key_set t k v
  · induction t with
    | nil => simp at h
    | cons a rest ih =>
      obtain ⟨k', v'⟩ := a
      unfold Tab.set
      split
      · obtain ⟨e, he, hk⟩ := h
        exact ⟨e, by simp [he], hk⟩
      · obtain ⟨e, he, hk⟩ := h
        rcases List.mem_cons.mp he with rfl | he
        · split
          · next hkk => exact absurd (hk.symm.trans hkk.symm) hjk
          · exact ⟨_, by simp, hk⟩
        · split
          · exact ⟨e, by simp [he], hk⟩
          · obtain ⟨e', he', hk'⟩ := ih ⟨e, he, hk⟩
            exact ⟨e', by simp [he'], hk'⟩

theorem Tab.get_of_key {α : Type} {t : Tab α} {k : Nat} (d : α) (f : α → α) (h : ∃ e ∈ t, e.1 = k) :
    Tab.get (t.map (fun x => (x.1, f x.2))) d k = f (Tab.get t d k) := by
  induction t with
  | nil => simp at h
  | cons a rest ih =>
    simp only [List.map_cons, Tab.get]
    split
    · rfl
    · next hne =>
      obtain ⟨e, he, hk⟩ := h
      exact ih ⟨e, (List.mem_cons.mp he).resolve_left (fun hea => hne (hea ▸ hk)), hk⟩

theorem Tab.key_of_get_ne {α : Type} {t : Tab α} {d : α} {k : Nat} (h : Tab.get t d k ≠ d) : ∃ e ∈ t, e.1 = k := by
  induction t with
  | nil => exact absurd rfl h
  | cons a rest ih =>
    unfold Tab.get at h
    split at h
    · next hk => exact ⟨a, by simp, hk⟩
    · obtain ⟨e, he, hk⟩ := ih h
      exact ⟨e, by simp [he], hk⟩

/-- The contexts of the requests `qs` put in use. -/
def openCtxs (qs : List PendReq) (h : Headgate) : Headgate := qs.foldl (fun h q => h.setCtx q.req.ctx (h.ctxAt q.req.ctx)) h

theorem openCtxs_inUse {qs : List PendReq} {h : Headgate} {c : Ctx} (hc : inUse h c ∨ ∃ q ∈ qs, q.req.ctx = c) : inUse (openCtxs qs h) c := by
  induction qs generalizing h with
  | nil => exact hc.resolve_right (by simp)
  | cons q qs ih =>
    refine ih ?_
    rcases hc with hc | ⟨x, hx, rfl⟩
    · exact .inl (exists_key_set_of _ _ hc)
    · rcases List.mem_cons.mp hx with rfl | hx
      · exact .inl (exists_key_set _ _ _)
      · exact .inr ⟨x, hx, rfl⟩

theorem openCtxs_eq (qs : List PendReq) (h : Headgate) : ∃ cs, openCtxs qs h = { h with ctxs := cs } := by
  induction qs generalizing h with
  | nil => exact ⟨_, rfl⟩
  | cons q qs ih =>
    obtain ⟨cs, hcs⟩ := ih (h.setCtx q.req.ctx (h.ctxAt q.req.ctx))
    exact ⟨cs, hcs⟩

/-! ### A request no longer held (R352) -/

theorem dropWakeLine_hgAt (n d : Nat) (s : State) : (dropWakeLine n d s).hgAt n = { s.hgAt n with wakeHeld := none } := by
  simp [dropWakeLine]

theorem dropWakeLine_hgsKept (n d : Nat) (s : State) : hgsKept [n] s (dropWakeLine n d s) := by
  simp [dropWakeLine]

/-- The counter of discarded beats is no register of a wake line. -/
theorem dropWakeLine_discard {n d : Nat} (s : State) (hd : d < 32) :
    (dropWakeLine n d s).reg (Reg.HG_HAI_DISCARD n) = s.reg (Reg.HG_HAI_DISCARD n) := by
  have h1 : Reg.HG_HAI_DISCARD n ≠ Reg.CK_DOM d := by unfold Reg.HG_HAI_DISCARD Reg.CK_DOM hgBase; omega
  have h2 : Reg.HG_HAI_DISCARD n ≠ Reg.HG_DOM_STATUS n := by unfold Reg.HG_HAI_DISCARD Reg.HG_DOM_STATUS; omega
  unfold dropWakeLine
  rw [State.setB_eq, State.reg_setReg_other _ _ _ _ h1, State.setB_eq, State.reg_setReg_other _ _ _ _ h2]
  rfl

theorem unhold_cases (s : State) (n : Nat) (q : PendReq) :
    unhold s n q = s ∨ ∃ ds, q.verdict = .held ds ∧ unhold s n q = forEach ds (dropWakeLine n) s := by
  unfold unhold
  split
  · next ds hds => exact .inr ⟨ds, hds, rfl⟩
  · exact .inl rfl

/-- Of its headgate a fall of wake lines changes the time it is held since alone. -/
structure Unheld (n : Nat) (s t : State) : Prop where
  own : ∃ w, t.hgAt n = { s.hgAt n with wakeHeld := w }
  others : hgsKept [n] s t

theorem unheld_refl (n : Nat) (s : State) : Unheld n s s := ⟨⟨_, rfl⟩, hgsKept_self _ _⟩

theorem unheld_trans {n : Nat} {s t u : State} (a : Unheld n s t) (b : Unheld n t u) : Unheld n s u := by
  obtain ⟨_, hv⟩ := a.own
  obtain ⟨w, hw⟩ := b.own
  exact ⟨⟨w, by rw [hw, hv]⟩, hgsKept_trans a.others b.others⟩

theorem unheld_forEach {α : Type} {n : Nat} (l : List α) (g : α → State → State) (h : ∀ x t, Unheld n t (g x t)) (s : State) :
    Unheld n s (forEach l g s) := by
  induction l generalizing s with
  | nil => exact unheld_refl _ _
  | cons x l ih => exact unheld_trans (h x s) (ih _)

theorem unheld_unhold (s : State) (n : Nat) (q : PendReq) : Unheld n s (unhold s n q) := by
  rcases unhold_cases s n q with h | ⟨ds, -, h⟩
  · rw [h]
    exact unheld_refl _ _
  · rw [h]
    exact unheld_forEach _ _ (fun d t => ⟨⟨_, dropWakeLine_hgAt n d t⟩, dropWakeLine_hgsKept n d t⟩) s

/-- A loop whose rounds keep a register keeps it. -/
theorem reg_forEach {α : Type} (o : Nat) (l : List α) (g : α → State → State) (h : ∀ x ∈ l, ∀ t, (g x t).reg o = t.reg o) (s : State) :
    (forEach l g s).reg o = s.reg o := by
  induction l generalizing s with
  | nil => rfl
  | cons x l ih => exact (ih (fun y hy => h y (by simp [hy])) _).trans (h x (by simp) s)

theorem unhold_discard (s : State) (n : Nat) {q : PendReq} (hq : ∀ ds, q.verdict = .held ds → ∀ d ∈ ds, d < 32) :
    (unhold s n q).reg (Reg.HG_HAI_DISCARD n) = s.reg (Reg.HG_HAI_DISCARD n) := by
  rcases unhold_cases s n q with h | ⟨ds, hds, h⟩
  · rw [h]
  · rw [h]
    exact reg_forEach _ _ _ (fun d hd t => dropWakeLine_discard t (hq ds hds d hd)) s

/-! ### The locks of the agent released (R161) -/

/-- The transactions all go to the siphon. -/
def allAbsorb (h : Headgate) : Prop := ∀ x ∈ h.txns, x.absorb = true

/-- What the release of locks leaves: of its headgate what follows from the UNLKs stored and sent, and contexts alone. -/
structure LocksReleased (n : Nat) (s t : State) : Prop where
  others : hgsKept [n] s t
  own : ∃ st ts tx id cs tk pu pt, t.hgAt n = { s.hgAt n with
    store := st, txns := ts, tx := tx, nextId := id, ctxs := cs, taken := tk, poolUsed := pu, passTurn := pt }
  absorbs : allAbsorb (s.hgAt n) → allAbsorb (t.hgAt n)
  reopening : ∀ c, ((t.hgAt n).ctxAt c).reopening = ((s.hgAt n).ctxAt c).reopening
  free : ∀ c, ((s.hgAt n).ctxAt c).lock = .free → ((t.hgAt n).ctxAt c).lock = .free
  discard : t.reg (Reg.HG_HAI_DISCARD n) = s.reg (Reg.HG_HAI_DISCARD n)

theorem locksReleased_refl (n : Nat) (s : State) : LocksReleased n s s :=
  ⟨hgsKept_self _ _, ⟨_, _, _, _, _, _, _, _, rfl⟩, id, fun _ => rfl, fun _ => id, rfl⟩

theorem locksReleased_trans {n : Nat} {s t u : State} (a : LocksReleased n s t) (b : LocksReleased n t u) : LocksReleased n s u := by
  refine ⟨hgsKept_trans a.others b.others, ?_, b.absorbs ∘ a.absorbs, fun c => (b.reopening c).trans (a.reopening c),
    fun c h => b.free c (a.free c h), b.discard.trans a.discard⟩
  obtain ⟨_, _, _, _, _, _, _, _, ha⟩ := a.own
  obtain ⟨st, ts, tx, id, cs, tk, pu, pt, hb⟩ := b.own
  exact ⟨st, ts, tx, id, cs, tk, pu, pt, by rw [hb, ha]⟩

theorem markBlocks_absorb {ts : List Txn} (id : Nat) (lo : Addr) (b : Nat) (h : ∀ x ∈ ts, x.absorb = true) :
    ∀ x ∈ markBlocks ts id lo b, x.absorb = true := by
  intro x hx
  obtain ⟨y, hy, rfl⟩ := List.mem_map.mp hx
  split
  · exact h y hy
  · exact h y hy

theorem routePkt_hg (s : State) (n : Nat) (p : Pkt) (r : Bool) : (routePkt s n p r).2.hg = s.hg := routePkt_frame s n p r .hg (by decide)

theorem routePkt_discard (s : State) (n : Nat) (p : Pkt) (r : Bool) :
    (routePkt s n p r).2.reg (Reg.HG_HAI_DISCARD n) = s.reg (Reg.HG_HAI_DISCARD n) :=
  State.reg_eq_of_getB fun i => (targetKept_routePkt (targetKept_refl n s) p r).bits _ i (.inr (.inl rfl))

theorem locksReleased_frame {n : Nat} {s t u : State} {ps : List Piece} (a : LocksReleased n s t) (hf : sameExcept ps t u)
    (hg : ps.contains .hg = false) (hr : ps.contains .regs = false) : LocksReleased n s u := by
  have hhg : u.hgAt n = t.hgAt n := by rw [State.hgAt, State.hgAt, hf .hg (by simpa using hg)]
  refine locksReleased_trans a ⟨hgsKept_of_frame _ hf hg, ⟨_, _, _, _, _, _, _, _, hhg⟩, ?_, ?_, ?_,
    State.reg_of_regs (hf .regs (by simpa using hr)) _⟩
  all_goals rw [hhg]
  · exact id
  · exact fun _ => rfl
  · exact fun _ => id

/-- A first injection is no change of contexts (R101). -/
theorem injectFirst_released (s : State) (n k : Nat) : LocksReleased n s (injectFirst s n k) := by
  unfold injectFirst
  split
  · exact locksReleased_refl _ _
  · next p hp =>
    dsimp only
    generalize hr : routePkt s n { p.pkt with hdr := { p.pkt.hdr with seq := ((s.hgAt n).txAt p.dst).next } } false = r
    have hhg : r.2.hgAt n = s.hgAt n := by rw [← hr, State.hgAt, State.hgAt, routePkt_hg]
    have hkept : hgsKept [n] s r.2 := hgsKept_of_hg _ (hr ▸ routePkt_hg _ _ _ _)
    have hdisc : r.2.reg (Reg.HG_HAI_DISCARD n) = s.reg (Reg.HG_HAI_DISCARD n) := hr ▸ routePkt_discard _ _ _ _
    have hsent (H : Headgate) (ho : ∃ st ts tx tk pu, H = { r.2.hgAt n with
        store := st, txns := ts, tx := tx, taken := tk, poolUsed := pu, passTurn := true } ∧
        (allAbsorb (r.2.hgAt n) → ∀ x ∈ ts, x.absorb = true)) : LocksReleased n s (r.2.setHg n H) := by
      rw [hhg] at ho
      obtain ⟨st, ts, tx, tk, pu, rfl, hab⟩ := ho
      refine ⟨(hgsKept_setHg _ _ _ _).mpr hkept, ⟨st, ts, tx, _, _, tk, pu, _, State.hgAt_setHg_same _ _ _⟩, ?_, ?_, ?_, hdisc⟩
      all_goals rw [State.hgAt_setHg_same]
      · exact hab
      · exact fun _ => rfl
      · exact fun _ => id
    have hlaunch (x : State) (q : Pkt) (hx : LocksReleased n s x) : LocksReleased n s (if p.lost then x else launchPkt x n q) := by
      split
      · exact hx
      · exact locksReleased_frame hx (launchPkt_frame _ _ _) (by decide) (by decide)
    refine hlaunch _ _ (hsent _ ⟨_, _, _, _, _, rfl, fun hall => ?_⟩)
    split
    · exact markBlocks_absorb _ _ _ hall
    · exact hall

/-- The lock of context `c` released: the UNLK stored ahead of the waiting packets, and its transaction for the siphon. -/
theorem unlockCtx_stored_released {n : Nat} {s : State} (c : Ctx) (st : StPkt) (t : Txn) (x : CtxSt) (k : Nat) (ht : t.absorb = true)
    (hx : x.lock = .free) (hre : x.reopening = ((s.hgAt n).ctxAt c).reopening) :
    LocksReleased n s (s.setHg n { ((s.hgAt n).setCtx c x) with
      store := st :: (s.hgAt n).store, txns := (s.hgAt n).txns ++ [t], nextId := k }) := by
  have hctx (d : Ctx) : ((s.hgAt n).setCtx c x).ctxAt d = if d = c then x else (s.hgAt n).ctxAt d := by
    split
    · next hc => rw [hc, Headgate.ctxAt_setCtx_same]
    · next hc => exact Headgate.ctxAt_setCtx_other _ _ hc
  refine ⟨by simp, ⟨_, _, _, _, _, _, _, _, State.hgAt_setHg_same _ _ _⟩, ?_, ?_, ?_, rfl⟩
  all_goals rw [State.hgAt_setHg_same]
  · intro hall y hy
    rcases List.mem_append.mp hy with hy | hy
    · exact hall y hy
    · exact List.mem_singleton.mp hy ▸ ht
  · intro d
    refine (congrArg CtxSt.reopening (hctx _)).trans ?_
    split
    · next hc => rw [hc, hre]
    · rfl
  · intro d hc
    refine (congrArg CtxSt.lock (hctx _)).trans ?_
    split
    · exact hx
    · exact hc

/-- A context's lock released leaves the others', and is free. -/
theorem unlockCtx_released (n c : Nat) (s : State) : LocksReleased n s (unlockCtx n c s) ∧
    (((unlockCtx n c s).hgAt n).ctxAt (BitVec.ofNat 6 c)).lock = .free := by
  unfold unlockCtx
  dsimp only
  split
  · next hfree => exact ⟨locksReleased_refl _ _, hfree⟩
  · have hinject (x : State) (hx : LocksReleased n s x) (hf : ((x.hgAt n).ctxAt (BitVec.ofNat 6 c)).lock = .free) :
        LocksReleased n s (if injectable x n 0 then injectFirst x n 0 else x) ∧
        (((if injectable x n 0 then injectFirst x n 0 else x).hgAt n).ctxAt (BitVec.ofNat 6 c)).lock = .free := by
      split
      · exact ⟨locksReleased_trans hx (injectFirst_released x n 0), (injectFirst_released x n 0).free _ hf⟩
      · exact ⟨hx, hf⟩
    refine hinject _ (unlockCtx_stored_released (BitVec.ofNat 6 c) _ _ _ _ ?_ ?_ ?_) ?_
    · rfl
    · rfl
    · rfl
    · rw [State.hgAt_setHg_same]
      exact congrArg CtxSt.lock (Headgate.ctxAt_setCtx_same _ _ _)

/-- Every context's lock released (R161). -/
theorem unlockAll_released (n : Nat) (s : State) : LocksReleased n s (forRange 64 (unlockCtx n) s) ∧
    ∀ c : Ctx, (((forRange 64 (unlockCtx n) s).hgAt n).ctxAt c).lock = .free := by
  have upTo (k : Nat) : LocksReleased n s (forRange k (unlockCtx n) s) ∧
      ∀ j < k, (((forRange k (unlockCtx n) s).hgAt n).ctxAt (BitVec.ofNat 6 j)).lock = .free := by
    induction k with
    | zero => exact ⟨locksReleased_refl _ _, fun j hj => absurd hj (Nat.not_lt_zero j)⟩
    | succ k ih =>
      obtain ⟨hall, hfree⟩ := ih
      obtain ⟨hstep, hk⟩ := unlockCtx_released n k (forRange k (unlockCtx n) s)
      rw [forRange_succ]
      refine ⟨locksReleased_trans hall hstep, fun j hj => ?_⟩
      rcases Nat.lt_succ_iff_lt_or_eq.mp hj with hj | rfl
      · exact hstep.free _ (hfree j hj)
      · exact hk
  refine ⟨(upTo 64).1, fun c => ?_⟩
  have := (upTo 64).2 c.toNat c.isLt
  rwa [BitVec.ofNat_toNat, BitVec.setWidth_eq] at this

/-! ### The initiator side after the fall (R66, R75) -/

/-- The beats of the requests that are not whole. -/
def lostBeats (h : Headgate) : Nat := sumBy (fun q => if q.whole then 0 else q.beats.length) h.reqs

/-- The headgate whose agent is reset: whole requests and transactions go to the siphon, contexts in use wait for them. -/
def resetHg (h : Headgate) : Headgate :=
  let g := openCtxs (h.reqs.filter (·.whole)) h
  { g with
    reqs := (h.reqs.filter (·.whole)).map (fun q => { q with absorb := true })
    txns := g.txns.map (fun t => { t with absorb := true, sent := 0 })
    ctxs := g.ctxs.map (fun x => (x.1, { x.2 with reopening := true }))
    acc := none, dead := none, cackWait := [] }

theorem resetInitiator_eq (s : State) (n : Nat) : resetInitiator s n = forRange 64 (unlockCtx n)
    (forEach ((s.hgAt n).reqs.filter (fun q => !q.whole)) (fun q t => unhold t n q)
      ((s.setHg n (resetHg (s.hgAt n))).bump (Reg.HG_HAI_DISCARD n) (lostBeats (s.hgAt n)))) := rfl

theorem resetHg_reopening {h : Headgate} {c : Ctx} (hc : h.ctxAt c ≠ CtxSt.reset ∨ ∃ q ∈ h.reqs, q.whole = true ∧ q.req.ctx = c) :
    ((resetHg h).ctxAt c).reopening = true := by
  have huse : inUse (openCtxs (h.reqs.filter (·.whole)) h) c := by
    refine openCtxs_inUse (hc.imp Tab.key_of_get_ne ?_)
    rintro ⟨q, hq, hw, rfl⟩
    exact ⟨q, List.mem_filter.mpr ⟨hq, hw⟩, rfl⟩
  exact congrArg CtxSt.reopening (Tab.get_of_key CtxSt.reset (fun x => { x with reopening := true }) huse)

/-- What the initiator side's reset leaves of the headgate. -/
structure InitiatorReset (n : Nat) (s t : State) : Prop where
  others : hgsKept [n] s t
  reqs : (t.hgAt n).reqs = ((s.hgAt n).reqs.filter (·.whole)).map (fun q => { q with absorb := true })
  txns : allAbsorb (t.hgAt n)
  gone : (t.hgAt n).acc = none ∧ (t.hgAt n).cackWait = []
  kept : (t.hgAt n).portLive = (s.hgAt n).portLive ∧ (t.hgAt n).liveFellAt = (s.hgAt n).liveFellAt ∧
    (t.hgAt n).twdata = (s.hgAt n).twdata ∧ (t.hgAt n).staleIds = (s.hgAt n).staleIds
  free : ∀ c, ((t.hgAt n).ctxAt c).lock = .free
  reopening : ∀ c, ((s.hgAt n).ctxAt c ≠ CtxSt.reset ∨ ∃ q ∈ (s.hgAt n).reqs, q.whole = true ∧ q.req.ctx = c) →
    ((t.hgAt n).ctxAt c).reopening = true
  discard : (∀ q ∈ (s.hgAt n).reqs, ∀ ds, q.verdict = .held ds → ∀ d ∈ ds, d < 32) →
    (t.reg (Reg.HG_HAI_DISCARD n)).toNat = min 0xFFFFFFFF ((s.reg (Reg.HG_HAI_DISCARD n)).toNat + lostBeats (s.hgAt n))

theorem resetHg_absorbs (h : Headgate) : allAbsorb (resetHg h) := by
  intro x hx
  obtain ⟨y, -, rfl⟩ := List.mem_map.mp hx
  rfl

theorem resetInitiator_spec (s : State) (n : Nat) : InitiatorReset n s (resetInitiator s n) := by
  rw [resetInitiator_eq]
  generalize hb : (s.setHg n (resetHg (s.hgAt n))).bump (Reg.HG_HAI_DISCARD n) (lostBeats (s.hgAt n)) = b
  have hbhg : b.hgAt n = resetHg (s.hgAt n) := by rw [← hb, State.bump_eq, State.hgAt_setReg, State.hgAt_setHg_same]
  have hbkept : hgsKept [n] s b := by rw [← hb]; simp
  have hbreg : (b.reg (Reg.HG_HAI_DISCARD n)).toNat =
      min 0xFFFFFFFF ((s.reg (Reg.HG_HAI_DISCARD n)).toNat + lostBeats (s.hgAt n)) := by
    rw [← hb, State.toNat_bump]
    rfl
  obtain ⟨⟨w, hw⟩, hukept⟩ := unheld_forEach ((s.hgAt n).reqs.filter (fun q => !q.whole)) (fun q t => unhold t n q)
    (fun q t => unheld_unhold t n q) b
  have hureg (hds : ∀ q ∈ (s.hgAt n).reqs, ∀ ds, q.verdict = .held ds → ∀ d ∈ ds, d < 32) :=
    reg_forEach (Reg.HG_HAI_DISCARD n) ((s.hgAt n).reqs.filter (fun q => !q.whole)) (fun q t => unhold t n q)
      (fun q hq t => unhold_discard t n (hds q (List.mem_filter.mp hq).1)) b
  generalize forEach ((s.hgAt n).reqs.filter (fun q => !q.whole)) (fun q t => unhold t n q) b = u at hw hukept hureg
  obtain ⟨⟨hokept, ⟨st, ts, tx, id, cs, tk, pu, pt, hown⟩, habs, hre, -, hdisc⟩, hfree⟩ := unlockAll_released n u
  obtain ⟨gs, hgs⟩ := openCtxs_eq ((s.hgAt n).reqs.filter (·.whole)) (s.hgAt n)
  have hreset : ∃ a b c, resetHg (s.hgAt n) = { s.hgAt n with
      reqs := ((s.hgAt n).reqs.filter (·.whole)).map (fun q => { q with absorb := true })
      txns := a, ctxs := b, acc := none, dead := c, cackWait := [] } := by
    unfold resetHg
    rw [hgs]
    exact ⟨_, _, _, rfl⟩
  obtain ⟨_, _, _, hreset⟩ := hreset
  have hall := hown
  rw [hw, hbhg, hreset] at hall
  refine ⟨hgsKept_trans hbkept (hgsKept_trans hukept hokept), by rw [hall], habs ?_, by rw [hall]; exact ⟨rfl, rfl⟩,
    by rw [hall]; exact ⟨rfl, rfl, rfl, rfl⟩, hfree, fun c hc => ?_, fun hds => ?_⟩
  · rw [hw, hbhg]
    exact resetHg_absorbs _
  · rw [hre, hw, hbhg]
    exact resetHg_reopening hc
  · rw [hdisc, hureg hds, hbreg]

/-! ### The target side after the fall (R66, R211) -/

theorem cutEntry_kept (n : Nat) (e : Entry) (s : State) : TargetKept n s (cutEntry n e s) := by
  have h := targetKept_refl n s
  unfold cutEntry
  split
  · exact h
  · split
    · exact targetKept_freeEntry (targetKept_alarm (targetKept_bump h 0x1F78 1 (by decide) (by decide) (by decide)) _ _ _ _) _
    · have hlock : TargetKept n s (if (e.op = opWRUL ∨ e.op = opUNLK) ∧ (s.hgAt n).lock.owner = some e.master then
          s.updHg n (fun h => { h with lock := h.lock.release false }) else s) := by
        split
        · exact targetKept_lock h _
        · exact h
      dsimp only
      split
      · exact targetKept_answer hlock _ _ _ _
      · exact targetKept_answer hlock _ _ _ _

theorem cutEntries_kept (n : Nat) (es : List Entry) (s : State) : TargetKept n s (forEach es (cutEntry n) s) := by
  induction es generalizing s with
  | nil => exact targetKept_refl n s
  | cons e es ih => exact targetKept_trans (cutEntry_kept n e s) (ih _)

/-- Guaranteed packets waiting for the agent go, and its messages start again. -/
theorem cutMsgin_eq (s : State) (n : Nat) : ∃ ch, cutMsgin s n = s.setHg n { s.hgAt n with
    chans := ch, msgin := ((s.hgAt n).msgin.filter (fun m => !m.gua)).map (fun m => { m with sent := 0 }) } := by
  have hfold (ms : List MsgIn) : ∀ h : Headgate, ∃ ch, ms.foldl (fun (h : Headgate) m =>
      if m.gua then h.setChan m.chanRec { h.chanAt m.chanRec with
        buffered := (h.chanAt m.chanRec).buffered - 1, drop := satAdd 16 (h.chanAt m.chanRec).drop 1 } else h) h = { h with chans := ch } := by
    induction ms with
    | nil => exact fun h => ⟨h.chans, rfl⟩
    | cons m ms ih =>
      intro h
      rw [List.foldl_cons]
      split
      · obtain ⟨ch, hch⟩ := ih (h.setChan m.chanRec { h.chanAt m.chanRec with
          buffered := (h.chanAt m.chanRec).buffered - 1, drop := satAdd 16 (h.chanAt m.chanRec).drop 1 })
        exact ⟨ch, hch⟩
      · exact ih h
  obtain ⟨ch, hch⟩ := hfold (s.hgAt n).msgin (s.hgAt n)
  exact ⟨ch, by unfold cutMsgin; dsimp only; rw [hch]⟩

/-- What the target side and the snoops leave of the headgate after the initiator side's reset. -/
def restKept (h h' : Headgate) : Prop := ∃ es ne oa rx ms lk st sn ch, h' = { h with
  entries := es, nextEntry := ne, overAllot := oa, rx := rx, msgin := ms, lock := lk, store := st, snoops := sn, chans := ch }

theorem restKept_trans {h h' h'' : Headgate} (a : restKept h h') (b : restKept h' h'') : restKept h h'' := by
  obtain ⟨_, _, _, _, _, _, _, _, _, rfl⟩ := a
  obtain ⟨_, _, _, _, _, _, _, _, _, rfl⟩ := b
  exact ⟨_, _, _, _, _, _, _, _, _, rfl⟩

theorem restKept_of_target {h h' : Headgate} (a : TargetOnly h h') : restKept h h' := by
  obtain ⟨_, _, _, _, _, _, _, rfl, -⟩ := a
  exact ⟨_, _, _, _, _, _, _, _, _, rfl⟩

/-- The target side and the snoops of a reset agent. -/
structure TargetReset (n : Nat) (s t : State) : Prop where
  others : hgsKept [n] s t
  rest : restKept (s.hgAt n) (t.hgAt n)
  snoops : ∀ q ∈ (t.hgAt n).snoops, q.presented = false
  msgin : ∀ m ∈ (t.hgAt n).msgin, m.gua = false ∧ m.sent = 0
  bits : ∀ o i, watched n o i → t.getB o i = s.getB o i

theorem targetReset (s : State) (n : Nat) (es : List Entry) :
    TargetReset n s (settleTarget (cutMsgin (answerSnoops (forEach es (cutEntry n) s) n) n) n) := by
  have hcut := cutEntries_kept n es s
  generalize forEach es (cutEntry n) s = a at hcut
  obtain ⟨⟨ps, qs, hans, -⟩, -, hsn⟩ := answerSnoops_answered a n
  have hakept : hgsKept [n] a (answerSnoops a n) := by simp
  have haregs := answerSnoops_regs a n
  generalize answerSnoops a n = b at hans hsn hakept haregs
  obtain ⟨ch, hm⟩ := cutMsgin_eq b n
  have hmhg : (cutMsgin b n).hgAt n = { b.hgAt n with
      chans := ch, msgin := ((b.hgAt n).msgin.filter (fun m => !m.gua)).map (fun m => { m with sent := 0 }) } := by
    rw [hm, State.hgAt_setHg_same]
  have hsettle := targetKept_settleTarget (targetKept_refl n (cutMsgin b n))
  obtain ⟨_, _, _, _, ms, _, _, hown, hms⟩ := hsettle.own
  refine ⟨?_, ?_, ?_, ?_, fun o i hw => ?_⟩
  · refine hgsKept_trans hcut.others (hgsKept_trans hakept (hgsKept_trans ?_ hsettle.others))
    rw [hm]
    simp
  · refine restKept_trans (restKept_of_target hcut.own) (restKept_trans ?_ (restKept_of_target hsettle.own))
    rw [hmhg, hans]
    exact ⟨_, _, _, _, _, _, _, _, _, rfl⟩
  · rw [hown, hmhg]
    exact hsn
  · intro m hmem
    rw [hown] at hmem
    rcases hms m hmem with hold | hnew
    · rw [hmhg] at hold
      obtain ⟨x, hx, rfl⟩ := List.mem_map.mp hold
      exact ⟨by simpa using (List.mem_filter.mp hx).2, rfl⟩
    · exact hnew
  · rw [hsettle.bits o i hw, hm, State.getB_setHg, State.getB, State.reg_of_regs haregs]
    exact hcut.bits o i hw

/-! ### The fall -/

/-- The headgate as its agent's PORT_LIVE has fallen. -/
def fellHg (h : Headgate) (now : Nat) : Headgate :=
  { h with portLive := false, liveFellAt := some now, out := .none, twdata := [], staleIds := []
           liveCycled := if h.liveCycled = 0 then 1 else h.liveCycled }

theorem liveFall_live {s : State} {n : Nat} (hl : (s.hgAt n).portLive = true) : liveFall s n =
    settleTarget (cutMsgin (answerSnoops (forEach (s.hgAt n).entries (cutEntry n)
      (setPwrAck (resetInitiator (s.setHg n (fellHg (s.hgAt n) s.fclk)) n) n false)) n) n) n := by
  unfold liveFall
  rw [if_neg (by simp [hl])]
  rfl

theorem setPwrAck_hgAt (s : State) (n : Nat) (b : Bool) : (setPwrAck s n b).hgAt n = { s.hgAt n with pwrAck := b } := by
  simp [setPwrAck]

theorem setPwrAck_bit (s : State) (n : Nat) (b : Bool) : (setPwrAck s n b).getB (Reg.HG_DOM_STATUS n) 4 = b :=
  State.getB_setB_same _ _ _ _ (by decide)

theorem setPwrAck_discard (s : State) (n : Nat) (b : Bool) :
    (setPwrAck s n b).reg (Reg.HG_HAI_DISCARD n) = s.reg (Reg.HG_HAI_DISCARD n) := by
  have hne : Reg.HG_HAI_DISCARD n ≠ Reg.HG_DOM_STATUS n := by unfold Reg.HG_HAI_DISCARD Reg.HG_DOM_STATUS; omega
  rw [setPwrAck, State.setB_eq, State.reg_setReg_other _ _ _ _ hne]
  rfl

/-! ### The rise (R76, R79, R81, R354) -/

/-- Every context of `cs` reopened that may be. -/
def reopenAll (cs : Tab CtxSt) (h : Headgate) : Headgate := cs.foldl (fun h x => reopenCtx h (BitVec.ofNat 6 x.1)) h

theorem reopenCtx_eq (h : Headgate) (c : Ctx) : ∃ cs, reopenCtx h c = { h with ctxs := cs } := by
  unfold reopenCtx
  split
  · exact ⟨_, rfl⟩
  · exact ⟨_, rfl⟩

theorem reopenAll_eq (cs : Tab CtxSt) (h : Headgate) : ∃ ct, reopenAll cs h = { h with ctxs := ct } := by
  induction cs generalizing h with
  | nil => exact ⟨_, rfl⟩
  | cons x cs ih =>
    obtain ⟨ct, hct⟩ := reopenCtx_eq h (BitVec.ofNat 6 x.1)
    obtain ⟨ct', hct'⟩ := ih (reopenCtx h (BitVec.ofNat 6 x.1))
    exact ⟨ct', hct'.trans (by rw [hct])⟩

/-- A context reopened, or never used. -/
def reopened (x : CtxSt) : Prop := x.tag = 0 ∧ x.reopening = false

/-- To reopen one context leaves another. -/
theorem reopenCtx_other (h : Headgate) {c d : Ctx} (hne : d ≠ c) : (reopenCtx h c).ctxAt d = h.ctxAt d := by
  unfold reopenCtx
  split
  · rfl
  · exact Headgate.ctxAt_setCtx_other _ _ hne

/-- A context without outcomes to absorb reopens as its record is reached, and stays so. -/
theorem reopenAll_reopens {c : Ctx} (cs : Tab CtxSt) : ∀ h : Headgate, (∀ u ∈ h.txns, u.req.ctx = c → u.absorb = false) →
    (∀ q ∈ h.reqs, q.req.ctx = c → q.absorb = false) → (reopened (h.ctxAt c) ∨ ∃ e ∈ cs, e.1 = c.toNat) →
    reopened ((reopenAll cs h).ctxAt c) := by
  induction cs with
  | nil => exact fun h _ _ hc => hc.resolve_right (by simp)
  | cons x cs ih =>
    intro h ht hr hc
    obtain ⟨ct, hct⟩ := reopenCtx_eq h (BitVec.ofNat 6 x.1)
    have hhere : BitVec.ofNat 6 x.1 = c → reopened ((reopenCtx h (BitVec.ofNat 6 x.1)).ctxAt c) := by
      rintro rfl
      rw [reopenCtx_reopens ht hr, Headgate.ctxAt_setCtx_same]
      exact ⟨rfl, rfl⟩
    refine ih (reopenCtx h (BitVec.ofNat 6 x.1)) (by rw [hct]; exact ht) (by rw [hct]; exact hr) ?_
    by_cases hx : BitVec.ofNat 6 x.1 = c
    · exact .inl (hhere hx)
    · rcases hc with hc | ⟨e, he, hk⟩
      · exact .inl (by rwa [reopenCtx_other h (Ne.symm hx)])
      · refine .inr ⟨e, (List.mem_cons.mp he).resolve_left fun hex => hx ?_, hk⟩
        rw [← hex, hk, BitVec.ofNat_toNat, BitVec.setWidth_eq]

/-- A context with an outcome to absorb stays. -/
theorem reopenAll_waits {c : Ctx} (cs : Tab CtxSt) : ∀ h : Headgate, (∃ u ∈ h.txns, u.req.ctx = c ∧ u.absorb = true) →
    (reopenAll cs h).ctxAt c = h.ctxAt c := by
  induction cs with
  | nil => exact fun _ _ => rfl
  | cons x cs ih =>
    intro h ht
    obtain ⟨ct, hct⟩ := reopenCtx_eq h (BitVec.ofNat 6 x.1)
    refine (ih (reopenCtx h (BitVec.ofNat 6 x.1)) (by rw [hct]; exact ht)).trans ?_
    by_cases hx : c = BitVec.ofNat 6 x.1
    · rw [reopenCtx_waits (hx ▸ ht)]
    · exact reopenCtx_other h hx

/-- The headgate as its agent's PORT_LIVE has risen, before the sidebands follow. -/
def roseHg (h : Headgate) : Headgate :=
  reopenAll h.ctxs { h with portLive := true, liveCycled := if h.liveCycled = 1 then 2 else h.liveCycled }

theorem roseHg_eq (h : Headgate) : ∃ cs, roseHg h = { h with
    portLive := true, liveCycled := (if h.liveCycled = 1 then 2 else h.liveCycled), ctxs := cs } := reopenAll_eq _ _

theorem roseHg_reopens {h : Headgate} {c : Ctx} (ht : ∀ u ∈ h.txns, u.req.ctx = c → u.absorb = false)
    (hr : ∀ q ∈ h.reqs, q.req.ctx = c → q.absorb = false) : reopened ((roseHg h).ctxAt c) := by
  refine reopenAll_reopens h.ctxs _ ht hr ?_
  by_cases hc : h.ctxAt c = CtxSt.reset
  · exact .inl (show reopened (h.ctxAt c) from hc ▸ ⟨rfl, rfl⟩)
  · exact .inr (Tab.key_of_get_ne hc)

/-- The state after the rise, before WAKE and PWR_REQ follow. -/
def roseState (s : State) (n : Nat) : State := (s.setHg n (roseHg (s.hgAt n))).setB (Reg.HG_DOM_STATUS n) 2 false

/-- The domain of `n` is quiescing. -/
def quiescing (s : State) (n : Nat) : Bool :=
  match domainOf s n with | some d => decide (s.getF (Reg.CK_DOM d) 1 3 = 3) | none => false

theorem liveRise_rises {s : State} {n : Nat} (hl : (s.hgAt n).portLive = false) : liveRise s n =
    (let t := if quiescing (roseState s n) n then roseState s n else setPwrReq (roseState s n) n false
     if (t.hgAt n).aclkEn then setWake t n false else t) := by
  unfold liveRise
  rw [if_neg (by simp [hl])]
  rfl

theorem quiescing_eq_false {s : State} {n : Nat}
    (h : s.getB (Reg.CK_HG_DOM n) 5 = false ∨ s.getF (Reg.CK_DOM (s.getF (Reg.CK_HG_DOM n) 0 5)) 1 3 ≠ 3) : quiescing s n = false := by
  unfold quiescing domainOf
  rcases h with h | h
  · rw [h]
    rfl
  · split
    · next d hd =>
      split at hd
      · exact decide_eq_false (Option.some.inj hd ▸ h)
      · cases hd
    · rfl

theorem roseState_getF_dom (s : State) (n d : Nat) (hd : d < 32) : (roseState s n).getF (Reg.CK_DOM d) 1 3 = s.getF (Reg.CK_DOM d) 1 3 := by
  rw [roseState, State.getF_setB_other _ _ _ _ _ _ _ (.inl (ckDom_ne_status d n hd)), State.getF_setHg]

theorem roseState_hgDom (s : State) {n : Nat} (hn : n < 160) : (roseState s n).reg (Reg.CK_HG_DOM n) = s.reg (Reg.CK_HG_DOM n) := by
  have hne : Reg.CK_HG_DOM n ≠ Reg.HG_DOM_STATUS n := by unfold Reg.CK_HG_DOM Reg.HG_DOM_STATUS hgBase; omega
  rw [roseState, State.setB_eq, State.reg_setReg_other _ _ _ _ hne]
  rfl

/-- What WAKE and PWR_REQ leave after the rise. -/
structure SidebandsLowered (n : Nat) (s t : State) : Prop where
  own : wakeOnly (s.hgAt n) (t.hgAt n)
  others : hgsKept [n] s t
  regs : regsKept [Reg.HG_DOM_STATUS n] s t
  shell : t.getB (Reg.HG_DOM_STATUS n) 2 = s.getB (Reg.HG_DOM_STATUS n) 2

theorem lowered_setWake (s : State) (n : Nat) (b : Bool) : SidebandsLowered n s (setWake s n b) :=
  ⟨(wakeKept_setWake s n b).1 n, by simp, setWake_regsKept s n b, setWake_getB_other _ _ _ _ _ (.inr (by decide))⟩

theorem lowered_setPwrReq (s : State) (n : Nat) (b : Bool) : SidebandsLowered n s (setPwrReq s n b) :=
  ⟨(wakeKept_setPwrReq s n b).1 n, by simp, setPwrReq_regsKept s n b, setPwrReq_getB_other _ _ _ _ _ (.inr (by decide))⟩

theorem lowered_refl (n : Nat) (s : State) : SidebandsLowered n s s := ⟨wakeOnly_refl _, hgsKept_self _ _, regsKept_refl _ _, rfl⟩

theorem lowered_trans {n : Nat} {s t u : State} (a : SidebandsLowered n s t) (b : SidebandsLowered n t u) : SidebandsLowered n s u :=
  ⟨wakeOnly_trans a.own b.own, hgsKept_trans a.others b.others, regsKept_trans a.regs b.regs, b.shell.trans a.shell⟩

/-- After the rise: the sidebands lowered, PWR_REQ but in a quiescing domain, WAKE where ACLK runs. -/
theorem liveRise_lowers {s : State} {n : Nat} (hl : (s.hgAt n).portLive = false) :
    SidebandsLowered n (roseState s n) (liveRise s n) ∧
    (quiescing (roseState s n) n = false → ((liveRise s n).hgAt n).pwrReq = false ∧ (liveRise s n).getB (Reg.HG_DOM_STATUS n) 3 = false) ∧
    (((roseState s n).hgAt n).aclkEn = true → ((liveRise s n).hgAt n).wake = false ∧ (liveRise s n).getB (Reg.HG_DOM_STATUS n) 5 = false) := by
  rw [liveRise_rises hl]
  generalize roseState s n = r
  have hpwr : SidebandsLowered n r (if quiescing r n then r else setPwrReq r n false) := by
    split
    · exact lowered_refl n r
    · exact lowered_setPwrReq r n false
  have hreq : quiescing r n = false → ((if quiescing r n then r else setPwrReq r n false).hgAt n).pwrReq = false ∧
      (if quiescing r n then r else setPwrReq r n false).getB (Reg.HG_DOM_STATUS n) 3 = false := by
    intro hq
    obtain ⟨w, hw⟩ := setPwrReq_hgAt r n false
    rw [hq, if_neg Bool.false_ne_true, hw]
    exact ⟨rfl, setPwrReq_bit r n false⟩
  generalize (if quiescing r n then r else setPwrReq r n false) = t at hpwr hreq
  have haclk : (t.hgAt n).aclkEn = (r.hgAt n).aclkEn := by
    obtain ⟨p, w, h⟩ := hpwr.own
    rw [h]
  dsimp only
  split
  · refine ⟨lowered_trans hpwr (lowered_setWake t n false), fun hq => ?_, fun _ => ?_⟩
    · rw [setWake_hgAt, setWake_getB_other _ _ _ _ _ (.inr (by decide))]
      exact hreq hq
    · rw [setWake_hgAt]
      exact ⟨rfl, setWake_bit t n false⟩
  · next hstop =>
    exact ⟨hpwr, hreq, fun ha => absurd (haclk.trans ha) hstop⟩

/-- Settles O18: the fall by what the initiator's and the target's reset leave, the rise by the contexts' reopening. -/
theorem agentRestartResetsTheInterface : Obligations.AgentRestartResetsTheInterface := by
  refine ⟨⟨?_, ?_⟩, ?_, ?_⟩
  · intro s n hh hl
    rw [exec_agentPortLiveFall s n hh, liveFall, if_pos (by simp [hl])]
  · intro s n hh hl
    refine ⟨_, exec_agentPortLiveFall s n hh, ?_⟩
    have hframe := liveFall_frame s n
    rw [liveFall_live hl] at hframe ⊢
    have hini := resetInitiator_spec (s.setHg n (fellHg (s.hgAt n) s.fclk)) n
    generalize resetInitiator (s.setHg n (fellHg (s.hgAt n) s.fclk)) n = i at hini hframe
    obtain ⟨hothers, hreqs, htxns, ⟨hacc, hcack⟩, ⟨hlive, hfell, htw, hstale⟩, hfree, hre, hdisc⟩ := hini
    rw [State.hgAt_setHg_same] at hreqs hlive hfell htw hstale hre hdisc
    have htgt := targetReset (setPwrAck i n false) n (s.hgAt n).entries
    generalize settleTarget _ n = t at htgt hframe
    obtain ⟨hothers', ⟨es, ne, oa, rx, ms, lk, st, sn, ch, hrest⟩, hsn, hms, hbits⟩ := htgt
    rw [setPwrAck_hgAt] at hrest
    refine ⟨by rw [hrest]; exact hlive, by rw [hrest]; exact hfell, ?_, by rw [hrest]; exact htxns, by rw [hrest]; exact htw,
      by rw [hrest]; exact hstale, hsn, by rw [hrest]; exact hcack, by rw [hrest]; exact hacc, by rw [hrest], ?_, hms, fun c => ?_,
      fun hds => ?_, hframe, ?_⟩
    · rw [hrest]
      intro q hq
      obtain ⟨x, hx, rfl⟩ := List.mem_map.mp (hreqs ▸ hq)
      exact ⟨rfl, (List.mem_filter.mp hx).2⟩
    · rw [hbits _ _ (.inr (.inr ⟨rfl, rfl⟩)), setPwrAck_bit]
    · rw [hrest]
      exact ⟨hfree c, hre c⟩
    · rw [State.reg_eq_of_getB fun j => hbits _ j (.inr (.inl rfl)), setPwrAck_discard]
      exact hdisc hds
    · have hack : hgsKept [n.val] i (setPwrAck i n false) := by simp [setPwrAck]
      exact hgsKept_trans ((hgsKept_setHg s s n _).mpr (hgsKept_self _ _)) (hgsKept_trans hothers (hgsKept_trans hack hothers'))
  · intro s n hh hl
    rw [exec_agentPortLiveRise s n hh, liveRise, if_pos hl]
  · intro s n hh hl
    obtain ⟨⟨⟨p, w, hown⟩, hothers, hregs, hshell⟩, hreq, hwake⟩ := liveRise_lowers hl
    have hrose : (roseState s n).hgAt n = roseHg (s.hgAt n) := by rw [roseState, State.setB_eq, State.hgAt_setReg, State.hgAt_setHg_same]
    obtain ⟨cs, hcs⟩ := roseHg_eq (s.hgAt n)
    have hctx (c : Ctx) : ((liveRise s n).hgAt n).ctxAt c = (roseHg (s.hgAt n)).ctxAt c := by
      rw [hown, hrose]
      rfl
    refine ⟨_, exec_agentPortLiveRise s n hh, by rw [hown, hrose, hcs], ?_, fun c ht hr => ?_, fun c ht => ?_, fun hq => hreq ?_,
      fun ha => hwake ?_, liveRise_frame s n, ?_, ?_⟩
    · rw [hshell, roseState, State.getB_setB_same _ _ _ _ (by decide)]
    · rw [hctx]
      exact roseHg_reopens ht hr
    · rw [hctx]
      exact reopenAll_waits (s.hgAt n).ctxs _ ht
    · have hreg := roseState_hgDom s n.isLt
      have hmember : (roseState s n).getB (Reg.CK_HG_DOM n) 5 = s.getB (Reg.CK_HG_DOM n) 5 := congrArg (bit · 5) hreg
      have hdom : (roseState s n).getF (Reg.CK_HG_DOM n) 0 5 = s.getF (Reg.CK_HG_DOM n) 0 5 := congrArg (field · 0 5) hreg
      refine quiescing_eq_false ?_
      rw [hmember, hdom, roseState_getF_dom s n _ (field_lt _ _ _)]
      exact hq
    · rw [hrose, hcs]
      exact ha
    · exact hgsKept_trans (by simp [roseState]) hothers
    · refine regsKept_trans ?_ hregs
      exact regsKept_setReg _ _ ((regsKept_setHg_iff _ _ _ _ _).mpr (regsKept_refl _ _)) (by simp)

end Sys2Proof.Machine
end

section
/-! The end of a sleep in a state whose held requests name a number that is no domain. -/

open Sys2Proof

namespace Sys2Proof.Machine

/-- A request held for the domains `ds`. -/
def heldFence (ds : List Nat) (absorb : Bool) : PendReq :=
  { req := { op := opFENCE, ctx := 0, addr := 0, bytes := 0, aop := 0, secret := false }
    beats := [], need := 0, whole := true, verdict := .held ds, parts := [], absorb := absorb }

/-- A number that names no domain: CK_DOM at this place of its array is HG_DOM_CLOSE of headgate 0. -/
def strayDomain : Nat := 254388

/-- Domain 5 quiesces; headgate 1 holds a request for it and for the stray number, headgate 2 one for the stray number alone. -/
def strayState : State :=
  ((State.reset.setF (Reg.CK_DOM 5) 1 3 3).setHg 1 { Headgate.reset with reqs := [heldFence [5, strayDomain] true] }).setHg 2
    { Headgate.reset with wakeHeld := some 0, reqs := [heldFence [strayDomain] false] }

theorem strayState_quiesces : strayState.getF (Reg.CK_DOM 5) 1 3 = 3 := by decide

/-- Headgate 0 has opened toward domain 5 when headgate 1 accepts its request; the fall of that request's wake line then writes
WAKE_PEND of the stray number, bit 5 of HG_DOM_CLOSE of headgate 0, which headgate 2 keeps set. -/
theorem strayState_closed : (ackExpire strayState 5).getB (Reg.HG_DOM_CLOSE 0) 5 = true := by decide +kernel

/-- Refutes O19: R351's clause that every headgate is open toward the domain after ACK_LIMIT is claimed of every state, those whose
held requests list numbers beyond the 32 domains included (the WAKE_LIMIT clause excludes them by `d < 32`, this one does not);
in `strayState` the wake line of such a number closes headgate 0 again. -/
theorem not_domainSidebandsAndLimits : ¬ Obligations.DomainSidebandsAndLimits := by
  rintro ⟨-, hlimit, -⟩
  obtain ⟨t, ht, -, -, -, hopen, -⟩ := (hlimit strayState 5).2 strayState_quiesces
  obtain rfl : ackExpire strayState 5 = t := Host.Outcome.next.inj ht
  exact absurd (strayState_closed.symm.trans (hopen 0)) (by decide)

end Sys2Proof.Machine
end
